-- ==== Sys2Proof/Word.lean ====
section
/-! DEFINITION. The word types of the Halard (spec 00 R5 to R8) and the plain data that messages between its units carry. -/

namespace Sys2Proof

/-- Eight bits, the smallest addressable unit (00 R7). -/
abbrev Byte := BitVec 8
/-- A general register, an extension register or a doubleword (02 R36). -/
abbrev Word := BitVec 64
/-- A 3-bit register field: w0 to w7, or the file its instruction names (06 R135). -/
abbrev Reg := BitVec 3

/-- A map from numbers, kept as a list with strictly rising keys. -/
abbrev FMap (α : Type) := List (Nat × α)

/-- The operation of an atomic (08 R200). -/
inductive AtomOp where
  | add | and | or | xor | minS | maxS | swp | cas | fadd | minZ | maxZ
deriving DecidableEq, Repr

/-- What a memory request does at its perform point (05 Table 5-2). -/
inductive ReqKind where
  /-- A load of `size` bytes, sign-extended or not. -/
  | load
  /-- A store of `size` bytes. -/
  | store
  /-- `ld.n`: the low or high nibble of a byte. -/
  | nibLoad (high : Bool)
  /-- `st.n`: one nibble of a byte. -/
  | nibStore (high : Bool)
  /-- `stv`: a store that answers with the issuing die's gtime. -/
  | storeTs
  /-- A stream read of `n` bits from bit `pos` on (07 R184), the first `first` bytes at the request's address and the
  others, on another page, at the address in its data. -/
  | stream (pos n first : Nat)
deriving DecidableEq, Repr

/-- A memory request on its way to its perform point: a global access names a physical address, a core-store
access the 29-bit location of 02 R37. -/
structure Req where
  /-- The context that issued it (physical address of its line). -/
  ctx : Nat
  /-- The core on which it issued. -/
  core : Nat
  kind : ReqKind
  addr : Nat
  /-- Bytes: 1, 2, 4, 8 or 16. -/
  size : Nat
  /-- Store data, little-endian. -/
  data : Nat := 0
  /-- Destination: 0-7 for w, 8-11 for e (02 Table 2-2). -/
  reg : Nat := 0
  /-- The epoch bit the fill is tagged with (02 R42). -/
  tag : Bool := false
  /-- The epoch bit of the second register of a `.q` load. -/
  tag2 : Bool := false
  signed : Bool := false
  /-- The effective address, for traps. -/
  info : Word := 0
  /-- Scope code of 06 Table 6-3. -/
  scope : Nat := 0
  /-- Whether the request is an acquire (loads) or a release (stores). -/
  ordered : Bool := false
  /-- Transaction id of a non-idempotent request that crossed a link (16 R376). -/
  tx : Option Nat := none
  /-- Region-table version under which the home was chosen, and 16 x (1 + that home); 0 before it is sent (15 R365). -/
  ver : Nat := 0
deriving DecidableEq, Repr

/-- An engine command as it travels to its Juggler (09 R231, R232). -/
structure Cmd where
  ctx : Nat
  core : Nat
  /-- The cluster whose Juggler takes it (09 R233). -/
  cluster : Nat
  /-- Block key of the issuing thread. -/
  blk : Nat
  /-- X-format op (06 Table 6-6), 0x80 for `tset`, 0x81 for `tfree`, 0x82 for `tget`. -/
  op : Nat
  /-- The mod bits [24:18]. -/
  mods : Nat
  j : Bool
  f : Bool
  /-- W[a] and W[b] whole; for `tget` the second is its destination + 8 x the tag its fill will carry. -/
  wa : Word
  wb : Word
  e0 : Word
  e1 : Word
  e2 : Word
  e3 : Word
  /-- The pending fmt value, if one was pending. -/
  pfx : Option (BitVec 13)
  priv : Nat
  /-- The command's encoding, for its trap. -/
  enc : BitVec 32
  pc : Nat
deriving DecidableEq, Repr

/-- A unit that can hold a context line (14 Table 14-2). -/
inductive Holder where
  | core (c : Nat)
  | shadow (die : Nat)
  | l2 (cluster : Nat)
  | memory
deriving DecidableEq, Repr

/-- Where a request to the home of a line comes from: the unit that sends it, and 16 x (home + 1) + the version of the region registers
under which it names its home (15 R365), 0 where it names none. -/
structure Sender where
  unit : Nat
  ver : Nat
deriving DecidableEq, Repr

/-- An event message of the external time (16 R384): a one-step message says by itself how far the grandmaster is ahead of that time, or
behind it; a two-step one with its follow-up. -/
inductive PtpMessage where
  | oneStep (ahead : Bool)
  | twoStep
  | followUp (ahead : Bool)
deriving DecidableEq, Repr

/-- What a context instruction does to a line (13 R322 to R329). -/
inductive CtxOp where
  | ld (i : Nat)
  | st (i : Nat) (v : Word)
  | ready
  | evict (toMem : Bool)
  | park
  | kill
  | stop
deriving DecidableEq, Repr

/-- A part of an instruction that another unit carries out for it, as it travels there (01 R19, R20). No row of the opcode table is
one: the row is the instruction's. -/
inductive Errand where
  /-- A context instruction on its way to the unit that holds its line (14 R333, R334): what it does, the line, its number in order of
  issue, its issuer's privilege, and the issuing context with the register that takes the status. -/
  | line (op : CtxOp) (line no priv ctx reg : Nat) (tag : Bool) (unit : Holder)
  /-- The home's request to the holder of a line that it sends the line to another unit (14 R334, step 2). -/
  | fetch (line : Nat) (dst : Holder)
  /-- A `bmode` on its way to its cluster (13 R327). -/
  | bank (cluster bank mode ctx reg : Nat) (tag : Bool) (core part : Nat)
  /-- A `tlbi` on its way to another die of its instance (13 R326): partition, kind, half, first page and count of what is named. -/
  | invalidate (die part kind : Nat) (hi : Bool) (page count ctx id : Nat)
  /-- A `slot.park` or `slot.free` on its way to a core of another die (13 R328). -/
  | slot (core slot : Nat) (park : Bool) (ctx id : Nat)
  /-- A `tinfo` on its way to the cluster that its handle names (09 R228). -/
  | look (cluster blk : Nat) (handle : Word) (ctx id : Nat)
  /-- The test of a `jc.wait` on its way to the counter's core (08 R209); `first` is clear for one that waits already. -/
  | join (loc thr ctx id : Nat) (first : Bool)
  /-- The answer of another unit to the instruction that a context idles on. -/
  | answer (ctx id data : Nat) (unit : Holder)
  /-- The answer that a `jc.wait` waits: with `poll` the list was full, and it tests again in 1 us (02 R53). -/
  | waits (ctx id loc thr : Nat) (poll : Bool) (unit : Holder)
  /-- A part of a record of a die or a unit, as a posted store on its way to the home of its bytes (19 R414, R422): the die, what it is
  of (0 a replay log, 1 the debug event log, 2 the PC-table spill ring, 3 the link-counter snapshots), its number, and the partition
  whose notification word follows it. -/
  | record (die kind no pa : Nat) (data : List Byte) (tell : Option Nat)
  /-- An access of the host at the home of its address, as the X-die sends it there (01 R20, 20 R427). -/
  | host (wr : Bool) (addr size data : Nat)
  /-- From outside: bits of a storage cell change (17 R390): the structure of Table 17-1, the place, and the class of the error. -/
  | cellError (struct place kind : Nat)
deriving DecidableEq, Repr

/-- A step that a message, a timer or the world outside has made due: the rows of the opcode table that no encoding
names, each with what the message carries. `Ev.toInstr` (Step.lean) gives the row's constructor of Instr. It stands
apart from Instr because messages lie in the state, and some carry other messages. -/
inductive Ev where
  | errand (x : Errand)
  /-- `wake` is the kind of wait that the fill ends, 0 for none; with 16 the value is the issuing die's gtime on arrival
  at the issuing core (05 R125). -/
  | registerFill (ctx reg : Nat) (tag : Bool) (val : Word) (poison : Bool) (info : Word) (unit : Holder) (wake : Nat)
  | idleContextReplace (core slot : Nat)
  | quantumExpiry (core slot : Nat)
  | agingPromotion (ctx : Nat)
  | launchAccept (part : Nat) (desc : Word) (ctx reg : Nat) (tag : Bool) (priv : Nat) (res : Word)
  | blockStart (launch : Nat)
  | launchCompletion (launch : Nat)
  | semVExecute (loc ctx scope : Nat) (tx : Option Nat)
  | semPExecute (loc ctx scope : Nat) (tx : Option Nat)
  | semPResend (ctx : Nat)
  | jcUpdate (loc : Nat) (addend : Word) (flt : Nat) (ctx : Nat) (tx : Option Nat)
  | chunkInitRequest (cluster c n p m core : Nat)
  | chunkRequest (cluster c ctx reg : Nat) (tag : Bool) (core : Nat)
  | spawnPoolRequest (blk ctx reg : Nat) (tag : Bool) (entry arg : Word) (jc : Option Nat) (unit : Nat)
  | wakeupApply (ctx kind : Nat) (arg : BitVec 60) (acq : Bool) (unit : Holder)
  | coreStoreAccess (r : Req)
  | storeVisible (r : Req)
  | nibbleStoreExecute (r : Req)
  | atomicExecute (op : AtomOp) (posted inCore : Bool) (cmp : Word) (r : Req)
  | fenceTokenArrival (die link round : Nat)
  | fenceEchoArrival (die link round : Nat)
  | postedTokenRound (die link : Nat)
  | heldReleaseSend (idx : Nat)
  | barrierSignal (core n : Nat) (column : Bool)
  | barrierRelease (core n : Nat)
  | barrierTimeout (core n : Nat)
  | barrierAbort (core n : Nat) (mask : Word)
  | ksendAccumulate (loc : Nat) (fp : Bool) (val : BitVec 32) (ctx : Nat) (tx : Option Nat)
  | commandAccept (c : Cmd)
  | commandRetry (ctx : Nat)
  | commandReply (ctx : Nat) (op : Nat) (kind : Nat) (cause : Nat) (info : Word) (reg : Nat)
  | tallocServe (cluster ctx reg : Nat) (tag : Bool) (blk : Nat) (desc : Word) (unit : Nat)
  | taskAdmit (cluster : Nat)
  | mmaFragmentDone (cluster task : Nat)
  | streamerPartStart (cluster task part : Nat)
  | streamerPush (cluster task part : Nat)
  | streamerPartDone (cluster task part : Nat)
  | taskComplete (cluster task : Nat)
  | cmdsDecrement (ctx : Nat) (flt : Option Word) (unit : Holder)
  | traceReport (blk patch : Nat) (wr : Bool) (icause pc : Nat)
  | blockRecordWrite (blk : Nat)
  | generationBroadcast (set unit gen : Nat)
  | generationAdvanceDone (set : Nat)
  | restampRequest (set line : Nat) (from_ : Sender)
  | relaunchAccept (part : Nat) (region comp : Word) (ctx reg : Nat) (tag : Bool) (priv : Nat) (repair : Bool) (res : Word)
  | relaunchComplete (launch : Nat)
  | watchArm (inCore : Bool) (addr : Nat) (expected : Word) (ctx reg : Nat) (tag : Bool) (timeout : Nat) (from_ : Sender)
  | watchTimeout (ctx : Nat)
  | watchCancel (ctx : Nat)
  | timeDeadline (ctx : Nat)
  | contextClaim (core ctx : Nat)
  | contextLineArrival (ctx : Nat) (dst : Holder)
  | contextTransferAck (ctx : Nat)
  | messageReturn (ctx : Nat) (msg : Ev)
  | carouselRingClaim (core : Nat)
  | ringPost (ctx : Nat)
  | ringPostRetry (ctx : Nat)
  | ringmasterSteal (cluster part : Nat)
  | preemptRequest (die part : Nat)
  | preemptResume (die part : Nat)
  | partitionSwap (die old new : Nat)
  | walkComplete (die : Nat) (page : Nat)
  | walkQueueRetry (die : Nat)
  | regionMigrationStart (set region : Nat) (entry : Word)
  | migrationLineMove (set : Nat)
  | homeNackRetry (msg : Ev)
  | bankDrainDone (cluster bank : Nat)
  | bankNackRetry (msg : Ev)
  | flitReceive (die link : Nat)
  | linkNak (die link seq : Nat)
  | linkAck (die link seq : Nat)
  | replayTimeout (die link : Nat)
  | laneFaultReport (die link lower upper : Nat)
  | linkRetrainDone (die link : Nat)
  | classAgePromotion (die link cls : Nat)
  | homeReadRequest (r : Req)
  | ownershipRequest (line : Nat) (from_ : Sender)
  | ownershipGrant (line cluster : Nat)
  | dieRecall (line die : Nat) (keep : Bool)
  | writeBackArrival (line die sectors : Nat)
  | calliopeExchange (die : Nat)
  | calliopeResult (die : Nat) (t1 t2 t3 t4 : Nat)
  | exchangeMissing (die : Nat)
  | ptpEventMessage (msg : PtpMessage) (ticks : Nat)
  | heartbeatTimeout (die : Nat)
  | dieFailureBroadcast (die failed : Nat)
  | homeFailureProcess (mdie failed : Nat)
  | scrubRead (mdie sector err : Nat)
  | scrubWrite (mdie sector seq : Nat)
  | contextLoss (ctx : Nat)
  | rasPop (die : Nat)
  | mcheckClear (core : Nat) (val : Word)
  | handlerInstall (core : Nat) (lvlM : Bool) (cva : Word)
  | lnkRetrainForce (die link : Nat)
  | lnkInject (die link : Nat)
  | dlogBaseWrite (die : Nat) (val : Word)
  | linkCounterSnapshot (die : Nat)
  | pcSample (core : Nat)
  | pctDisableSpill (part : Nat)
  | rplCtlWrite (part : Nat) (val : Word)
  | replayDivergence (unit loc : Nat)
  | operatingPointChange (die mhz : Nat)
  | pwrCapWrite (die : Nat) (val : Word)
  | packageReset
  | bootStepAdvance
  | dieReset (die : Nat)
  | hostAccess (wr : Bool) (addr size data : Nat)
  | scaleUpAccess (peer : Nat) (wr : Bool) (addr size data : Nat)
  | portLaunch (part : Nat) (arg0 arg1 res : Word)
  | portRelaunch (part : Nat) (arg0 arg1 res : Word)
  | portRepair (part : Nat) (arg0 arg1 res : Word)
  | setmode (mode res : Word)
  | create (set share res : Word)
  | destroy (set idx res : Word)
  | swap (set idx res : Word)
  | slice (set us res : Word)
  | preempt (set res : Word)
  | resume (set res : Word)
  | attest (nonce buf res : Word)
  | timeSliceExpiry (set : Nat)
  | jcWaitRepoll (ctx : Nat)
  | flitSend (die link : Nat)
  | unrecoverableFaultReport (die : Nat)
  | launchPortWriteRefused (part : Nat)
  | mailboxWriteRefused (part : Nat)
deriving DecidableEq, Repr

end Sys2Proof
end

