-- ==== Sys2Proof/Syntax.lean ====
section
/-! DEFINITION. The operations of the Halard: one constructor per row of spec/opcode_table.json. An encoded
instruction carries the fields of its encoding (06 R134 to R148) under the table's letters: a, b register fields and d, t
destinations; h, g, f the policy bits of a, b and t (06 R135); w the .w form; z unsigned; i an immediate; k an offset or
mask byte; p or n a predicate bit; c a condition or count; s a scope, size or selector; for an atomic e is size D, o the order and s the scope (06 Table 6-7); l a lane or level.
An event of another agent (no encoding) carries what the message or timer that starts it names. -/

namespace Sys2Proof

/-- One whole, indivisible step of the machine (spec 95). -/
inductive Instr where
  /-- ADD (R165): Writes the sum of W[a] and W[b] at 64 or 32 bits. -/
  | add (w : Bool) (g : Bool) (b : Reg) (h : Bool) (a : Reg) (d : Reg)
  /-- SUB (R165): Writes W[a] minus W[b]. -/
  | sub (w : Bool) (g : Bool) (b : Reg) (h : Bool) (a : Reg) (d : Reg)
  /-- MUL (R165): Writes the low bits of the product. -/
  | mul (w : Bool) (g : Bool) (b : Reg) (h : Bool) (a : Reg) (d : Reg)
  /-- MULH (R165): Writes the high half of the exact product, signed or unsigned. -/
  | mulh (z : Bool) (w : Bool) (g : Bool) (b : Reg) (h : Bool) (a : Reg) (d : Reg)
  /-- DIV (R77): Long integer quotient with defined divide-by-zero and overflow results. -/
  | div (z : Bool) (w : Bool) (g : Bool) (b : Reg) (h : Bool) (a : Reg) (d : Reg)
  /-- REM (R77): Long integer remainder taking the sign of the dividend. -/
  | rem (z : Bool) (w : Bool) (g : Bool) (b : Reg) (h : Bool) (a : Reg) (d : Reg)
  /-- AND (R165): Bitwise and. -/
  | and (w : Bool) (g : Bool) (b : Reg) (h : Bool) (a : Reg) (d : Reg)
  /-- OR (R165): Bitwise or. -/
  | or (w : Bool) (g : Bool) (b : Reg) (h : Bool) (a : Reg) (d : Reg)
  /-- XOR (R165): Bitwise exclusive or. -/
  | xor (w : Bool) (g : Bool) (b : Reg) (h : Bool) (a : Reg) (d : Reg)
  /-- ANDN (R165): W[a] and not W[b]. -/
  | andn (w : Bool) (g : Bool) (b : Reg) (h : Bool) (a : Reg) (d : Reg)
  /-- ORN (R165): W[a] or not W[b]. -/
  | orn (w : Bool) (g : Bool) (b : Reg) (h : Bool) (a : Reg) (d : Reg)
  /-- SHL (R76): Shift left by the low byte of W[b]. -/
  | shl (w : Bool) (g : Bool) (b : Reg) (h : Bool) (a : Reg) (d : Reg)
  /-- SHR (R76): Logical shift right. -/
  | shr (w : Bool) (g : Bool) (b : Reg) (h : Bool) (a : Reg) (d : Reg)
  /-- SAR (R76): Arithmetic shift right. -/
  | sar (w : Bool) (g : Bool) (b : Reg) (h : Bool) (a : Reg) (d : Reg)
  /-- ROL (R76): Rotate left. -/
  | rol (w : Bool) (g : Bool) (b : Reg) (h : Bool) (a : Reg) (d : Reg)
  /-- ROR (R76): Rotate right. -/
  | ror (w : Bool) (g : Bool) (b : Reg) (h : Bool) (a : Reg) (d : Reg)
  /-- CLZ (R165): Counts leading zero bits. -/
  | clz (w : Bool) (h : Bool) (a : Reg) (d : Reg)
  /-- CTZ (R165): Counts trailing zero bits. -/
  | ctz (w : Bool) (h : Bool) (a : Reg) (d : Reg)
  /-- POPC (R165): Counts one bits. -/
  | popc (w : Bool) (h : Bool) (a : Reg) (d : Reg)
  /-- BEXT (R166): Extracts a signed or unsigned bit field. -/
  | bext (z : Bool) (w : Bool) (g : Bool) (b : Reg) (h : Bool) (a : Reg) (d : Reg)
  /-- BINS (R166): Inserts a bit field into W[d]. -/
  | bins (w : Bool) (g : Bool) (b : Reg) (h : Bool) (a : Reg) (d : Reg)
  /-- SEXT (R165): Sign-extends from byte, half or word. -/
  | sext (s : BitVec 2) (w : Bool) (h : Bool) (a : Reg) (d : Reg)
  /-- ZEXT (R165): Zero-extends from byte, half or word. -/
  | zext (s : BitVec 2) (w : Bool) (h : Bool) (a : Reg) (d : Reg)
  /-- MIN (R165): Lesser of two values, signed or unsigned. -/
  | min (z : Bool) (w : Bool) (g : Bool) (b : Reg) (h : Bool) (a : Reg) (d : Reg)
  /-- MAX (R165): Greater of two values. -/
  | max (z : Bool) (w : Bool) (g : Bool) (b : Reg) (h : Bool) (a : Reg) (d : Reg)
  /-- ABS (R165): Absolute value of a signed value. -/
  | abs (w : Bool) (h : Bool) (a : Reg) (d : Reg)
  /-- MOV (R165): Copies W[a] to W[d]. -/
  | mov (w : Bool) (h : Bool) (a : Reg) (d : Reg)
  /-- SEL (R165): Selects W[a] or W[b] by a predicate bit. -/
  | sel (p : BitVec 6) (g : Bool) (b : Reg) (h : Bool) (a : Reg) (d : Reg)
  /-- CMP (R142): Writes an integer comparison result to a predicate bit. -/
  | cmp (w : Bool) (p : BitVec 6) (g : Bool) (b : Reg) (h : Bool) (a : Reg) (c : BitVec 3)
  /-- XSET (R170): Writes W[a] into an extension register and sets it full. -/
  | xset (h : Bool) (a : Reg) (d : Reg)
  /-- XGET (R170): Copies an extension register into W[d]. -/
  | xget (h : Bool) (a : Reg) (d : Reg)
  /-- ANDI (R167): And with a signed 12-bit immediate. -/
  | andi (w : Bool) (i : BitVec 12) (h : Bool) (a : Reg) (d : Reg)
  /-- ORI (R167): Or with an immediate. -/
  | ori (w : Bool) (i : BitVec 12) (h : Bool) (a : Reg) (d : Reg)
  /-- XORI (R167): Exclusive or with an immediate. -/
  | xori (w : Bool) (i : BitVec 12) (h : Bool) (a : Reg) (d : Reg)
  /-- SHLI (R167): Shift left by an immediate amount. -/
  | shli (w : Bool) (i : BitVec 8) (h : Bool) (a : Reg) (d : Reg)
  /-- SHRI (R167): Logical shift right by an immediate. -/
  | shri (w : Bool) (i : BitVec 8) (h : Bool) (a : Reg) (d : Reg)
  /-- SARI (R167): Arithmetic shift right by an immediate. -/
  | sari (w : Bool) (i : BitVec 8) (h : Bool) (a : Reg) (d : Reg)
  /-- ROLI (R167): Rotate left by an immediate. -/
  | roli (w : Bool) (i : BitVec 8) (h : Bool) (a : Reg) (d : Reg)
  /-- RORI (R167): Rotate right by an immediate. -/
  | rori (w : Bool) (i : BitVec 8) (h : Bool) (a : Reg) (d : Reg)
  /-- MULI (R167): Multiply by a signed immediate. -/
  | muli (w : Bool) (i : BitVec 12) (h : Bool) (a : Reg) (d : Reg)
  /-- ADDI (R168): Adds a signed 18-bit immediate. -/
  | addi (i : BitVec 18) (h : Bool) (a : Reg) (d : Reg)
  /-- MOVI (R168): Loads a sign-extended 18-bit immediate. -/
  | movi (i : BitVec 18) (d : Reg)
  /-- MOVH (R168): Shifts W[a] left 18 and inserts an unsigned immediate. -/
  | movh (i : BitVec 18) (h : Bool) (a : Reg) (d : Reg)
  /-- CMPI (R169): Compares W[a] with an immediate into a predicate bit. -/
  | cmpi (p : BitVec 6) (i : BitVec 12) (h : Bool) (a : Reg) (c : BitVec 3)
  /-- PADD (R172): Lane-wise wrapping add. -/
  | padd (l : BitVec 2) (g : Bool) (b : Reg) (h : Bool) (a : Reg) (d : Reg)
  /-- PSUB (R172): Lane-wise wrapping subtract. -/
  | psub (l : BitVec 2) (g : Bool) (b : Reg) (h : Bool) (a : Reg) (d : Reg)
  /-- PADDS (R172): Lane-wise saturating add. -/
  | padds (z : Bool) (l : BitVec 2) (g : Bool) (b : Reg) (h : Bool) (a : Reg) (d : Reg)
  /-- PSUBS (R172): Lane-wise saturating subtract. -/
  | psubs (z : Bool) (l : BitVec 2) (g : Bool) (b : Reg) (h : Bool) (a : Reg) (d : Reg)
  /-- PMUL (R172): Lane-wise low product. -/
  | pmul (l : BitVec 2) (g : Bool) (b : Reg) (h : Bool) (a : Reg) (d : Reg)
  /-- PMULH (R172): Lane-wise high product. -/
  | pmulh (z : Bool) (l : BitVec 2) (g : Bool) (b : Reg) (h : Bool) (a : Reg) (d : Reg)
  /-- PDOT (R172): Pairwise dot product into double-width lanes. -/
  | pdot (z : Bool) (l : BitVec 2) (g : Bool) (b : Reg) (h : Bool) (a : Reg) (d : Reg)
  /-- PAVG (R172): Lane-wise rounded average. -/
  | pavg (z : Bool) (l : BitVec 2) (g : Bool) (b : Reg) (h : Bool) (a : Reg) (d : Reg)
  /-- PMIN (R172): Lane-wise minimum. -/
  | pmin (z : Bool) (l : BitVec 2) (g : Bool) (b : Reg) (h : Bool) (a : Reg) (d : Reg)
  /-- PMAX (R172): Lane-wise maximum. -/
  | pmax (z : Bool) (l : BitVec 2) (g : Bool) (b : Reg) (h : Bool) (a : Reg) (d : Reg)
  /-- PABS (R172): Lane-wise saturating absolute value. -/
  | pabs (l : BitVec 2) (h : Bool) (a : Reg) (d : Reg)
  /-- PSAD (R172): Sum of absolute lane differences. -/
  | psad (z : Bool) (l : BitVec 2) (g : Bool) (b : Reg) (h : Bool) (a : Reg) (d : Reg)
  /-- PCLIP (R172): Clips each lane between bounds held in W[b]. -/
  | pclip (z : Bool) (l : BitVec 2) (g : Bool) (b : Reg) (h : Bool) (a : Reg) (d : Reg)
  /-- PSHL (R172): Uniform lane shift left. -/
  | pshl (l : BitVec 2) (g : Bool) (b : Reg) (h : Bool) (a : Reg) (d : Reg)
  /-- PSHR (R172): Uniform lane logical shift right. -/
  | pshr (l : BitVec 2) (g : Bool) (b : Reg) (h : Bool) (a : Reg) (d : Reg)
  /-- PSAR (R172): Uniform lane arithmetic shift right. -/
  | psar (l : BitVec 2) (g : Bool) (b : Reg) (h : Bool) (a : Reg) (d : Reg)
  /-- PVSHL (R172): Per-lane shift left. -/
  | pvshl (l : BitVec 2) (g : Bool) (b : Reg) (h : Bool) (a : Reg) (d : Reg)
  /-- PVSHR (R172): Per-lane logical shift right. -/
  | pvshr (l : BitVec 2) (g : Bool) (b : Reg) (h : Bool) (a : Reg) (d : Reg)
  /-- PVSAR (R172): Per-lane arithmetic shift right. -/
  | pvsar (l : BitVec 2) (g : Bool) (b : Reg) (h : Bool) (a : Reg) (d : Reg)
  /-- PCMP (R173): Compares lanes into a predicate mask byte. -/
  | pcmp (k : BitVec 3) (l : BitVec 2) (g : Bool) (b : Reg) (h : Bool) (a : Reg) (c : BitVec 3)
  /-- PSEL (R173): Selects lanes by a mask byte. -/
  | psel (k : BitVec 3) (l : BitVec 2) (g : Bool) (b : Reg) (h : Bool) (a : Reg) (d : Reg)
  /-- PPERM (R174): Permutes bytes by selector bytes. -/
  | pperm (g : Bool) (b : Reg) (h : Bool) (a : Reg) (d : Reg)
  /-- PNARROW (R174): Narrows lanes of two registers with clamping. -/
  | pnarrow (z : Bool) (l : BitVec 2) (g : Bool) (b : Reg) (h : Bool) (a : Reg) (d : Reg)
  /-- PWIDEN (R174): Widens the lanes of one half of W[a]. -/
  | pwiden (z : Bool) (l : BitVec 2) (u : Bool) (h : Bool) (a : Reg) (d : Reg)
  /-- FADD (R175): FP32 addition rounded once. -/
  | fadd (g : Bool) (b : Reg) (h : Bool) (a : Reg) (d : Reg)
  /-- FSUB (R175): FP32 subtraction. -/
  | fsub (g : Bool) (b : Reg) (h : Bool) (a : Reg) (d : Reg)
  /-- FMUL (R175): FP32 multiplication. -/
  | fmul (g : Bool) (b : Reg) (h : Bool) (a : Reg) (d : Reg)
  /-- FMA (R175): FP32 fused multiply-add into W[d]. -/
  | fma (g : Bool) (b : Reg) (h : Bool) (a : Reg) (d : Reg)
  /-- FDIV (R175): Long FP32 division. -/
  | fdiv (g : Bool) (b : Reg) (h : Bool) (a : Reg) (d : Reg)
  /-- FSQRT (R175): Long FP32 square root. -/
  | fsqrt (h : Bool) (a : Reg) (d : Reg)
  /-- FMIN (R62): FP32 minimum with NaN rules. -/
  | fmin (g : Bool) (b : Reg) (h : Bool) (a : Reg) (d : Reg)
  /-- FMAX (R62): FP32 maximum with NaN rules. -/
  | fmax (g : Bool) (b : Reg) (h : Bool) (a : Reg) (d : Reg)
  /-- FCMP (R176): FP32 comparison into a predicate bit. -/
  | fcmp (p : BitVec 6) (g : Bool) (b : Reg) (h : Bool) (a : Reg) (c : BitVec 3)
  /-- FCVT (R177): Converts between element formats under the prefix. -/
  | fcvt (f : BitVec 4) (h : Bool) (a : Reg) (d : Reg)
  /-- FCLASS (R176): Tests the FP32 class of W[a] against a mask into a predicate bit. -/
  | fclass (p : BitVec 6) (g : Bool) (b : Reg) (h : Bool) (a : Reg)
  /-- PSET (R180): Sets a predicate bit. -/
  | pset (n : BitVec 6)
  /-- PCLR (R180): Clears a predicate bit. -/
  | pclr (n : BitVec 6)
  /-- PNOT (R180): Inverts a mask byte into another. -/
  | pnot (a : Reg) (d : Reg)
  /-- PAND (R180): Ands two mask bytes. -/
  | pand (b : Reg) (a : Reg) (d : Reg)
  /-- POR (R180): Ors two mask bytes. -/
  | por (b : Reg) (a : Reg) (d : Reg)
  /-- PXOR (R180): Exclusive-ors two mask bytes. -/
  | pxor (b : Reg) (a : Reg) (d : Reg)
  /-- PWR (R180): Reads the predicate word into W[d]. -/
  | pwr (d : Reg)
  /-- PWW (R180): Writes masked bits of the predicate word. -/
  | pww (g : Bool) (b : Reg) (h : Bool) (a : Reg)
  /-- PCNT (R180): Counts predicate bits under a mask. -/
  | pcnt (h : Bool) (a : Reg) (d : Reg)
  /-- LD (R193): Loads from global memory or a core store, plain or acquire. -/
  | ld (k : BitVec 11) (s : BitVec 3) (z : BitVec 3) (h : Bool) (a : Reg) (t : Reg)
  /-- ST (R193): Stores to global memory or a core store, plain or release. -/
  | st (k : BitVec 11) (s : BitVec 3) (z : BitVec 3) (f : Bool) (h : Bool) (a : Reg) (t : Reg)
  /-- LD_ANCHOR_REL (R138): Loads from an anchor-relative core store. -/
  | ldAnchorRel (x : BitVec 5) (y : BitVec 5) (s : BitVec 3) (z : BitVec 3) (h : Bool) (a : Reg) (t : Reg)
  /-- ST_ANCHOR_REL (R138): Stores to an anchor-relative core store. -/
  | stAnchorRel (x : BitVec 5) (y : BitVec 5) (s : BitVec 3) (z : BitVec 3) (f : Bool) (h : Bool) (a : Reg) (t : Reg)
  /-- AMO_ADD (R200): Atomic add returning the old value. -/
  | amoAdd (e : Bool) (o : BitVec 3) (s : BitVec 3) (g : Bool) (b : Reg) (h : Bool) (a : Reg) (d : Reg)
  /-- AMO_AND (R200): Atomic and returning the old value. -/
  | amoAnd (e : Bool) (o : BitVec 3) (s : BitVec 3) (g : Bool) (b : Reg) (h : Bool) (a : Reg) (d : Reg)
  /-- AMO_OR (R200): Atomic or returning the old value. -/
  | amoOr (e : Bool) (o : BitVec 3) (s : BitVec 3) (g : Bool) (b : Reg) (h : Bool) (a : Reg) (d : Reg)
  /-- AMO_XOR (R200): Atomic exclusive or returning the old value. -/
  | amoXor (e : Bool) (o : BitVec 3) (s : BitVec 3) (g : Bool) (b : Reg) (h : Bool) (a : Reg) (d : Reg)
  /-- AMO_MIN_S (R200): Atomic signed minimum. -/
  | amoMinS (e : Bool) (o : BitVec 3) (s : BitVec 3) (g : Bool) (b : Reg) (h : Bool) (a : Reg) (d : Reg)
  /-- AMO_MAX_S (R200): Atomic signed maximum. -/
  | amoMaxS (e : Bool) (o : BitVec 3) (s : BitVec 3) (g : Bool) (b : Reg) (h : Bool) (a : Reg) (d : Reg)
  /-- AMO_SWP (R200): Atomic swap. -/
  | amoSwp (e : Bool) (o : BitVec 3) (s : BitVec 3) (g : Bool) (b : Reg) (h : Bool) (a : Reg) (d : Reg)
  /-- AMO_CAS (R200): Atomic compare-and-swap against e0. -/
  | amoCas (e : Bool) (o : BitVec 3) (s : BitVec 3) (g : Bool) (b : Reg) (h : Bool) (a : Reg) (d : Reg)
  /-- AMO_FADD (R200): Atomic floating add, RNE. -/
  | amoFadd (e : Bool) (o : BitVec 3) (s : BitVec 3) (g : Bool) (b : Reg) (h : Bool) (a : Reg) (d : Reg)
  /-- AMO_MIN_Z (R200): Atomic unsigned minimum. -/
  | amoMinZ (e : Bool) (o : BitVec 3) (s : BitVec 3) (g : Bool) (b : Reg) (h : Bool) (a : Reg) (d : Reg)
  /-- AMO_MAX_Z (R200): Atomic unsigned maximum. -/
  | amoMaxZ (e : Bool) (o : BitVec 3) (s : BitVec 3) (g : Bool) (b : Reg) (h : Bool) (a : Reg) (d : Reg)
  /-- AMO_ADD_POST (R200): Posted atomic add, no returned value. -/
  | amoAddPost (e : Bool) (o : BitVec 3) (s : BitVec 3) (g : Bool) (b : Reg) (h : Bool) (a : Reg)
  /-- AMO_AND_POST (R200): Posted atomic and. -/
  | amoAndPost (e : Bool) (o : BitVec 3) (s : BitVec 3) (g : Bool) (b : Reg) (h : Bool) (a : Reg)
  /-- AMO_OR_POST (R200): Posted atomic or. -/
  | amoOrPost (e : Bool) (o : BitVec 3) (s : BitVec 3) (g : Bool) (b : Reg) (h : Bool) (a : Reg)
  /-- AMO_XOR_POST (R200): Posted atomic exclusive or. -/
  | amoXorPost (e : Bool) (o : BitVec 3) (s : BitVec 3) (g : Bool) (b : Reg) (h : Bool) (a : Reg)
  /-- AMO_MIN_S_POST (R200): Posted atomic signed minimum. -/
  | amoMinSPost (e : Bool) (o : BitVec 3) (s : BitVec 3) (g : Bool) (b : Reg) (h : Bool) (a : Reg)
  /-- AMO_MAX_S_POST (R200): Posted atomic signed maximum. -/
  | amoMaxSPost (e : Bool) (o : BitVec 3) (s : BitVec 3) (g : Bool) (b : Reg) (h : Bool) (a : Reg)
  /-- AMO_SWP_POST (R200): Posted atomic swap. -/
  | amoSwpPost (e : Bool) (o : BitVec 3) (s : BitVec 3) (g : Bool) (b : Reg) (h : Bool) (a : Reg)
  /-- AMO_CAS_POST (R200): Posted atomic compare-and-swap. -/
  | amoCasPost (e : Bool) (o : BitVec 3) (s : BitVec 3) (g : Bool) (b : Reg) (h : Bool) (a : Reg)
  /-- AMO_FADD_POST (R200): Posted atomic floating add. -/
  | amoFaddPost (e : Bool) (o : BitVec 3) (s : BitVec 3) (g : Bool) (b : Reg) (h : Bool) (a : Reg)
  /-- AMO_MIN_Z_POST (R200): Posted atomic unsigned minimum. -/
  | amoMinZPost (e : Bool) (o : BitVec 3) (s : BitVec 3) (g : Bool) (b : Reg) (h : Bool) (a : Reg)
  /-- AMO_MAX_Z_POST (R200): Posted atomic unsigned maximum. -/
  | amoMaxZPost (e : Bool) (o : BitVec 3) (s : BitVec 3) (g : Bool) (b : Reg) (h : Bool) (a : Reg)
  /-- LD_N (R198): Loads one nibble, sign- or zero-extended. -/
  | ldN (z : Bool) (u : Bool) (h : Bool) (a : Reg) (d : Reg)
  /-- ST_N (R198): Stores one nibble as an indivisible update. -/
  | stN (u : Bool) (g : Bool) (b : Reg) (h : Bool) (a : Reg)
  /-- PF (R199): Prefetch hint to a cache level. -/
  | pf (l : BitVec 2) (h : Bool) (a : Reg)
  /-- CFLUSH (R199): Writes a line's dirty sectors home and invalidates it. -/
  | cflush (h : Bool) (a : Reg)
  /-- CINVAL (R199): Invalidates one line in the issuing core's L1. -/
  | cinval (h : Bool) (a : Reg)
  /-- CINVAL_ALL (R199): Invalidates every line of the issuing core's L1. -/
  | cinvalAll
  /-- FENCE (R203): Orders accesses by kind and scope, starting or joining a token round. -/
  | fence (k : BitVec 2) (s : BitVec 3)
  /-- STV (R204): Stores and returns the gtime at which the store performed. -/
  | stv (z : BitVec 2) (g : Bool) (b : Reg) (h : Bool) (a : Reg) (d : Reg)
  /-- TWAIT (R205): Waits until a gtime deadline, then invalidates the L1. -/
  | twait (h : Bool) (a : Reg)
  /-- XLD (R171): Long load of 8 bytes into an extension register. -/
  | xld (k : BitVec 7) (h : Bool) (a : Reg) (d : Reg)
  /-- SEM_V (R208): Posted semaphore signal, a release at its scope. -/
  | semV (s : BitVec 3) (h : Bool) (a : Reg)
  /-- SEM_P (R208): Semaphore wait; retires at issue and waits with kind 2. -/
  | semP (s : BitVec 3) (h : Bool) (a : Reg)
  /-- JC_ADD (R209): Posted signed add to a join counter. -/
  | jcAdd (s : BitVec 3) (g : Bool) (b : Reg) (h : Bool) (a : Reg)
  /-- JC_WAIT (R209): Waits until a join counter is at or below a threshold. -/
  | jcWait (g : Bool) (b : Reg) (h : Bool) (a : Reg)
  /-- WAIT_MEM (R210): Arms a watch on a word and waits with kind 5. -/
  | waitMem (t : BitVec 4) (g : Bool) (b : Reg) (h : Bool) (a : Reg) (d : Reg)
  /-- YIELD (R211): Moves the context to the tail of its ready queue. -/
  | yield
  /-- EXIT (R211): Ends the thread after commands and accesses complete. -/
  | exit
  /-- SPAWN (R212): Creates a child context from the block's pool. -/
  | spawn (g : Bool) (b : Reg) (h : Bool) (a : Reg) (d : Reg)
  /-- SPAWN_DEF (R212): Creates a child deferred on a join counter. -/
  | spawnDef (g : Bool) (b : Reg) (h : Bool) (a : Reg) (d : Reg)
  /-- CHUNK_INIT (R213): Initialises a cluster chunk counter. -/
  | chunkInit (c : BitVec 4) (g : Bool) (b : Reg) (h : Bool) (a : Reg)
  /-- CHUNK (R213): Requests the next work range from a chunk counter. -/
  | chunk (c : BitVec 4) (d : Reg)
  /-- BAR_CFG (R214): Configures a hardware barrier register of the core. -/
  | barCfg (n : BitVec 2) (g : Bool) (b : Reg) (h : Bool) (a : Reg)
  /-- BAR_ARR (R216): Arrives at a hardware barrier, a release at die scope. -/
  | barArr (n : BitVec 2) (d : Reg)
  /-- BAR_WAIT (R216): Waits for a barrier's generation to change. -/
  | barWait (n : BitVec 2) (h : Bool) (a : Reg)
  /-- BAR_TEST (R216): Tests whether a barrier phase completed. -/
  | barTest (f : Bool) (n : BitVec 2) (h : Bool) (a : Reg) (d : Reg)
  /-- KSEND (R219): Routes a value by key to a bin in a core store. -/
  | ksend (n : BitVec 2) (g : Bool) (b : Reg) (h : Bool) (a : Reg)
  /-- KBIN_CFG (R218): Writes a key-bin table entry of the block. -/
  | kbinCfg (n : BitVec 2) (g : Bool) (b : Reg) (h : Bool) (a : Reg)
  /-- IDR (R220): Reads an identity value. -/
  | idr (s : BitVec 3) (d : Reg)
  /-- GTIME (R206): Reads the current die's gtime. -/
  | gtime (d : Reg)
  /-- GTIME_LK (R206): Reads whether the die is locked. -/
  | gtimeLk (d : Reg)
  /-- CYC (R206): Reads the current die's cycle count. -/
  | cyc (d : Reg)
  /-- CYC_T (R206): Reads the cycle count tagged with the die number. -/
  | cycT (d : Reg)
  /-- LAUNCH (R221): Submits a launch descriptor to Ringmaster. -/
  | launch (h : Bool) (a : Reg) (d : Reg)
  /-- TALLOC (R224): Allocates a tile in the home cluster. -/
  | talloc (h : Bool) (a : Reg) (d : Reg)
  /-- TFREE (R226): Frees a tile, as a command. -/
  | tfree (h : Bool) (a : Reg)
  /-- TVIEW (R227): Derives a row view handle. -/
  | tview (g : Bool) (b : Reg) (h : Bool) (a : Reg) (d : Reg)
  /-- TINFO (R228): Returns a tile's descriptor and view. -/
  | tinfo (h : Bool) (a : Reg) (d : Reg)
  /-- TGET (R229): Reads one tile element as a task. -/
  | tget (h : Bool) (a : Reg) (d : Reg)
  /-- TSET (R229): Writes one tile element as a command. -/
  | tset (g : Bool) (b : Reg) (h : Bool) (a : Reg)
  /-- VFENCE (R230): Waits until CMDS is zero, then acquires task writes. -/
  | vfence
  /-- VBUSY (R230): Reads the outstanding command count. -/
  | vbusy (d : Reg)
  /-- VADD (R237): Element-wise tile addition command. -/
  | vadd (g : Bool) (b : Reg) (h : Bool) (a : Reg) (j : Bool) (f : Bool)
  /-- VSUB (R237): Element-wise subtraction command. -/
  | vsub (g : Bool) (b : Reg) (h : Bool) (a : Reg) (j : Bool) (f : Bool)
  /-- VMUL (R237): Element-wise multiplication command. -/
  | vmul (g : Bool) (b : Reg) (h : Bool) (a : Reg) (j : Bool) (f : Bool)
  /-- VFMA (R237): Element-wise fused multiply-add command. -/
  | vfma (g : Bool) (b : Reg) (h : Bool) (a : Reg) (j : Bool) (f : Bool)
  /-- VMIN (R237): Element-wise minimum command. -/
  | vmin (g : Bool) (b : Reg) (h : Bool) (a : Reg) (j : Bool) (f : Bool)
  /-- VMAX (R237): Element-wise maximum command. -/
  | vmax (g : Bool) (b : Reg) (h : Bool) (a : Reg) (j : Bool) (f : Bool)
  /-- VABS (R237): Element-wise absolute value command. -/
  | vabs (h : Bool) (a : Reg) (j : Bool) (f : Bool)
  /-- VNEG (R237): Element-wise negation command. -/
  | vneg (h : Bool) (a : Reg) (j : Bool) (f : Bool)
  /-- VEXP2 (R238): Element-wise base-2 exponential. -/
  | vexp2 (h : Bool) (a : Reg) (j : Bool) (f : Bool)
  /-- VLOG2 (R238): Element-wise base-2 logarithm. -/
  | vlog2 (h : Bool) (a : Reg) (j : Bool) (f : Bool)
  /-- VRCP (R238): Element-wise reciprocal. -/
  | vrcp (h : Bool) (a : Reg) (j : Bool) (f : Bool)
  /-- VRSQRT (R238): Element-wise reciprocal square root. -/
  | vrsqrt (h : Bool) (a : Reg) (j : Bool) (f : Bool)
  /-- VTANH (R238): Element-wise hyperbolic tangent. -/
  | vtanh (h : Bool) (a : Reg) (j : Bool) (f : Bool)
  /-- VCVT (R239): Converts a tile between formats. -/
  | vcvt (h : Bool) (a : Reg) (j : Bool) (f : Bool)
  /-- VCMP (R240): Compares tiles into a mask tile. -/
  | vcmp (c : BitVec 3) (g : Bool) (b : Reg) (h : Bool) (a : Reg) (j : Bool) (f : Bool)
  /-- VSEL (R240): Selects elements by a mask tile. -/
  | vsel (g : Bool) (b : Reg) (h : Bool) (a : Reg) (j : Bool) (f : Bool)
  /-- VROWRED (R241): Reduces each row of a tile. -/
  | vrowred (r : BitVec 2) (h : Bool) (a : Reg) (j : Bool) (f : Bool)
  /-- VCOLRED (R241): Reduces each column of a tile. -/
  | vcolred (r : BitVec 2) (h : Bool) (a : Reg) (j : Bool) (f : Bool)
  /-- VBCAST (R242): Broadcasts a column or row across a tile. -/
  | vbcast (w : Bool) (h : Bool) (a : Reg) (j : Bool) (f : Bool)
  /-- VTRANS (R242): Transposes a tile. -/
  | vtrans (h : Bool) (a : Reg) (j : Bool) (f : Bool)
  /-- VSCALE (R243): Scales by a factor or dequantises an MX tile. -/
  | vscale (x : Bool) (h : Bool) (a : Reg) (j : Bool) (f : Bool)
  /-- VQUANT (R244): Quantises a tile into an MX tile with scales. -/
  | vquant (h : Bool) (a : Reg) (j : Bool) (f : Bool)
  /-- VSHL (R237): Element-wise shift left, uniform or per element. -/
  | vshl (v : Bool) (g : Bool) (b : Reg) (h : Bool) (a : Reg) (j : Bool) (f : Bool)
  /-- VSHR (R237): Element-wise logical shift right. -/
  | vshr (v : Bool) (g : Bool) (b : Reg) (h : Bool) (a : Reg) (j : Bool) (f : Bool)
  /-- VSAR (R237): Element-wise arithmetic shift right. -/
  | vsar (v : Bool) (g : Bool) (b : Reg) (h : Bool) (a : Reg) (j : Bool) (f : Bool)
  /-- VCLAMP (R237): Clamps elements between bounds in e1. -/
  | vclamp (h : Bool) (a : Reg) (j : Bool) (f : Bool)
  /-- VMOV (R237): Copies a tile. -/
  | vmov (h : Bool) (a : Reg) (j : Bool) (f : Bool)
  /-- VFILL (R237): Fills a tile with a value from e1. -/
  | vfill (h : Bool) (a : Reg) (j : Bool) (f : Bool)
  /-- VMASK (R240): Writes a rectangular or triangular mask tile. -/
  | vmask (t : Bool) (h : Bool) (a : Reg) (j : Bool) (f : Bool)
  /-- MMA (R245): Matrix multiply-accumulate command. -/
  | mma (r : Bool) (s : Bool) (y : Bool) (x : Bool) (g : Bool) (b : Reg) (h : Bool) (a : Reg) (j : Bool) (f : Bool)
  /-- MDRAIN (R247): Requantises an accumulator tile. -/
  | mdrain (g : Bool) (b : Reg) (h : Bool) (a : Reg) (j : Bool) (f : Bool)
  /-- CPY_MT (R251): Copies memory into a tile. -/
  | cpyMt (g : Bool) (b : Reg) (h : Bool) (a : Reg) (j : Bool) (f : Bool)
  /-- CPY_TM (R251): Copies a tile into memory. -/
  | cpyTm (g : Bool) (b : Reg) (h : Bool) (a : Reg) (j : Bool) (f : Bool)
  /-- CPY_MM (R251): Copies memory to memory. -/
  | cpyMm (g : Bool) (b : Reg) (h : Bool) (a : Reg) (j : Bool) (f : Bool)
  /-- GATH (R253): Gathers rows of a region into a tile. -/
  | gath (g : Bool) (b : Reg) (h : Bool) (a : Reg) (j : Bool) (f : Bool)
  /-- SCAT (R254): Scatters tile rows into a region. -/
  | scat (g : Bool) (b : Reg) (h : Bool) (a : Reg) (j : Bool) (f : Bool)
  /-- TRGEN (R279): Performs a generation advance and returns GFULL. -/
  | trgen (d : Reg)
  /-- RELAUNCH (R280): Submits a relaunch of a trace region. -/
  | relaunch (g : Bool) (b : Reg) (h : Bool) (a : Reg) (d : Reg)
  /-- RELAUNCH_REPAIR (R280): Submits a repairing relaunch. -/
  | relaunchRepair (g : Bool) (b : Reg) (h : Bool) (a : Reg) (d : Reg)
  /-- TRSTAT (R281): Reads the live trace state of the block. -/
  | trstat (d : Reg)
  /-- DMREAD (R282): Reads a patch's dirty stamp and lost bit. -/
  | dmread (h : Bool) (a : Reg) (d : Reg)
  /-- DMMARK (R283): Stamps patches, optionally setting lost bits. -/
  | dmmark (p : Bool) (l : Bool) (g : Bool) (b : Reg) (h : Bool) (a : Reg)
  /-- SYS (R320): Raises SYSCALL with the immediate. -/
  | sys (n : BitVec 7)
  /-- ERET (R323): Ends a handler's service and delivers any queued trap. -/
  | eret
  /-- SRD (R321): Reads a system register. -/
  | srd (n : BitVec 7) (d : Reg)
  /-- SWR (R321): Writes a system register that has no behaviour row of its own. -/
  | swr (n : BitVec 7) (h : Bool) (a : Reg)
  /-- CTX_LD (R322): Reads a doubleword of a context line. -/
  | ctxLd (i : BitVec 4) (h : Bool) (a : Reg) (d : Reg)
  /-- CTX_ST (R324): Writes a doubleword of a halted context. -/
  | ctxSt (i : BitVec 4) (g : Bool) (b : Reg) (h : Bool) (a : Reg) (d : Reg)
  /-- CTX_READY (R325): Makes a halted context ready. -/
  | ctxReady (h : Bool) (a : Reg) (d : Reg)
  /-- CTX_EVICT (R325): Evicts a context to its context L2 or to memory. -/
  | ctxEvict (l : Bool) (h : Bool) (a : Reg) (d : Reg)
  /-- CTX_PARK (R325): Halts a context without a trap. -/
  | ctxPark (h : Bool) (a : Reg) (d : Reg)
  /-- CTX_PARK_KILL (R325): Ends a context. -/
  | ctxParkKill (h : Bool) (a : Reg) (d : Reg)
  /-- TLBI (R326): Invalidates translations in a scope and waits for acknowledgement. -/
  | tlbi (k : BitVec 2) (s : BitVec 3) (g : Bool) (b : Reg) (h : Bool) (a : Reg)
  /-- BMODE (R327): Sets a cluster SRAM bank's mode. -/
  | bmode (g : Bool) (b : Reg) (h : Bool) (a : Reg) (d : Reg)
  /-- SLOT_PARK (R328): Stops a slot from issuing. -/
  | slotPark (h : Bool) (a : Reg)
  /-- SLOT_FREE (R328): Lets a parked slot issue again. -/
  | slotFree (h : Bool) (a : Reg)
  /-- DSTOP (R329): Stops a context precisely for debug. -/
  | dstop (h : Bool) (a : Reg) (d : Reg)
  /-- HALT (R330): Stops every slot of the core until die reset. -/
  | halt
  /-- JR (R181): Jumps to W[a]. -/
  | jr (h : Bool) (a : Reg)
  /-- JR_L (R181): Jumps to W[a], linking in w7. -/
  | jrL (h : Bool) (a : Reg)
  /-- NOP (R181): Does nothing. -/
  | nop
  /-- B (R181): Unconditional pc-relative branch. -/
  | b (k : BitVec 25)
  /-- BL (R181): Branch and link in w7. -/
  | bl (k : BitVec 25)
  /-- BZ (R181): Branches if W[a] is zero. -/
  | bz (k : BitVec 18) (h : Bool) (a : Reg)
  /-- BNZ (R181): Branches if W[a] is not zero. -/
  | bnz (k : BitVec 18) (h : Bool) (a : Reg)
  /-- BANY (R181): Branches if a mask byte is non-zero. -/
  | bany (k : BitVec 18) (a : Reg)
  /-- BALL (R181): Branches if a mask byte is all ones. -/
  | ball (k : BitVec 18) (a : Reg)
  /-- BNONE (R181): Branches if a mask byte is zero. -/
  | bnone (k : BitVec 18) (a : Reg)
  /-- LOOP (R181): Decrements W[a] and branches if non-zero. -/
  | loop (k : BitVec 18) (h : Bool) (a : Reg)
  /-- BPT (R181): Branches if a predicate bit is 1. -/
  | bpt (k : BitVec 18) (p : BitVec 6)
  /-- BPF (R181): Branches if a predicate bit is 0. -/
  | bpf (k : BitVec 18) (p : BitVec 6)
  /-- DADD (R178): Binary64 addition. -/
  | dadd (g : Bool) (b : Reg) (h : Bool) (a : Reg) (d : Reg)
  /-- DSUB (R178): Binary64 subtraction. -/
  | dsub (g : Bool) (b : Reg) (h : Bool) (a : Reg) (d : Reg)
  /-- DMUL (R178): Binary64 multiplication. -/
  | dmul (g : Bool) (b : Reg) (h : Bool) (a : Reg) (d : Reg)
  /-- DFMA (R178): Binary64 fused multiply-add. -/
  | dfma (g : Bool) (b : Reg) (h : Bool) (a : Reg) (d : Reg)
  /-- DDIV (R178): Long binary64 division. -/
  | ddiv (g : Bool) (b : Reg) (h : Bool) (a : Reg) (d : Reg)
  /-- DSQRT (R178): Long binary64 square root. -/
  | dsqrt (h : Bool) (a : Reg) (d : Reg)
  /-- DCVT_TO (R179): Converts a format to binary64. -/
  | dcvtTo (f : BitVec 4) (h : Bool) (a : Reg) (d : Reg)
  /-- DCVT_FROM (R179): Converts binary64 to a format. -/
  | dcvtFrom (f : BitVec 4) (h : Bool) (a : Reg) (d : Reg)
  /-- DCMP (R178): Binary64 comparison into a predicate bit. -/
  | dcmp (p : BitVec 6) (g : Bool) (b : Reg) (h : Bool) (a : Reg) (c : BitVec 3)
  /-- BSOPEN (R184): Opens a bitstream in e0 and e1. -/
  | bsopen (g : Bool) (b : Reg) (h : Bool) (a : Reg)
  /-- GETB (R184): Reads a register-given count of stream bits. -/
  | getb (g : Bool) (b : Reg) (d : Reg)
  /-- GETB_IMM (R184): Reads an immediate count of stream bits. -/
  | getbImm (n : BitVec 6) (d : Reg)
  /-- PEEKB (R184): Peeks a register-given count of stream bits. -/
  | peekb (g : Bool) (b : Reg) (d : Reg)
  /-- PEEKB_IMM (R184): Peeks an immediate count of stream bits. -/
  | peekbImm (n : BitVec 6) (d : Reg)
  /-- SKIPB (R184): Skips a register-given count of stream bits. -/
  | skipb (g : Bool) (b : Reg)
  /-- SKIPB_IMM (R184): Skips an immediate count of stream bits. -/
  | skipbImm (n : BitVec 6)
  /-- GETUE (R185): Decodes an unsigned Exp-Golomb code. -/
  | getue (d : Reg)
  /-- GETSE (R185): Decodes a signed Exp-Golomb code. -/
  | getse (d : Reg)
  /-- BSALIGN (R184): Aligns the stream position to a byte. -/
  | bsalign
  /-- CRC (R187): Updates a CRC-32 or CRC-32C over bytes of W[b]. -/
  | crc (p : Bool) (c : BitVec 3) (g : Bool) (b : Reg) (h : Bool) (a : Reg) (d : Reg)
  /-- ADDI_C16 (R146): 16-bit addi with a 5-bit immediate. -/
  | addiC16 (d : Reg) (a : Reg) (i : BitVec 5)
  /-- ANDI_C16 (R146): 16-bit and with an immediate. -/
  | andiC16 (d : Reg) (a : Reg) (i : BitVec 5)
  /-- SHLI_C16 (R146): 16-bit shift left by an immediate. -/
  | shliC16 (d : Reg) (a : Reg) (i : BitVec 5)
  /-- SHRI_C16 (R146): 16-bit logical shift right by an immediate. -/
  | shriC16 (d : Reg) (a : Reg) (i : BitVec 5)
  /-- SARI_C16 (R146): 16-bit arithmetic shift right by an immediate. -/
  | sariC16 (d : Reg) (a : Reg) (i : BitVec 5)
  /-- LD_D_C16 (R146): 16-bit doubleword load. -/
  | ldDC16 (d : Reg) (a : Reg) (i : BitVec 5)
  /-- ST_D_C16 (R146): 16-bit doubleword store. -/
  | stDC16 (d : Reg) (a : Reg) (i : BitVec 5)
  /-- MOVI_C16 (R146): 16-bit move of an 8-bit immediate. -/
  | moviC16 (d : Reg) (i : BitVec 8)
  /-- ADD_C16 (R146): 16-bit register add. -/
  | addC16 (d : Reg) (a : Reg) (b : Reg)
  /-- SUB_C16 (R146): 16-bit register subtract. -/
  | subC16 (d : Reg) (a : Reg) (b : Reg)
  /-- AND_C16 (R146): 16-bit register and. -/
  | andC16 (d : Reg) (a : Reg) (b : Reg)
  /-- OR_C16 (R146): 16-bit register or. -/
  | orC16 (d : Reg) (a : Reg) (b : Reg)
  /-- XOR_C16 (R146): 16-bit register exclusive or. -/
  | xorC16 (d : Reg) (a : Reg) (b : Reg)
  /-- ANDN_C16 (R146): 16-bit register and-not. -/
  | andnC16 (d : Reg) (a : Reg) (b : Reg)
  /-- MUL_C16 (R146): 16-bit register multiply. -/
  | mulC16 (d : Reg) (a : Reg) (b : Reg)
  /-- MOV_C16 (R146): 16-bit register move. -/
  | movC16 (d : Reg) (a : Reg)
  /-- SHL_C16 (R146): 16-bit register shift left. -/
  | shlC16 (d : Reg) (a : Reg) (b : Reg)
  /-- SHR_C16 (R146): 16-bit register logical shift right. -/
  | shrC16 (d : Reg) (a : Reg) (b : Reg)
  /-- SAR_C16 (R146): 16-bit register arithmetic shift right. -/
  | sarC16 (d : Reg) (a : Reg) (b : Reg)
  /-- LD_W_C16 (R146): 16-bit word load. -/
  | ldWC16 (d : Reg) (a : Reg) (i : BitVec 5)
  /-- ST_W_C16 (R146): 16-bit word store. -/
  | stWC16 (d : Reg) (a : Reg) (i : BitVec 5)
  /-- JR_C16 (R146): 16-bit jump to register. -/
  | jrC16 (a : Reg)
  /-- EXIT_C16 (R146): 16-bit exit, halfword 0xE005. -/
  | exitC16
  /-- YIELD_C16 (R146): 16-bit yield, halfword 0xE009. -/
  | yieldC16
  /-- NOP_C16 (R146): 16-bit nop, halfword 0xE00D. -/
  | nopC16
  /-- BZ_C16 (R146): 16-bit branch if zero. -/
  | bzC16 (k : BitVec 3) (a : Reg) (k2 : BitVec 5)
  /-- BNZ_C16 (R146): 16-bit branch if not zero. -/
  | bnzC16 (k : BitVec 3) (a : Reg) (k2 : BitVec 5)
  /-- B_C16 (R146): 16-bit unconditional branch. -/
  | bC16 (k : BitVec 11)
  /-- BPT_C16 (R146): 16-bit branch if predicate bit set. -/
  | bptC16 (p : BitVec 6) (k : BitVec 5)
  /-- BPF_C16 (R146): 16-bit branch if predicate bit clear. -/
  | bpfC16 (p : BitVec 6) (k : BitVec 5)
  /-- FMT (R148): Sets the pending format, rounding and saturate prefix. -/
  | fmt (f : BitVec 4) (r : BitVec 3) (s : Bool)
  /-- REGISTER_FILL (R42): A long-operation result reaches the context line and is applied or discarded by epoch. -/
  | registerFill (ctx reg : Nat) (tag : Bool) (val : Word) (poison : Bool) (info : Word) (unit : Holder) (wake : Nat)
  /-- IDLE_CONTEXT_REPLACE (R44): After 8 idle rotations the Carousel replaces the slot's context with a ready one. -/
  | idleContextReplace (core slot : Nat)
  /-- QUANTUM_EXPIRY (R45): A context that neither blocks nor yields is rotated out after 64 us. -/
  | quantumExpiry (core slot : Nat)
  /-- AGING_PROMOTION (R345): A context ready for 1 ms is promoted one priority level. -/
  | agingPromotion (ctx : Nat)
  /-- LAUNCH_ACCEPT (R48): Ringmaster validates a descriptor and accepts or refuses the launch. -/
  | launchAccept (part : Nat) (desc : Word) (ctx reg : Nat) (tag : Bool) (priv : Nat) (res : Word)
  /-- BLOCK_START (R49): Ringmaster starts the next block once a cluster has room. -/
  | blockStart (launch : Nat)
  /-- LAUNCH_COMPLETION (R58): The package counter reaches zero and the completion record is written. -/
  | launchCompletion (launch : Nat)
  /-- SEM_V_EXECUTE (R53): The owning core executes a sem.v, granting the oldest waiter or incrementing. -/
  | semVExecute (loc ctx scope : Nat) (tx : Option Nat)
  /-- SEM_P_EXECUTE (R53): The owning core executes a sem.p, decrementing, queueing or replying full. -/
  | semPExecute (loc ctx scope : Nat) (tx : Option Nat)
  /-- SEM_P_RESEND (R208): An unqueued sem.p request is resent every 1 us by the line's holder. -/
  | semPResend (ctx : Nat)
  /-- JC_UPDATE (R54): A join-counter add or task decrement executes at the owning core. -/
  | jcUpdate (loc : Nat) (addend : Word) (flt : Nat) (ctx : Nat) (tx : Option Nat)
  /-- CHUNK_INIT_REQUEST (R55): A chunk counter is set at the home cluster. -/
  | chunkInitRequest (cluster c n p m core : Nat)
  /-- CHUNK_REQUEST (R55): The counter serves one chunk request and returns a range. -/
  | chunkRequest (cluster c ctx reg : Nat) (tag : Bool) (core : Nat)
  /-- SPAWN_POOL_REQUEST (R212): The anchor core takes a context from the block's spawn pool. -/
  | spawnPoolRequest (blk ctx reg : Nat) (tag : Bool) (entry arg : Word) (jc : Option Nat) (unit : Nat)
  /-- WAKEUP_APPLY (R335): A wakeup, grant or completion sets a waiting context ready at its holder. -/
  | wakeupApply (ctx kind : Nat) (arg : BitVec 60) (acq : Bool) (unit : Holder)
  /-- CORE_STORE_ACCESS (R94): An owner's store controller executes a core-store message. -/
  | coreStoreAccess (r : Req)
  /-- STORE_VISIBLE (R107): A global store reaches its visibility point. -/
  | storeVisible (r : Req)
  /-- NIBBLE_STORE_EXECUTE (R103): The home atomic unit executes a global nibble store. -/
  | nibbleStoreExecute (r : Req)
  /-- ATOMIC_EXECUTE (R201): A home atomic unit or store controller executes an atomic once. -/
  | atomicExecute (op : AtomOp) (posted inCore : Bool) (cmp : Word) (r : Req)
  /-- FENCE_TOKEN_ARRIVAL (R116): A die receives a fence token and echoes after earlier messages perform. -/
  | fenceTokenArrival (die link round : Nat)
  /-- FENCE_ECHO_ARRIVAL (R116): An echo returns and completes the token round on its link. -/
  | fenceEchoArrival (die link round : Nat)
  /-- POSTED_TOKEN_ROUND (R376): A link with unconfirmed posted requests begins a token round every 1 us. -/
  | postedTokenRound (die link : Nat)
  /-- HELD_RELEASE_SEND (R436): A posted release held at the core is sent once its release condition holds. -/
  | heldReleaseSend (idx : Nat)
  /-- BARRIER_SIGNAL (R215): A row-done or column-done signal reaches a member core. -/
  | barrierSignal (core n : Nat) (column : Bool)
  /-- BARRIER_RELEASE (R215): The phase release reaches a core and its generation advances. -/
  | barrierRelease (core n : Nat)
  /-- BARRIER_TIMEOUT (R217): A member's barrier timeout expires and an abort is broadcast. -/
  | barrierTimeout (core n : Nat)
  /-- BARRIER_ABORT (R217): An abort reaches a member core, marking the register aborted. -/
  | barrierAbort (core n : Nat) (mask : Word)
  /-- KSEND_ACCUMULATE (R219): The receive-and-accumulate unit adds a value into a bin. -/
  | ksendAccumulate (loc : Nat) (fp : Bool) (val : BitVec 32) (ctx : Nat) (tx : Option Nat)
  /-- COMMAND_ACCEPT (R232): A Juggler checks a command and accepts, faults or NACKs it. -/
  | commandAccept (c : Cmd)
  /-- COMMAND_RETRY (R232): A NACKed command is retried after 64 cycles. -/
  | commandRetry (ctx : Nat)
  /-- COMMAND_REPLY (R232): The Juggler's reply reaches the issuing context. -/
  | commandReply (ctx : Nat) (op : Nat) (kind : Nat) (cause : Nat) (info : Word) (reg : Nat)
  /-- TALLOC_SERVE (R225): The Juggler allocates a tile entry and storage. -/
  | tallocServe (cluster ctx reg : Nat) (tag : Bool) (blk : Nat) (desc : Word) (unit : Nat)
  /-- TASK_ADMIT (R122): A Juggler admits a task with footprint edges once it has room. -/
  | taskAdmit (cluster : Nat)
  /-- MMA_FRAGMENT_DONE (R246): A matrix engine finishes one fragment of an mma task. -/
  | mmaFragmentDone (cluster task : Nat)
  /-- STREAMER_PART_START (R248): A streamer begins serving a part it owns. -/
  | streamerPartStart (cluster task part : Nat)
  /-- STREAMER_PUSH (R248): Pushed data arrive and are written at the destination. -/
  | streamerPush (cluster task part : Nat)
  /-- STREAMER_PART_DONE (R248): A part's writes perform and its join-counter decrement is acknowledged. -/
  | streamerPartDone (cluster task part : Nat)
  /-- TASK_COMPLETE (R236): A task's writes perform; J decrement then CMDS decrement are sent. -/
  | taskComplete (cluster task : Nat)
  /-- CMDS_DECREMENT (R236): A completion reaches the context and lowers CMDS. -/
  | cmdsDecrement (ctx : Nat) (flt : Option Word) (unit : Holder)
  /-- TRACE_REPORT (R262): A trace unit enters a reported patch in a block's lists. -/
  | traceReport (blk patch : Nat) (wr : Bool) (icause pc : Nat)
  /-- BLOCK_RECORD_WRITE (R264): A block's record is written when its last context ends. -/
  | blockRecordWrite (blk : Nat)
  /-- GENERATION_BROADCAST (R268): A home directory or cluster cache takes the new generation. -/
  | generationBroadcast (set unit gen : Nat)
  /-- GENERATION_ADVANCE_DONE (R268): Every acknowledgement of an advance has returned. -/
  | generationAdvanceDone (set : Nat)
  /-- RESTAMP_REQUEST (R267): The home stamps a patch for a store to a line owned under an old generation. -/
  | restampRequest (set line : Nat) (from_ : Sender)
  /-- RELAUNCH_ACCEPT (R271): Ringmaster accepts a relaunch, advances and selects blocks. -/
  | relaunchAccept (part : Nat) (region comp : Word) (ctx reg : Nat) (tag : Bool) (priv : Nat) (repair : Bool) (res : Word)
  /-- RELAUNCH_COMPLETE (R274): Summary, header and completion record are written after the last block. -/
  | relaunchComplete (launch : Nat)
  /-- WATCH_ARM (R210): The word's home compares and arms a watch in one step. -/
  | watchArm (inCore : Bool) (addr : Nat) (expected : Word) (ctx reg : Nat) (tag : Bool) (timeout : Nat) (from_ : Sender)
  /-- WATCH_TIMEOUT (R210): A watch times out and wakes its context with 1. -/
  | watchTimeout (ctx : Nat)
  /-- WATCH_CANCEL (R210): A kill or loss releases a watch entry at the word's home. -/
  | watchCancel (ctx : Nat)
  /-- TIME_DEADLINE (R205): gtime reaches a kind-6 deadline and the context is made ready. -/
  | timeDeadline (ctx : Nat)
  /-- CONTEXT_CLAIM (R343): The home grants or NACKs a claim for a context line. -/
  | contextClaim (core ctx : Nat)
  /-- CONTEXT_LINE_ARRIVAL (R334): A context line reaches its new holder, which acknowledges to the home. -/
  | contextLineArrival (ctx : Nat) (dst : Holder)
  /-- CONTEXT_TRANSFER_ACK (R334): The home records the new holder and forwards queued messages. -/
  | contextTransferAck (ctx : Nat)
  /-- MESSAGE_RETURN (R334): A unit returns a message for a line it no longer holds to the home. -/
  | messageReturn (ctx : Nat) (msg : Ev)
  /-- CAROUSEL_RING_CLAIM (R337): A Carousel with few ready contexts takes a ring entry and claims it. -/
  | carouselRingClaim (core : Nat)
  /-- RING_POST (R341): A ready context's CVA is posted to its affinity cluster's ring. -/
  | ringPost (ctx : Nat)
  /-- RING_POST_RETRY (R342): The home repeats a refused post every 1 us. -/
  | ringPostRetry (ctx : Nat)
  /-- RINGMASTER_STEAL (R344): A cluster idle for 20 us receives entries stolen from other rings. -/
  | ringmasterSteal (cluster part : Nat)
  /-- PREEMPT_REQUEST (R346): A die halts a partition's slots, engines and streamers. -/
  | preemptRequest (die part : Nat)
  /-- PREEMPT_RESUME (R347): A pre-empted partition's slots are refilled. -/
  | preemptResume (die part : Nat)
  /-- PARTITION_SWAP (R348): A die swaps one resident partition out and another in. -/
  | partitionSwap (die old new : Nat)
  /-- WALK_COMPLETE (R358): A page walk finishes and fills the TLBs, or faults. -/
  | walkComplete (die : Nat) (page : Nat)
  /-- WALK_QUEUE_RETRY (R358): A cluster retries a held miss every 64 cycles. -/
  | walkQueueRetry (die : Nat)
  /-- REGION_MIGRATION_START (R367): A write of sys.rgn.ent advances the region table and starts a migration. -/
  | regionMigrationStart (set region : Nat) (entry : Word)
  /-- MIGRATION_LINE_MOVE (R367): The migration engine moves one line and passes the cursor. -/
  | migrationLineMove (set : Nat)
  /-- HOME_NACK_RETRY (R366): A request NACKed for a stale version is resent to the new home. -/
  | homeNackRetry (msg : Ev)
  /-- BANK_DRAIN_DONE (R369): A draining bank finishes and takes its new mode. -/
  | bankDrainDone (cluster bank : Nat)
  /-- BANK_NACK_RETRY (R369): An access NACKed by a draining bank is retried after 64 cycles. -/
  | bankNackRetry (msg : Ev)
  /-- FLIT_RECEIVE (R373): A link receiver checks a flit's CRC and sequence and accepts or NAKs it. -/
  | flitReceive (die link : Nat)
  /-- LINK_NAK (R373): A NAK makes the transmitter resend buffered flits. -/
  | linkNak (die link seq : Nat)
  /-- LINK_ACK (R373): A cumulative acknowledgement frees replay-buffer flits. -/
  | linkAck (die link seq : Nat)
  /-- REPLAY_TIMEOUT (R373): After 1 us without acknowledgement the transmitter resends. -/
  | replayTimeout (die link : Nat)
  /-- LANE_FAULT_REPORT (R374): The PHY reports a faulty lane and a retrain begins. -/
  | laneFaultReport (die link lower upper : Nat)
  /-- LINK_RETRAIN_DONE (R374): A retrain ends at x64, x32 or down, and sequences restart. -/
  | linkRetrainDone (die link : Nat)
  /-- CLASS_AGE_PROMOTION (R378): A class 2 or 3 flit waiting 10 us is sent ahead. -/
  | classAgePromotion (die link cls : Nat)
  /-- HOME_READ_REQUEST (R380): A home directory serves a read by MOESI state. -/
  | homeReadRequest (r : Req)
  /-- OWNERSHIP_REQUEST (R380): A home directory starts invalidations or recalls for an ownership request. -/
  | ownershipRequest (line : Nat) (from_ : Sender)
  /-- OWNERSHIP_GRANT (R381): Ownership is granted once every copy is invalidated and acknowledged. -/
  | ownershipGrant (line cluster : Nat)
  /-- DIE_RECALL (R380): A die receives a recall or invalidation and answers. -/
  | dieRecall (line die : Nat) (keep : Bool)
  /-- WRITE_BACK_ARRIVAL (R381): The home merges written-back dirty sectors. -/
  | writeBackArrival (line die sectors : Nat)
  /-- CALLIOPE_EXCHANGE (R382): The grandmaster starts a timestamp exchange every 1 us. -/
  | calliopeExchange (die : Nat)
  /-- CALLIOPE_RESULT (R382): A die computes offset and delay and adjusts its servo. -/
  | calliopeResult (die : Nat) (t1 t2 t3 t4 : Nat)
  /-- EXCHANGE_MISSING (R383): Three missing exchanges make a die lose lock. -/
  | exchangeMissing (die : Nat)
  /-- PTP_EVENT_MESSAGE (R384): The X-die handles an IEEE 1588 message on scale-out Ethernet. -/
  | ptpEventMessage (msg : PtpMessage) (ticks : Nat)
  /-- HEARTBEAT_TIMEOUT (R385): A compute die's heartbeat absent 10 us makes the X-die declare it failed. -/
  | heartbeatTimeout (die : Nat)
  /-- DIE_FAILURE_BROADCAST (R385): A die learns of a failed die and reroutes or discards traffic. -/
  | dieFailureBroadcast (die failed : Nat)
  /-- HOME_FAILURE_PROCESS (R386): A home marks the failed die's lines LOST and its contexts lost. -/
  | homeFailureProcess (mdie failed : Nat)
  /-- SCRUB_READ (R393): The scrubber reads a sector on its pass. -/
  | scrubRead (mdie sector err : Nat)
  /-- SCRUB_WRITE (R394): A corrected sector is written only if its sequence number is unchanged. -/
  | scrubWrite (mdie sector seq : Nat)
  /-- CONTEXT_LOSS (R395): A lasting register-bank error removes one context with kind 12. -/
  | contextLoss (ctx : Nat)
  /-- RAS_POP (R400): A write of sys.ras.pop removes the oldest log entry. -/
  | rasPop (die : Nat)
  /-- MCHECK_CLEAR (R311): Clearing sys.mcheck lets the core deliver traps again. -/
  | mcheckClear (core : Nat) (val : Word)
  /-- HANDLER_INSTALL (R309): A write of sys.hcva.s or sys.hcva.m installs a dormant handler context. -/
  | handlerInstall (core : Nat) (lvlM : Bool) (cva : Word)
  /-- LNK_RETRAIN_FORCE (R388): Writing RETRAIN in sys.lnk.ctl forces a retrain. -/
  | lnkRetrainForce (die link : Nat)
  /-- LNK_INJECT (R388): Writing INJECT corrupts the CRC of the next flit sent. -/
  | lnkInject (die link : Nat)
  /-- DLOG_BASE_WRITE (R413): Writing sys.dlog.base restarts the debug log count. -/
  | dlogBaseWrite (die : Nat) (val : Word)
  /-- LINK_COUNTER_SNAPSHOT (R420): gtime crosses 2^K ticks and a router-counter snapshot is written or skipped. -/
  | linkCounterSnapshot (die : Nat)
  /-- PC_SAMPLE (R421): A core samples a slot and updates the PC table. -/
  | pcSample (core : Nat)
  /-- PCT_DISABLE_SPILL (R421): Writing 0 to ENABLE of sys.pct.ctl spills every entry. -/
  | pctDisableSpill (part : Nat)
  /-- RPL_CTL_WRITE (R413): Writing sys.rpl.ctl sets the replay mode and clears divergence status. -/
  | rplCtlWrite (part : Nat) (val : Word)
  /-- REPLAY_DIVERGENCE (R423): A held operation's window expires and a divergence is raised. -/
  | replayDivergence (unit loc : Nat)
  /-- OPERATING_POINT_CHANGE (R31): A die switches its clock at a rotation boundary. -/
  | operatingPointChange (die mhz : Nat)
  /-- PWR_CAP_WRITE (R431): Writing sys.pwr.cap sets the die's power cap. -/
  | pwrCapWrite (die : Nat) (val : Word)
  /-- PACKAGE_RESET (R425): Package reset starts the measured boot from the X-die ROM. -/
  | packageReset
  /-- BOOT_STEP_ADVANCE (R425): A boot step ends and the next starts, or boot fails. -/
  | bootStepAdvance
  /-- DIE_RESET (R425): The X-die resets one die and repeats boot step 3 for it. -/
  | dieReset (die : Nat)
  /-- HOST_ACCESS (R427): A host load or store takes effect at a home memory die. -/
  | hostAccess (wr : Bool) (addr size data : Nat)
  /-- SCALE_UP_ACCESS (R429): A scale-up peer access arrives through the X-die. -/
  | scaleUpAccess (peer : Nat) (wr : Bool) (addr size data : Nat)
  /-- PORT_LAUNCH (R428): Launch-port command 1 submits a launch. -/
  | portLaunch (part : Nat) (arg0 arg1 res : Word)
  /-- PORT_RELAUNCH (R428): Launch-port command 2 submits a relaunch. -/
  | portRelaunch (part : Nat) (arg0 arg1 res : Word)
  /-- PORT_REPAIR (R428): Launch-port command 3 submits a repairing relaunch. -/
  | portRepair (part : Nat) (arg0 arg1 res : Word)
  /-- SETMODE (R432): Mailbox command setting the partition mode. -/
  | setmode (mode res : Word)
  /-- CREATE (R432): Mailbox command creating a resident partition. -/
  | create (set share res : Word)
  /-- DESTROY (R432): Mailbox command ending a resident partition. -/
  | destroy (set idx res : Word)
  /-- SWAP (R432): Mailbox command swapping the active partition. -/
  | swap (set idx res : Word)
  /-- SLICE (R432): Mailbox command setting the time slice. -/
  | slice (set us res : Word)
  /-- PREEMPT (R432): Mailbox command pre-empting the active partition. -/
  | preempt (set res : Word)
  /-- RESUME (R432): Mailbox command resuming a pre-empted partition. -/
  | resume (set res : Word)
  /-- ATTEST (R426): Mailbox command returning a signed attestation report. -/
  | attest (nonce buf res : Word)
  /-- TIME_SLICE_EXPIRY (R433): At the end of a slice the die set swaps to the next partition. -/
  | timeSliceExpiry (set : Nat)
  /-- NON_INSTRUCTION_ENCODING (R152): A thread issues an encoding that is not an instruction, such as a reserved major or an unassigned function, and traps with ILLEGAL_INSTR. -/
  | nonInstructionEncoding (enc : BitVec 32)
  /-- JC_WAIT_REPOLL (R53): A join-counter waiter that found the shared waiter list full re-polls its counter every 1 us. -/
  | jcWaitRepoll (ctx : Nat)
  /-- FLIT_SEND (R408): A link transmitter starts a flit as soon as a message is queued and the link is free, choosing the class by the arbiter's rules. -/
  | flitSend (die link : Nat)
  /-- UNRECOVERABLE_FAULT_REPORT (R385): A compute die reports an unrecoverable fault and the X-die declares that die failed. -/
  | unrecoverableFaultReport (die : Nat)
  /-- LAUNCH_PORT_WRITE_REFUSED (R428): A host write to a launch port that is narrower than 32 bytes, finds no credit, or carries a CMD outside 1 to 3 is refused and counted in sys.host.stat. -/
  | launchPortWriteRefused (part : Nat)
  /-- MAILBOX_WRITE_REFUSED (R432): A host write to the partition controller mailbox that is narrower than 64 bytes, or finds the queue full, is refused and counted. -/
  | mailboxWriteRefused (part : Nat)
deriving DecidableEq, Repr

end Sys2Proof
end

