-- ==== Sys2Proof/WellFormed.lean ====
section
/-! DEFINITION. Which terms of Instr are instructions: no reserved size, scope, order, lane or condition code
(06 Table 6-10), no register the form does not allow. -/

namespace Sys2Proof

/-- Order and scope of an atomic (06 R145): relaxed takes scope 0, every other order a scope from 1 to 5. -/
def orderOk (o s : BitVec 3) : Bool := (o == 0 && s == 0) || (o != 0 && o < 5 && s != 0 && s < 6)

/-- No field of the instruction holds a reserved value; a step of another agent has no encoding and no such field. -/
def Instr.wellFormed (i : Instr) : Bool :=
  match i with
  | .add _ _ _ _ _ _ => true
  | .sub _ _ _ _ _ _ => true
  | .mul _ _ _ _ _ _ => true
  | .mulh _ _ _ _ _ _ _ => true
  | .div _ _ _ _ _ _ _ => true
  | .rem _ _ _ _ _ _ _ => true
  | .and _ _ _ _ _ _ => true
  | .or _ _ _ _ _ _ => true
  | .xor _ _ _ _ _ _ => true
  | .andn _ _ _ _ _ _ => true
  | .orn _ _ _ _ _ _ => true
  | .shl _ _ _ _ _ _ => true
  | .shr _ _ _ _ _ _ => true
  | .sar _ _ _ _ _ _ => true
  | .rol _ _ _ _ _ _ => true
  | .ror _ _ _ _ _ _ => true
  | .clz _ _ _ _ => true
  | .ctz _ _ _ _ => true
  | .popc _ _ _ _ => true
  | .bext _ _ _ _ _ _ _ => true
  | .bins _ _ _ _ _ _ => true
  | .sext s _ _ _ _ => s != 3
  | .zext s _ _ _ _ => s != 3
  | .min _ _ _ _ _ _ _ => true
  | .max _ _ _ _ _ _ _ => true
  | .abs _ _ _ _ => true
  | .mov _ _ _ _ => true
  | .sel _ _ _ _ _ _ => true
  | .cmp _ _ _ _ _ _ c => c < 6
  | .xset _ _ d => d < 4
  | .xget _ a _ => a < 4
  | .andi _ _ _ _ _ => true
  | .ori _ _ _ _ _ => true
  | .xori _ _ _ _ _ => true
  | .shli _ _ _ _ _ => true
  | .shri _ _ _ _ _ => true
  | .sari _ _ _ _ _ => true
  | .roli _ _ _ _ _ => true
  | .rori _ _ _ _ _ => true
  | .muli _ _ _ _ _ => true
  | .addi _ _ _ _ => true
  | .movi _ _ => true
  | .movh _ _ _ _ => true
  | .cmpi _ _ _ _ c => c < 6
  | .padd l _ _ _ _ _ => l != 3
  | .psub l _ _ _ _ _ => l != 3
  | .padds _ l _ _ _ _ _ => l != 3
  | .psubs _ l _ _ _ _ _ => l != 3
  | .pmul l _ _ _ _ _ => l != 3
  | .pmulh _ l _ _ _ _ _ => l != 3
  | .pdot _ l _ _ _ _ _ => l != 3
  | .pavg _ l _ _ _ _ _ => l != 3
  | .pmin _ l _ _ _ _ _ => l != 3
  | .pmax _ l _ _ _ _ _ => l != 3
  | .pabs l _ _ _ => l != 3
  | .psad _ l _ _ _ _ _ => l != 3
  | .pclip _ l _ _ _ _ _ => l != 3
  | .pshl l _ _ _ _ _ => l != 3
  | .pshr l _ _ _ _ _ => l != 3
  | .psar l _ _ _ _ _ => l != 3
  | .pvshl l _ _ _ _ _ => l != 3
  | .pvshr l _ _ _ _ _ => l != 3
  | .pvsar l _ _ _ _ _ => l != 3
  | .pcmp _ l _ _ _ _ c => l != 3 && c < 6
  | .psel _ l _ _ _ _ _ => l != 3
  | .pperm _ _ _ _ _ => true
  | .pnarrow _ l _ _ _ _ _ => l == 1 || l == 2
  | .pwiden _ l _ _ _ _ => l != 3
  | .fadd _ _ _ _ _ => true
  | .fsub _ _ _ _ _ => true
  | .fmul _ _ _ _ _ => true
  | .fma _ _ _ _ _ => true
  | .fdiv _ _ _ _ _ => true
  | .fsqrt _ _ _ => true
  | .fmin _ _ _ _ _ => true
  | .fmax _ _ _ _ _ => true
  | .fcmp _ _ _ _ _ c => c < 5
  | .fcvt _ _ _ _ => true
  | .fclass _ _ _ _ _ => true
  | .pset _ => true
  | .pclr _ => true
  | .pnot _ _ => true
  | .pand _ _ _ => true
  | .por _ _ _ => true
  | .pxor _ _ _ => true
  | .pwr _ => true
  | .pww _ _ _ _ => true
  | .pcnt _ _ _ => true
  | .ld _ s z _ _ t => s < 6 && (z != 7 || !t.getLsbD 0)
  | .st _ s z _ _ _ t => s < 6 && (z < 4 || z == 7 && !t.getLsbD 0)
  | .ldAnchorRel _ _ s z _ _ t => s < 6 && (z != 7 || !t.getLsbD 0)
  | .stAnchorRel _ _ s z _ _ _ t => s < 6 && (z < 4 || z == 7 && !t.getLsbD 0)
  | .amoAdd _ o s _ _ _ _ _ => orderOk o s
  | .amoAnd _ o s _ _ _ _ _ => orderOk o s
  | .amoOr _ o s _ _ _ _ _ => orderOk o s
  | .amoXor _ o s _ _ _ _ _ => orderOk o s
  | .amoMinS _ o s _ _ _ _ _ => orderOk o s
  | .amoMaxS _ o s _ _ _ _ _ => orderOk o s
  | .amoSwp _ o s _ _ _ _ _ => orderOk o s
  | .amoCas _ o s _ _ _ _ _ => orderOk o s
  | .amoFadd _ o s _ _ _ _ _ => orderOk o s
  | .amoMinZ _ o s _ _ _ _ _ => orderOk o s
  | .amoMaxZ _ o s _ _ _ _ _ => orderOk o s
  | .amoAddPost _ o s _ _ _ _ => (o == 0 || o == 2) && orderOk o s
  | .amoAndPost _ o s _ _ _ _ => (o == 0 || o == 2) && orderOk o s
  | .amoOrPost _ o s _ _ _ _ => (o == 0 || o == 2) && orderOk o s
  | .amoXorPost _ o s _ _ _ _ => (o == 0 || o == 2) && orderOk o s
  | .amoMinSPost _ o s _ _ _ _ => (o == 0 || o == 2) && orderOk o s
  | .amoMaxSPost _ o s _ _ _ _ => (o == 0 || o == 2) && orderOk o s
  | .amoSwpPost _ o s _ _ _ _ => (o == 0 || o == 2) && orderOk o s
  | .amoCasPost _ o s _ _ _ _ => (o == 0 || o == 2) && orderOk o s
  | .amoFaddPost _ o s _ _ _ _ => (o == 0 || o == 2) && orderOk o s
  | .amoMinZPost _ o s _ _ _ _ => (o == 0 || o == 2) && orderOk o s
  | .amoMaxZPost _ o s _ _ _ _ => (o == 0 || o == 2) && orderOk o s
  | .ldN _ _ _ _ _ => true
  | .stN _ _ _ _ _ => true
  | .pf l _ _ => l != 3
  | .cflush _ _ => true
  | .cinval _ _ => true
  | .cinvalAll => true
  | .fence _ s => s < 6
  | .stv _ _ _ _ _ _ => true
  | .twait _ _ => true
  | .xld _ _ _ d => d < 4
  | .semV s _ _ => s < 6
  | .semP s _ _ => s < 6
  | .jcAdd s _ _ _ _ => s < 6
  | .jcWait _ _ _ _ => true
  | .waitMem _ _ _ _ _ _ => true
  | .yield => true
  | .exit => true
  | .spawn _ _ _ _ _ => true
  | .spawnDef _ _ _ _ _ => true
  | .chunkInit _ _ _ _ _ => true
  | .chunk _ _ => true
  | .barCfg _ _ _ _ _ => true
  | .barArr _ _ => true
  | .barWait _ _ _ => true
  | .barTest _ _ _ _ _ => true
  | .ksend _ _ _ _ _ => true
  | .kbinCfg _ _ _ _ _ => true
  | .idr s _ => s < 6
  | .gtime _ => true
  | .gtimeLk _ => true
  | .cyc _ => true
  | .cycT _ => true
  | .launch _ _ _ => true
  | .talloc _ _ _ => true
  | .tfree _ _ => true
  | .tview _ _ _ _ _ => true
  | .tinfo _ _ _ => true
  | .tget _ _ _ => true
  | .tset _ _ _ _ => true
  | .vfence => true
  | .vbusy _ => true
  | .vadd _ _ _ _ _ _ => true
  | .vsub _ _ _ _ _ _ => true
  | .vmul _ _ _ _ _ _ => true
  | .vfma _ _ _ _ _ _ => true
  | .vmin _ _ _ _ _ _ => true
  | .vmax _ _ _ _ _ _ => true
  | .vabs _ _ _ _ => true
  | .vneg _ _ _ _ => true
  | .vexp2 _ _ _ _ => true
  | .vlog2 _ _ _ _ => true
  | .vrcp _ _ _ _ => true
  | .vrsqrt _ _ _ _ => true
  | .vtanh _ _ _ _ => true
  | .vcvt _ _ _ _ => true
  | .vcmp c _ _ _ _ _ _ => c < 6
  | .vsel _ _ _ _ _ _ => true
  | .vrowred _ _ _ _ _ => true
  | .vcolred _ _ _ _ _ => true
  | .vbcast _ _ _ _ _ => true
  | .vtrans _ _ _ _ => true
  | .vscale _ _ _ _ _ => true
  | .vquant _ _ _ _ => true
  | .vshl v fb rb _ _ _ _ => v || (!fb && rb == 0)
  | .vshr v fb rb _ _ _ _ => v || (!fb && rb == 0)
  | .vsar v fb rb _ _ _ _ => v || (!fb && rb == 0)
  | .vclamp _ _ _ _ => true
  | .vmov _ _ _ _ => true
  | .vfill _ _ _ _ => true
  | .vmask _ _ _ _ _ => true
  | .mma _ _ _ _ _ _ _ _ _ _ => true
  | .mdrain _ _ _ _ _ _ => true
  | .cpyMt _ _ _ _ _ _ => true
  | .cpyTm _ _ _ _ _ _ => true
  | .cpyMm _ _ _ _ _ _ => true
  | .gath _ _ _ _ _ _ => true
  | .scat _ _ _ _ _ _ => true
  | .trgen _ => true
  | .relaunch _ _ _ _ _ => true
  | .relaunchRepair _ _ _ _ _ => true
  | .trstat _ => true
  | .dmread _ _ _ => true
  | .dmmark _ _ _ _ _ _ => true
  | .sys _ => true
  | .eret => true
  | .srd _ _ => true
  | .swr _ _ _ => true
  | .ctxLd _ _ _ _ => true
  | .ctxSt _ _ _ _ _ _ => true
  | .ctxReady _ _ _ => true
  | .ctxEvict _ _ _ _ => true
  | .ctxPark _ _ _ => true
  | .ctxParkKill _ _ _ => true
  | .tlbi _ s _ _ _ _ => s != 0 && s < 6
  | .bmode _ _ _ _ _ => true
  | .slotPark _ _ => true
  | .slotFree _ _ => true
  | .dstop _ _ _ => true
  | .halt => true
  | .jr _ _ => true
  | .jrL _ _ => true
  | .nop => true
  | .b _ => true
  | .bl _ => true
  | .bz _ _ _ => true
  | .bnz _ _ _ => true
  | .bany _ _ => true
  | .ball _ _ => true
  | .bnone _ _ => true
  | .loop _ _ _ => true
  | .bpt _ _ => true
  | .bpf _ _ => true
  | .dadd _ _ _ _ _ => true
  | .dsub _ _ _ _ _ => true
  | .dmul _ _ _ _ _ => true
  | .dfma _ _ _ _ _ => true
  | .ddiv _ _ _ _ _ => true
  | .dsqrt _ _ _ => true
  | .dcvtTo _ _ _ _ => true
  | .dcvtFrom _ _ _ _ => true
  | .dcmp _ _ _ _ _ c => c < 5
  | .bsopen _ _ _ _ => true
  | .getb _ _ _ => true
  | .getbImm _ _ => true
  | .peekb _ _ _ => true
  | .peekbImm _ _ => true
  | .skipb _ _ => true
  | .skipbImm _ => true
  | .getue _ => true
  | .getse _ => true
  | .bsalign => true
  | .crc _ _ _ _ _ _ _ => true
  | .addiC16 d a i => d != 0 || a != 0 || i != 0
  | .andiC16 _ _ _ => true
  | .shliC16 _ _ _ => true
  | .shriC16 _ _ _ => true
  | .sariC16 _ _ _ => true
  | .ldDC16 _ _ _ => true
  | .stDC16 _ _ _ => true
  | .moviC16 _ _ => true
  | .addC16 _ _ _ => true
  | .subC16 _ _ _ => true
  | .andC16 _ _ _ => true
  | .orC16 _ _ _ => true
  | .xorC16 _ _ _ => true
  | .andnC16 _ _ _ => true
  | .mulC16 _ _ _ => true
  | .movC16 _ _ => true
  | .shlC16 _ _ _ => true
  | .shrC16 _ _ _ => true
  | .sarC16 _ _ _ => true
  | .ldWC16 _ _ _ => true
  | .stWC16 _ _ _ => true
  | .jrC16 _ => true
  | .exitC16 => true
  | .yieldC16 => true
  | .nopC16 => true
  | .bzC16 _ _ _ => true
  | .bnzC16 _ _ _ => true
  | .bC16 _ => true
  | .bptC16 _ _ => true
  | .bpfC16 _ _ => true
  | .fmt _ _ _ => true
  | .registerFill _ _ _ _ _ _ _ _ => true
  | .idleContextReplace _ _ => true
  | .quantumExpiry _ _ => true
  | .agingPromotion _ => true
  | .launchAccept _ _ _ _ _ _ _ => true
  | .blockStart _ => true
  | .launchCompletion _ => true
  | .semVExecute _ _ _ _ => true
  | .semPExecute _ _ _ _ => true
  | .semPResend _ => true
  | .jcUpdate _ _ _ _ _ => true
  | .chunkInitRequest _ _ _ _ _ _ => true
  | .chunkRequest _ _ _ _ _ _ => true
  | .spawnPoolRequest _ _ _ _ _ _ _ _ => true
  | .wakeupApply _ _ _ _ _ => true
  | .coreStoreAccess _ => true
  | .storeVisible _ => true
  | .nibbleStoreExecute _ => true
  | .atomicExecute _ _ _ _ _ => true
  | .fenceTokenArrival _ _ _ => true
  | .fenceEchoArrival _ _ _ => true
  | .postedTokenRound _ _ => true
  | .heldReleaseSend _ => true
  | .barrierSignal _ _ _ => true
  | .barrierRelease _ _ => true
  | .barrierTimeout _ _ => true
  | .barrierAbort _ _ _ => true
  | .ksendAccumulate _ _ _ _ _ => true
  | .commandAccept _ => true
  | .commandRetry _ => true
  | .commandReply _ _ _ _ _ _ => true
  | .tallocServe _ _ _ _ _ _ _ => true
  | .taskAdmit _ => true
  | .mmaFragmentDone _ _ => true
  | .streamerPartStart _ _ _ => true
  | .streamerPush _ _ _ => true
  | .streamerPartDone _ _ _ => true
  | .taskComplete _ _ => true
  | .cmdsDecrement _ _ _ => true
  | .traceReport _ _ _ _ _ => true
  | .blockRecordWrite _ => true
  | .generationBroadcast _ _ _ => true
  | .generationAdvanceDone _ => true
  | .restampRequest _ _ _ => true
  | .relaunchAccept _ _ _ _ _ _ _ _ _ => true
  | .relaunchComplete _ => true
  | .watchArm _ _ _ _ _ _ _ _ => true
  | .watchTimeout _ => true
  | .watchCancel _ => true
  | .timeDeadline _ => true
  | .contextClaim _ _ => true
  | .contextLineArrival _ _ => true
  | .contextTransferAck _ => true
  | .messageReturn _ _ => true
  | .carouselRingClaim _ => true
  | .ringPost _ => true
  | .ringPostRetry _ => true
  | .ringmasterSteal _ _ => true
  | .preemptRequest _ _ => true
  | .preemptResume _ _ => true
  | .partitionSwap _ _ _ => true
  | .walkComplete _ _ => true
  | .walkQueueRetry _ => true
  | .regionMigrationStart _ _ _ => true
  | .migrationLineMove _ => true
  | .homeNackRetry _ => true
  | .bankDrainDone _ _ => true
  | .bankNackRetry _ => true
  | .flitReceive _ _ => true
  | .linkNak _ _ _ => true
  | .linkAck _ _ _ => true
  | .replayTimeout _ _ => true
  | .laneFaultReport _ _ _ _ => true
  | .linkRetrainDone _ _ => true
  | .classAgePromotion _ _ _ => true
  | .homeReadRequest _ => true
  | .ownershipRequest _ _ => true
  | .ownershipGrant _ _ => true
  | .dieRecall _ _ _ => true
  | .writeBackArrival _ _ _ => true
  | .calliopeExchange _ => true
  | .calliopeResult _ _ _ _ _ => true
  | .exchangeMissing _ => true
  | .ptpEventMessage _ _ => true
  | .heartbeatTimeout _ => true
  | .dieFailureBroadcast _ _ => true
  | .homeFailureProcess _ _ => true
  | .scrubRead _ _ _ => true
  | .scrubWrite _ _ _ => true
  | .contextLoss _ => true
  | .rasPop _ => true
  | .mcheckClear _ _ => true
  | .handlerInstall _ _ _ => true
  | .lnkRetrainForce _ _ => true
  | .lnkInject _ _ => true
  | .dlogBaseWrite _ _ => true
  | .linkCounterSnapshot _ => true
  | .pcSample _ => true
  | .pctDisableSpill _ => true
  | .rplCtlWrite _ _ => true
  | .replayDivergence _ _ => true
  | .operatingPointChange _ _ => true
  | .pwrCapWrite _ _ => true
  | .packageReset => true
  | .bootStepAdvance => true
  | .dieReset _ => true
  | .hostAccess _ _ _ _ => true
  | .scaleUpAccess _ _ _ _ _ => true
  | .portLaunch _ _ _ _ => true
  | .portRelaunch _ _ _ _ => true
  | .portRepair _ _ _ _ => true
  | .setmode _ _ => true
  | .create _ _ _ => true
  | .destroy _ _ _ => true
  | .swap _ _ _ => true
  | .slice _ _ _ => true
  | .preempt _ _ => true
  | .resume _ _ => true
  | .attest _ _ _ => true
  | .timeSliceExpiry _ => true
  | .nonInstructionEncoding _ => true
  | .jcWaitRepoll _ => true
  | .flitSend _ _ => true
  | .unrecoverableFaultReport _ => true
  | .launchPortWriteRefused _ => true
  | .mailboxWriteRefused _ => true

end Sys2Proof
end

