-- ==== Sys2Proof/Decode.lean ====
section
/-! DEFINITION. The decoder and the encoder (06 R131 to R152): one function per major opcode over the fields of its
format (06 Table 6-1), the 16-bit map of 06 Table 6-8, and the encoder written from the same tables. -/

namespace Sys2Proof

/-- Why an encoding is not an instruction (06 Table 6-10, R3). -/
inductive Reject where
  /-- Halfword 0x0000. -/
  | zeroHalfword
  /-- A reserved major opcode or an unassigned 16-bit slot. -/
  | reservedMajor
  /-- An unassigned fn, INTI op, X op or BR test code. -/
  | unassigned
  /-- A reserved field that is not zero. -/
  | reservedField
  /-- A reserved size, scope, order, lane or condition code, or a register the form does not allow. -/
  | reservedValue
deriving DecidableEq, Repr

/-- What an encoding stands for: an instruction, or nothing, for the reason named. -/
inductive Decoded where
  | ok (i : Instr)
  | err (r : Reject)
deriving DecidableEq, Repr

/-- The instruction, where there is one. -/
def Decoded.instr : Decoded → Option Instr
  | .ok i => some i
  | .err _ => none

/-- An encoding: one halfword, or two with the first in bits [15:0] (06 R131). -/
inductive Enc where
  | half (h : BitVec 16)
  | word (w : BitVec 32)
deriving DecidableEq, Repr

/-- The encoding zero-extended, as the traps of 13 Table 13-3 carry it. -/
def Enc.toWord : Enc → Word
  | .half h => h.setWidth 64
  | .word w => w.setWidth 64

/-- Bytes that the encoding takes (06 R131). -/
def Enc.bytes : Enc → Nat
  | .half _ => 2
  | .word _ => 4

/-- Fields of format A (06 Table 6-1); format X has op in md, mod in fn and fn3 in d. -/
structure FmtA where
  md : BitVec 7
  fn : BitVec 7
  fb : Bool
  b : Reg
  fa : Bool
  a : Reg
  d : Reg
  major : BitVec 5
deriving DecidableEq, Repr

/-- Fields of format I, with imm18 in the parts that INTI and CMPI give it. -/
structure FmtI where
  imm : BitVec 18
  fa : Bool
  a : Reg
  d : Reg
  major : BitVec 5
deriving DecidableEq, Repr

/-- Fields of formats M and MR: off11, or dx, dy and dir, in `off`. -/
structure FmtM where
  off : BitVec 11
  os : BitVec 3
  size : BitVec 3
  ft : Bool
  fa : Bool
  a : Reg
  t : Reg
  major : BitVec 5
deriving DecidableEq, Repr

/-- One bit of a field. -/
def bit {n : Nat} (v : BitVec n) (i : Nat) : Bool := v.getLsbD i
/-- Bits [lo + len - 1 : lo] of a field. -/
def sub {n : Nat} (v : BitVec n) (lo len : Nat) : BitVec len := v.extractLsb' lo len
/-- A one-bit field. -/
def ofB (b : Bool) : BitVec 1 := BitVec.ofBool b

/-- Format A, from bit 31 down (06 Table 6-1). -/
def packA (f : FmtA) : BitVec 32 :=
  f.md ++ f.fn ++ ofB f.fb ++ f.b ++ ofB f.fa ++ f.a ++ f.d ++ f.major ++ 3#2
/-- Format I. -/
def packI (f : FmtI) : BitVec 32 := f.imm ++ ofB f.fa ++ f.a ++ f.d ++ f.major ++ 3#2
/-- Formats M and MR. -/
def packM (f : FmtM) : BitVec 32 :=
  f.off ++ f.os ++ f.size ++ ofB f.ft ++ ofB f.fa ++ f.a ++ f.t ++ f.major ++ 3#2

/-- The fields of a word of format A or X. -/
def fieldsA (w : BitVec 32) : FmtA :=
  ⟨sub w 25 7, sub w 18 7, bit w 17, sub w 14 3, bit w 13, sub w 10 3, sub w 7 3, sub w 2 5⟩
/-- The fields of a word of format I, B or BP. -/
def fieldsI (w : BitVec 32) : FmtI := ⟨sub w 14 18, bit w 13, sub w 10 3, sub w 7 3, sub w 2 5⟩
/-- The fields of a word of format M or MR. -/
def fieldsM (w : BitVec 32) : FmtM :=
  ⟨sub w 21 11, sub w 18 3, sub w 15 3, bit w 14, bit w 13, sub w 10 3, sub w 7 3, sub w 2 5⟩

/-- An instruction whose reserved fields are zero, under the condition given (00 R3). -/
def keep (ok : Bool) (i : Instr) : Decoded := if ok then .ok i else .err .reservedField

/-- Major INT (06 Table 6-6). -/
def decodeINT (f : FmtA) : Decoded :=
  match f.fn.toNat with
  | 0x00 => keep (f.md &&& 0x7E == 0x00) (.add (bit f.md 0) f.fb f.b f.fa f.a f.d)
  | 0x01 => keep (f.md &&& 0x7E == 0x00) (.sub (bit f.md 0) f.fb f.b f.fa f.a f.d)
  | 0x02 => keep (f.md &&& 0x7E == 0x00) (.mul (bit f.md 0) f.fb f.b f.fa f.a f.d)
  | 0x03 => keep (f.md &&& 0x7C == 0x00) (.mulh (bit f.md 1) (bit f.md 0) f.fb f.b f.fa f.a f.d)
  | 0x04 => keep (f.md &&& 0x7C == 0x00) (.div (bit f.md 1) (bit f.md 0) f.fb f.b f.fa f.a f.d)
  | 0x05 => keep (f.md &&& 0x7C == 0x00) (.rem (bit f.md 1) (bit f.md 0) f.fb f.b f.fa f.a f.d)
  | 0x06 => keep (f.md &&& 0x7E == 0x00) (.and (bit f.md 0) f.fb f.b f.fa f.a f.d)
  | 0x07 => keep (f.md &&& 0x7E == 0x00) (.or (bit f.md 0) f.fb f.b f.fa f.a f.d)
  | 0x08 => keep (f.md &&& 0x7E == 0x00) (.xor (bit f.md 0) f.fb f.b f.fa f.a f.d)
  | 0x09 => keep (f.md &&& 0x7E == 0x00) (.andn (bit f.md 0) f.fb f.b f.fa f.a f.d)
  | 0x0A => keep (f.md &&& 0x7E == 0x00) (.orn (bit f.md 0) f.fb f.b f.fa f.a f.d)
  | 0x0B => keep (f.md &&& 0x7E == 0x00) (.shl (bit f.md 0) f.fb f.b f.fa f.a f.d)
  | 0x0C => keep (f.md &&& 0x7E == 0x00) (.shr (bit f.md 0) f.fb f.b f.fa f.a f.d)
  | 0x0D => keep (f.md &&& 0x7E == 0x00) (.sar (bit f.md 0) f.fb f.b f.fa f.a f.d)
  | 0x0E => keep (f.md &&& 0x7E == 0x00) (.rol (bit f.md 0) f.fb f.b f.fa f.a f.d)
  | 0x0F => keep (f.md &&& 0x7E == 0x00) (.ror (bit f.md 0) f.fb f.b f.fa f.a f.d)
  | 0x10 => keep (f.md &&& 0x7E == 0x00 && !f.fb && f.b == 0) (.clz (bit f.md 0) f.fa f.a f.d)
  | 0x11 => keep (f.md &&& 0x7E == 0x00 && !f.fb && f.b == 0) (.ctz (bit f.md 0) f.fa f.a f.d)
  | 0x12 => keep (f.md &&& 0x7E == 0x00 && !f.fb && f.b == 0) (.popc (bit f.md 0) f.fa f.a f.d)
  | 0x13 => keep (f.md &&& 0x7C == 0x00) (.bext (bit f.md 1) (bit f.md 0) f.fb f.b f.fa f.a f.d)
  | 0x14 => keep (f.md &&& 0x7E == 0x00) (.bins (bit f.md 0) f.fb f.b f.fa f.a f.d)
  | 0x15 => keep (f.md &&& 0x72 == 0x00 && !f.fb && f.b == 0) (.sext (sub f.md 2 2) (bit f.md 0) f.fa f.a f.d)
  | 0x16 => keep (f.md &&& 0x72 == 0x00 && !f.fb && f.b == 0) (.zext (sub f.md 2 2) (bit f.md 0) f.fa f.a f.d)
  | 0x17 => keep (f.md &&& 0x7C == 0x00) (.min (bit f.md 1) (bit f.md 0) f.fb f.b f.fa f.a f.d)
  | 0x18 => keep (f.md &&& 0x7C == 0x00) (.max (bit f.md 1) (bit f.md 0) f.fb f.b f.fa f.a f.d)
  | 0x19 => keep (f.md &&& 0x7E == 0x00 && !f.fb && f.b == 0) (.abs (bit f.md 0) f.fa f.a f.d)
  | 0x1A => keep (f.md &&& 0x7E == 0x00 && !f.fb && f.b == 0) (.mov (bit f.md 0) f.fa f.a f.d)
  | 0x1B => keep (f.md &&& 0x40 == 0x00) (.sel (sub f.md 0 6) f.fb f.b f.fa f.a f.d)
  | 0x1C => keep (true) (.cmp (bit f.md 6) (sub f.md 0 6) f.fb f.b f.fa f.a f.d)
  | 0x1D => keep (f.md &&& 0x7F == 0x00 && !f.fb && f.b == 0) (.xset f.fa f.a f.d)
  | 0x1E => keep (f.md &&& 0x7F == 0x00 && !f.fb && f.b == 0) (.xget f.fa f.a f.d)
  | _ => .err .unassigned

/-- Major PACK (06 Table 6-6). -/
def decodePACK (f : FmtA) : Decoded :=
  match f.fn.toNat with
  | 0x00 => keep (f.md &&& 0x7C == 0x00) (.padd (sub f.md 0 2) f.fb f.b f.fa f.a f.d)
  | 0x01 => keep (f.md &&& 0x7C == 0x00) (.psub (sub f.md 0 2) f.fb f.b f.fa f.a f.d)
  | 0x02 => keep (f.md &&& 0x78 == 0x00) (.padds (bit f.md 2) (sub f.md 0 2) f.fb f.b f.fa f.a f.d)
  | 0x03 => keep (f.md &&& 0x78 == 0x00) (.psubs (bit f.md 2) (sub f.md 0 2) f.fb f.b f.fa f.a f.d)
  | 0x04 => keep (f.md &&& 0x7C == 0x00) (.pmul (sub f.md 0 2) f.fb f.b f.fa f.a f.d)
  | 0x05 => keep (f.md &&& 0x78 == 0x00) (.pmulh (bit f.md 2) (sub f.md 0 2) f.fb f.b f.fa f.a f.d)
  | 0x06 => keep (f.md &&& 0x78 == 0x00) (.pdot (bit f.md 2) (sub f.md 0 2) f.fb f.b f.fa f.a f.d)
  | 0x07 => keep (f.md &&& 0x78 == 0x00) (.pavg (bit f.md 2) (sub f.md 0 2) f.fb f.b f.fa f.a f.d)
  | 0x08 => keep (f.md &&& 0x78 == 0x00) (.pmin (bit f.md 2) (sub f.md 0 2) f.fb f.b f.fa f.a f.d)
  | 0x09 => keep (f.md &&& 0x78 == 0x00) (.pmax (bit f.md 2) (sub f.md 0 2) f.fb f.b f.fa f.a f.d)
  | 0x0A => keep (f.md &&& 0x7C == 0x00 && !f.fb && f.b == 0) (.pabs (sub f.md 0 2) f.fa f.a f.d)
  | 0x0B => keep (f.md &&& 0x78 == 0x00) (.psad (bit f.md 2) (sub f.md 0 2) f.fb f.b f.fa f.a f.d)
  | 0x0C => keep (f.md &&& 0x78 == 0x00) (.pclip (bit f.md 2) (sub f.md 0 2) f.fb f.b f.fa f.a f.d)
  | 0x0D => keep (f.md &&& 0x7C == 0x00) (.pshl (sub f.md 0 2) f.fb f.b f.fa f.a f.d)
  | 0x0E => keep (f.md &&& 0x7C == 0x00) (.pshr (sub f.md 0 2) f.fb f.b f.fa f.a f.d)
  | 0x0F => keep (f.md &&& 0x7C == 0x00) (.psar (sub f.md 0 2) f.fb f.b f.fa f.a f.d)
  | 0x10 => keep (f.md &&& 0x7C == 0x00) (.pvshl (sub f.md 0 2) f.fb f.b f.fa f.a f.d)
  | 0x11 => keep (f.md &&& 0x7C == 0x00) (.pvshr (sub f.md 0 2) f.fb f.b f.fa f.a f.d)
  | 0x12 => keep (f.md &&& 0x7C == 0x00) (.pvsar (sub f.md 0 2) f.fb f.b f.fa f.a f.d)
  | 0x13 => keep (f.md &&& 0x44 == 0x00) (.pcmp (sub f.md 3 3) (sub f.md 0 2) f.fb f.b f.fa f.a f.d)
  | 0x14 => keep (f.md &&& 0x44 == 0x00) (.psel (sub f.md 3 3) (sub f.md 0 2) f.fb f.b f.fa f.a f.d)
  | 0x15 => keep (f.md &&& 0x7F == 0x00) (.pperm f.fb f.b f.fa f.a f.d)
  | 0x16 => keep (f.md &&& 0x78 == 0x00) (.pnarrow (bit f.md 2) (sub f.md 0 2) f.fb f.b f.fa f.a f.d)
  | 0x17 => keep (f.md &&& 0x78 == 0x00 && !f.fb && f.b &&& 6 == 0) (.pwiden (bit f.md 2) (sub f.md 0 2) (bit f.b 0) f.fa f.a f.d)
  | _ => .err .unassigned

/-- Major FP (06 Table 6-6). -/
def decodeFP (f : FmtA) : Decoded :=
  match f.fn.toNat with
  | 0x00 => keep (f.md &&& 0x7F == 0x00) (.fadd f.fb f.b f.fa f.a f.d)
  | 0x01 => keep (f.md &&& 0x7F == 0x00) (.fsub f.fb f.b f.fa f.a f.d)
  | 0x02 => keep (f.md &&& 0x7F == 0x00) (.fmul f.fb f.b f.fa f.a f.d)
  | 0x03 => keep (f.md &&& 0x7F == 0x00) (.fma f.fb f.b f.fa f.a f.d)
  | 0x04 => keep (f.md &&& 0x7F == 0x00) (.fdiv f.fb f.b f.fa f.a f.d)
  | 0x05 => keep (f.md &&& 0x7F == 0x00 && !f.fb && f.b == 0) (.fsqrt f.fa f.a f.d)
  | 0x06 => keep (f.md &&& 0x7F == 0x00) (.fmin f.fb f.b f.fa f.a f.d)
  | 0x07 => keep (f.md &&& 0x7F == 0x00) (.fmax f.fb f.b f.fa f.a f.d)
  | 0x08 => keep (f.md &&& 0x40 == 0x00) (.fcmp (sub f.md 0 6) f.fb f.b f.fa f.a f.d)
  | 0x09 => keep (f.md &&& 0x70 == 0x00 && !f.fb && f.b == 0) (.fcvt (sub f.md 0 4) f.fa f.a f.d)
  | 0x0A => keep (f.md &&& 0x40 == 0x00 && f.d == 0) (.fclass (sub f.md 0 6) f.fb f.b f.fa f.a)
  | _ => .err .unassigned

/-- Major PRED (06 Table 6-6). -/
def decodePRED (f : FmtA) : Decoded :=
  match f.fn.toNat with
  | 0x00 => keep (f.md &&& 0x40 == 0x00 && !f.fb && f.b == 0 && !f.fa && f.a == 0 && f.d == 0) (.pset (sub f.md 0 6))
  | 0x01 => keep (f.md &&& 0x40 == 0x00 && !f.fb && f.b == 0 && !f.fa && f.a == 0 && f.d == 0) (.pclr (sub f.md 0 6))
  | 0x02 => keep (f.md &&& 0x7F == 0x00 && !f.fb && f.b == 0 && !f.fa) (.pnot f.a f.d)
  | 0x03 => keep (f.md &&& 0x7F == 0x00 && !f.fb && !f.fa) (.pand f.b f.a f.d)
  | 0x04 => keep (f.md &&& 0x7F == 0x00 && !f.fb && !f.fa) (.por f.b f.a f.d)
  | 0x05 => keep (f.md &&& 0x7F == 0x00 && !f.fb && !f.fa) (.pxor f.b f.a f.d)
  | 0x06 => keep (f.md &&& 0x7F == 0x00 && !f.fb && f.b == 0 && !f.fa && f.a == 0) (.pwr f.d)
  | 0x07 => keep (f.md &&& 0x7F == 0x00 && f.d == 0) (.pww f.fb f.b f.fa f.a)
  | 0x08 => keep (f.md &&& 0x7F == 0x00 && !f.fb && f.b == 0) (.pcnt f.fa f.a f.d)
  | _ => .err .unassigned

/-- Major MEMX (06 Table 6-6). -/
def decodeMEMX (f : FmtA) : Decoded :=
  match f.fn.toNat with
  | 0x00 => keep (f.md &&& 0x7C == 0x00 && !f.fb && f.b == 0) (.ldN (bit f.md 1) (bit f.md 0) f.fa f.a f.d)
  | 0x01 => keep (f.md &&& 0x7E == 0x00 && f.d == 0) (.stN (bit f.md 0) f.fb f.b f.fa f.a)
  | 0x02 => keep (f.md &&& 0x7C == 0x00 && !f.fb && f.b == 0 && f.d == 0) (.pf (sub f.md 0 2) f.fa f.a)
  | 0x03 => keep (f.md &&& 0x7F == 0x00 && !f.fb && f.b == 0 && f.d == 0) (.cflush f.fa f.a)
  | 0x04 =>
    if f.md &&& 0x7F == 0x00 && !f.fb && f.b == 0 && f.d == 0 then .ok (.cinval f.fa f.a)
    else keep (f.md &&& 0x7F == 0x01 && !f.fb && f.b == 0 && !f.fa && f.a == 0 && f.d == 0) (.cinvalAll)
  | 0x05 => keep (f.md &&& 0x60 == 0x00 && !f.fb && f.b == 0 && !f.fa && f.a == 0 && f.d == 0) (.fence (sub f.md 3 2) (sub f.md 0 3))
  | 0x06 => keep (f.md &&& 0x7C == 0x00) (.stv (sub f.md 0 2) f.fb f.b f.fa f.a f.d)
  | 0x07 => keep (f.md &&& 0x7F == 0x00 && !f.fb && f.b == 0 && f.d == 0) (.twait f.fa f.a)
  | 0x08 => keep (!f.fb && f.b == 0) (.xld (sub f.md 0 7) f.fa f.a f.d)
  | _ => .err .unassigned

/-- Major SYNC (06 Table 6-6). -/
def decodeSYNC (f : FmtA) : Decoded :=
  match f.fn.toNat with
  | 0x00 => keep (f.md &&& 0x78 == 0x00 && !f.fb && f.b == 0 && f.d == 0) (.semV (sub f.md 0 3) f.fa f.a)
  | 0x01 => keep (f.md &&& 0x78 == 0x00 && !f.fb && f.b == 0 && f.d == 0) (.semP (sub f.md 0 3) f.fa f.a)
  | 0x02 => keep (f.md &&& 0x78 == 0x00 && f.d == 0) (.jcAdd (sub f.md 0 3) f.fb f.b f.fa f.a)
  | 0x03 => keep (f.md &&& 0x7F == 0x00 && f.d == 0) (.jcWait f.fb f.b f.fa f.a)
  | 0x04 => keep (f.md &&& 0x70 == 0x00) (.waitMem (sub f.md 0 4) f.fb f.b f.fa f.a f.d)
  | 0x05 => keep (f.md &&& 0x7F == 0x00 && !f.fb && f.b == 0 && !f.fa && f.a == 0 && f.d == 0) (.yield)
  | 0x06 => keep (f.md &&& 0x7F == 0x00 && !f.fb && f.b == 0 && !f.fa && f.a == 0 && f.d == 0) (.exit)
  | 0x07 =>
    if f.md &&& 0x7F == 0x00 then .ok (.spawn f.fb f.b f.fa f.a f.d)
    else keep (f.md &&& 0x7F == 0x01) (.spawnDef f.fb f.b f.fa f.a f.d)
  | 0x08 => keep (f.md &&& 0x70 == 0x00 && f.d == 0) (.chunkInit (sub f.md 0 4) f.fb f.b f.fa f.a)
  | 0x09 => keep (f.md &&& 0x70 == 0x00 && !f.fb && f.b == 0 && !f.fa && f.a == 0) (.chunk (sub f.md 0 4) f.d)
  | 0x0A => keep (f.md &&& 0x7C == 0x00 && f.d == 0) (.barCfg (sub f.md 0 2) f.fb f.b f.fa f.a)
  | 0x0B => keep (f.md &&& 0x7C == 0x00 && !f.fb && f.b == 0 && !f.fa && f.a == 0) (.barArr (sub f.md 0 2) f.d)
  | 0x0C => keep (f.md &&& 0x7C == 0x00 && !f.fb && f.b == 0 && f.d == 0) (.barWait (sub f.md 0 2) f.fa f.a)
  | 0x0D => keep (f.md &&& 0x78 == 0x00 && !f.fb && f.b == 0) (.barTest (bit f.md 2) (sub f.md 0 2) f.fa f.a f.d)
  | 0x0E => keep (f.md &&& 0x7C == 0x00 && f.d == 0) (.ksend (sub f.md 0 2) f.fb f.b f.fa f.a)
  | 0x0F => keep (f.md &&& 0x7C == 0x00 && f.d == 0) (.kbinCfg (sub f.md 0 2) f.fb f.b f.fa f.a)
  | 0x10 => keep (f.md &&& 0x78 == 0x00 && !f.fb && f.b == 0 && !f.fa && f.a == 0) (.idr (sub f.md 0 3) f.d)
  | 0x11 =>
    if f.md &&& 0x7F == 0x00 && !f.fb && f.b == 0 && !f.fa && f.a == 0 then .ok (.gtime f.d)
    else keep (f.md &&& 0x7F == 0x01 && !f.fb && f.b == 0 && !f.fa && f.a == 0) (.gtimeLk f.d)
  | 0x12 =>
    if f.md &&& 0x7F == 0x00 && !f.fb && f.b == 0 && !f.fa && f.a == 0 then .ok (.cyc f.d)
    else keep (f.md &&& 0x7F == 0x01 && !f.fb && f.b == 0 && !f.fa && f.a == 0) (.cycT f.d)
  | 0x13 => keep (f.md &&& 0x7F == 0x00 && !f.fb && f.b == 0) (.launch f.fa f.a f.d)
  | _ => .err .unassigned

/-- Major TILE (06 Table 6-6). -/
def decodeTILE (f : FmtA) : Decoded :=
  match f.fn.toNat with
  | 0x00 => keep (f.md &&& 0x7F == 0x00 && !f.fb && f.b == 0) (.talloc f.fa f.a f.d)
  | 0x01 => keep (f.md &&& 0x7F == 0x00 && !f.fb && f.b == 0 && f.d == 0) (.tfree f.fa f.a)
  | 0x02 => keep (f.md &&& 0x7F == 0x00) (.tview f.fb f.b f.fa f.a f.d)
  | 0x03 => keep (f.md &&& 0x7F == 0x00 && !f.fb && f.b == 0) (.tinfo f.fa f.a f.d)
  | 0x04 => keep (f.md &&& 0x7F == 0x00 && !f.fb && f.b == 0) (.tget f.fa f.a f.d)
  | 0x05 => keep (f.md &&& 0x7F == 0x00 && f.d == 0) (.tset f.fb f.b f.fa f.a)
  | 0x06 => keep (f.md &&& 0x7F == 0x00 && !f.fb && f.b == 0 && !f.fa && f.a == 0 && f.d == 0) (.vfence)
  | 0x07 => keep (f.md &&& 0x7F == 0x00 && !f.fb && f.b == 0 && !f.fa && f.a == 0) (.vbusy f.d)
  | _ => .err .unassigned

/-- Major TASK (06 Table 6-6). -/
def decodeTASK (f : FmtA) : Decoded :=
  match f.md.toNat with
  | 0x00 => keep (f.fn &&& 0x7F == 0x00 && f.d &&& 1 == 0) (.vadd f.fb f.b f.fa f.a (bit f.d 2) (bit f.d 1))
  | 0x01 => keep (f.fn &&& 0x7F == 0x00 && f.d &&& 1 == 0) (.vsub f.fb f.b f.fa f.a (bit f.d 2) (bit f.d 1))
  | 0x02 => keep (f.fn &&& 0x7F == 0x00 && f.d &&& 1 == 0) (.vmul f.fb f.b f.fa f.a (bit f.d 2) (bit f.d 1))
  | 0x03 => keep (f.fn &&& 0x7F == 0x00 && f.d &&& 1 == 0) (.vfma f.fb f.b f.fa f.a (bit f.d 2) (bit f.d 1))
  | 0x04 => keep (f.fn &&& 0x7F == 0x00 && f.d &&& 1 == 0) (.vmin f.fb f.b f.fa f.a (bit f.d 2) (bit f.d 1))
  | 0x05 => keep (f.fn &&& 0x7F == 0x00 && f.d &&& 1 == 0) (.vmax f.fb f.b f.fa f.a (bit f.d 2) (bit f.d 1))
  | 0x06 => keep (f.fn &&& 0x7F == 0x00 && !f.fb && f.b == 0 && f.d &&& 1 == 0) (.vabs f.fa f.a (bit f.d 2) (bit f.d 1))
  | 0x07 => keep (f.fn &&& 0x7F == 0x00 && !f.fb && f.b == 0 && f.d &&& 1 == 0) (.vneg f.fa f.a (bit f.d 2) (bit f.d 1))
  | 0x08 => keep (f.fn &&& 0x7F == 0x00 && !f.fb && f.b == 0 && f.d &&& 1 == 0) (.vexp2 f.fa f.a (bit f.d 2) (bit f.d 1))
  | 0x09 => keep (f.fn &&& 0x7F == 0x00 && !f.fb && f.b == 0 && f.d &&& 1 == 0) (.vlog2 f.fa f.a (bit f.d 2) (bit f.d 1))
  | 0x0A => keep (f.fn &&& 0x7F == 0x00 && !f.fb && f.b == 0 && f.d &&& 1 == 0) (.vrcp f.fa f.a (bit f.d 2) (bit f.d 1))
  | 0x0B => keep (f.fn &&& 0x7F == 0x00 && !f.fb && f.b == 0 && f.d &&& 1 == 0) (.vrsqrt f.fa f.a (bit f.d 2) (bit f.d 1))
  | 0x0C => keep (f.fn &&& 0x7F == 0x00 && !f.fb && f.b == 0 && f.d &&& 1 == 0) (.vtanh f.fa f.a (bit f.d 2) (bit f.d 1))
  | 0x0D => keep (f.fn &&& 0x7F == 0x00 && !f.fb && f.b == 0 && f.d &&& 1 == 0) (.vcvt f.fa f.a (bit f.d 2) (bit f.d 1))
  | 0x0E => keep (f.fn &&& 0x78 == 0x00 && f.d &&& 1 == 0) (.vcmp (sub f.fn 0 3) f.fb f.b f.fa f.a (bit f.d 2) (bit f.d 1))
  | 0x0F => keep (f.fn &&& 0x7F == 0x00 && f.d &&& 1 == 0) (.vsel f.fb f.b f.fa f.a (bit f.d 2) (bit f.d 1))
  | 0x10 => keep (f.fn &&& 0x7C == 0x00 && !f.fb && f.b == 0 && f.d &&& 1 == 0) (.vrowred (sub f.fn 0 2) f.fa f.a (bit f.d 2) (bit f.d 1))
  | 0x11 => keep (f.fn &&& 0x7C == 0x00 && !f.fb && f.b == 0 && f.d &&& 1 == 0) (.vcolred (sub f.fn 0 2) f.fa f.a (bit f.d 2) (bit f.d 1))
  | 0x12 => keep (f.fn &&& 0x7E == 0x00 && !f.fb && f.b == 0 && f.d &&& 1 == 0) (.vbcast (bit f.fn 0) f.fa f.a (bit f.d 2) (bit f.d 1))
  | 0x13 => keep (f.fn &&& 0x7F == 0x00 && !f.fb && f.b == 0 && f.d &&& 1 == 0) (.vtrans f.fa f.a (bit f.d 2) (bit f.d 1))
  | 0x14 => keep (f.fn &&& 0x7E == 0x00 && !f.fb && f.b == 0 && f.d &&& 1 == 0) (.vscale (bit f.fn 0) f.fa f.a (bit f.d 2) (bit f.d 1))
  | 0x15 => keep (f.fn &&& 0x7F == 0x00 && !f.fb && f.b == 0 && f.d &&& 1 == 0) (.vquant f.fa f.a (bit f.d 2) (bit f.d 1))
  | 0x16 => keep (f.fn &&& 0x7E == 0x00 && (bit f.fn 0 || (!f.fb && f.b == 0)) && f.d &&& 1 == 0) (.vshl (bit f.fn 0) f.fb f.b f.fa f.a (bit f.d 2) (bit f.d 1))
  | 0x17 => keep (f.fn &&& 0x7E == 0x00 && (bit f.fn 0 || (!f.fb && f.b == 0)) && f.d &&& 1 == 0) (.vshr (bit f.fn 0) f.fb f.b f.fa f.a (bit f.d 2) (bit f.d 1))
  | 0x18 => keep (f.fn &&& 0x7E == 0x00 && (bit f.fn 0 || (!f.fb && f.b == 0)) && f.d &&& 1 == 0) (.vsar (bit f.fn 0) f.fb f.b f.fa f.a (bit f.d 2) (bit f.d 1))
  | 0x19 => keep (f.fn &&& 0x7F == 0x00 && !f.fb && f.b == 0 && f.d &&& 1 == 0) (.vclamp f.fa f.a (bit f.d 2) (bit f.d 1))
  | 0x1A => keep (f.fn &&& 0x7F == 0x00 && !f.fb && f.b == 0 && f.d &&& 1 == 0) (.vmov f.fa f.a (bit f.d 2) (bit f.d 1))
  | 0x1B => keep (f.fn &&& 0x7F == 0x00 && !f.fb && f.b == 0 && f.d &&& 1 == 0) (.vfill f.fa f.a (bit f.d 2) (bit f.d 1))
  | 0x1C => keep (f.fn &&& 0x7E == 0x00 && !f.fb && f.b == 0 && f.d &&& 1 == 0) (.vmask (bit f.fn 0) f.fa f.a (bit f.d 2) (bit f.d 1))
  | 0x20 => keep (f.fn &&& 0x70 == 0x00 && f.d &&& 1 == 0) (.mma (bit f.fn 3) (bit f.fn 2) (bit f.fn 1) (bit f.fn 0) f.fb f.b f.fa f.a (bit f.d 2) (bit f.d 1))
  | 0x21 => keep (f.fn &&& 0x7F == 0x00 && f.d &&& 1 == 0) (.mdrain f.fb f.b f.fa f.a (bit f.d 2) (bit f.d 1))
  | 0x28 =>
    if f.fn &&& 0x7F == 0x00 && f.d &&& 1 == 0 then .ok (.cpyMt f.fb f.b f.fa f.a (bit f.d 2) (bit f.d 1))
    else if f.fn &&& 0x7F == 0x01 && f.d &&& 1 == 0 then .ok (.cpyTm f.fb f.b f.fa f.a (bit f.d 2) (bit f.d 1))
    else keep (f.fn &&& 0x7F == 0x02 && f.d &&& 1 == 0) (.cpyMm f.fb f.b f.fa f.a (bit f.d 2) (bit f.d 1))
  | 0x29 => keep (f.fn &&& 0x7F == 0x00 && f.d &&& 1 == 0) (.gath f.fb f.b f.fa f.a (bit f.d 2) (bit f.d 1))
  | 0x2A => keep (f.fn &&& 0x7F == 0x00 && f.d &&& 1 == 0) (.scat f.fb f.b f.fa f.a (bit f.d 2) (bit f.d 1))
  | _ => .err .unassigned

/-- Major TRACE (06 Table 6-6). -/
def decodeTRACE (f : FmtA) : Decoded :=
  match f.fn.toNat with
  | 0x00 => keep (f.md &&& 0x7F == 0x00 && !f.fb && f.b == 0 && !f.fa && f.a == 0) (.trgen f.d)
  | 0x01 => keep (f.md &&& 0x7F == 0x00) (.relaunch f.fb f.b f.fa f.a f.d)
  | 0x02 => keep (f.md &&& 0x7F == 0x00) (.relaunchRepair f.fb f.b f.fa f.a f.d)
  | 0x03 => keep (f.md &&& 0x7F == 0x00 && !f.fb && f.b == 0 && !f.fa && f.a == 0) (.trstat f.d)
  | 0x04 => keep (f.md &&& 0x7F == 0x00 && !f.fb && f.b == 0) (.dmread f.fa f.a f.d)
  | 0x05 => keep (f.md &&& 0x7C == 0x00 && f.d == 0) (.dmmark (bit f.md 1) (bit f.md 0) f.fb f.b f.fa f.a)
  | _ => .err .unassigned

/-- Major SYS (06 Table 6-6). -/
def decodeSYS (f : FmtA) : Decoded :=
  match f.fn.toNat with
  | 0x00 => keep (!f.fb && f.b == 0 && !f.fa && f.a == 0 && f.d == 0) (.sys (sub f.md 0 7))
  | 0x01 => keep (f.md &&& 0x7F == 0x00 && !f.fb && f.b == 0 && !f.fa && f.a == 0 && f.d == 0) (.eret)
  | 0x02 => keep (!f.fb && f.b == 0 && !f.fa && f.a == 0) (.srd (sub f.md 0 7) f.d)
  | 0x03 => keep (!f.fb && f.b == 0 && f.d == 0) (.swr (sub f.md 0 7) f.fa f.a)
  | 0x04 => keep (f.md &&& 0x70 == 0x00 && !f.fb && f.b == 0) (.ctxLd (sub f.md 0 4) f.fa f.a f.d)
  | 0x05 => keep (f.md &&& 0x70 == 0x00) (.ctxSt (sub f.md 0 4) f.fb f.b f.fa f.a f.d)
  | 0x06 => keep (f.md &&& 0x7F == 0x00 && !f.fb && f.b == 0) (.ctxReady f.fa f.a f.d)
  | 0x07 => keep (f.md &&& 0x7E == 0x00 && !f.fb && f.b == 0) (.ctxEvict (bit f.md 0) f.fa f.a f.d)
  | 0x08 =>
    if f.md &&& 0x7F == 0x00 && !f.fb && f.b == 0 then .ok (.ctxPark f.fa f.a f.d)
    else keep (f.md &&& 0x7F == 0x01 && !f.fb && f.b == 0) (.ctxParkKill f.fa f.a f.d)
  | 0x09 => keep (f.md &&& 0x60 == 0x00 && f.d == 0) (.tlbi (sub f.md 3 2) (sub f.md 0 3) f.fb f.b f.fa f.a)
  | 0x0A => keep (f.md &&& 0x7F == 0x00) (.bmode f.fb f.b f.fa f.a f.d)
  | 0x0B => keep (f.md &&& 0x7F == 0x00 && !f.fb && f.b == 0 && f.d == 0) (.slotPark f.fa f.a)
  | 0x0C => keep (f.md &&& 0x7F == 0x00 && !f.fb && f.b == 0 && f.d == 0) (.slotFree f.fa f.a)
  | 0x0D => keep (f.md &&& 0x7F == 0x00 && !f.fb && f.b == 0) (.dstop f.fa f.a f.d)
  | 0x0E => keep (f.md &&& 0x7F == 0x00 && !f.fb && f.b == 0 && !f.fa && f.a == 0 && f.d == 0) (.halt)
  | _ => .err .unassigned

/-- Major CTRL (06 Table 6-6). -/
def decodeCTRL (f : FmtA) : Decoded :=
  match f.fn.toNat with
  | 0x00 => keep (f.md &&& 0x7F == 0x00 && !f.fb && f.b == 0 && f.d == 0) (.jr f.fa f.a)
  | 0x01 => keep (f.md &&& 0x7F == 0x00 && !f.fb && f.b == 0 && f.d == 0) (.jrL f.fa f.a)
  | 0x02 => keep (f.md &&& 0x7F == 0x00 && !f.fb && f.b == 0 && !f.fa && f.a == 0 && f.d == 0) (.nop)
  | _ => .err .unassigned

/-- Major F64 (06 Table 6-6). -/
def decodeF64 (f : FmtA) : Decoded :=
  match f.fn.toNat with
  | 0x00 => keep (f.md &&& 0x7F == 0x00) (.dadd f.fb f.b f.fa f.a f.d)
  | 0x01 => keep (f.md &&& 0x7F == 0x00) (.dsub f.fb f.b f.fa f.a f.d)
  | 0x02 => keep (f.md &&& 0x7F == 0x00) (.dmul f.fb f.b f.fa f.a f.d)
  | 0x03 => keep (f.md &&& 0x7F == 0x00) (.dfma f.fb f.b f.fa f.a f.d)
  | 0x04 => keep (f.md &&& 0x7F == 0x00) (.ddiv f.fb f.b f.fa f.a f.d)
  | 0x05 => keep (f.md &&& 0x7F == 0x00 && !f.fb && f.b == 0) (.dsqrt f.fa f.a f.d)
  | 0x06 =>
    if f.md &&& 0x61 == 0x00 && !f.fb && f.b == 0 then .ok (.dcvtTo (sub f.md 1 4) f.fa f.a f.d)
    else keep (f.md &&& 0x61 == 0x01 && !f.fb && f.b == 0) (.dcvtFrom (sub f.md 1 4) f.fa f.a f.d)
  | 0x07 => keep (f.md &&& 0x40 == 0x00) (.dcmp (sub f.md 0 6) f.fb f.b f.fa f.a f.d)
  | _ => .err .unassigned

/-- Major Bits (06 Table 6-6). -/
noncomputable def decodeBits (f : FmtA) : Decoded :=
  match f.fn.toNat with
  | 0x00 => keep (f.md &&& 0x7F == 0x00 && f.d == 0) (.bsopen f.fb f.b f.fa f.a)
  | 0x01 =>
    if f.md &&& 0x7F == 0x00 && !f.fa && f.a == 0 then .ok (.getb f.fb f.b f.d)
    else keep (f.md &&& 0x40 == 0x40 && !f.fb && f.b == 0 && !f.fa && f.a == 0) (.getbImm (sub f.md 0 6) f.d)
  | 0x02 =>
    if f.md &&& 0x7F == 0x00 && !f.fa && f.a == 0 then .ok (.peekb f.fb f.b f.d)
    else keep (f.md &&& 0x40 == 0x40 && !f.fb && f.b == 0 && !f.fa && f.a == 0) (.peekbImm (sub f.md 0 6) f.d)
  | 0x03 =>
    if f.md &&& 0x7F == 0x00 && !f.fa && f.a == 0 && f.d == 0 then .ok (.skipb f.fb f.b)
    else keep (f.md &&& 0x40 == 0x40 && !f.fb && f.b == 0 && !f.fa && f.a == 0 && f.d == 0) (.skipbImm (sub f.md 0 6))
  | 0x04 => keep (f.md &&& 0x7F == 0x00 && !f.fb && f.b == 0 && !f.fa && f.a == 0) (.getue f.d)
  | 0x05 => keep (f.md &&& 0x7F == 0x00 && !f.fb && f.b == 0 && !f.fa && f.a == 0) (.getse f.d)
  | 0x06 => keep (f.md &&& 0x7F == 0x00 && !f.fb && f.b == 0 && !f.fa && f.a == 0 && f.d == 0) (.bsalign)
  | 0x07 => keep (f.md &&& 0x70 == 0x00) (.crc (bit f.md 3) (sub f.md 0 3) f.fb f.b f.fa f.a f.d)
  | _ => .err .unassigned

/-- Major AMO (06 Table 6-6), with the modifier fields of Table 6-7. -/
def decodeAMO (f : FmtA) : Decoded :=
  match f.fn.toNat with
  | 0x00 => .ok (.amoAdd (bit f.md 6) (sub f.md 3 3) (sub f.md 0 3) f.fb f.b f.fa f.a f.d)
  | 0x01 => .ok (.amoAnd (bit f.md 6) (sub f.md 3 3) (sub f.md 0 3) f.fb f.b f.fa f.a f.d)
  | 0x02 => .ok (.amoOr (bit f.md 6) (sub f.md 3 3) (sub f.md 0 3) f.fb f.b f.fa f.a f.d)
  | 0x03 => .ok (.amoXor (bit f.md 6) (sub f.md 3 3) (sub f.md 0 3) f.fb f.b f.fa f.a f.d)
  | 0x04 => .ok (.amoMinS (bit f.md 6) (sub f.md 3 3) (sub f.md 0 3) f.fb f.b f.fa f.a f.d)
  | 0x05 => .ok (.amoMaxS (bit f.md 6) (sub f.md 3 3) (sub f.md 0 3) f.fb f.b f.fa f.a f.d)
  | 0x06 => .ok (.amoSwp (bit f.md 6) (sub f.md 3 3) (sub f.md 0 3) f.fb f.b f.fa f.a f.d)
  | 0x07 => .ok (.amoCas (bit f.md 6) (sub f.md 3 3) (sub f.md 0 3) f.fb f.b f.fa f.a f.d)
  | 0x08 => .ok (.amoFadd (bit f.md 6) (sub f.md 3 3) (sub f.md 0 3) f.fb f.b f.fa f.a f.d)
  | 0x09 => .ok (.amoMinZ (bit f.md 6) (sub f.md 3 3) (sub f.md 0 3) f.fb f.b f.fa f.a f.d)
  | 0x0A => .ok (.amoMaxZ (bit f.md 6) (sub f.md 3 3) (sub f.md 0 3) f.fb f.b f.fa f.a f.d)
  | 0x40 => keep (f.d == 0) (.amoAddPost (bit f.md 6) (sub f.md 3 3) (sub f.md 0 3) f.fb f.b f.fa f.a)
  | 0x41 => keep (f.d == 0) (.amoAndPost (bit f.md 6) (sub f.md 3 3) (sub f.md 0 3) f.fb f.b f.fa f.a)
  | 0x42 => keep (f.d == 0) (.amoOrPost (bit f.md 6) (sub f.md 3 3) (sub f.md 0 3) f.fb f.b f.fa f.a)
  | 0x43 => keep (f.d == 0) (.amoXorPost (bit f.md 6) (sub f.md 3 3) (sub f.md 0 3) f.fb f.b f.fa f.a)
  | 0x44 => keep (f.d == 0) (.amoMinSPost (bit f.md 6) (sub f.md 3 3) (sub f.md 0 3) f.fb f.b f.fa f.a)
  | 0x45 => keep (f.d == 0) (.amoMaxSPost (bit f.md 6) (sub f.md 3 3) (sub f.md 0 3) f.fb f.b f.fa f.a)
  | 0x46 => keep (f.d == 0) (.amoSwpPost (bit f.md 6) (sub f.md 3 3) (sub f.md 0 3) f.fb f.b f.fa f.a)
  | 0x47 => keep (f.d == 0) (.amoCasPost (bit f.md 6) (sub f.md 3 3) (sub f.md 0 3) f.fb f.b f.fa f.a)
  | 0x48 => keep (f.d == 0) (.amoFaddPost (bit f.md 6) (sub f.md 3 3) (sub f.md 0 3) f.fb f.b f.fa f.a)
  | 0x49 => keep (f.d == 0) (.amoMinZPost (bit f.md 6) (sub f.md 3 3) (sub f.md 0 3) f.fb f.b f.fa f.a)
  | 0x4A => keep (f.d == 0) (.amoMaxZPost (bit f.md 6) (sub f.md 3 3) (sub f.md 0 3) f.fb f.b f.fa f.a)
  | _ => .err .unassigned

/-- Major INTI (06 R136, 07 Table 7-2). -/
def decodeINTI (f : FmtI) : Decoded :=
  let w := bit f.imm 17
  let i := sub f.imm 0 12
  let s := sub f.imm 0 8
  let sh := sub f.imm 8 4 == 0
  match (sub f.imm 12 5).toNat with
  | 0 => .ok (.andi w i f.fa f.a f.d)
  | 1 => .ok (.ori w i f.fa f.a f.d)
  | 2 => .ok (.xori w i f.fa f.a f.d)
  | 3 => keep sh (.shli w s f.fa f.a f.d)
  | 4 => keep sh (.shri w s f.fa f.a f.d)
  | 5 => keep sh (.sari w s f.fa f.a f.d)
  | 6 => keep sh (.roli w s f.fa f.a f.d)
  | 7 => keep sh (.rori w s f.fa f.a f.d)
  | 8 => .ok (.muli w i f.fa f.a f.d)
  | _ => .err .unassigned

/-- Major BR (06 R139). -/
def decodeBR (f : FmtI) : Decoded :=
  match f.d.toNat with
  | 0 => .ok (.bz f.imm f.fa f.a)
  | 1 => .ok (.bnz f.imm f.fa f.a)
  | 2 => keep (!f.fa) (.bany f.imm f.a)
  | 3 => keep (!f.fa) (.ball f.imm f.a)
  | 4 => keep (!f.fa) (.bnone f.imm f.a)
  | 5 => .ok (.loop f.imm f.fa f.a)
  | _ => .err .unassigned

/-- A word by its major opcode (06 Table 6-5). -/
noncomputable def decodeMajor (w : BitVec 32) : Decoded :=
  let i := fieldsI w
  let m := fieldsM w
  match (sub w 2 5).toNat with
  | 0 => decodeINT (fieldsA w)
  | 1 => .ok (.addi i.imm i.fa i.a i.d)
  | 2 => keep (!i.fa && i.a == 0) (.movi i.imm i.d)
  | 3 => .ok (.movh i.imm i.fa i.a i.d)
  | 4 => .ok (.cmpi (sub i.imm 12 6) (sub i.imm 0 12) i.fa i.a i.d)
  | 5 => decodeINTI i
  | 6 => decodePACK (fieldsA w)
  | 7 => decodeFP (fieldsA w)
  | 8 => decodePRED (fieldsA w)
  | 9 => keep (!m.ft) (.ld m.off m.os m.size m.fa m.a m.t)
  | 10 => .ok (.st m.off m.os m.size m.ft m.fa m.a m.t)
  | 11 =>
    if bit m.off 0 then .ok (.stAnchorRel (sub m.off 6 5) (sub m.off 1 5) m.os m.size m.ft m.fa m.a m.t)
    else keep (!m.ft) (.ldAnchorRel (sub m.off 6 5) (sub m.off 1 5) m.os m.size m.fa m.a m.t)
  | 12 => decodeAMO (fieldsA w)
  | 13 => decodeMEMX (fieldsA w)
  | 14 => decodeSYNC (fieldsA w)
  | 15 => decodeTILE (fieldsA w)
  | 16 => decodeTASK (fieldsA w)
  | 17 => decodeTRACE (fieldsA w)
  | 18 => decodeSYS (fieldsA w)
  | 19 => decodeCTRL (fieldsA w)
  | 20 => .ok (.b (sub w 7 25))
  | 21 => .ok (.bl (sub w 7 25))
  | 22 => decodeBR i
  | 23 => if i.fa then .ok (.bpf i.imm (sub w 7 6)) else .ok (.bpt i.imm (sub w 7 6))
  | 28 => decodeF64 (fieldsA w)
  | 29 => decodeBits (fieldsA w)
  | _ => .err .reservedMajor

/-- A halfword by quadrant and op3 (06 Table 6-8, R148). -/
noncomputable def decodeQuadrant (h : BitVec 16) : Decoded :=
  let d := sub h 10 3
  let a := sub h 7 3
  let b := sub h 4 3
  let i := sub h 2 5
  match (sub h 0 2).toNat, (sub h 13 3).toNat with
  | 0, 0 => .ok (.addiC16 d a i)
  | 0, 1 => .ok (.andiC16 d a i)
  | 0, 2 => .ok (.shliC16 d a i)
  | 0, 3 => .ok (.shriC16 d a i)
  | 0, 4 => .ok (.sariC16 d a i)
  | 0, 5 => .ok (.ldDC16 d a i)
  | 0, 6 => .ok (.stDC16 d a i)
  | 0, 7 => .ok (.moviC16 d (sub h 2 8))
  | 1, 0 =>
    match (sub h 2 2).toNat with
    | 0 => .ok (.addC16 d a b)
    | 1 => .ok (.subC16 d a b)
    | 2 => .ok (.andC16 d a b)
    | _ => .ok (.orC16 d a b)
  | 1, 1 =>
    match (sub h 2 2).toNat with
    | 0 => .ok (.xorC16 d a b)
    | 1 => .ok (.andnC16 d a b)
    | 2 => .ok (.mulC16 d a b)
    | _ => keep (b == 0) (.movC16 d a)
  | 1, 2 =>
    match (sub h 2 2).toNat with
    | 0 => .ok (.shlC16 d a b)
    | 1 => .ok (.shrC16 d a b)
    | 2 => .ok (.sarC16 d a b)
    | _ => .err .unassigned
  | 1, 3 => .ok (.ldWC16 d a i)
  | 1, 4 => .ok (.stWC16 d a i)
  | 1, 7 =>
    match (sub h 2 2).toNat with
    | 0 => keep (d == 0 && b == 0) (.jrC16 a)
    | 1 => keep (d == 0 && a == 0 && b == 0) .exitC16
    | 2 => keep (d == 0 && a == 0 && b == 0) .yieldC16
    | _ => keep (d == 0 && a == 0 && b == 0) .nopC16
  | 2, 0 => .ok (.bzC16 d a i)
  | 2, 1 => .ok (.bnzC16 d a i)
  | 2, 2 => .ok (.bC16 (sub h 2 11))
  | 2, 3 => .ok (.bptC16 (sub h 7 6) i)
  | 2, 4 => .ok (.bpfC16 (sub h 7 6) i)
  | 2, 7 => keep (sub h 2 3 == 0) (.fmt (sub h 9 4) (sub h 6 3) (bit h 5))
  | _, _ => .err .reservedMajor

/-- The instruction that an encoding stands for, or the name of what is wrong with it. -/
noncomputable def decode (e : Enc) : Decoded :=
  let r : Decoded := match e with
    | .half h => if h == 0 then .err .zeroHalfword else decodeQuadrant h
    | .word w => decodeMajor w
  match r with
  | .ok i => if i.wellFormed then .ok i else .err .reservedValue
  | .err x => .err x

/-- The first halfword's bits [1:0] mark a 32-bit instruction (06 R131). -/
def isLong (h : BitVec 16) : Bool := sub h 0 2 == 3

/-- The encoding at the start of a byte list, first byte at the lowest address, and the bytes after it. -/
def takeEnc : List Byte → Option (Enc × List Byte)
  | b0 :: b1 :: r =>
    if isLong (b1 ++ b0) then
      match r with
      | b2 :: b3 :: r' => some (.word (b3 ++ b2 ++ b1 ++ b0), r')
      | _ => none
    else some (.half (b1 ++ b0), r)
  | _ => none

/-- The instruction whose bits, numbered as the opcode table numbers them, are `w`; a row of no bits has none. -/
noncomputable def decodeTableWord (nbits w : Nat) : Option Instr :=
  if nbits = 0 then none
  else
    match takeEnc [BitVec.ofNat 8 w, BitVec.ofNat 8 (w / 256), BitVec.ofNat 8 (w / 65536), BitVec.ofNat 8 (w / 16777216)] with
    | some (e, _) => (decode e).instr
    | none => none

/-- The words of an instruction (06 Tables 6-1, 6-6, 6-8); the steps of other agents have none. -/
def encode (i : Instr) : Option Enc :=
  match i with
  | .add w g b h a d => some (.word (packA ⟨(0#6 ++ ofB w), 0#7, g, b, h, a, d, 0⟩))
  | .sub w g b h a d => some (.word (packA ⟨(0#6 ++ ofB w), 1#7, g, b, h, a, d, 0⟩))
  | .mul w g b h a d => some (.word (packA ⟨(0#6 ++ ofB w), 2#7, g, b, h, a, d, 0⟩))
  | .mulh z w g b h a d => some (.word (packA ⟨(0#5 ++ ofB z ++ ofB w), 3#7, g, b, h, a, d, 0⟩))
  | .div z w g b h a d => some (.word (packA ⟨(0#5 ++ ofB z ++ ofB w), 4#7, g, b, h, a, d, 0⟩))
  | .rem z w g b h a d => some (.word (packA ⟨(0#5 ++ ofB z ++ ofB w), 5#7, g, b, h, a, d, 0⟩))
  | .and w g b h a d => some (.word (packA ⟨(0#6 ++ ofB w), 6#7, g, b, h, a, d, 0⟩))
  | .or w g b h a d => some (.word (packA ⟨(0#6 ++ ofB w), 7#7, g, b, h, a, d, 0⟩))
  | .xor w g b h a d => some (.word (packA ⟨(0#6 ++ ofB w), 8#7, g, b, h, a, d, 0⟩))
  | .andn w g b h a d => some (.word (packA ⟨(0#6 ++ ofB w), 9#7, g, b, h, a, d, 0⟩))
  | .orn w g b h a d => some (.word (packA ⟨(0#6 ++ ofB w), 10#7, g, b, h, a, d, 0⟩))
  | .shl w g b h a d => some (.word (packA ⟨(0#6 ++ ofB w), 11#7, g, b, h, a, d, 0⟩))
  | .shr w g b h a d => some (.word (packA ⟨(0#6 ++ ofB w), 12#7, g, b, h, a, d, 0⟩))
  | .sar w g b h a d => some (.word (packA ⟨(0#6 ++ ofB w), 13#7, g, b, h, a, d, 0⟩))
  | .rol w g b h a d => some (.word (packA ⟨(0#6 ++ ofB w), 14#7, g, b, h, a, d, 0⟩))
  | .ror w g b h a d => some (.word (packA ⟨(0#6 ++ ofB w), 15#7, g, b, h, a, d, 0⟩))
  | .clz w h a d => some (.word (packA ⟨(0#6 ++ ofB w), 16#7, false, 0#3, h, a, d, 0⟩))
  | .ctz w h a d => some (.word (packA ⟨(0#6 ++ ofB w), 17#7, false, 0#3, h, a, d, 0⟩))
  | .popc w h a d => some (.word (packA ⟨(0#6 ++ ofB w), 18#7, false, 0#3, h, a, d, 0⟩))
  | .bext z w g b h a d => some (.word (packA ⟨(0#5 ++ ofB z ++ ofB w), 19#7, g, b, h, a, d, 0⟩))
  | .bins w g b h a d => some (.word (packA ⟨(0#6 ++ ofB w), 20#7, g, b, h, a, d, 0⟩))
  | .sext s w h a d => some (.word (packA ⟨(0#3 ++ s ++ 0#1 ++ ofB w), 21#7, false, 0#3, h, a, d, 0⟩))
  | .zext s w h a d => some (.word (packA ⟨(0#3 ++ s ++ 0#1 ++ ofB w), 22#7, false, 0#3, h, a, d, 0⟩))
  | .min z w g b h a d => some (.word (packA ⟨(0#5 ++ ofB z ++ ofB w), 23#7, g, b, h, a, d, 0⟩))
  | .max z w g b h a d => some (.word (packA ⟨(0#5 ++ ofB z ++ ofB w), 24#7, g, b, h, a, d, 0⟩))
  | .abs w h a d => some (.word (packA ⟨(0#6 ++ ofB w), 25#7, false, 0#3, h, a, d, 0⟩))
  | .mov w h a d => some (.word (packA ⟨(0#6 ++ ofB w), 26#7, false, 0#3, h, a, d, 0⟩))
  | .sel p g b h a d => some (.word (packA ⟨(0#1 ++ p), 27#7, g, b, h, a, d, 0⟩))
  | .cmp w p g b h a c => some (.word (packA ⟨(ofB w ++ p), 28#7, g, b, h, a, c, 0⟩))
  | .xset h a d => some (.word (packA ⟨0#7, 29#7, false, 0#3, h, a, d, 0⟩))
  | .xget h a d => some (.word (packA ⟨0#7, 30#7, false, 0#3, h, a, d, 0⟩))
  | .andi w i h a d => some (.word (packI ⟨ofB w ++ 0#5 ++ i, h, a, d, 5⟩))
  | .ori w i h a d => some (.word (packI ⟨ofB w ++ 1#5 ++ i, h, a, d, 5⟩))
  | .xori w i h a d => some (.word (packI ⟨ofB w ++ 2#5 ++ i, h, a, d, 5⟩))
  | .shli w i h a d => some (.word (packI ⟨ofB w ++ 3#5 ++ 0#4 ++ i, h, a, d, 5⟩))
  | .shri w i h a d => some (.word (packI ⟨ofB w ++ 4#5 ++ 0#4 ++ i, h, a, d, 5⟩))
  | .sari w i h a d => some (.word (packI ⟨ofB w ++ 5#5 ++ 0#4 ++ i, h, a, d, 5⟩))
  | .roli w i h a d => some (.word (packI ⟨ofB w ++ 6#5 ++ 0#4 ++ i, h, a, d, 5⟩))
  | .rori w i h a d => some (.word (packI ⟨ofB w ++ 7#5 ++ 0#4 ++ i, h, a, d, 5⟩))
  | .muli w i h a d => some (.word (packI ⟨ofB w ++ 8#5 ++ i, h, a, d, 5⟩))
  | .addi i h a d => some (.word (packI ⟨i, h, a, d, 1⟩))
  | .movi i d => some (.word (packI ⟨i, false, 0#3, d, 2⟩))
  | .movh i h a d => some (.word (packI ⟨i, h, a, d, 3⟩))
  | .cmpi p i h a c => some (.word (packI ⟨p ++ i, h, a, c, 4⟩))
  | .padd l g b h a d => some (.word (packA ⟨(0#5 ++ l), 0#7, g, b, h, a, d, 6⟩))
  | .psub l g b h a d => some (.word (packA ⟨(0#5 ++ l), 1#7, g, b, h, a, d, 6⟩))
  | .padds z l g b h a d => some (.word (packA ⟨(0#4 ++ ofB z ++ l), 2#7, g, b, h, a, d, 6⟩))
  | .psubs z l g b h a d => some (.word (packA ⟨(0#4 ++ ofB z ++ l), 3#7, g, b, h, a, d, 6⟩))
  | .pmul l g b h a d => some (.word (packA ⟨(0#5 ++ l), 4#7, g, b, h, a, d, 6⟩))
  | .pmulh z l g b h a d => some (.word (packA ⟨(0#4 ++ ofB z ++ l), 5#7, g, b, h, a, d, 6⟩))
  | .pdot z l g b h a d => some (.word (packA ⟨(0#4 ++ ofB z ++ l), 6#7, g, b, h, a, d, 6⟩))
  | .pavg z l g b h a d => some (.word (packA ⟨(0#4 ++ ofB z ++ l), 7#7, g, b, h, a, d, 6⟩))
  | .pmin z l g b h a d => some (.word (packA ⟨(0#4 ++ ofB z ++ l), 8#7, g, b, h, a, d, 6⟩))
  | .pmax z l g b h a d => some (.word (packA ⟨(0#4 ++ ofB z ++ l), 9#7, g, b, h, a, d, 6⟩))
  | .pabs l h a d => some (.word (packA ⟨(0#5 ++ l), 10#7, false, 0#3, h, a, d, 6⟩))
  | .psad z l g b h a d => some (.word (packA ⟨(0#4 ++ ofB z ++ l), 11#7, g, b, h, a, d, 6⟩))
  | .pclip z l g b h a d => some (.word (packA ⟨(0#4 ++ ofB z ++ l), 12#7, g, b, h, a, d, 6⟩))
  | .pshl l g b h a d => some (.word (packA ⟨(0#5 ++ l), 13#7, g, b, h, a, d, 6⟩))
  | .pshr l g b h a d => some (.word (packA ⟨(0#5 ++ l), 14#7, g, b, h, a, d, 6⟩))
  | .psar l g b h a d => some (.word (packA ⟨(0#5 ++ l), 15#7, g, b, h, a, d, 6⟩))
  | .pvshl l g b h a d => some (.word (packA ⟨(0#5 ++ l), 16#7, g, b, h, a, d, 6⟩))
  | .pvshr l g b h a d => some (.word (packA ⟨(0#5 ++ l), 17#7, g, b, h, a, d, 6⟩))
  | .pvsar l g b h a d => some (.word (packA ⟨(0#5 ++ l), 18#7, g, b, h, a, d, 6⟩))
  | .pcmp k l g b h a c => some (.word (packA ⟨(0#1 ++ k ++ 0#1 ++ l), 19#7, g, b, h, a, c, 6⟩))
  | .psel k l g b h a d => some (.word (packA ⟨(0#1 ++ k ++ 0#1 ++ l), 20#7, g, b, h, a, d, 6⟩))
  | .pperm g b h a d => some (.word (packA ⟨0#7, 21#7, g, b, h, a, d, 6⟩))
  | .pnarrow z l g b h a d => some (.word (packA ⟨(0#4 ++ ofB z ++ l), 22#7, g, b, h, a, d, 6⟩))
  | .pwiden z l u h a d => some (.word (packA ⟨(0#4 ++ ofB z ++ l), 23#7, false, (0#2 ++ ofB u), h, a, d, 6⟩))
  | .fadd g b h a d => some (.word (packA ⟨0#7, 0#7, g, b, h, a, d, 7⟩))
  | .fsub g b h a d => some (.word (packA ⟨0#7, 1#7, g, b, h, a, d, 7⟩))
  | .fmul g b h a d => some (.word (packA ⟨0#7, 2#7, g, b, h, a, d, 7⟩))
  | .fma g b h a d => some (.word (packA ⟨0#7, 3#7, g, b, h, a, d, 7⟩))
  | .fdiv g b h a d => some (.word (packA ⟨0#7, 4#7, g, b, h, a, d, 7⟩))
  | .fsqrt h a d => some (.word (packA ⟨0#7, 5#7, false, 0#3, h, a, d, 7⟩))
  | .fmin g b h a d => some (.word (packA ⟨0#7, 6#7, g, b, h, a, d, 7⟩))
  | .fmax g b h a d => some (.word (packA ⟨0#7, 7#7, g, b, h, a, d, 7⟩))
  | .fcmp p g b h a c => some (.word (packA ⟨(0#1 ++ p), 8#7, g, b, h, a, c, 7⟩))
  | .fcvt f h a d => some (.word (packA ⟨(0#3 ++ f), 9#7, false, 0#3, h, a, d, 7⟩))
  | .fclass p g b h a => some (.word (packA ⟨(0#1 ++ p), 10#7, g, b, h, a, 0#3, 7⟩))
  | .pset n => some (.word (packA ⟨(0#1 ++ n), 0#7, false, 0#3, false, 0#3, 0#3, 8⟩))
  | .pclr n => some (.word (packA ⟨(0#1 ++ n), 1#7, false, 0#3, false, 0#3, 0#3, 8⟩))
  | .pnot a d => some (.word (packA ⟨0#7, 2#7, false, 0#3, false, a, d, 8⟩))
  | .pand b a d => some (.word (packA ⟨0#7, 3#7, false, b, false, a, d, 8⟩))
  | .por b a d => some (.word (packA ⟨0#7, 4#7, false, b, false, a, d, 8⟩))
  | .pxor b a d => some (.word (packA ⟨0#7, 5#7, false, b, false, a, d, 8⟩))
  | .pwr d => some (.word (packA ⟨0#7, 6#7, false, 0#3, false, 0#3, d, 8⟩))
  | .pww g b h a => some (.word (packA ⟨0#7, 7#7, g, b, h, a, 0#3, 8⟩))
  | .pcnt h a d => some (.word (packA ⟨0#7, 8#7, false, 0#3, h, a, d, 8⟩))
  | .ld k s z h a t => some (.word (packM ⟨k, s, z, false, h, a, t, 9⟩))
  | .st k s z f h a t => some (.word (packM ⟨k, s, z, f, h, a, t, 10⟩))
  | .ldAnchorRel x y s z h a t => some (.word (packM ⟨x ++ y ++ 0#1, s, z, false, h, a, t, 11⟩))
  | .stAnchorRel x y s z f h a t => some (.word (packM ⟨x ++ y ++ 1#1, s, z, f, h, a, t, 11⟩))
  | .amoAdd e o s g b h a d => some (.word (packA ⟨ofB e ++ o ++ s, 0#7, g, b, h, a, d, 12⟩))
  | .amoAnd e o s g b h a d => some (.word (packA ⟨ofB e ++ o ++ s, 1#7, g, b, h, a, d, 12⟩))
  | .amoOr e o s g b h a d => some (.word (packA ⟨ofB e ++ o ++ s, 2#7, g, b, h, a, d, 12⟩))
  | .amoXor e o s g b h a d => some (.word (packA ⟨ofB e ++ o ++ s, 3#7, g, b, h, a, d, 12⟩))
  | .amoMinS e o s g b h a d => some (.word (packA ⟨ofB e ++ o ++ s, 4#7, g, b, h, a, d, 12⟩))
  | .amoMaxS e o s g b h a d => some (.word (packA ⟨ofB e ++ o ++ s, 5#7, g, b, h, a, d, 12⟩))
  | .amoSwp e o s g b h a d => some (.word (packA ⟨ofB e ++ o ++ s, 6#7, g, b, h, a, d, 12⟩))
  | .amoCas e o s g b h a d => some (.word (packA ⟨ofB e ++ o ++ s, 7#7, g, b, h, a, d, 12⟩))
  | .amoFadd e o s g b h a d => some (.word (packA ⟨ofB e ++ o ++ s, 8#7, g, b, h, a, d, 12⟩))
  | .amoMinZ e o s g b h a d => some (.word (packA ⟨ofB e ++ o ++ s, 9#7, g, b, h, a, d, 12⟩))
  | .amoMaxZ e o s g b h a d => some (.word (packA ⟨ofB e ++ o ++ s, 10#7, g, b, h, a, d, 12⟩))
  | .amoAddPost e o s g b h a => some (.word (packA ⟨ofB e ++ o ++ s, 64#7, g, b, h, a, 0#3, 12⟩))
  | .amoAndPost e o s g b h a => some (.word (packA ⟨ofB e ++ o ++ s, 65#7, g, b, h, a, 0#3, 12⟩))
  | .amoOrPost e o s g b h a => some (.word (packA ⟨ofB e ++ o ++ s, 66#7, g, b, h, a, 0#3, 12⟩))
  | .amoXorPost e o s g b h a => some (.word (packA ⟨ofB e ++ o ++ s, 67#7, g, b, h, a, 0#3, 12⟩))
  | .amoMinSPost e o s g b h a => some (.word (packA ⟨ofB e ++ o ++ s, 68#7, g, b, h, a, 0#3, 12⟩))
  | .amoMaxSPost e o s g b h a => some (.word (packA ⟨ofB e ++ o ++ s, 69#7, g, b, h, a, 0#3, 12⟩))
  | .amoSwpPost e o s g b h a => some (.word (packA ⟨ofB e ++ o ++ s, 70#7, g, b, h, a, 0#3, 12⟩))
  | .amoCasPost e o s g b h a => some (.word (packA ⟨ofB e ++ o ++ s, 71#7, g, b, h, a, 0#3, 12⟩))
  | .amoFaddPost e o s g b h a => some (.word (packA ⟨ofB e ++ o ++ s, 72#7, g, b, h, a, 0#3, 12⟩))
  | .amoMinZPost e o s g b h a => some (.word (packA ⟨ofB e ++ o ++ s, 73#7, g, b, h, a, 0#3, 12⟩))
  | .amoMaxZPost e o s g b h a => some (.word (packA ⟨ofB e ++ o ++ s, 74#7, g, b, h, a, 0#3, 12⟩))
  | .ldN z u h a d => some (.word (packA ⟨(0#5 ++ ofB z ++ ofB u), 0#7, false, 0#3, h, a, d, 13⟩))
  | .stN u g b h a => some (.word (packA ⟨(0#6 ++ ofB u), 1#7, g, b, h, a, 0#3, 13⟩))
  | .pf l h a => some (.word (packA ⟨(0#5 ++ l), 2#7, false, 0#3, h, a, 0#3, 13⟩))
  | .cflush h a => some (.word (packA ⟨0#7, 3#7, false, 0#3, h, a, 0#3, 13⟩))
  | .cinval h a => some (.word (packA ⟨0#7, 4#7, false, 0#3, h, a, 0#3, 13⟩))
  | .cinvalAll => some (.word (packA ⟨1#7, 4#7, false, 0#3, false, 0#3, 0#3, 13⟩))
  | .fence k s => some (.word (packA ⟨(0#2 ++ k ++ s), 5#7, false, 0#3, false, 0#3, 0#3, 13⟩))
  | .stv z g b h a d => some (.word (packA ⟨(0#5 ++ z), 6#7, g, b, h, a, d, 13⟩))
  | .twait h a => some (.word (packA ⟨0#7, 7#7, false, 0#3, h, a, 0#3, 13⟩))
  | .xld k h a d => some (.word (packA ⟨k, 8#7, false, 0#3, h, a, d, 13⟩))
  | .semV s h a => some (.word (packA ⟨(0#4 ++ s), 0#7, false, 0#3, h, a, 0#3, 14⟩))
  | .semP s h a => some (.word (packA ⟨(0#4 ++ s), 1#7, false, 0#3, h, a, 0#3, 14⟩))
  | .jcAdd s g b h a => some (.word (packA ⟨(0#4 ++ s), 2#7, g, b, h, a, 0#3, 14⟩))
  | .jcWait g b h a => some (.word (packA ⟨0#7, 3#7, g, b, h, a, 0#3, 14⟩))
  | .waitMem t g b h a d => some (.word (packA ⟨(0#3 ++ t), 4#7, g, b, h, a, d, 14⟩))
  | .yield => some (.word (packA ⟨0#7, 5#7, false, 0#3, false, 0#3, 0#3, 14⟩))
  | .exit => some (.word (packA ⟨0#7, 6#7, false, 0#3, false, 0#3, 0#3, 14⟩))
  | .spawn g b h a d => some (.word (packA ⟨0#7, 7#7, g, b, h, a, d, 14⟩))
  | .spawnDef g b h a d => some (.word (packA ⟨1#7, 7#7, g, b, h, a, d, 14⟩))
  | .chunkInit c g b h a => some (.word (packA ⟨(0#3 ++ c), 8#7, g, b, h, a, 0#3, 14⟩))
  | .chunk c d => some (.word (packA ⟨(0#3 ++ c), 9#7, false, 0#3, false, 0#3, d, 14⟩))
  | .barCfg n g b h a => some (.word (packA ⟨(0#5 ++ n), 10#7, g, b, h, a, 0#3, 14⟩))
  | .barArr n d => some (.word (packA ⟨(0#5 ++ n), 11#7, false, 0#3, false, 0#3, d, 14⟩))
  | .barWait n h a => some (.word (packA ⟨(0#5 ++ n), 12#7, false, 0#3, h, a, 0#3, 14⟩))
  | .barTest f n h a d => some (.word (packA ⟨(0#4 ++ ofB f ++ n), 13#7, false, 0#3, h, a, d, 14⟩))
  | .ksend n g b h a => some (.word (packA ⟨(0#5 ++ n), 14#7, g, b, h, a, 0#3, 14⟩))
  | .kbinCfg n g b h a => some (.word (packA ⟨(0#5 ++ n), 15#7, g, b, h, a, 0#3, 14⟩))
  | .idr s d => some (.word (packA ⟨(0#4 ++ s), 16#7, false, 0#3, false, 0#3, d, 14⟩))
  | .gtime d => some (.word (packA ⟨0#7, 17#7, false, 0#3, false, 0#3, d, 14⟩))
  | .gtimeLk d => some (.word (packA ⟨1#7, 17#7, false, 0#3, false, 0#3, d, 14⟩))
  | .cyc d => some (.word (packA ⟨0#7, 18#7, false, 0#3, false, 0#3, d, 14⟩))
  | .cycT d => some (.word (packA ⟨1#7, 18#7, false, 0#3, false, 0#3, d, 14⟩))
  | .launch h a d => some (.word (packA ⟨0#7, 19#7, false, 0#3, h, a, d, 14⟩))
  | .talloc h a d => some (.word (packA ⟨0#7, 0#7, false, 0#3, h, a, d, 15⟩))
  | .tfree h a => some (.word (packA ⟨0#7, 1#7, false, 0#3, h, a, 0#3, 15⟩))
  | .tview g b h a d => some (.word (packA ⟨0#7, 2#7, g, b, h, a, d, 15⟩))
  | .tinfo h a d => some (.word (packA ⟨0#7, 3#7, false, 0#3, h, a, d, 15⟩))
  | .tget h a d => some (.word (packA ⟨0#7, 4#7, false, 0#3, h, a, d, 15⟩))
  | .tset g b h a => some (.word (packA ⟨0#7, 5#7, g, b, h, a, 0#3, 15⟩))
  | .vfence => some (.word (packA ⟨0#7, 6#7, false, 0#3, false, 0#3, 0#3, 15⟩))
  | .vbusy d => some (.word (packA ⟨0#7, 7#7, false, 0#3, false, 0#3, d, 15⟩))
  | .vadd g b h a j f => some (.word (packA ⟨0#7, 0#7, g, b, h, a, (ofB j ++ ofB f ++ 0#1), 16⟩))
  | .vsub g b h a j f => some (.word (packA ⟨1#7, 0#7, g, b, h, a, (ofB j ++ ofB f ++ 0#1), 16⟩))
  | .vmul g b h a j f => some (.word (packA ⟨2#7, 0#7, g, b, h, a, (ofB j ++ ofB f ++ 0#1), 16⟩))
  | .vfma g b h a j f => some (.word (packA ⟨3#7, 0#7, g, b, h, a, (ofB j ++ ofB f ++ 0#1), 16⟩))
  | .vmin g b h a j f => some (.word (packA ⟨4#7, 0#7, g, b, h, a, (ofB j ++ ofB f ++ 0#1), 16⟩))
  | .vmax g b h a j f => some (.word (packA ⟨5#7, 0#7, g, b, h, a, (ofB j ++ ofB f ++ 0#1), 16⟩))
  | .vabs h a j f => some (.word (packA ⟨6#7, 0#7, false, 0#3, h, a, (ofB j ++ ofB f ++ 0#1), 16⟩))
  | .vneg h a j f => some (.word (packA ⟨7#7, 0#7, false, 0#3, h, a, (ofB j ++ ofB f ++ 0#1), 16⟩))
  | .vexp2 h a j f => some (.word (packA ⟨8#7, 0#7, false, 0#3, h, a, (ofB j ++ ofB f ++ 0#1), 16⟩))
  | .vlog2 h a j f => some (.word (packA ⟨9#7, 0#7, false, 0#3, h, a, (ofB j ++ ofB f ++ 0#1), 16⟩))
  | .vrcp h a j f => some (.word (packA ⟨10#7, 0#7, false, 0#3, h, a, (ofB j ++ ofB f ++ 0#1), 16⟩))
  | .vrsqrt h a j f => some (.word (packA ⟨11#7, 0#7, false, 0#3, h, a, (ofB j ++ ofB f ++ 0#1), 16⟩))
  | .vtanh h a j f => some (.word (packA ⟨12#7, 0#7, false, 0#3, h, a, (ofB j ++ ofB f ++ 0#1), 16⟩))
  | .vcvt h a j f => some (.word (packA ⟨13#7, 0#7, false, 0#3, h, a, (ofB j ++ ofB f ++ 0#1), 16⟩))
  | .vcmp c g b h a j f => some (.word (packA ⟨14#7, (0#4 ++ c), g, b, h, a, (ofB j ++ ofB f ++ 0#1), 16⟩))
  | .vsel g b h a j f => some (.word (packA ⟨15#7, 0#7, g, b, h, a, (ofB j ++ ofB f ++ 0#1), 16⟩))
  | .vrowred r h a j f => some (.word (packA ⟨16#7, (0#5 ++ r), false, 0#3, h, a, (ofB j ++ ofB f ++ 0#1), 16⟩))
  | .vcolred r h a j f => some (.word (packA ⟨17#7, (0#5 ++ r), false, 0#3, h, a, (ofB j ++ ofB f ++ 0#1), 16⟩))
  | .vbcast w h a j f => some (.word (packA ⟨18#7, (0#6 ++ ofB w), false, 0#3, h, a, (ofB j ++ ofB f ++ 0#1), 16⟩))
  | .vtrans h a j f => some (.word (packA ⟨19#7, 0#7, false, 0#3, h, a, (ofB j ++ ofB f ++ 0#1), 16⟩))
  | .vscale x h a j f => some (.word (packA ⟨20#7, (0#6 ++ ofB x), false, 0#3, h, a, (ofB j ++ ofB f ++ 0#1), 16⟩))
  | .vquant h a j f => some (.word (packA ⟨21#7, 0#7, false, 0#3, h, a, (ofB j ++ ofB f ++ 0#1), 16⟩))
  | .vshl v g b h a j f => some (.word (packA ⟨22#7, (0#6 ++ ofB v), g, b, h, a, (ofB j ++ ofB f ++ 0#1), 16⟩))
  | .vshr v g b h a j f => some (.word (packA ⟨23#7, (0#6 ++ ofB v), g, b, h, a, (ofB j ++ ofB f ++ 0#1), 16⟩))
  | .vsar v g b h a j f => some (.word (packA ⟨24#7, (0#6 ++ ofB v), g, b, h, a, (ofB j ++ ofB f ++ 0#1), 16⟩))
  | .vclamp h a j f => some (.word (packA ⟨25#7, 0#7, false, 0#3, h, a, (ofB j ++ ofB f ++ 0#1), 16⟩))
  | .vmov h a j f => some (.word (packA ⟨26#7, 0#7, false, 0#3, h, a, (ofB j ++ ofB f ++ 0#1), 16⟩))
  | .vfill h a j f => some (.word (packA ⟨27#7, 0#7, false, 0#3, h, a, (ofB j ++ ofB f ++ 0#1), 16⟩))
  | .vmask t h a j f => some (.word (packA ⟨28#7, (0#6 ++ ofB t), false, 0#3, h, a, (ofB j ++ ofB f ++ 0#1), 16⟩))
  | .mma r s y x g b h a j f => some (.word (packA ⟨32#7, (0#3 ++ ofB r ++ ofB s ++ ofB y ++ ofB x), g, b, h, a, (ofB j ++ ofB f ++ 0#1), 16⟩))
  | .mdrain g b h a j f => some (.word (packA ⟨33#7, 0#7, g, b, h, a, (ofB j ++ ofB f ++ 0#1), 16⟩))
  | .cpyMt g b h a j f => some (.word (packA ⟨40#7, 0#7, g, b, h, a, (ofB j ++ ofB f ++ 0#1), 16⟩))
  | .cpyTm g b h a j f => some (.word (packA ⟨40#7, 1#7, g, b, h, a, (ofB j ++ ofB f ++ 0#1), 16⟩))
  | .cpyMm g b h a j f => some (.word (packA ⟨40#7, 2#7, g, b, h, a, (ofB j ++ ofB f ++ 0#1), 16⟩))
  | .gath g b h a j f => some (.word (packA ⟨41#7, 0#7, g, b, h, a, (ofB j ++ ofB f ++ 0#1), 16⟩))
  | .scat g b h a j f => some (.word (packA ⟨42#7, 0#7, g, b, h, a, (ofB j ++ ofB f ++ 0#1), 16⟩))
  | .trgen d => some (.word (packA ⟨0#7, 0#7, false, 0#3, false, 0#3, d, 17⟩))
  | .relaunch g b h a d => some (.word (packA ⟨0#7, 1#7, g, b, h, a, d, 17⟩))
  | .relaunchRepair g b h a d => some (.word (packA ⟨0#7, 2#7, g, b, h, a, d, 17⟩))
  | .trstat d => some (.word (packA ⟨0#7, 3#7, false, 0#3, false, 0#3, d, 17⟩))
  | .dmread h a d => some (.word (packA ⟨0#7, 4#7, false, 0#3, h, a, d, 17⟩))
  | .dmmark p l g b h a => some (.word (packA ⟨(0#5 ++ ofB p ++ ofB l), 5#7, g, b, h, a, 0#3, 17⟩))
  | .sys n => some (.word (packA ⟨n, 0#7, false, 0#3, false, 0#3, 0#3, 18⟩))
  | .eret => some (.word (packA ⟨0#7, 1#7, false, 0#3, false, 0#3, 0#3, 18⟩))
  | .srd n d => some (.word (packA ⟨n, 2#7, false, 0#3, false, 0#3, d, 18⟩))
  | .swr n h a => some (.word (packA ⟨n, 3#7, false, 0#3, h, a, 0#3, 18⟩))
  | .ctxLd i h a d => some (.word (packA ⟨(0#3 ++ i), 4#7, false, 0#3, h, a, d, 18⟩))
  | .ctxSt i g b h a d => some (.word (packA ⟨(0#3 ++ i), 5#7, g, b, h, a, d, 18⟩))
  | .ctxReady h a d => some (.word (packA ⟨0#7, 6#7, false, 0#3, h, a, d, 18⟩))
  | .ctxEvict l h a d => some (.word (packA ⟨(0#6 ++ ofB l), 7#7, false, 0#3, h, a, d, 18⟩))
  | .ctxPark h a d => some (.word (packA ⟨0#7, 8#7, false, 0#3, h, a, d, 18⟩))
  | .ctxParkKill h a d => some (.word (packA ⟨1#7, 8#7, false, 0#3, h, a, d, 18⟩))
  | .tlbi k s g b h a => some (.word (packA ⟨(0#2 ++ k ++ s), 9#7, g, b, h, a, 0#3, 18⟩))
  | .bmode g b h a d => some (.word (packA ⟨0#7, 10#7, g, b, h, a, d, 18⟩))
  | .slotPark h a => some (.word (packA ⟨0#7, 11#7, false, 0#3, h, a, 0#3, 18⟩))
  | .slotFree h a => some (.word (packA ⟨0#7, 12#7, false, 0#3, h, a, 0#3, 18⟩))
  | .dstop h a d => some (.word (packA ⟨0#7, 13#7, false, 0#3, h, a, d, 18⟩))
  | .halt => some (.word (packA ⟨0#7, 14#7, false, 0#3, false, 0#3, 0#3, 18⟩))
  | .jr h a => some (.word (packA ⟨0#7, 0#7, false, 0#3, h, a, 0#3, 19⟩))
  | .jrL h a => some (.word (packA ⟨0#7, 1#7, false, 0#3, h, a, 0#3, 19⟩))
  | .nop => some (.word (packA ⟨0#7, 2#7, false, 0#3, false, 0#3, 0#3, 19⟩))
  | .b k => some (.word (k ++ 20#5 ++ 3#2))
  | .bl k => some (.word (k ++ 21#5 ++ 3#2))
  | .bz k h a => some (.word (packI ⟨k, h, a, 0, 22⟩))
  | .bnz k h a => some (.word (packI ⟨k, h, a, 1, 22⟩))
  | .bany k a => some (.word (packI ⟨k, false, a, 2, 22⟩))
  | .ball k a => some (.word (packI ⟨k, false, a, 3, 22⟩))
  | .bnone k a => some (.word (packI ⟨k, false, a, 4, 22⟩))
  | .loop k h a => some (.word (packI ⟨k, h, a, 5, 22⟩))
  | .bpt k p => some (.word (k ++ 0#1 ++ p ++ 23#5 ++ 3#2))
  | .bpf k p => some (.word (k ++ 1#1 ++ p ++ 23#5 ++ 3#2))
  | .dadd g b h a d => some (.word (packA ⟨0#7, 0#7, g, b, h, a, d, 28⟩))
  | .dsub g b h a d => some (.word (packA ⟨0#7, 1#7, g, b, h, a, d, 28⟩))
  | .dmul g b h a d => some (.word (packA ⟨0#7, 2#7, g, b, h, a, d, 28⟩))
  | .dfma g b h a d => some (.word (packA ⟨0#7, 3#7, g, b, h, a, d, 28⟩))
  | .ddiv g b h a d => some (.word (packA ⟨0#7, 4#7, g, b, h, a, d, 28⟩))
  | .dsqrt h a d => some (.word (packA ⟨0#7, 5#7, false, 0#3, h, a, d, 28⟩))
  | .dcvtTo f h a d => some (.word (packA ⟨(0#2 ++ f ++ 0#1), 6#7, false, 0#3, h, a, d, 28⟩))
  | .dcvtFrom f h a d => some (.word (packA ⟨(0#2 ++ f ++ 1#1), 6#7, false, 0#3, h, a, d, 28⟩))
  | .dcmp p g b h a c => some (.word (packA ⟨(0#1 ++ p), 7#7, g, b, h, a, c, 28⟩))
  | .bsopen g b h a => some (.word (packA ⟨0#7, 0#7, g, b, h, a, 0#3, 29⟩))
  | .getb g b d => some (.word (packA ⟨0#7, 1#7, g, b, false, 0#3, d, 29⟩))
  | .getbImm n d => some (.word (packA ⟨(1#1 ++ n), 1#7, false, 0#3, false, 0#3, d, 29⟩))
  | .peekb g b d => some (.word (packA ⟨0#7, 2#7, g, b, false, 0#3, d, 29⟩))
  | .peekbImm n d => some (.word (packA ⟨(1#1 ++ n), 2#7, false, 0#3, false, 0#3, d, 29⟩))
  | .skipb g b => some (.word (packA ⟨0#7, 3#7, g, b, false, 0#3, 0#3, 29⟩))
  | .skipbImm n => some (.word (packA ⟨(1#1 ++ n), 3#7, false, 0#3, false, 0#3, 0#3, 29⟩))
  | .getue d => some (.word (packA ⟨0#7, 4#7, false, 0#3, false, 0#3, d, 29⟩))
  | .getse d => some (.word (packA ⟨0#7, 5#7, false, 0#3, false, 0#3, d, 29⟩))
  | .bsalign => some (.word (packA ⟨0#7, 6#7, false, 0#3, false, 0#3, 0#3, 29⟩))
  | .crc p c g b h a d => some (.word (packA ⟨(0#3 ++ ofB p ++ c), 7#7, g, b, h, a, d, 29⟩))
  | .addiC16 d a i => some (.half (0#3 ++ d ++ a ++ i ++ 0#2))
  | .andiC16 d a i => some (.half (1#3 ++ d ++ a ++ i ++ 0#2))
  | .shliC16 d a i => some (.half (2#3 ++ d ++ a ++ i ++ 0#2))
  | .shriC16 d a i => some (.half (3#3 ++ d ++ a ++ i ++ 0#2))
  | .sariC16 d a i => some (.half (4#3 ++ d ++ a ++ i ++ 0#2))
  | .ldDC16 d a i => some (.half (5#3 ++ d ++ a ++ i ++ 0#2))
  | .stDC16 d a i => some (.half (6#3 ++ d ++ a ++ i ++ 0#2))
  | .moviC16 d i => some (.half (7#3 ++ d ++ i ++ 0#2))
  | .addC16 d a b => some (.half (0#3 ++ d ++ a ++ b ++ 0#2 ++ 1#2))
  | .subC16 d a b => some (.half (0#3 ++ d ++ a ++ b ++ 1#2 ++ 1#2))
  | .andC16 d a b => some (.half (0#3 ++ d ++ a ++ b ++ 2#2 ++ 1#2))
  | .orC16 d a b => some (.half (0#3 ++ d ++ a ++ b ++ 3#2 ++ 1#2))
  | .xorC16 d a b => some (.half (1#3 ++ d ++ a ++ b ++ 0#2 ++ 1#2))
  | .andnC16 d a b => some (.half (1#3 ++ d ++ a ++ b ++ 1#2 ++ 1#2))
  | .mulC16 d a b => some (.half (1#3 ++ d ++ a ++ b ++ 2#2 ++ 1#2))
  | .movC16 d a => some (.half (1#3 ++ d ++ a ++ 0#3 ++ 3#2 ++ 1#2))
  | .shlC16 d a b => some (.half (2#3 ++ d ++ a ++ b ++ 0#2 ++ 1#2))
  | .shrC16 d a b => some (.half (2#3 ++ d ++ a ++ b ++ 1#2 ++ 1#2))
  | .sarC16 d a b => some (.half (2#3 ++ d ++ a ++ b ++ 2#2 ++ 1#2))
  | .ldWC16 d a i => some (.half (3#3 ++ d ++ a ++ i ++ 1#2))
  | .stWC16 d a i => some (.half (4#3 ++ d ++ a ++ i ++ 1#2))
  | .jrC16 a => some (.half (7#3 ++ 0#3 ++ a ++ 0#3 ++ 0#2 ++ 1#2))
  | .exitC16 => some (.half (0xE005#16))
  | .yieldC16 => some (.half (0xE009#16))
  | .nopC16 => some (.half (0xE00D#16))
  | .bzC16 k a k2 => some (.half (0#3 ++ k ++ a ++ k2 ++ 2#2))
  | .bnzC16 k a k2 => some (.half (1#3 ++ k ++ a ++ k2 ++ 2#2))
  | .bC16 k => some (.half (2#3 ++ k ++ 2#2))
  | .bptC16 p k => some (.half (3#3 ++ p ++ k ++ 2#2))
  | .bpfC16 p k => some (.half (4#3 ++ p ++ k ++ 2#2))
  | .fmt f r s => some (.half (7#3 ++ f ++ r ++ ofB s ++ 0#3 ++ 2#2))
  | .registerFill _ _ _ _ _ _ _ _ => none
  | .idleContextReplace _ _ => none
  | .quantumExpiry _ _ => none
  | .agingPromotion _ => none
  | .launchAccept _ _ _ _ _ _ _ => none
  | .blockStart _ => none
  | .launchCompletion _ => none
  | .semVExecute _ _ _ _ => none
  | .semPExecute _ _ _ _ => none
  | .semPResend _ => none
  | .jcUpdate _ _ _ _ _ => none
  | .chunkInitRequest _ _ _ _ _ _ => none
  | .chunkRequest _ _ _ _ _ _ => none
  | .spawnPoolRequest _ _ _ _ _ _ _ _ => none
  | .wakeupApply _ _ _ _ _ => none
  | .coreStoreAccess _ => none
  | .storeVisible _ => none
  | .nibbleStoreExecute _ => none
  | .atomicExecute _ _ _ _ _ => none
  | .fenceTokenArrival _ _ _ => none
  | .fenceEchoArrival _ _ _ => none
  | .postedTokenRound _ _ => none
  | .heldReleaseSend _ => none
  | .barrierSignal _ _ _ => none
  | .barrierRelease _ _ => none
  | .barrierTimeout _ _ => none
  | .barrierAbort _ _ _ => none
  | .ksendAccumulate _ _ _ _ _ => none
  | .commandAccept _ => none
  | .commandRetry _ => none
  | .commandReply _ _ _ _ _ _ => none
  | .tallocServe _ _ _ _ _ _ _ => none
  | .taskAdmit _ => none
  | .mmaFragmentDone _ _ => none
  | .streamerPartStart _ _ _ => none
  | .streamerPush _ _ _ => none
  | .streamerPartDone _ _ _ => none
  | .taskComplete _ _ => none
  | .cmdsDecrement _ _ _ => none
  | .traceReport _ _ _ _ _ => none
  | .blockRecordWrite _ => none
  | .generationBroadcast _ _ _ => none
  | .generationAdvanceDone _ => none
  | .restampRequest _ _ _ => none
  | .relaunchAccept _ _ _ _ _ _ _ _ _ => none
  | .relaunchComplete _ => none
  | .watchArm _ _ _ _ _ _ _ _ => none
  | .watchTimeout _ => none
  | .watchCancel _ => none
  | .timeDeadline _ => none
  | .contextClaim _ _ => none
  | .contextLineArrival _ _ => none
  | .contextTransferAck _ => none
  | .messageReturn _ _ => none
  | .carouselRingClaim _ => none
  | .ringPost _ => none
  | .ringPostRetry _ => none
  | .ringmasterSteal _ _ => none
  | .preemptRequest _ _ => none
  | .preemptResume _ _ => none
  | .partitionSwap _ _ _ => none
  | .walkComplete _ _ => none
  | .walkQueueRetry _ => none
  | .regionMigrationStart _ _ _ => none
  | .migrationLineMove _ => none
  | .homeNackRetry _ => none
  | .bankDrainDone _ _ => none
  | .bankNackRetry _ => none
  | .flitReceive _ _ => none
  | .linkNak _ _ _ => none
  | .linkAck _ _ _ => none
  | .replayTimeout _ _ => none
  | .laneFaultReport _ _ _ _ => none
  | .linkRetrainDone _ _ => none
  | .classAgePromotion _ _ _ => none
  | .homeReadRequest _ => none
  | .ownershipRequest _ _ => none
  | .ownershipGrant _ _ => none
  | .dieRecall _ _ _ => none
  | .writeBackArrival _ _ _ => none
  | .calliopeExchange _ => none
  | .calliopeResult _ _ _ _ _ => none
  | .exchangeMissing _ => none
  | .ptpEventMessage _ _ => none
  | .heartbeatTimeout _ => none
  | .dieFailureBroadcast _ _ => none
  | .homeFailureProcess _ _ => none
  | .scrubRead _ _ _ => none
  | .scrubWrite _ _ _ => none
  | .contextLoss _ => none
  | .rasPop _ => none
  | .mcheckClear _ _ => none
  | .handlerInstall _ _ _ => none
  | .lnkRetrainForce _ _ => none
  | .lnkInject _ _ => none
  | .dlogBaseWrite _ _ => none
  | .linkCounterSnapshot _ => none
  | .pcSample _ => none
  | .pctDisableSpill _ => none
  | .rplCtlWrite _ _ => none
  | .replayDivergence _ _ => none
  | .operatingPointChange _ _ => none
  | .pwrCapWrite _ _ => none
  | .packageReset => none
  | .bootStepAdvance => none
  | .dieReset _ => none
  | .hostAccess _ _ _ _ => none
  | .scaleUpAccess _ _ _ _ _ => none
  | .portLaunch _ _ _ _ => none
  | .portRelaunch _ _ _ _ => none
  | .portRepair _ _ _ _ => none
  | .setmode _ _ => none
  | .create _ _ _ => none
  | .destroy _ _ _ => none
  | .swap _ _ _ => none
  | .slice _ _ _ => none
  | .preempt _ _ => none
  | .resume _ _ => none
  | .attest _ _ _ => none
  | .timeSliceExpiry _ => none
  | .nonInstructionEncoding _ => none
  | .jcWaitRepoll _ => none
  | .flitSend _ _ => none
  | .unrecoverableFaultReport _ => none
  | .launchPortWriteRefused _ => none
  | .mailboxWriteRefused _ => none

end Sys2Proof
end

