-- ==== Sys2Proof/Config.lean ====
section
/-! DEFINITION. Values that the spec leaves open: constants with no body, so that no proof can learn one. Each is
applied to what it may depend on, or to a number that the state advances. -/

namespace Sys2Proof.Config

open Sys2Proof

/-- Which of the steps that are due takes place, as an index into their list (02 R49, 05 R111: no order is fixed). -/
opaque arb : Nat → Nat
/-- The contents of new tile storage (09 R225: not defined), from the tile's seed and the byte's offset. -/
opaque freeByte : Nat → Nat → Byte
/-- FP32 result of a special function on operands that 09 Table 9-7 does not give exactly, taken where it lies within the
table's error: op, FP32 encoding. -/
opaque sfu : Nat → BitVec 32 → BitVec 32
/-- Which line of an L1 set is replaced (04 R89 fixes 4 ways and no rule of choice). -/
opaque l1Victim : Nat → Nat
/-- Which entries a TLB gives up when it takes a new one (15 R357: eviction may take any), from a number that the state advances and
one that tells the TLB. -/
opaque tlbVictim : Nat → Nat → Nat
/-- Which line a full cluster cache or memory-side cache gives up (04 R89: no rule of choice), from a number that the state
advances and one that tells the cache. -/
opaque cacheVictim : Nat → Nat → Nat
/-- Which of the values that a halfword of code may be fetched with is fetched (06 R133), from a number that the state advances and
the halfword's address. -/
opaque codeChoice : Nat → Nat → Nat
/-- Parts that a cluster streamer's inbound queue holds besides its FIFO banks (04 Table 4-4 gives no number). -/
opaque streamerQueue : Nat
/-- SHA-512 (20 R425, R426), which the spec takes from its standard. -/
opaque sha512 : List Byte → BitVec 512
/-- Whether a P-521 ECDSA signature over a digest verifies under a public key (20 R425). -/
opaque verifies : List Byte → List Byte → BitVec 512 → Bool
/-- The device key's signature of an attestation report (20 R426). -/
opaque sign : List Byte → List Byte
/-- The hash of the key authority's public key, in fuses (20 R425). -/
opaque fuseHash : BitVec 512
/-- Where the supervisor firmware publishes the block of launch ports, and the mailbox (20 R432): above the memory of the device's
physical map. -/
opaque portAt : Nat
opaque mailAt : Nat
/-- Host physical address of the block of launch ports, 1,024 bytes. -/
def portBase : Nat := (2 ^ 26 + 2 ^ 24) * 12288 + portAt
/-- Host physical address of the mailbox, 64 bytes that the launch ports do not overlap. -/
def mailBase : Nat :=
  (2 ^ 26 + 2 ^ 24) * 12288 + (if portAt < mailAt + 64 ∧ mailAt < portAt + 1024 then portAt + 1024 else mailAt)
/-- The X-die boot ROM (20 R425). -/
opaque bootRom : List Byte
/-- Temperature, current and other readings of sys.pwr.stat that no rule of the model's state fixes (20 R431). -/
opaque sensor : Nat → Nat → Nat
/-- Whether a die initialises in a boot step: HBM training, Calliope lock, host-module training (20 R425): step, die. -/
opaque initOk : Nat → Nat → Bool
/-- The device serial number (20 R426). -/
opaque serial : BitVec 128
/-- A value the spec does not state, from a number that the state advances and the number of its use within a step. -/
opaque freeWord : Nat → Nat → Word
/-- Which free context line a new context takes (02 R51, R52: no rule chooses), from a number that the state advances. -/
opaque freeLine : Nat → Nat
/-- The contents of HBM after a change of partition mode (15 R361: undefined), from a number: addresses with their bytes, every other
byte of HBM being 0. -/
opaque hbmCells : Nat → List (Nat × Byte)

end Sys2Proof.Config
end

