-- ==== Sys2Proof/Machine/State.lean ====
section
/-! DEFINITION. The state of the package (01 Table 1-5 and the units of the other chapters), as plain data.
Each field's comment reads: what it is | width | the rule that names it | its value at reset. "model" in place of a
rule marks bookkeeping of the model's own that stands for state the spec only implies. -/

namespace Sys2Proof.Machine

open Sys2Proof

/-- One byte memory: addresses strictly rising, no byte equal to 0, which an unlisted address reads as. -/
abbrev Memory := List Host.Cell

/-- An entry of a pair's load-value queue (17 R397): the leading context's destination (16 where there is none), its
value once it has arrived, and the epoch tag with which the trailing context has claimed it. -/
structure LvEntry where
  reg : Nat
  val : Option Word := none
  claim : Option Bool := none
deriving DecidableEq, Repr

/-- A context line (02 Table 2-1, Table 2-3) with what its holder keeps beside it. -/
structure Ctx where
  /-- general registers w0 to w7 | 8 x 64 | 02 R36 | 0 (a free line, 13 R309) -/
  w : Vector Word 8 := Vector.replicate 8 0
  /-- operand-extension registers e0 to e3 | 4 x 64 | 02 R36 | 0 (a free line) -/
  e : Vector Word 4 := Vector.replicate 4 0
  /-- program counter, bits [56:0] | 57 | 02 R36, 06 R132 | 0 (a free line) -/
  pc : BitVec 57 := 0
  /-- predicate word | 64 | 06 R140 | 0 (a free line) -/
  pw : Word := 0
  /-- wait-tag kind | 4 | 02 R37 | 0 (a free line) -/
  kind : BitVec 4 := 0
  /-- wait-tag argument | 60 | 02 R37 | 0 (a free line) -/
  warg : BitVec 60 := 0
  /-- sw[63:56] PEND | 8 | 02 R38 | 0 -/
  pend : BitVec 8 := 0
  /-- sw[55:48] EPOCH | 8 | 02 R38 | 0 -/
  epoch : BitVec 8 := 0
  /-- sw[47:40] CAUSE | 8 | 02 R38 | 0 -/
  cause : BitVec 8 := 0
  /-- sw[39:38] EXTNEED | 2 | 02 R38 | 0 -/
  extneed : BitVec 2 := 0
  /-- sw[37:36] PAIR | 2 | 02 R38 | 0 -/
  pair : BitVec 2 := 0
  /-- sw[35:34] PRIO | 2 | 02 R38 | 0 -/
  prio : BitVec 2 := 0
  /-- sw[33:32] PRIV: 0 U, 1 S, 3 M | 2 | 02 R38, 13 R306 | 0 -/
  priv : BitVec 2 := 0
  /-- sw[31:26] CMDS | 6 | 02 R38 | 0 -/
  cmds : BitVec 6 := 0
  /-- sw[25:13] PFXVAL | 13 | 02 R38, 06 R147 | 0 -/
  pfxval : BitVec 13 := 0
  /-- sw[12] PFX | 1 | 02 R38, 06 R147 | 0 -/
  pfx : Bool := false
  /-- sw[11:8] FE.e | 4 | 02 R38 | 0 -/
  fee : BitVec 4 := 0
  /-- sw[7:0] FE.w | 8 | 02 R38 | 0 (a free line; 0b111 at launch) -/
  few : BitVec 8 := 0
  /-- the CVA that names the line | 57 | 02 R36 | 0 -/
  cva : Nat := 0
  /-- resident partition of the context, 4 x die set + index | - | 15 R362 | 0 -/
  part : Nat := 0
  /-- key of its block, 0 for none (a handler) | - | 02 R51, 13 R435 | 0 -/
  blk : Nat := 0
  /-- thread index | 16 | 02 Table 2-6 | 0 -/
  tindex : Nat := 0
  /-- pinned place 16 x core + slot, of a PINNED context | - | 02 R50 | none -/
  pin : Option Nat := none
  /-- handler level: 0 no handler, 1 S, 3 M | - | 13 R311 | 0 -/
  handler : Nat := 0
  /-- core on which the context last held a slot | 13 | 04 R91 | none -/
  lastCore : Option Nat := none
  /-- that slot | 4 | 17 R398 | 0 -/
  lastSlot : Nat := 0
  /-- asynchronous traps held with the line, oldest first: cause and information word | - | 13 R314 | none held -/
  heldTraps : List (Nat × Word) := []
  /-- held parks (1) and stops (2), oldest first | 2 | 13 R316, R325, R329 | none -/
  heldStop : List Nat := []
  /-- slot kept empty for a stopped context, 16 x core + slot | - | 13 R329 | none -/
  stopSlot : Option Nat := none
  /-- exempt from the breakpoint comparison at its next issue | 1 | 19 R416 | false -/
  bpExempt : Bool := false
  /-- the core invalidates its L1 before this context's next issue | 1 | 04 R90, 05 R119 | false -/
  inval : Bool := false
  /-- gtime at which it became ready | 64 | 14 R345 | 0 -/
  readyAt : Nat := 0
  /-- gtime at which its quantum began | 64 | 02 R45 | 0 -/
  runAt : Nat := 0
  /-- cycle of its last issue | 64 | 02 R44, 14 R338 | 0 -/
  lastIssue : Nat := 0
  /-- gtime of its last issue | 64 | 14 R338 | 0 -/
  issuedAt : Nat := 0
  /-- queue level after ageing | 2 | 02 R45, 14 R345 | 0 -/
  level : Nat := 0
  /-- the other context of a pair | - | 17 R396 | none -/
  peer : Option Nat := none
  /-- load-value queue of a pair, kept with the leading line | 64 entries | 17 R397 | empty -/
  lvq : List LvEntry := []
  /-- store comparator of a pair, kept with the leading line: encoding, sources, destination and tag | 32 entries | 17 R397 | empty -/
  comparator : List (List Word) := []
  /-- wi was written again while its fill was outstanding, so that the fill is discarded | 8 | 02 R42, 13 R317 | 0 -/
  void : BitVec 8 := 0
  /-- instructions that the leading context of a pair has retired and the trailing one has still to issue, kept with the leading line | - | 17 R396, R397 | 0 -/
  ahead : Nat := 0
  /-- a fill of ei is outstanding | 4 | 02 R42 | 0 -/
  epend : BitVec 4 := 0
  /-- the wait tag that the context would carry if evicted while its slot idles | 64 | 02 R41, R42; 09 R232 | 0 -/
  stall : Option Word := none
  /-- scope of a fence.rel or fence.ar whose earlier stores a later store has still to follow, 0 for none | 3 | 05 R114, R115 | 0 -/
  fenced : BitVec 3 := 0
  /-- bits [63:57] of the entry point of a spawned context that has not fetched yet | 7 | 08 R212 | 0 -/
  entryHi : BitVec 7 := 0
  /-- address whose walk faulted, for the access that waits for it | 57 | 15 R358 | none -/
  badVa : Option Nat := none
  /-- patches that the idling dmmark of the context has marked | 17 | 10 R283 | 0 -/
  marked : Nat := 0
  /-- scope of a sem.p whose UNQ resend is outstanding | - | 08 R208 | none -/
  resend : Option Nat := none
  /-- gtime at which a request that found a full waiter list is sent or tested again | 64 | 02 R53, 08 R208 | 0 -/
  pollAt : Nat := 0
  /-- the answers of other units that the idling instruction waits for: its number, how many are to come, and what they brought | - | 13 R326, R328, 08 R209 | none -/
  quest : Option (Nat × Nat × Nat) := none
  /-- bytes of another core's store that a waiting getue or getse has read, by address | - | 07 R188 | empty -/
  seen : FMap Byte := []
deriving DecidableEq, Repr

/-- A trap waiting for its handler (13 R312, step 5): faulting line, cause, information word, its old wait tag, level. -/
structure TrapEntry where
  ctx : Nat
  cause : Nat
  info : Word
  tag : Word
  level : Nat
deriving DecidableEq, Repr

/-- One issue position of a core (01 R23). -/
structure Slot where
  /-- context in the slot | - | 14 R332 | none -/
  ctx : Option Nat := none
  /-- parked by slot.park | 1 | 13 R328 | false -/
  parked : Bool := false
  /-- context for which the slot is held empty | - | 13 R329 | none -/
  heldFor : Option Nat := none
  /-- cycle of the die until which the register bank is rewritten after an error, with the slot parked meanwhile | 64 | 17 R395 | none -/
  blank : Option Nat := none
  /-- token rounds (link of the die, round) that the fence in this slot waits for | - | 08 R203, 05 R116 | none -/
  fence : Option (List (Nat × Nat)) := none
deriving DecidableEq, Repr

/-- A hardware barrier register (08 R214 to R217). -/
structure Bar where
  /-- configured since reset | 1 | 08 R216 | false -/
  cfg : Bool := false
  /-- geometry X0, Y0, W, H, COUNT | 27 | 08 Table 8-4 | 0 (unconfigured) -/
  x0 : Nat := 0
  y0 : Nat := 0
  wd : Nat := 0
  ht : Nat := 0
  count : Nat := 0
  /-- timeout in ticks, 0 for none | 64 | 08 R214 | 0 -/
  timeout : Nat := 0
  /-- generation | 8 | 08 R215 | 0 -/
  gen : BitVec 8 := 0
  /-- arrivals of the phase on this core | 5 | 08 R215 | 0 -/
  arrived : Nat := 0
  /-- the west neighbour's row-done signal is held here | 1 | 08 R215 | false -/
  rowIn : Bool := false
  /-- the column-done signal from below is held here | 1 | 08 R215 | false -/
  colIn : Bool := false
  /-- this core has forwarded row done | 1 | 08 R215 | false -/
  rowOut : Bool := false
  /-- this core has forwarded column done | 1 | 08 R215 | false -/
  colOut : Bool := false
  /-- mask with which the register is marked aborted | 64 | 08 R217 | none -/
  aborted : Option Word := none
  /-- gtime of the first bar.arr of the phase | 64 | 08 R217 | none -/
  firstAt : Option Nat := none
  /-- threads whose bar.arr came after the core's arrival was complete: line, register, tag | - | 08 R216 | none -/
  late : List (Nat × Nat × Bool) := []
deriving DecidableEq, Repr

/-- An entry of a core store's waiter list (02 R53): a semaphore waiter, a join-counter waiter or a watch. -/
structure Waiter where
  ctx : Nat
  loc : Nat
  /-- wait kind 2, 3 or 5 -/
  kind : Nat
  /-- threshold of a join-counter waiter -/
  thr : Nat := 0
  /-- scope of the sem.p -/
  scope : Nat := 0
  /-- destination register and tag of a watch -/
  reg : Nat := 0
  tag : Bool := false
  /-- gtime of the word's home at which a watch times out -/
  deadline : Option Nat := none
  /-- its context has ended since it was queued; it is skipped at the head (08 R208) -/
  dead : Bool := false
deriving DecidableEq, Repr

/-- A TLB entry (15 R357): a leaf of any size, tagged with its half and its resident partition. -/
structure TlbEntry where
  part : Nat
  hi : Bool
  level : Nat
  /-- first base page of the page, counted within the half -/
  page : Nat
  ppn : Nat
  r : Bool
  w : Bool
  x : Bool
  u : Bool
deriving DecidableEq, Repr

/-- A non-leaf entry of a die's walk cache (15 R357). -/
structure WalkEntry where
  part : Nat
  hi : Bool
  level : Nat
  page : Nat
  ppn : Nat
deriving DecidableEq, Repr

/-- A waiter of a page walk: the faulting access's context, its address and the core whose TLB is filled; of a Juggler's translation the
number of who asks, and 8,192 + its cluster. -/
structure WalkWaiter where
  ctx : Nat
  info : Word
  core : Nat
deriving DecidableEq, Repr

/-- A page walk in flight or queued (15 R358). -/
structure Walk where
  part : Nat
  /-- the root register as it stood when the walk began (15 R356) -/
  root : Word
  hi : Bool
  page : Nat
  cluster : Nat
  waiters : List WalkWaiter
deriving DecidableEq, Repr

/-- An event counter (19 R419). -/
structure EvCounter where
  /-- SOURCE, ENABLE, SLOTS | 32 | 19 Table 19-1 | 0 -/
  cfg : Word := 0
  /-- count | 64 | 19 Table 19-1 | 0 -/
  val : Word := 0
deriving DecidableEq, Repr

/-- A ready-ring entry (14 R340). -/
structure RingEntry where
  ctx : Nat
  prio : Nat
  extneed : BitVec 2
  /-- gtime of readiness, its age -/
  at_ : Nat
deriving DecidableEq, Repr

/-- One core (01 Table 1-2). -/
structure Core where
  /-- the 16 slots | 16 entries | 01 R23 | all empty -/
  slots : List Slot := List.replicate 16 {}
  /-- core L1 data cache: sector number to its 48 bytes | 160 lines | 04 R89, R90 | empty -/
  l1 : FMap (List Byte) := []
  /-- the core's last acquire of scope .cl or wider, as an index of State.olds | - | 06 R133 | 0 -/
  acqAt : Nat := 0
  /-- lines that a waiting getue or getse holds in the L1: context, line | - | 07 R188 | none -/
  l1held : List (Nat × Nat) := []
  /-- context L1: lines resident, least recently issued first | 256 lines | 14 R332 | empty -/
  resident : List Nat := []
  /-- handler contexts made ready, ahead of the queues | - | 13 R312, 14 R336 | empty -/
  readyH : List Nat := []
  /-- the four ready queues | 4 FIFOs | 14 R336 | empty -/
  ready : List (List Nat) := [[], [], [], []]
  /-- cycle of the core's last issue | 64 | 01 R23 | 0 -/
  lastCyc : Nat := 0
  /-- a sample taken and not yet reported: partition, reason, pc, low bits of the launch id | - | 19 R421 | none -/
  sample : Option (Nat × Nat × Nat × Nat) := none
  /-- contexts that held the slots when the partition was pre-empted | 16 entries | 14 R348 | none -/
  preSlots : List (Option Nat) := []
  /-- claims outstanding | up to 4 | 14 R337 | none -/
  claims : List Nat := []
  /-- ring entries from whose copies claims were made that their homes have not answered | - | 18 R401 | none -/
  copied : List RingEntry := []
  /-- a ring entry copied while four claims are outstanding, whose claim is still to be sent | - | 18 R401 | none -/
  copy : Option RingEntry := none
  /-- sys.hcva.s (0x01) | 64 | 13 R308 | 0 -/
  hcvaS : Word := 0
  /-- sys.hcva.m (0x02) | 64 | 13 R308 | 0 -/
  hcvaM : Word := 0
  /-- line named by sys.hcva.s, by physical address | - | 13 R309 | none -/
  hctxS : Option Nat := none
  /-- line named by sys.hcva.m, by physical address | - | 13 R309 | none -/
  hctxM : Option Nat := none
  /-- sys.hentry.s (0x03) | 64 | 13 R308 | 0 -/
  hentryS : Word := 0
  /-- sys.hentry.m (0x04) | 64 | 13 R308 | 0 -/
  hentryM : Word := 0
  /-- sys.tdeleg (0x05) | 64 | 13 R308 | 0 -/
  tdeleg : Word := 0
  /-- trap queue, shown in sys.tq (0x06) | 64 entries | 13 R308, R312 | empty -/
  trapQ : List TrapEntry := []
  /-- sys.mcheck (0x07) | 64 | 13 R308 | 0 -/
  mcheck : Word := 0
  /-- sys.fdisc (0x08) | 64 | 13 R308 | 0 -/
  fdisc : Word := 0
  /-- sys.tlbmiss (0x22) | 64 | 15 R356 | 0 -/
  tlbmiss : Word := 0
  /-- sys.rgn.sel (0x25) | 64 | 15 R356 | 0 -/
  rgnSel : Word := 0
  /-- sys.lnk.sel (0x32) | 64 | 16 R388 | 0 -/
  lnkSel : Word := 0
  /-- sys.ras.core (0x46), SUSPECT | 64 | 17 R400 | 0 -/
  rasCore : Word := 0
  /-- sys.ev.sel (0x58) | 64 | 19 R413 | 0 -/
  evSel : Word := 0
  /-- the core's event counters, sys.ev.cfg and sys.ev.val (0x59, 0x5A) | 8 | 19 R419 | 0 -/
  evs : List EvCounter := List.replicate 8 {}
  /-- halted by halt | 1 | 13 R330 | false -/
  halted : Bool := false
  /-- barrier registers b0 to b3 | 4 | 08 R214 | unconfigured -/
  bars : List Bar := List.replicate 4 {}
  /-- waiter list of the core store | 256 entries | 02 R53 | empty -/
  waiters : List Waiter := []
  /-- core TLB | 64 entries | 15 R357 | empty -/
  tlb : List TlbEntry := []
deriving DecidableEq, Repr

/-- Role of a cluster SRAM bank (04 R95). -/
inductive BankMode where
  | cache | scratch | fifo | context
deriving DecidableEq, Repr

/-- A bank-mode change under way (15 R369). -/
structure Drain where
  bank : Nat
  mode : BankMode
  ctx : Nat
  reg : Nat
  tag : Bool
  core : Nat
  part : Nat
deriving DecidableEq, Repr

/-- A chunk counter (02 R55). -/
structure Chunk where
  /-- total N | 32 | 02 R55 | 0 (08 R213: an unset counter answers (0, 0)) -/
  total : Nat := 0
  /-- remaining | 32 | 02 R55 | 0 -/
  remaining : Nat := 0
  /-- participants P | 16 | 02 R55 | 0 -/
  parts : Nat := 0
  /-- minimum m | 16 | 02 R55 | 0 -/
  least : Nat := 0
deriving DecidableEq, Repr

/-- A part of a copy, gather or scatter (09 R248). A place is a physical address, 2^62 + a core-store location, or
2^63 + 2^16 x tile key + a byte of a tile. -/
structure Part where
  /-- streamer that serves it: a die, or 64 + a cluster -/
  unit : Nat
  /-- byte moves in the order written: destination and source places -/
  moves : List (Nat × Nat)
  /-- reads in another die's storage: twice those answered, and one more while one is asked for -/
  asked : Nat := 0
  begun : Bool := false
  /-- bytes read, for the moves not yet pushed -/
  data : List Byte := []
  done : Bool := false
deriving DecidableEq, Repr

/-- A handle operand of an accepted command: its slot (D, A, B, C, e1), the entry and tile that it named, the view, and
the tile's attributes. -/
structure TRef where
  slot : Nat
  handle : Nat
  key : Nat
  seed : Nat
  row0 : Nat
  rows : Nat
  desc : Nat
  scale : Bool
deriving DecidableEq, Repr

/-- An engine task (09 R232 to R236). -/
structure Task where
  cmd : Cmd
  /-- resident partition of the issuing block, and its job seed -/
  part : Nat
  seed : Word
  /-- order of acceptance | - | 05 R122 | - -/
  order : Nat
  refs : List TRef := []
  /-- footprint read and written: rows of a tile (true, key, first row, count), or 192-byte granules -/
  rd : List (Bool × Nat × Nat × Nat) := []
  wr : List (Bool × Nat × Nat × Nat) := []
  /-- translated memory operands, as runs of places in byte order -/
  src : List (Nat × Nat) := []
  dst : List (Nat × Nat) := []
  /-- bytes of the list of a gather or scatter that have been read, none for a poisoned one, and the count of its reads as in a part -/
  list : List (Option Byte) := []
  asked : Nat := 0
  parts : List Part := []
  /-- k-groups of an mma already accumulated -/
  done : Nat := 0
  /-- fault cause met first -/
  flt : Option Nat := none
  /-- a matrix engine or a vector unit works on it | 1 | 01 R17 | - -/
  running : Bool := false
  /-- every write has performed -/
  performed : Bool := false
deriving DecidableEq, Repr

/-- A PC-table entry (19 R421). -/
structure PctEntry where
  pc : Nat
  reason : Nat
  launch : Nat
  count : Nat
deriving DecidableEq, Repr

/-- One cluster (01 Table 1-2). -/
structure Cluster where
  /-- bank modes | 16 | 04 R95 | CACHE, CONTEXT for banks 0 and 1 (DESIGN CHOICE: boot step 3 sets the same, 20 R425) -/
  modes : List BankMode := [.context, .context] ++ List.replicate 14 .cache
  /-- resident partition that owns each bank, none for CACHE | 16 | 15 R362 | index 0 for banks 0 and 1 -/
  owner : List (Option Nat) := [some 0, some 0] ++ List.replicate 14 none
  /-- bank-mode changes under way | - | 15 R369 | none -/
  drains : List Drain := []
  /-- chunk counters | 16 | 02 R55 | 0 -/
  chunks : List Chunk := List.replicate 16 {}
  /-- ready rings by resident partition, oldest first | 2,048 entries and more | 14 R340 | empty -/
  rings : FMap (List RingEntry) := []
  /-- context L2: lines M-parked here, least recently parked first | 4,096 per bank | 14 R332 | empty -/
  l2 : List Nat := []
  /-- the CONTEXT bank that holds each of those lines | 4 | 14 R332, R339 | empty -/
  l2bank : FMap Nat := []
  /-- cluster TLB | 4,096 entries | 15 R357 | empty -/
  tlb : List TlbEntry := []
  /-- answers of walks that the Juggler waits for: who asked, the page, and its leaf, none where the walk faulted | - | 15 R359 | none -/
  xlat : List (Nat × Nat × Option TlbEntry) := []
  /-- accepted tasks not yet admitted | 256 and more | 09 R232 | empty -/
  inq : List Task := []
  /-- in-flight tasks by task number | 64 | 09 R232, R236 | empty -/
  tasks : FMap Task := []
  /-- copy of the current generation | 8 | 10 R267, R268 | 0 -/
  gen : Nat := 0
  /-- event counters 0 to 15 of the cluster | 16 | 19 R419 | 0 -/
  evs : List EvCounter := List.replicate 16 {}
  /-- PC table | 4,096 entries | 19 R421 | empty -/
  pct : FMap PctEntry := []
  /-- gtime since which the cluster is idle, by resident partition | 64 each | 14 R344 | 0 -/
  idleSince : FMap Nat := []
deriving DecidableEq, Repr

/-- One die: compute 0-7, memory 8-19, X 20, host 21 (16 R376). -/
structure Die where
  /-- released from reset | 1 | 20 R425 | false -/
  on : Bool := false
  /-- cycle count of a compute die | 64 | 01 R33 | 0 (DESIGN CHOICE) -/
  cyc : Nat := 0
  /-- operating point in MHz, sys.pwr.stat (0x73) [9:0] | 10 | 01 R31, 20 R431 | 800 -/
  mhz : Nat := 800
  /-- operating point chosen for the next rotation boundary | 10 | 01 R31 | none -/
  mhzNext : Option Nat := none
  /-- time since the current cycle began, in 1/273 ticks | - | 01 R31, R34 | 0 -/
  phase : Nat := 0
  /-- gtime less the grandmaster's, in ticks, at `slewAt` | signed | 16 R382 | 0 (DESIGN CHOICE) -/
  ahead : Int := 0
  /-- what the slewing has gained beyond whole ticks, in 10^-9 ticks | signed | 16 R382 | 0 -/
  frac : Int := 0
  /-- the grandmaster's gtime at which the rate was last set | 64 | 16 R382 | 0 -/
  slewAt : Nat := 0
  /-- the grandmaster's gtime of the last exchange | 64 | 16 R382 | 0 -/
  exAt : Nat := 0
  /-- LOCKED, sys.tsync (0x30) [0] | 1 | 16 R388 | 0 -/
  locked : Bool := false
  /-- locked at least once, sys.tsync [1] | 1 | 16 R388 | 0 -/
  everLocked : Bool := false
  /-- last theta, sys.tsync [23:8] | signed 16 | 16 R388 | 0 -/
  theta : Int := 0
  /-- last path delay, delta, in ticks | signed | 16 R382 | 0 -/
  delay : Int := 0
  /-- losses of lock, sys.tsync [39:24] | 16 | 16 R388 | 0 -/
  losses : Nat := 0
  /-- successive exchanges within 8 ticks | 5 | 16 R383 | 0 -/
  good : Nat := 0
  /-- successive exchanges missing | 2 | 16 R383 | 0 -/
  missing : Nat := 0
  /-- sys.tslew (0x31), parts per billion | signed | 16 R388 | 0 -/
  tslew : Int := 0
  /-- die overflow list of traps, with their cores | 4,096 entries | 13 R312 | empty -/
  overflow : List (Nat × TrapEntry) := []
  /-- page walks in flight | 512 | 15 R358 | empty -/
  walks : List Walk := []
  /-- page-walk misses queued | 4,096 | 15 R358 | empty -/
  walkQ : List Walk := []
  /-- misses held by their clusters because the queue is full | - | 15 R358 | empty -/
  walkHeld : List Walk := []
  /-- walk cache | 1,024 entries | 15 R357 | empty -/
  walkCache : List WalkEntry := []
  /-- the partition's slots, engines and streamers on this die are halted by a pre-emption | 1 | 14 R346 | false -/
  preempted : Bool := false
  /-- gtime at which the request of that pre-emption reached the die, when its partition's clocks stopped | 64 | 14 R345, 20 R433 | 0 -/
  preAt : Nat := 0
  /-- sys.pwr.cap (0x72) | 64 | 20 R431 | 250 -/
  pwrCap : Word := 250
  /-- sys.ras.watch (0x41) | 64 | 17 R400 | 0 -/
  rasWatch : Word := 0
  /-- error log, oldest first: words 0 and 1 (0x42, 0x43) | 256 entries | 17 R399 | empty -/
  log : List (Word × Word) := []
  /-- error-log entries dropped, sys.ras.cnt [31:16] | 16 | 17 R400 | 0 -/
  logDropped : Nat := 0
  /-- corrected errors, sys.ras.cnt [63:32] | 32 | 17 R400 | 0 -/
  corrected : Nat := 0
  /-- sectors whose scrub write is under way, with the gtime of its read | - | 17 R394 | empty -/
  scrubAt : FMap Nat := []
  /-- first sector, 4 x slot + sector of the line, that a memory die's scrubber has still to read in its pass | - | 17 R393 | 0 (DESIGN CHOICE) -/
  scrubNext : Nat := 0
  /-- gtime at which that pass began | 64 | 17 R393 | 0 (DESIGN CHOICE) -/
  scrubFrom : Nat := 0
  /-- sys.dlog.base (0x55) | 64 | 19 R413 | 0 -/
  dlogBase : Word := 0
  /-- sys.dlog.ctl (0x56) | 64 | 19 R413 | 0 -/
  dlogCtl : Word := 0
  /-- sys.dlog.idx (0x57) | 32 | 19 R413 | 0 -/
  dlogIdx : Nat := 0
  /-- sys.lnkc.base (0x5B) | 64 | 19 R413 | 0 -/
  lnkcBase : Word := 0
  /-- sys.lnkc.ctl (0x5C) | 64 | 19 R413 | 0 -/
  lnkcCtl : Word := 0
  /-- snapshots written, sys.lnkc.stat (0x5D) [31:0] | 32 | 19 R413 | 0 -/
  lnkcDone : Nat := 0
  /-- snapshots skipped, sys.lnkc.stat [63:32] | 32 | 19 R413 | 0 -/
  lnkcSkip : Nat := 0
  /-- the last crossing of a multiple of 2^K ticks that was seen | - | 19 R420 | 0 -/
  lnkcAt : Nat := 0
  /-- flit counts (even) and stall counts (odd) of the mesh ports, by (32 x core + 8 x port + 2 x class) | 32 each | 19 R420 | 0 -/
  ports : FMap Nat := []
  /-- sys.pct.base (0x5F) | 64 | 19 R413 | 0 -/
  pctBase : Word := 0
  /-- sys.pct.size (0x60) | 64 | 19 R413 | 0 -/
  pctSize : Word := 0
  /-- sys.pct.idx (0x61) | 32 | 19 R413 | 0 -/
  pctIdx : Nat := 0
  /-- transaction counts per target die | 24 each | 16 R376 | 0 -/
  txNext : FMap Nat := []
  /-- non-idempotent requests sent and not yet confirmed: target die, transaction id, and for a posted one the link and the token
  round which confirm it | 4,096 per target | 16 R376 | empty -/
  unconf : List (Nat × Nat × Option (Nat × Nat)) := []
  /-- duplicate filter: transaction ids held, with the recorded response | 4,096 per source | 16 R376 | empty -/
  filter : List (Nat × Option Ev) := []
  /-- lines in the memory-side cache of a memory die, oldest first | 64 MiB | 04 R89 | empty -/
  msCache : List Nat := []
  /-- sectors of those lines that it has filled | 4 each | 04 R88 | none -/
  msHas : FMap (BitVec 4) := []
  /-- watch entries of a memory die: physical word, and the waiter | 16,384 | 08 R210 | empty -/
  watches : List Waiter := []
  /-- dies this die knows to have failed | 8 | 16 R385 | none -/
  knows : List Nat := []
  /-- bytes, home and answer of the last posted token round: rounds begun per link | - | 05 R116 | 0 -/
  rounds : FMap Nat := []
  /-- rounds that wait for echoes: (link, round) | - | 05 R116 | none -/
  roundsOpen : List (Nat × Nat) := []
  /-- posted messages forwarded since the last token: link they came by, link they left by | - | 05 R116 | none -/
  fwd : List (Nat × Nat) := []
  /-- tokens that wait for onward rounds: link, round, and the rounds | - | 05 R116 | none -/
  tokens : List (Nat × Nat × List (Nat × Nat)) := []
deriving DecidableEq, Repr

/-- A message on a die link (16 R434), with the step it causes at its destination. -/
structure LinkMsg where
  src : Nat
  dst : Nat
  cls : Nat
  bytes : Nat
  posted : Bool
  tx : Option Nat
  ev : Ev
  /-- gtime at which it was queued | 64 | 16 R378 | - -/
  since : Nat
  /-- the recorded response of a request that came twice; its requester has completed and discards it (16 R375, R376) -/
  again : Bool := false
deriving DecidableEq, Repr

/-- A flit (16 R373, R434, 18 R408). -/
structure Flit where
  /-- number, modulo 1,024, restarted by a retrain -/
  seq : Nat
  /-- number since package reset (model): by it a receiver knows a flit it has accepted before a retrain -/
  no : Nat
  msgs : List LinkMsg
  /-- its CRC is corrupted on the wire -/
  bad : Bool := false
  /-- it carries only acknowledgements or NAKs, takes no number and is not kept for replay (18 R408) -/
  plain : Bool := false
  /-- number expected by the end that sends it: the flits before it are acknowledged -/
  ack : Option Nat := none
  /-- number that a NAK names -/
  nak : Option Nat := none
deriving DecidableEq, Repr

/-- One end of a die link (16 R372 to R375, R388). -/
structure LinkEnd where
  /-- sys.lnk.stat (0x33) [1:0]: 0 down, 1 training, 2 up, 3 absent | 2 | 16 R388 | 2 (DESIGN CHOICE: the table gives none) -/
  st : Nat := 2
  /-- sys.lnk.stat [2]: at x32 | 1 | 16 R388 | 0 (DESIGN CHOICE) -/
  x32 : Bool := false
  /-- sys.lnk.stat [5:3]: redundant lanes in use | 3 | 16 R388 | 0 (DESIGN CHOICE) -/
  redundant : Nat := 0
  /-- sys.lnk.stat [31:16]: retrains | 16 | 16 R388 | 0 (DESIGN CHOICE) -/
  retrains : Nat := 0
  /-- faulty lanes in the lower and upper half | - | 16 R374 | 0 -/
  badLow : Nat := 0
  badHigh : Nat := 0
  /-- sys.lnk.seq (0x34) [9:0]: next number sent | 10 | 16 R388 | 0 -/
  nextTx : Nat := 0
  /-- sys.lnk.seq [41:32]: next number expected | 10 | 16 R388 | 0 -/
  expect : Nat := 0
  /-- replay buffer, oldest first; sys.lnk.rply (0x35) [7:0] and sys.lnk.seq [25:16] follow from it | 128 flits | 16 R373 | empty -/
  replay : List Flit := []
  /-- sys.lnk.rply [47:16]: replays | 32 | 16 R388 | 0 -/
  replays : Nat := 0
  /-- sys.lnk.crc (0x36) | 64 | 16 R388 | 0 -/
  crc : Nat := 0
  /-- sys.lnk.dup (0x37) | 64 | 16 R388 | 0 -/
  dup : Nat := 0
  /-- sys.lnk.ctl (0x38) [1] DEGRADE | 1 | 16 R388 | 1 -/
  degrade : Bool := true
  /-- sys.lnk.ctl [2] INJECT | 1 | 16 R388 | 0 -/
  inject : Bool := false
  /-- class queues, in order of queueing | 4 classes | 16 R378 | empty -/
  queue : List LinkMsg := []
  /-- flits on the wire towards the other end, oldest first | - | 16 R373 | empty -/
  wire : List Flit := []
  /-- the receiver has found an error and waits for the expected number | 1 | 16 R373 | false -/
  naked : Bool := false
  /-- a NAK is to travel in the next flit of this direction | 1 | 16 R373, 18 R408 | false -/
  nakDue : Bool := false
  /-- flits accepted and not yet acknowledged | 7 | 16 R373 | 0 -/
  ackDue : Nat := 0
  /-- gtime at which the first of them was accepted | 64 | 16 R373 | 0 -/
  ackAt : Nat := 0
  /-- successive replays on which the oldest flit failed | 2 | 16 R374 | 0 -/
  fails : Nat := 0
  /-- number that the last NAK named | 10 | 16 R374 | none -/
  nakSeq : Option Nat := none
  /-- gtime of the last acknowledgement, or of the oldest flit's sending; while it trains, of the retrain's beginning | 64 | 16 R373, R374 | 0 -/
  sentAt : Nat := 0
  /-- flits sent since package reset | - | model | 0 -/
  total : Nat := 0
  /-- flits accepted since package reset | - | model | 0 -/
  got : Nat := 0
  /-- its die has been reset since the link went to x32 | 1 | 16 R374 | false -/
  renewed : Bool := false
  /-- classes with a flit that has waited 10 us | 2 | 16 R378 | none -/
  aged : List Nat := []
  /-- posted operation carried since the last token round | 1 | 05 R116 | false -/
  posted : Bool := false
  /-- gtime of the first of them | 64 | 16 R376 | 0 -/
  postedAt : Nat := 0
  /-- flits sent, by class | 4 x 32 | 19 R420 | 0 -/
  sent : List Nat := [0, 0, 0, 0]
  /-- flit slots since class 1 last sent | 3 | 16 R378 | 0 -/
  since1 : Nat := 0
deriving DecidableEq, Repr

/-- Directory state of a line (16 Table 16-3). -/
inductive Moesi where
  | i | s | e | m | o | lost
deriving DecidableEq, Repr

/-- A home directory's entry of a 192-byte line, with the die directories' division of it (16 R380). -/
structure DirEntry where
  /-- state | 3 | 16 R380 | I -/
  st : Moesi := .i
  /-- sharer bit per compute die | 8 | 16 R380 | 0 -/
  dies : BitVec 8 := 0
  /-- dirty owner die | 3 | 16 R380 | none -/
  owner : Option Nat := none
  /-- cluster cache that holds the line with ownership (die directory) | 9 | 16 R380, R381 | none -/
  cluster : Option Nat := none
  /-- clusters that share it (die directories) | - | 16 R380 | none -/
  sharers : List Nat := []
  /-- generation of the grant | 8 | 10 R267 | 0 -/
  gen : Nat := 0
  /-- dirty mask, one bit per sector, of the cluster cache that owns the line | 4 | 04 R88 | 0 -/
  dirty : BitVec 4 := 0
  /-- sectors that each cluster cache with the line's tag has filled | 4 each | 04 R88 | none -/
  has : FMap (BitVec 4) := []
  /-- dies whose recall or invalidation is still awaited, and the requesting cluster | - | 16 R381 | none -/
  await : List Nat := []
  req : Option Nat := none
deriving DecidableEq, Repr

/-- A home's entry of a context line (14 Table 14-2). -/
structure CtxEntry where
  /-- holder: memory is state I, core and shadow E-running, l2 M-parked | - | 14 R333 | memory -/
  holder : Holder := .memory
  /-- new holder while in transfer | - | 14 R334 | none -/
  transfer : Option Holder := none
  /-- messages queued during a transfer | - | 14 R334 | empty -/
  queue : List Ev := []
  /-- affinity cluster | 9 | 14 R333 | 0 -/
  affinity : Nat := 0
  /-- its core gave the context up, or it became ready on its way: it is posted at the end of the transfer | 1 | 14 R338, R341 | false -/
  postDue : Bool := false
  /-- post-pending bit | 1 | 14 R342 | false -/
  postPending : Bool := false
  /-- gtime of the last refused post | 64 | 14 R342 | 0 -/
  postAt : Nat := 0
  /-- a lasting error in the line, which its next claim finds | 1 | 17 R395 | false -/
  spoiled : Bool := false
deriving DecidableEq, Repr

/-- A tile-table entry with its tile's storage (04 R96, 09 R225). -/
structure Tile where
  /-- descriptor word | 23 | 09 Table 9-2 | - -/
  desc : Nat
  /-- owner: launch id and block index | 64, 32 | 04 Table 4-5 | - -/
  launch : Nat
  block : Nat
  /-- first 32-byte granule and granules taken | - | 09 R225 | - -/
  base : Nat
  granules : Nat
  /-- freed at acceptance of tfree | 1 | 09 R226 | - -/
  freed : Bool := false
  /-- this entry is the scale half of a pair | 1 | 04 R99 | - -/
  scale : Bool := false
  /-- bytes written, by row x stride + column byte; others are free values | - | 09 R225 | - -/
  data : FMap Byte := []
  /-- number that the free values of new storage depend on | - | model | - -/
  seed : Nat
deriving DecidableEq, Repr

/-- Live trace record of a block (10 R259, R262). -/
structure TraceRec where
  rd : List (Nat × Nat) := []
  wr : List (Nat × Nat) := []
  rdovf : Bool := false
  wrovf : Bool := false
  impure : Bool := false
  icause : Nat := 0
  ipc : Nat := 0
  gfull : Nat := 0
  rerun : Bool := false
deriving DecidableEq, Repr

/-- A started block and its block record (02 R49 to R52, 08 R218). -/
structure Block where
  /-- key of its launch | - | 02 R48 | - -/
  launch : Nat
  /-- block index | 32 | 02 Table 2-6 | - -/
  index : Nat
  /-- home cluster, 64 x die + number | 9 | 02 R49 | - -/
  cluster : Nat
  /-- anchor core {die, y, x} | 13 | 02 R49 | - -/
  anchor : Nat
  /-- SCRATCH banks of its allotment | - | 02 R49 | - -/
  banks : List Nat
  /-- free pool indices | - | 02 R52 | - -/
  pool : List Nat
  /-- live contexts | - | 02 R57 | - -/
  live : List Nat
  /-- key-bin table: geometry and bins words | 4 | 08 R218 | empty -/
  kbins : FMap (Word × Word) := []
  /-- trace record of a traced block | - | 10 R262 | none -/
  trace : Option TraceRec := none
  /-- a context was killed or lost | 1 | 10 R264 | false -/
  spoiled : Bool := false
  /-- record write is due | 1 | 10 R264 | false -/
  ended : Bool := false
deriving DecidableEq, Repr

/-- What a relaunch remembers until it completes (10 R271 to R274). -/
structure Relaunch where
  region : Nat
  n : Nat
  full : Nat
  selected : Nat
  skipped : Nat
  /-- old write ranges of the selected blocks, or none where they are not known -/
  old : List (Nat × Option (List (Nat × Nat)))
  /-- orphan entries found: range word, block, flags -/
  orphans : List (Word × Nat × Nat) := []
  repair : Bool
deriving DecidableEq, Repr

/-- An accepted launch (02 R47 to R58). -/
structure Launch where
  /-- launch id | 64 | 02 R48 | - -/
  id : Nat
  part : Nat
  entry : Word
  blocks : Nat
  threads : Nat
  tiles : Nat
  place : Nat
  flags : Nat
  anchorPos : Nat
  seed : Word
  args : Word
  comp : Word
  pool : Nat
  rectDie : Nat
  rect : Nat × Nat × Nat × Nat
  region : Nat
  summary : Nat
  cap : Nat
  /-- block indices not yet started | - | 02 R49 | - -/
  toStart : List Nat
  /-- blocks that mismatched once, with the core where they did | - | 17 R398 | none -/
  avoid : FMap Nat := []
  /-- SPREAD cursor | - | 02 R49 | 0 -/
  cursor : Nat := 0
  /-- live counts of cores, clusters, dies and the package | - | 02 R57 | - -/
  liveCore : FMap Nat := []
  liveCluster : FMap Nat := []
  liveDie : FMap Nat := []
  livePkg : Nat
  completed : Nat := 0
  lostCtx : Nat := 0
  killed : Nat := 0
  gfull : Nat := 0
  /-- who is told the id when the advance of its acceptance is complete: line, register, tag, result word | - | 10 R268 | none -/
  submit : Option (Nat × Nat × Bool × Word) := none
  relaunch : Option Relaunch := none
  finished : Bool := false
deriving DecidableEq, Repr

/-- A resident partition (15 R362). -/
structure Partition where
  /-- sys.pt.lo (0x20) | 64 | 15 R356 | 0 -/
  ptLo : Word := 0
  /-- sys.pt.hi (0x21) | 64 | 15 R356 | 0 -/
  ptHi : Word := 0
  /-- sys.dbg.bp0 to bp3 (0x50-0x53) | 4 x 64 | 19 R413 | 0 -/
  bps : List Word := [0, 0, 0, 0]
  /-- sys.dbg.notify (0x54) | 64 | 19 R413 | 0 -/
  notify : Word := 0
  /-- sys.pct.ctl (0x5E) | 64 | 19 R413 | 0 -/
  pctCtl : Word := 0
  /-- sys.rpl.ctl (0x62) | 64 | 19 R413 | 0 -/
  rplCtl : Word := 0
  /-- sys.rpl.base (0x63) | 64 | 19 R413 | 0 -/
  rplBase : Word := 0
  /-- sys.rpl.win (0x64) | 64 | 19 R413 | 0 -/
  rplWin : Word := 0
  /-- sys.rpl.stat (0x65) [0] divergence | 1 | 19 R413 | 0 -/
  rplDiv : Bool := false
  /-- units whose log overflowed, counted in sys.rpl.stat [31:16] | 16 | 19 R413 | none -/
  rplOvf : List Nat := []
  /-- entries logged, or consumed indices, per replay unit | - | 19 R422 | 0 -/
  rplLog : FMap Nat := []
  /-- log indices executed on replay, per unit x 2^32 + index | - | 19 R423 | none -/
  rplDone : List Nat := []
  /-- units that have abandoned their log | - | 19 R423 | none -/
  rplFree : List Nat := []
  /-- operations held on replay: unit, location, requester, gtime of holding, operation | - | 19 R423 | none -/
  rplHeld : List (Nat × Nat × Word × Nat × Ev) := []
  /-- unit and location of a divergence that stops its operations | - | 19 R423 | none -/
  rplStuck : List (Nat × Nat) := []
  /-- launch-port commands queued | 256 | 20 R428 | empty -/
  port : List Ev := []
  /-- sys.host.stat (0x71) [47:16] writes refused | 32 | 20 R431 | 0 -/
  refused : Nat := 0
  /-- banks per cluster: SCRATCH, CONTEXT, FIFO | - | 15 R362 | 0, 2, 0 -/
  share : Nat × Nat × Nat := (0, 2, 0)
  /-- shadow image: the cores' state while not active | 8 MiB per die | 14 R348 | empty -/
  image : FMap Core := []
  /-- shadow image: die overflow lists | - | 14 Table 14-3 | empty -/
  imageOvf : FMap (List (Nat × TrapEntry)) := []
  /-- shadow image: chunk counters by cluster | - | 14 Table 14-3 | 0 -/
  imageChunks : FMap (List Chunk) := []
  /-- gtime at which each die's clocks of the partition stopped | 64 | 14 R345 | none -/
  imageAt : FMap Nat := []
  /-- handlers still to be started when first active | - | 20 R432 | none -/
  startDue : Bool := false
deriving DecidableEq, Repr

/-- An advance of the generation under way (10 R268). -/
structure Advance where
  /-- units that have not acknowledged: memory dies 8-19, clusters from 64 -/
  await : List Nat
  /-- thread whose trgen waits: line, register, tag -/
  waits : List (Nat × Nat × Bool)
  /-- relaunch that selects its blocks when the advance is complete -/
  launch : Option Nat
  gfull : Nat
deriving DecidableEq, Repr

/-- A request of the partition controller that the dies of a set are carrying out (20 R432, R433). -/
structure Control where
  /-- 0 pre-emption, 1 pre-emption for a swap, 2 swap, 3 resume -/
  what : Nat
  /-- incoming index of a swap -/
  into : Nat := 0
  /-- address of the mailbox result, if a command asked for it -/
  res : Option Word := none
  /-- dies that have not carried it out -/
  await : List Nat
deriving DecidableEq, Repr

/-- A die set (15 R362). -/
structure DieSet where
  /-- index of the active partition | 2 | 14 R348 | none until boot step 3 -/
  active : Option Nat := none
  /-- pre-empted without a swap | 1 | 20 R432 | false -/
  halted : Bool := false
  /-- time slice in microseconds | 17 | 20 R432 | 0 (DESIGN CHOICE) -/
  slice : Nat := 0
  /-- gtime of the last swap | 64 | 20 R433 | 0 -/
  sliceAt : Nat := 0
  /-- request under way on the set's dies | - | 20 R433 | none -/
  ctl : Option Control := none
  /-- GFULL of the generation register | 32 | 10 R268 | 0 (DESIGN CHOICE) -/
  gfull : Nat := 0
  /-- dirty-map instance | 32 | 10 R269 | 0 (DESIGN CHOICE) -/
  inst : Nat := 0
  /-- stamp of a patch that is not listed in State.stamps | 8 | 10 R269 | 0 -/
  stampBase : Nat := 0
  /-- advances under way, oldest first | - | 10 R268 | none -/
  advances : List Advance := []
  /-- sys.rgn.ver (0x24) [3:0] | 4 | 15 R356 | 0 -/
  rver : Nat := 0
  /-- region migrating, sys.rgn.ver [4], [11:8] | 5 | 15 R356 | none -/
  mig : Option Nat := none
  /-- the line at the migration's cursor is on its way to its new home | 1 | 15 R367 | false -/
  moving : Bool := false
  /-- entry before the migration | 16 | 15 R365 | 0 -/
  oldEntry : Word := 0
  /-- sys.rgn.ent (0x26) | 16 x 64 | 15 R356 | 0 -/
  regions : List Word := List.replicate 16 0
  /-- sys.rgn.cur (0x27) | 16 | 15 R356 | 0 -/
  cursors : List Nat := List.replicate 16 0
deriving DecidableEq, Repr

/-- A firmware image in the package flash (20 R425): its bytes, signature and key, and what the compute-die image
names for each partition (13 R310): handlers, boot argument and page tables. -/
structure Image where
  bytes : List Byte
  signature : List Byte
  key : List Byte
  /-- resident partition, core, CVA, entry pc -/
  handlers : List (Nat × Nat × Nat × Word) := []
  bootArg : Word := 0
  /-- resident partition, sys.pt.lo, sys.pt.hi -/
  roots : List (Nat × Word × Word) := []
  /-- resident partition, physical address, bytes of its page tables -/
  tables : List (Nat × Nat × List Byte) := []
deriving DecidableEq, Repr

/-- The slot that is issuing and the context in it. -/
structure Cur where
  core : Nat
  slot : Nat
  ctx : Nat
deriving DecidableEq, Repr

/-- A posted or stored release held at its core until its condition holds (05 R115, R436). -/
structure HeldOp where
  ev : Ev
  ctx : Nat
  core : Nat
  scope : Nat
  /-- token rounds, die x 32 + link and number, whose echo it waits for -/
  rounds : List (Nat × Nat)
deriving DecidableEq, Repr

/-- The package. -/
structure State where
  /-- context of the issuing slot (its register bank) | 128 bytes | 01 R25, 02 R36 | a free line -/
  th : Ctx := {}
  /-- issuing core, slot and line | - | 01 R23 | none -/
  cur : Option Cur := none
  /-- address of the instruction being issued | 57 | model | 0 -/
  ipc : BitVec 57 := 0
  /-- encoding of the instruction being issued | 32 | model | 0 -/
  ienc : Word := 0
  /-- visible bytes of physical memory | 2^40 PPN x 12,288 bytes | 05 R107, 15 R360 | unlisted bytes read 0 (DESIGN CHOICE) -/
  mem : Memory := []
  /-- core stores by 29-bit location | 8,192 x 64 KiB | 04 R92 | 0 -/
  cstore : Memory := []
  /-- poisoned doublewords, by place / 8: of physical memory, of core stores (2^62 + location), of tiles (2^63 + 2^16 x tile key +
  byte), and of copies of physical words: 2^70 x (1 + core) + address in a core's L1, 2^70 x (8,193 + cluster) + address in a cluster's
  CACHE banks | - | 17 R391, R392 | none -/
  poison : List Nat := []

  /-- context lines not in State.th, by physical address | - | 02 R36 | none -/
  ctxs : FMap Ctx := []
  /-- homes' entries of context lines | - | 14 R333 | memory -/
  cdir : FMap CtxEntry := []
  /-- cores | 8,192 | 01 R15 | see Core -/
  cores : FMap Core := []
  /-- clusters | 512 | 01 R15 | see Cluster -/
  clusters : FMap Cluster := []
  /-- dies | 22 | 01 R14, 16 R376 | see Die -/
  dies : FMap Die := []
  /-- link ends, 32 x die + link | - | 16 R372 | see LinkEnd -/
  links : FMap LinkEnd := []
  /-- home directories' entries of lines | - | 16 R380 | I -/
  dir : FMap DirEntry := []
  /-- dirty-map stamps by patch | 8 each | 10 R266 | the set's stampBase -/
  stamps : FMap Nat := []
  /-- lost bitmap: patches whose bit is set | 1 each | 10 R266 | none -/
  lost : List Nat := []
  /-- write sequence numbers by sector | 16 each | 17 R393 | 0 (DESIGN CHOICE) -/
  seqs : FMap Nat := []
  /-- tile tables, 1,024 x cluster + INDEX | 1,024 per cluster | 04 R97 | free -/
  tiles : FMap Tile := []
  /-- blocks started and not ended | - | 02 R49 | none -/
  blocks : FMap Block := []
  /-- launches accepted and not completed | - | 02 R48 | none -/
  launches : FMap Launch := []
  /-- resident partitions, 4 x die set + index | 32 | 15 R362 | none until boot step 3 -/
  parts : FMap Partition := []
  /-- die sets | 8 | 15 R362 | see DieSet -/
  sets : FMap DieSet := []
  /-- posted releases held at their cores until their condition holds | - | 05 R436 | none -/
  held : List HeldOp := []
  /-- messages that a link has delivered and that have not yet performed: 32 x die + link, and the message | - | 05 R116 | none -/
  inlink : List (Nat × Ev) := []
  /-- halfwords of memory that a write has replaced: address / 2, the old value, and the index of the write | - | 06 R133 | none -/
  olds : List (Nat × BitVec 16 × Nat) := []
  /-- steps due: messages in flight and inputs, oldest first | - | 05 R106, 20 R427 | none -/
  inbox : List Ev := []
  /-- grandmaster's gtime in ticks | 64 | 01 R34 | 0 (DESIGN CHOICE) -/
  gtime : Nat := 0
  /-- time since that tick began, in 1/273 ticks | - | 01 R34 | 0 -/
  sub : Nat := 0
  /-- partition mode | 2 | 15 R361 | 0 -/
  mode : Nat := 0
  /-- sys.boot.stat (0x70) [3:0] last step completed | 4 | 20 R431 | 0 -/
  bootStep : Nat := 0
  /-- sys.boot.stat [7:4] failed step | 4 | 20 R431 | 0 -/
  bootFail : Nat := 0
  /-- sys.boot.stat [15:8] reason | 8 | 20 R431 | 0 -/
  bootReason : Nat := 0
  /-- measurement registers M0 to M3 | 4 x 512 | 20 R425 | 0 -/
  meas : List (BitVec 512) := [0, 0, 0, 0]
  /-- package flash: stage-1, memory-die, compute-die and supervisor images | - | 20 R425 | no image (DESIGN CHOICE) -/
  flash : FMap Image := []
  /-- sys.diefail (0x39) | 22 | 16 R388 | 0 -/
  diefail : BitVec 22 := 0
  /-- sys.ras.scrub (0x40) | 64 | 17 R400 | 0x9 -/
  scrub : Word := 0x9
  /-- mailbox commands queued | 16 | 20 R432 | empty -/
  mailbox : List Ev := []
  /-- launch ids given since reset | 64 | 02 R48 | 0 -/
  launchIds : Nat := 0
  /-- offset of the grandmaster from the external time, in ticks, at `slewAt` | signed | 16 R384 | 0 (DESIGN CHOICE) -/
  external : Int := 0
  /-- the grandmaster's rate correction, in parts per billion | signed | 16 R384 | 0 (DESIGN CHOICE) -/
  ptpRate : Int := 0
  /-- what it has gained beyond whole ticks, in 10^-9 ticks | signed | 16 R384 | 0 -/
  ptpFrac : Int := 0
  /-- a two-step event message that waits for its follow-up | 1 | 16 R384 | false -/
  ptpWaits : Bool := false
  /-- losses of lock reported to the partition controller on the X-die: dies, oldest first | - | 16 R383 | none -/
  lockReports : List Nat := []
  /-- the MODEL's own: steps taken, the index of the free choices | - | model | 0 (DESIGN CHOICE) -/
  fresh : Nat := 0
deriving DecidableEq, Repr

/-- Why the machine stops with a fault. -/
inductive Fault where
  /-- `step` raises it when the issuing slot names a core number of 8,192 or more: 01 R15 gives the package no such
  core, so the state is none of the machine's. Safe: the model stops where the hardware has no behaviour. -/
  | absentCore
deriving DecidableEq, Repr

/-- Why an instruction has no meaning. -/
inductive Refusal where
  /-- Raised by `exec` alone, for an instruction whose meaning is not written. Safe: the model stops. -/
  | notModelled (mnemonic : String)
deriving DecidableEq, Repr

/-- The package right after package reset (20 R425): boot has not begun, every die but the X-die is in reset, and
every register holds the value its field states. -/
def State.reset : State := {}

end Sys2Proof.Machine
end

