-- ==== Sys2Proof/Machine/Map.lean ====
section
/-! DEFINITION. Operations on the two sparse forms of the state: byte memories in their canonical form, and maps from
numbers with strictly rising keys. Byte order (00 R7) is decided here, once. -/

namespace Sys2Proof.Machine

open Sys2Proof

/-- The canonical form above a bound: addresses rise strictly and no byte is 0, which an unlisted address reads as. -/
def memOkFrom : Option Nat → Memory → Bool
  | _, [] => true
  | lo, (a, b) :: r => (match lo with | none => true | some l => decide (l < a)) && b != 0 && memOkFrom (some a) r

/-- The canonical form of a memory. -/
def Memory.wf (m : Memory) : Bool := memOkFrom none m

/-- The byte at an address; an unlisted address reads as 0. -/
def readByte : Memory → Nat → Byte
  | [], _ => 0
  | (k, v) :: r, a => if k = a then v else if a < k then 0 else readByte r a

/-- Writes one byte and keeps the canonical form. -/
def writeByte : Memory → Nat → Byte → Memory
  | [], a, b => if b = 0 then [] else [(a, b)]
  | (k, v) :: r, a, b =>
    if a < k then (if b = 0 then (k, v) :: r else (a, b) :: (k, v) :: r)
    else if a = k then (if b = 0 then r else (a, b) :: r)
    else (k, v) :: writeByte r a b

/-- `n` bytes as one little-endian value (00 R7). -/
def readNat (m : Memory) (a : Nat) : Nat → Nat
  | 0 => 0
  | n + 1 => (readByte m a).toNat + 256 * readNat m (a + 1) n

/-- Writes the low `n` bytes of a value, little-endian. -/
def writeNat (m : Memory) (a : Nat) (v : Nat) : Nat → Memory
  | 0 => m
  | n + 1 => writeNat (writeByte m a (BitVec.ofNat 8 v)) (a + 1) (v / 256) n

/-- `n` bytes in address order. -/
def readList (m : Memory) (a : Nat) : Nat → List Byte
  | 0 => []
  | n + 1 => readByte m a :: readList m (a + 1) n

/-- Writes bytes in address order. -/
def writeList (m : Memory) (a : Nat) : List Byte → Memory
  | [] => m
  | b :: r => writeList (writeByte m a b) (a + 1) r

/-- Writes single bytes at the places named, in list order. -/
def writePlaces (m : Memory) : List (Nat × Byte) → Memory
  | [] => m
  | (a, b) :: r => writePlaces (writeByte m a b) r

/-- The value of bytes in address order (00 R7). -/
def natOfBytes : List Byte → Nat
  | [] => 0
  | b :: r => b.toNat + 256 * natOfBytes r

/-- A value's low `n` bytes in address order. -/
def bytesOfNat (v : Nat) : Nat → List Byte
  | 0 => []
  | n + 1 => BitVec.ofNat 8 v :: bytesOfNat (v / 256) n

/-- The value at a key. -/
def get? {α : Type} : FMap α → Nat → Option α
  | [], _ => none
  | (k, v) :: r, a => if k = a then some v else get? r a

/-- Sets the value at a key and keeps the keys strictly rising. -/
def put {α : Type} : FMap α → Nat → α → FMap α
  | [], a, x => [(a, x)]
  | (k, v) :: r, a, x =>
    if a < k then (a, x) :: (k, v) :: r else if a = k then (a, x) :: r else (k, v) :: put r a x

/-- Removes a key. -/
def del {α : Type} (m : FMap α) (a : Nat) : FMap α := m.filter fun x => x.1 != a

/-- The value at a key, or a default. -/
def getD {α : Type} (m : FMap α) (a : Nat) (d : α) : α := (get? m a).getD d

/-- Applies a function to every value. -/
def mapVals {α : Type} (m : FMap α) (f : Nat → α → α) : FMap α := m.map fun (k, v) => (k, f k v)

/-- The element at an index, or a default. -/
def nth {α : Type} (l : List α) (i : Nat) (d : α) : α := (l[i]?).getD d

/-- Runs a state change for each element of a list, in order. -/
def each {α : Type} (l : List α) (f : α → State → State) (s : State) : State :=
  match l with
  | [] => s
  | x :: r => each r f (f x s)

/-- Appends an element that the list does not hold. -/
def addNew {α : Type} [DecidableEq α] (l : List α) (x : α) : List α := if l.contains x then l else l ++ [x]

/-- Bits [lo + len - 1 : lo] of a number. -/
def bits (v lo len : Nat) : Nat := v / 2 ^ lo % 2 ^ len

/-- One bit of a number. -/
def bitAt (v i : Nat) : Bool := v / 2 ^ i % 2 == 1

/-- A number read as an `n`-bit two's complement value. -/
def signed (n v : Nat) : Int :=
  let u := v % 2 ^ n
  if u < 2 ^ (n - 1) then (u : Int) else (u : Int) - (2 ^ n : Nat)

/-- The low `n` bits of an integer. -/
def wrap (n : Nat) (v : Int) : Nat := (v % (2 ^ n : Nat)).toNat

end Sys2Proof.Machine
end

