-- ==== Sys2Proof/Machine/Float.lean ====
section
/-! DEFINITION. Number formats and arithmetic (03): exact values, the one rounding of R70, conversions, the MK8 format
and the mixer of stochastic rounding. -/

namespace Sys2Proof.Machine

open Sys2Proof

/-- An exact value: a NaN, an infinity, or (-1)^neg x num / den x 2^e. -/
inductive FVal where
  | nan
  | inf (neg : Bool)
  | fin (neg : Bool) (num den : Nat) (e : Int)
deriving DecidableEq, Repr

/-- A floating format of 03 Table 3-2: exponent bits, mantissa bits, bias, the largest finite value maxM x 2^maxQ,
whether all-ones exponents are infinities and NaNs, and the canonical NaN where there is one. -/
structure FFmt where
  e : Nat
  m : Nat
  bias : Nat
  maxM : Nat
  maxQ : Int
  ieee : Bool
  canon : Option Nat
deriving DecidableEq, Repr

/-- binary64 (07 R178). -/
def fp64 : FFmt := ⟨11, 52, 1023, 2 ^ 53 - 1, 971, true, some 0x7FF8000000000000⟩
/-- FP32. -/
def fp32 : FFmt := ⟨8, 23, 127, 2 ^ 24 - 1, 104, true, some 0x7FC00000⟩
/-- BF16. -/
def bf16 : FFmt := ⟨8, 7, 127, 2 ^ 8 - 1, 120, true, some 0x7FC0⟩
/-- FP16. -/
def fp16 : FFmt := ⟨5, 10, 15, 2 ^ 11 - 1, 5, true, some 0x7E00⟩
/-- E4M3: 448 = 14 x 2^5, NaN 0x7F. -/
def e4m3 : FFmt := ⟨4, 3, 7, 14, 5, false, some 0x7F⟩
/-- E5M2. -/
def e5m2 : FFmt := ⟨5, 2, 15, 7, 13, true, some 0x7E⟩
/-- E2M3. -/
def e2m3 : FFmt := ⟨2, 3, 1, 15, -1, false, none⟩
/-- E3M2. -/
def e3m2 : FFmt := ⟨3, 2, 3, 7, 2, false, none⟩
/-- E2M1. -/
def e2m1 : FFmt := ⟨2, 1, 1, 3, 1, false, none⟩

/-- The kinds of element format (03 Table 3-1). -/
inductive Fmt where
  | int (signed : Bool) (w : Nat)
  | flt (f : FFmt)
  | mk8
deriving DecidableEq, Repr

/-- The format of a 4-bit code (03 Table 3-1). -/
def fmtOf (c : Nat) : Fmt :=
  match c with
  | 0 => .int true 8
  | 1 => .int false 8
  | 2 => .int true 16
  | 3 => .int false 16
  | 4 => .int true 32
  | 5 => .int false 32
  | 6 => .flt fp32
  | 7 => .flt bf16
  | 8 => .flt fp16
  | 9 => .flt e4m3
  | 10 => .flt e5m2
  | 11 => .flt e2m3
  | 12 => .flt e3m2
  | 13 => .flt e2m1
  | 14 => .mk8
  | _ => .int true 4

/-- Bits of an encoding of a floating format. -/
def FFmt.width (f : FFmt) : Nat := 1 + f.e + f.m
/-- Value bits of an element (03 Table 3-1): 6 for the 6-bit formats. -/
def Fmt.width : Fmt → Nat
  | .int _ w => w
  | .flt f => f.width
  | .mk8 => 8
/-- Storage bits of an element: 4, 8, 16 or 32. -/
def Fmt.storage (f : Fmt) : Nat := if f.width = 6 then 8 else f.width
/-- F of 09 Table 9-6: FP32, BF16 and FP16. -/
def isF (c : Nat) : Bool := c == 6 || c == 7 || c == 8
/-- I of 09 Table 9-6: S8, Z8, S16, Z16, S32 and Z32. -/
def isI (c : Nat) : Bool := c < 6
/-- The MX element types (03 R67). -/
def isMx (c : Nat) : Bool := 9 ≤ c && c ≤ 13
/-- Mantissa bits for the order of 03 R72; none for an integer format. -/
def mantBits (c : Nat) : Option Nat :=
  match fmtOf c with
  | .flt f => some f.m
  | .mk8 => some 5
  | .int _ _ => none
/-- A conversion of lower precision (03 R72), into which stochastic rounding is accepted; never into MK8 (R66). -/
def srAccepts (src dst : Nat) : Bool :=
  match mantBits src, mantBits dst with
  | some a, some b => b < a && dst != 14
  | _, _ => false

/-- The value of a floating encoding (03 R61). -/
def FFmt.value (f : FFmt) (v : Nat) : FVal :=
  let s := bitAt v (f.e + f.m)
  let ex := bits v f.m f.e
  let man := bits v 0 f.m
  if f.ieee && ex == 2 ^ f.e - 1 then (if man = 0 then .inf s else .nan)
  else if f.canon == some (bits v 0 (f.e + f.m)) && !f.ieee then .nan
  else if ex = 0 then .fin s man 1 (1 - (f.bias : Int) - f.m)
  else .fin s (2 ^ f.m + man) 1 ((ex : Int) - f.bias - f.m)

/-- Length of the run of bits equal to `b` in F from bit i - 1 down (03 R64). -/
def mk8Run (f : Nat) (b : Bool) : Nat → Nat
  | 0 => 0
  | i + 1 => if bitAt f i == b then 1 + mk8Run f b i else 0

/-- The magnitude of MK8's field F (03 R64): number and exponent of 2. -/
def mk8Mag (f : Nat) : Nat × Int :=
  if f = 0 then (0, 0)
  else
    let b := bitAt f 6
    let m := mk8Run f b 7
    let k : Int := if b then (m : Int) - 1 else -(m : Int)
    let restLen := 7 - m - (if m < 7 then 1 else 0)
    let rest := bits f 0 restLen
    let e := if restLen ≥ 1 then rest / 2 ^ (restLen - 1) else 0
    let n := restLen - 1
    let fr := rest % 2 ^ n
    (2 ^ n + fr, 2 * k + e - n)

/-- The value of an MK8 encoding. -/
def mk8Value (v : Nat) : FVal :=
  let f := bits v 0 7
  if v % 256 = 0x80 then .nan
  else let (n, e) := mk8Mag f
    .fin (bitAt v 7 && f != 0) n 1 e

/-- The value of an integer. -/
def ofInt (v : Int) : FVal := .fin (v < 0) v.natAbs 1 0

/-- The value of an element encoding of a format; bits above its width are ignored. -/
def Fmt.value (f : Fmt) (v : Nat) : FVal :=
  match f with
  | .int true w => ofInt (signed w v)
  | .int false w => ofInt ((v % 2 ^ w : Nat) : Int)
  | .flt g => g.value v
  | .mk8 => mk8Value v

/-- `num / den x 2^e` as a ratio of numbers. -/
def ratio (num den : Nat) (e : Int) : Nat × Nat :=
  if 0 ≤ e then (num * 2 ^ e.toNat, den) else (num, den * 2 ^ (-e).toNat)

/-- floor(log2 (num / den)) for positive num and den. -/
def log2Ratio (num den : Nat) : Int :=
  let k : Int := (num.log2 : Int) - den.log2
  let (a, b) := ratio num den (-k)
  if a < b then k - 1 else k

/-- Rounds a magnitude a / b to an integer (03 Table 3-5): mode, sign, 16 random bits. -/
def roundRatio (mode : Nat) (neg : Bool) (rnd : Nat) (a b : Nat) : Nat :=
  let q := a / b
  let r := a % b
  if r = 0 then q
  else
    let up :=
      match mode with
      | 0 => if 2 * r = b then q % 2 == 1 else decide (b < 2 * r)
      | 1 => false
      | 2 => !neg
      | 3 => neg
      | 4 => decide (b ≤ 2 * r)
      | _ => decide (rnd < r * 2 ^ 16 / b)
    if up then q + 1 else q

/-- Rounds to a format's precision with an unbounded exponent, keeping the subnormal spacing (03 R70): n and q with
value n x 2^q. -/
def roundPrec (f : FFmt) (mode : Nat) (neg : Bool) (rnd : Nat) (num den : Nat) (e : Int) : Nat × Int :=
  if num = 0 then (0, 1 - (f.bias : Int) - f.m)
  else
    let l := log2Ratio num den + e
    let q := max l (1 - (f.bias : Int)) - f.m
    let (a, b) := ratio num den (e - q)
    let n := roundRatio mode neg rnd a b
    if n = 2 ^ (f.m + 1) then (2 ^ f.m, q + 1) else (n, q)

/-- The encoding of n x 2^q, which the format represents, with a sign. -/
def FFmt.pack (f : FFmt) (neg : Bool) (n : Nat) (q : Int) : Nat :=
  (if neg then 2 ^ (f.e + f.m) else 0) +
    (if n < 2 ^ f.m then n else ((q + f.m + f.bias).toNat) * 2 ^ f.m + (n - 2 ^ f.m))

/-- The canonical NaN (03 Table 3-3), or +0 for a format without NaN (03 R70). -/
def FFmt.nanEnc (f : FFmt) : Nat := f.canon.getD 0

/-- The largest finite encoding, with a sign. -/
def FFmt.maxEnc (f : FFmt) (neg : Bool) : Nat := f.pack neg f.maxM f.maxQ

/-- The overflow result (03 Table 3-6). -/
def FFmt.overflow (f : FFmt) (mode : Nat) (sat neg : Bool) : Nat :=
  let big := f.maxEnc neg
  let out :=
    if f.ieee then (if neg then 2 ^ (f.e + f.m) else 0) + (2 ^ f.e - 1) * 2 ^ f.m
    else match f.canon with
      | some c => c
      | none => big
  if sat then big
  else match mode with
    | 1 => big
    | 2 => if neg then big else out
    | 3 => if neg then out else big
    | _ => out

/-- Rounds an exact value to a floating format (03 R70), flushing results that would be subnormal if `flush` (R63). -/
def FFmt.round (f : FFmt) (mode : Nat) (sat flush : Bool) (rnd : Nat) (v : FVal) : Nat :=
  match v with
  | .nan => f.nanEnc
  | .inf s => f.overflow 0 sat s
  | .fin s num den e =>
    let (n, q) := roundPrec f mode s rnd num den e
    let (a, b) := ratio n 1 (q - f.maxQ)
    if f.maxM * b < a then f.overflow mode sat s
    else if flush && n < 2 ^ f.m then f.pack s 0 q
    else f.pack s n q

/-- The MK8 field nearest to a magnitude a / b among F from 0 to `top`; a tie goes to the even F (03 R66). -/
def mk8Nearest (a b : Nat) : Nat → Nat
  | 0 => 0
  | t + 1 =>
    let (n, e) := mk8Mag (t + 1)
    let (n', e') := mk8Mag t
    -- the midpoint of F = t and F = t + 1, as a ratio
    let lo := min e e'
    let mid := ratio (n * 2 ^ (e - lo).toNat + n' * 2 ^ (e' - lo).toNat) 2 lo
    let c := compare (a * mid.2) (mid.1 * b)
    match c with
    | .gt => t + 1
    | .eq => if t % 2 = 0 then t else t + 1
    | .lt => mk8Nearest a b t

/-- Conversion into MK8 (03 R66). -/
def mk8Round (v : FVal) : Nat :=
  match v with
  | .nan => 0x80
  | .inf s => if s then 0xFF else 0x7F
  | .fin s num den e =>
    let (a, b) := ratio num den e
    let f := if 4096 * b < a then 0x7F else mk8Nearest a b 127
    if f = 0 then 0 else f + (if s then 0x80 else 0)

/-- Clamps an integer. -/
def clampI (v lo hi : Int) : Int := if hi < v then hi else if v < lo then lo else v
/-- Least value of an integer format. -/
def intMin (s : Bool) (w : Nat) : Int := if s then -(2 ^ (w - 1) : Nat) else 0
/-- Greatest value of an integer format. -/
def intMax (s : Bool) (w : Nat) : Int := if s then (2 ^ (w - 1) : Nat) - 1 else (2 ^ w : Nat) - 1

/-- A value rounded to an integer in a mode (03 R71): none for an infinity or a NaN. -/
def roundInt (mode rnd : Nat) : FVal → Option Int
  | .fin s num den e =>
    let (a, b) := ratio num den e
    let n := roundRatio mode s rnd a b
    some (if s then -(n : Int) else n)
  | _ => none

/-- A floating value into an integer format: rounded, then clamped; NaN gives 0 (03 R71). -/
def toInt (mode rnd : Nat) (s : Bool) (w : Nat) (v : FVal) : Nat :=
  match v with
  | .nan => 0
  | .inf n => wrap w (if n then intMin s w else intMax s w)
  | _ => wrap w (clampI ((roundInt mode rnd v).getD 0) (intMin s w) (intMax s w))

/-- Takes a subnormal input of a floating format as zero of its sign, if `flush` (03 R63). -/
def Fmt.input (f : Fmt) (flush : Bool) (v : Nat) : FVal :=
  match f with
  | .flt g => if flush && bits v g.m g.e == 0 then .fin (bitAt v (g.e + g.m)) 0 1 0 else g.value v
  | _ => f.value v

/-- Rounds an encoding of one format to another, the same one included (03 R66, R70, R71; 09 R239, R241). -/
def roundTo (src dst : Fmt) (mode : Nat) (sat flush : Bool) (rnd v : Nat) : Nat :=
  let x := src.input flush v
  match src, dst with
  | .int _ _, .int s' w' =>
    let i := match x with | .fin n a _ _ => if n then -(a : Int) else a | _ => 0
    wrap w' (if sat then clampI i (intMin s' w') (intMax s' w') else i)
  | _, .int s' w' => toInt mode rnd s' w' x
  | _, .flt g => g.round mode sat flush rnd x
  | _, .mk8 => mk8Round x

/-- A conversion in registers (07 R177, R179): a source and target of one floating format return the source value, an infinity
under the saturate bit included, with a NaN made canonical; any other pair is rounded. -/
def convert (src dst : Fmt) (mode : Nat) (sat flush : Bool) (rnd v : Nat) : Nat :=
  match dst with
  | .flt g => if src = dst then (if g.value v = .nan then g.nanEnc else v % 2 ^ g.width) else roundTo src dst mode sat flush rnd v
  | _ => roundTo src dst mode sat flush rnd v

/-- Sum of exact values (03 R62); `rd` is the mode RD, in which a zero sum of opposite signs is -0. -/
def fAdd (rd : Bool) (x y : FVal) : FVal :=
  match x, y with
  | .nan, _ => .nan
  | _, .nan => .nan
  | .inf a, .inf b => if a = b then .inf a else .nan
  | .inf a, _ => .inf a
  | _, .inf b => .inf b
  | .fin s n d e, .fin t m c k =>
    let lo := min e k
    let a : Int := (n * c * 2 ^ (e - lo).toNat : Nat)
    let b : Int := (m * d * 2 ^ (k - lo).toNat : Nat)
    let r := (if s then -a else a) + (if t then -b else b)
    if r = 0 then (if n = 0 && m = 0 && s == t then .fin s 0 1 0 else .fin rd 0 1 0)
    else .fin (r < 0) r.natAbs (d * c) lo

/-- Negation. -/
def fNeg : FVal → FVal
  | .nan => .nan
  | .inf s => .inf (!s)
  | .fin s n d e => .fin (!s) n d e

/-- Product (03 R62). -/
def fMul (x y : FVal) : FVal :=
  match x, y with
  | .nan, _ => .nan
  | _, .nan => .nan
  | .inf a, .inf b => .inf (a != b)
  | .inf a, .fin t m _ _ => if m = 0 then .nan else .inf (a != t)
  | .fin s n _ _, .inf b => if n = 0 then .nan else .inf (s != b)
  | .fin s n d e, .fin t m c k => .fin (s != t) (n * m) (d * c) (e + k)

/-- Quotient (03 R62). -/
def fDiv (x y : FVal) : FVal :=
  match x, y with
  | .nan, _ => .nan
  | _, .nan => .nan
  | .inf _, .inf _ => .nan
  | .inf a, .fin t _ _ _ => .inf (a != t)
  | .fin s _ _ _, .inf b => .fin (s != b) 0 1 0
  | .fin s n d e, .fin t m c k =>
    if m = 0 then (if n = 0 then .nan else .inf (s != t))
    else .fin (s != t) (n * c) (d * m) (e - k)

/-- The greatest r below 2^(i) added to `r` with r x r ≤ n. -/
def isqrt (n : Nat) (r : Nat) : Nat → Nat
  | 0 => r
  | i + 1 => if (r + 2 ^ i) * (r + 2 ^ i) ≤ n then isqrt n (r + 2 ^ i) i else isqrt n r i

/-- Square root, with a bit below the last kept one that says whether it is inexact (03 R62). -/
def fSqrt : FVal → FVal
  | .nan => .nan
  | .inf s => if s then .nan else .inf false
  | .fin s n d e =>
    if n = 0 then .fin s 0 1 0
    else if s then .nan
    else
      -- n / d x 2^e with d = 1 for every encoding; scaled so that the exponent is even and 60 bits of root are exact
      let sh : Nat := 140 + ((e + 140) % 2).toNat
      let a := n * 2 ^ sh / d
      let r := isqrt a 0 (a.log2 / 2 + 1)
      .fin false (2 * r + (if r * r = a && n * 2 ^ sh % d = 0 then 0 else 1)) 1 ((e - sh) / 2 - 1)

/-- x < y on values other than NaN, with -0 equal to +0. -/
def fLt (x y : FVal) : Bool :=
  match x, y with
  | .nan, _ => false
  | _, .nan => false
  | .inf a, .inf b => a && !b
  | .inf a, _ => a
  | _, .inf b => !b
  | .fin s n d e, .fin t m c k =>
    let lo := min e k
    let a : Int := (n * c * 2 ^ (e - lo).toNat : Nat)
    let b : Int := (m * d * 2 ^ (k - lo).toNat : Nat)
    decide ((if s then -a else a) < (if t then -b else b))

/-- The sign of a value. -/
def fSign : FVal → Bool
  | .nan => false
  | .inf s => s
  | .fin s _ _ _ => s

/-- x orders below y, with -0 below +0 (03 R62). -/
def fBelow (x y : FVal) : Bool := fLt x y || (!fLt y x && fSign x && !fSign y)

/-- The lesser value's first operand: whether min takes x (03 R62); a NaN gives way to the other operand. -/
def minTakesLeft (x y : FVal) : Bool := if x = .nan then false else if y = .nan then true else !fBelow y x
/-- Whether max takes x. -/
def maxTakesLeft (x y : FVal) : Bool := if x = .nan then false else if y = .nan then true else !fBelow x y

/-- Rotates 64 bits left. -/
def rotl64 (x : Word) (n : Nat) : Word := (x <<< n) ||| (x >>> (64 - n))

/-- One round of the mixer (03 R74). -/
def mixRound (k : Word) (i ra rb : Nat) (xy : Word × Word) : Word × Word :=
  let x := xy.1 + xy.2 + (k + BitVec.ofNat 64 (i + 1) * 0x9E3779B97F4A7C15#64)
  let y := rotl64 xy.2 ra ^^^ x
  (rotl64 x rb, y)

/-- The 16 random bits of an element (03 R74): key, logical tile coordinate, element index, sequence number. -/
def mixBits (k : Word) (l j q : Nat) : Nat :=
  let x0 : Word := BitVec.ofNat 64 (l % 2 ^ 32 * 2 ^ 32 + j % 2 ^ 32)
  let y0 : Word := BitVec.ofNat 64 (q % 2 ^ 16 * 2 ^ 48) ^^^ 0x5C4E9D17A3B20F61#64
  let r0 := mixRound k 0 13 17 (x0, y0)
  let r1 := mixRound k 1 29 37 r0
  let r2 := mixRound k 2 41 11 r1
  let r3 := mixRound k 3 7 53 r2
  ((r3.1 ^^^ r3.2) >>> 48).toNat

end Sys2Proof.Machine
end

