-- ==== Sys2Proof/Machine/Flags.lean ====
section
/-! DEFINITION. Conditions, the predicate word and the pending prefix (06 R140, R142, R147 to R150; 07 Table 7-5). The
machine has no other flags: an instruction reports a condition only in the predicate word. -/

namespace Sys2Proof.Machine

open Sys2Proof

/-- An integer condition on two n-bit values (06 Table 6-4). -/
def intCond {n : Nat} (c : BitVec 3) (x y : BitVec n) : Bool :=
  match c.toNat with
  | 0 => x == y
  | 1 => x != y
  | 2 => x.slt y
  | 3 => !x.slt y
  | 4 => x.ult y
  | _ => !x.ult y

/-- A floating condition (07 Table 7-5). -/
def fltCond (c : BitVec 3) (x y : FVal) : Bool :=
  if x = .nan || y = .nan then c == 1 || c == 4
  else
    match c.toNat with
    | 0 => !fLt x y && !fLt y x
    | 1 => fLt x y || fLt y x
    | 2 => fLt x y
    | 3 => !fLt y x
    | _ => false

/-- The class number of an encoding (07 R176). -/
def fClass (f : FFmt) (v : Nat) : Nat :=
  let sub := bits v f.m f.e == 0
  match f.value v with
  | .nan => 8
  | .inf s => if s then 0 else 7
  | .fin s n _ _ =>
    if n = 0 then (if s then 3 else 4)
    else if sub then (if s then 2 else 5)
    else if s then 1 else 6

/-- One bit of the predicate word. -/
def pwBit (pw : Word) (n : BitVec 6) : Bool := pw.getLsbD n.toNat
/-- Writes one bit of the predicate word. -/
def setPwBit (pw : Word) (n : BitVec 6) (v : Bool) : Word :=
  let m : Word := 1#64 <<< n.toNat
  if v then pw ||| m else pw &&& ~~~m
/-- Mask byte i of the predicate word (06 R140). -/
def maskByte (pw : Word) (i : Reg) : Byte := pw.extractLsb' (8 * i.toNat) 8
/-- Writes mask byte i; the other seven keep their value. -/
def setMaskByte (pw : Word) (i : Reg) (b : Byte) : Word :=
  (pw &&& ~~~(0xFF#64 <<< (8 * i.toNat))) ||| (b.setWidth 64 <<< (8 * i.toNat))

/-- Format code of a prefix value (06 R147). -/
def pfxFmt (v : BitVec 13) : Nat := (v.extractLsb' 9 4).toNat
/-- Rounding mode of a prefix value. -/
def pfxMode (v : BitVec 13) : Nat := (v.extractLsb' 6 3).toNat
/-- Saturate bit of a prefix value. -/
def pfxSat (v : BitVec 13) : Bool := v.getLsbD 5

/-- What an instruction accepts of a pending prefix (06 R150). -/
structure PfxRule where
  /-- Accepts a prefix at all. -/
  any : Bool := false
  /-- Reads the format field. -/
  fmt : Bool := false
  /-- Accepts a rounding mode other than RNE. -/
  rnd : Bool := false
  /-- Accepts the saturate bit. -/
  sat : Bool := false
  /-- Accepts SR, given the format field. -/
  sr : Nat → Bool := fun _ => false

/-- A pending prefix value that an instruction accepts (06 R150, 03 R66, R69, R72). -/
def PfxRule.accepts (r : PfxRule) (v : BitVec 13) : Bool :=
  r.any && (r.fmt || pfxFmt v == 0) && (r.sat || !pfxSat v) && pfxMode v < 6 &&
    (pfxMode v == 0 || r.rnd) && (pfxMode v != 5 || r.sr (pfxFmt v)) &&
    !(r.fmt && pfxFmt v == 14 && pfxMode v != 0)

end Sys2Proof.Machine
end

