-- ==== Sys2Proof/Machine/Operands.lean ====
section
/-! DEFINITION. Operand forms and integer results (03 R76 to R79, 06 R136, R137, 07 R162 to R174): every form takes
register values and gives the value written. -/

namespace Sys2Proof.Machine

open Sys2Proof

/-- A two-source operation at width 64, or at width 32 zero-extended under W (07 R162). -/
def atWidth (w : Bool) (f : (n : Nat) → BitVec n → BitVec n → BitVec n) (x y : Word) : Word :=
  if w then (f 32 (x.setWidth 32) (y.setWidth 32)).setWidth 64 else f 64 x y

/-- An operation with an 8-bit amount. -/
def atWidthAmt (w : Bool) (f : (n : Nat) → BitVec n → Nat → BitVec n) (x : Word) (amt : Nat) : Word :=
  if w then (f 32 (x.setWidth 32) amt).setWidth 64 else f 64 x amt

/-- The shift amount of a register (03 R76). -/
def amount (y : Word) : Nat := y.toNat % 256

/-- Left shift; an amount of the width or more gives 0. -/
def shlN (n : Nat) (x : BitVec n) (amt : Nat) : BitVec n := x <<< amt
/-- Logical right shift. -/
def shrN (n : Nat) (x : BitVec n) (amt : Nat) : BitVec n := x >>> amt
/-- Arithmetic right shift; an amount of the width or more gives the sign fill. -/
def sarN (n : Nat) (x : BitVec n) (amt : Nat) : BitVec n := x.sshiftRight amt
/-- Rotate left by the amount modulo the width. -/
def rolN (n : Nat) (x : BitVec n) (amt : Nat) : BitVec n := x.rotateLeft (amt % n)
/-- Rotate right by the amount modulo the width. -/
def rorN (n : Nat) (x : BitVec n) (amt : Nat) : BitVec n := x.rotateRight (amt % n)

/-- Bits [2n - 1 : n] of the exact product (07 Table 7-1). -/
def mulhN (z : Bool) (n : Nat) (x y : BitVec n) : BitVec n :=
  if z then BitVec.ofNat n (x.toNat * y.toNat / 2 ^ n) else BitVec.ofInt n (x.toInt * y.toInt / (2 ^ n : Nat))

/-- Quotient (03 R77). -/
def divN (z : Bool) (n : Nat) (x y : BitVec n) : BitVec n :=
  if y = 0 then BitVec.allOnes n
  else if z then BitVec.ofNat n (x.toNat / y.toNat)
  else if x = BitVec.intMin n && y = BitVec.allOnes n then x
  else BitVec.ofInt n (x.toInt.tdiv y.toInt)

/-- Remainder (03 R77). -/
def remN (z : Bool) (n : Nat) (x y : BitVec n) : BitVec n :=
  if y = 0 then x
  else if z then BitVec.ofNat n (x.toNat % y.toNat)
  else if x = BitVec.intMin n && y = BitVec.allOnes n then 0
  else BitVec.ofInt n (x.toInt.tmod y.toInt)

/-- Lesser or greater of two values (07 Table 7-1). -/
def minN (z : Bool) (n : Nat) (x y : BitVec n) : BitVec n := if (if z then y.ult x else y.slt x) then y else x
def maxN (z : Bool) (n : Nat) (x y : BitVec n) : BitVec n := if (if z then x.ult y else x.slt y) then y else x

/-- One bits among the low `n` of a number. -/
def popcount (v : Nat) : Nat → Nat
  | 0 => 0
  | n + 1 => v % 2 + popcount (v / 2) n
/-- Zero bits from bit n - 1 down to the first one bit. -/
def leadingZeros (v : Nat) : Nat → Nat
  | 0 => 0
  | n + 1 => if bitAt v n then 0 else 1 + leadingZeros v n
/-- Zero bits from bit 0 up to the first one bit, at most `n`. -/
def trailingZeros (v : Nat) : Nat → Nat
  | 0 => 0
  | n + 1 => if v % 2 = 1 then 0 else 1 + trailingZeros (v / 2) n

/-- The value a source gives at the width of the instruction (07 R165). -/
def takeW (w : Bool) (x : Word) : Nat := if w then x.toNat % 2 ^ 32 else x.toNat
/-- Bits of a width. -/
def widthOf (w : Bool) : Nat := if w then 32 else 64

/-- `bext` (07 R166): position and length come from the low halfword of the second source. -/
def bextVal (z w : Bool) (x y : Word) : Word :=
  let n := widthOf w
  let pos := bits y.toNat 0 8
  let len := bits y.toNat 8 8
  let v : Int := if z then (takeW w x : Int) else signed n (takeW w x)
  let f := (v / (2 ^ pos : Nat)) % (2 ^ len : Nat)
  let f := if !z && 0 < len && (2 ^ (len - 1) : Nat) ≤ f then f - (2 ^ len : Nat) else f
  BitVec.ofNat 64 (wrap n f)

/-- `bins` (07 R166), into the old destination. -/
def binsVal (w : Bool) (x y old : Word) : Word :=
  let n := widthOf w
  let pos := bits y.toNat 0 8
  let len := bits y.toNat 8 8
  let m : Word := BitVec.ofNat 64 ((2 ^ len - 1) * 2 ^ pos % 2 ^ n)
  (BitVec.ofNat 64 (takeW w old) &&& ~~~m) ||| (BitVec.ofNat 64 (takeW w x * 2 ^ pos) &&& m)

/-- `sext` (07 Table 7-1): from bit 7, 15 or 31, to the width. -/
def sextVal (s : BitVec 2) (w : Bool) (x : Word) : Word :=
  BitVec.ofNat 64 (wrap (widthOf w) (signed (8 * 2 ^ s.toNat) x.toNat))
/-- `zext`. -/
def zextVal (s : BitVec 2) (w : Bool) (x : Word) : Word :=
  BitVec.ofNat 64 (takeW w x % 2 ^ (8 * 2 ^ s.toNat))
/-- `abs` at the width; -2^(w-1) gives itself. -/
def absVal (w : Bool) (x : Word) : Word :=
  BitVec.ofNat 64 (wrap (widthOf w) (signed (widthOf w) (takeW w x)).natAbs)

/-- Sign extension of an immediate or offset field. -/
def sx {n : Nat} (i : BitVec n) : Word := i.signExtend 64

/-! ### Packed lanes (07 R172 to R174) -/

/-- Lane width of a lane code. -/
def laneW (l : BitVec 2) : Nat := 8 * 2 ^ l.toNat
/-- Lanes of a lane code. -/
def laneN (l : BitVec 2) : Nat := 8 / 2 ^ l.toNat
/-- Lane i of width w. -/
def lane (w i : Nat) (x : Word) : Nat := bits x.toNat (w * i) w
/-- A register from its lanes, lane 0 first, each taken modulo 2^w. -/
def ofLanes (w : Nat) : List Nat → Nat
  | [] => 0
  | x :: r => x % 2 ^ w + 2 ^ w * ofLanes w r
/-- Applies a function to each pair of lanes. -/
def mapLanes (l : BitVec 2) (f : Nat → Nat → Nat → Nat) (x y : Word) : Word :=
  BitVec.ofNat 64 (ofLanes (laneW l) ((List.range (laneN l)).map fun i => f i (lane (laneW l) i x) (lane (laneW l) i y)))
/-- A lane read with Z signedness. -/
def laneVal (z : Bool) (w v : Nat) : Int := if z then (v : Int) else signed w v
/-- An exact lane operation, wrapping. -/
def laneWrap (z : Bool) (l : BitVec 2) (f : Int → Int → Int) (x y : Word) : Word :=
  mapLanes l (fun _ a b => wrap (laneW l) (f (laneVal z (laneW l) a) (laneVal z (laneW l) b))) x y
/-- An exact lane operation, saturating (03 R79). -/
def laneSat (z : Bool) (l : BitVec 2) (f : Int → Int → Int) (x y : Word) : Word :=
  mapLanes l (fun _ a b => wrap (laneW l) (clampI (f (laneVal z (laneW l) a) (laneVal z (laneW l) b))
    (intMin (!z) (laneW l)) (intMax (!z) (laneW l)))) x y
/-- A shift of each lane by an amount taken from the amount register or from the lane (03 R76). -/
def laneShift (perLane : Bool) (l : BitVec 2) (f : (n : Nat) → BitVec n → Nat → BitVec n) (x y : Word) : Word :=
  mapLanes l (fun _ a b => (f (laneW l) (BitVec.ofNat _ a) (if perLane then b % 256 else amount y)).toNat) x y

/-- `pdot`: pairs of products into double-width lanes. -/
def pdotVal (z : Bool) (l : BitVec 2) (x y : Word) : Word :=
  let w := laneW l
  let p := fun i => laneVal z w (lane w i x) * laneVal z w (lane w i y)
  BitVec.ofNat 64 (ofLanes (2 * w) ((List.range (laneN l / 2)).map fun j => wrap (2 * w) (p (2 * j) + p (2 * j + 1))))
/-- `psad`: the sum of absolute lane differences. -/
def psadVal (z : Bool) (l : BitVec 2) (x y : Word) : Word :=
  let w := laneW l
  BitVec.ofNat 64 (((List.range (laneN l)).map fun i => (laneVal z w (lane w i x) - laneVal z w (lane w i y)).natAbs).sum)
/-- `pclip`: bounds in the two low lanes of the second source. -/
def pclipVal (z : Bool) (l : BitVec 2) (x y : Word) : Word :=
  let w := laneW l
  let lo := laneVal z w (lane w 0 y)
  let hi := laneVal z w (lane w 1 y)
  mapLanes l (fun _ a _ => wrap w (min (max (laneVal z w a) lo) hi)) x y
/-- The mask byte of a lane comparison: each lane's result on every bit of its bytes (07 R173). -/
def pcmpVal (c : BitVec 3) (l : BitVec 2) (x y : Word) : Byte :=
  let w := laneW l
  BitVec.ofNat 8 (((List.range 8).map fun k =>
    let i := 8 * k / w
    if intCond c (BitVec.ofNat w (lane w i x)) (BitVec.ofNat w (lane w i y)) then 2 ^ k else 0).sum)
/-- `psel`: lane i from the first source where bit i x w / 8 of the mask byte is 1. -/
def pselVal (m : Byte) (l : BitVec 2) (x y : Word) : Word :=
  mapLanes l (fun i a b => if m.getLsbD (i * laneW l / 8) then a else b) x y
/-- `pperm`: bytes of the first source chosen by selector bytes. -/
def ppermVal (x y : Word) : Word :=
  mapLanes 0 (fun _ _ b => if bitAt b 7 then 0 else lane 8 (b % 8) x) x y
/-- `pnarrow`: lanes of both sources clamped to half their width. -/
def pnarrowVal (z : Bool) (l : BitVec 2) (x y : Word) : Word :=
  let w := laneW l
  let f := fun v : Word => (List.range (laneN l)).map fun i =>
    wrap (w / 2) (clampI (signed w (lane w i v)) (intMin (!z) (w / 2)) (intMax (!z) (w / 2)))
  BitVec.ofNat 64 (ofLanes (w / 2) (f x ++ f y))
/-- `pwiden`: the lanes of one half, extended to twice their width. -/
def pwidenVal (z : Bool) (l : BitVec 2) (hi : Bool) (x : Word) : Word :=
  let w := laneW l
  let k := laneN l / 2
  BitVec.ofNat 64 (ofLanes (2 * w) ((List.range k).map fun i => wrap (2 * w) (laneVal z w (lane w (i + (if hi then k else 0)) x))))

/-! ### Loads, stores and branches -/

/-- Bytes of a size code (06 Table 6-2). -/
def sizeBytes (z : BitVec 3) : Nat :=
  match z.toNat with
  | 0 => 1
  | 1 => 2
  | 2 => 4
  | 3 => 8
  | 4 => 1
  | 5 => 2
  | 6 => 4
  | _ => 16

/-- The size code sign-extends. -/
def sizeSigned (z : BitVec 3) : Bool := z == 4 || z == 5 || z == 6

/-- A loaded value of a number of bytes as a register holds it (08 R193). -/
def extendLoad (sg : Bool) (bytes v : Nat) : Word :=
  if sg then BitVec.ofInt 64 (signed (8 * bytes) v) else BitVec.ofNat 64 (v % 2 ^ (8 * bytes))

/-- The address `disp` bytes from a base, modulo 2^64 (08 Table 8-1). -/
def dispAddr (base : Word) (off : BitVec 11) (bytes : Nat) : Word := base + sx off * BitVec.ofNat 64 bytes

/-- A pc a signed count of halfwords away, modulo 2^57 (06 R132, R136). -/
def target {n : Nat} (pc : BitVec 57) (off : BitVec n) : BitVec 57 := pc + (off.signExtend 57 <<< 1)

/-- One step of the reflected CRC, `j` bits (07 R187). -/
def crcBits (p : BitVec 32) (c : BitVec 32) : Nat → BitVec 32
  | 0 => c
  | j + 1 => crcBits p (if c.getLsbD 0 then (c >>> 1) ^^^ p else c >>> 1) j
/-- The CRC over `n` bytes of a register from its least significant byte. -/
def crcVal (p : BitVec 32) (c : BitVec 32) (data : Word) : Nat → BitVec 32
  | 0 => c
  | n + 1 => crcVal p (crcBits p (c ^^^ (data.setWidth 8).setWidth 32) 8) (data >>> 8) n

end Sys2Proof.Machine
end

