-- ==== Sys2Proof/Machine/Topo.lean ====
section
/-! DEFINITION. Where things are: core, cluster and die numbers (01 R15, R16), the links between dies and the routes over
them (01 R19, R20; 16 R372), partition modes and the interleave (15 R360 to R363, R367), address regions (04 R83). -/

namespace Sys2Proof.Machine

open Sys2Proof

/-- Ticks in a microsecond (01 R34). -/
def us : Nat := 4000
/-- Die of a core named {die, y, x}. -/
def dieOf (core : Nat) : Nat := core / 1024 % 8
/-- Mesh column of a core. -/
def xOf (core : Nat) : Nat := core % 32
/-- Mesh row of a core. -/
def yOf (core : Nat) : Nat := core / 32 % 32
/-- A core from its die and mesh position. -/
def coreAt (die x y : Nat) : Nat := 1024 * die + 32 * y + x
/-- Cluster of a core: 64 x die + cluster number (01 R15). -/
def clusterOf (core : Nat) : Nat := 64 * dieOf core + 8 * (yOf core / 4) + xOf core / 4
/-- Core of a cluster at a cluster-local position. -/
def coreIn (cluster lx ly : Nat) : Nat := coreAt (cluster / 64) (4 * (cluster % 8) + lx) (4 * (cluster % 64 / 8) + ly)
/-- The 16 cores of a cluster. -/
def coresOf (cluster : Nat) : List Nat := (List.range 16).map fun i => coreIn cluster (i % 4) (i / 4)
/-- A wide core (01 R16). -/
def isWide (core : Nat) : Bool := (xOf core % 4 == 0 && yOf core % 4 == 0) || (xOf core % 4 == 3 && yOf core % 4 == 3)

/-- Number of die sets of a partition mode (15 Table 15-4). -/
def setCount (mode : Nat) : Nat := match mode with | 0 => 1 | 1 => 2 | _ => 8
/-- Die set of a compute die. -/
def setOf (mode die : Nat) : Nat := match mode with | 0 => 0 | 1 => die / 4 | _ => die
/-- Compute dies of a die set. -/
def setDies (mode set : Nat) : List Nat :=
  match mode with
  | 0 => List.range 8
  | 1 => (List.range 4).map (4 * set + ·)
  | _ => [set]
/-- Memory dies of a die set, by the numbers of 16 R376. -/
def setMems (mode set : Nat) : List Nat :=
  match mode with
  | 1 => (List.range 6).map (8 + 6 * set + ·)
  | _ => (List.range 12).map (8 + ·)
/-- Clusters of a die set. -/
def setClusters (mode set : Nat) : List Nat := ((setDies mode set).map fun d => (List.range 64).map (64 * d + ·)).flatten
/-- Cores of a die. -/
def dieCores (die : Nat) : List Nat := (List.range 1024).map (1024 * die + ·)
/-- First patch of a die set's HBM range. -/
def setBase (mode set : Nat) : Nat := match mode with | 0 => 0 | 1 => set * 2 ^ 25 | _ => set * 2 ^ 23
/-- Patches of a die set's HBM range. -/
def setPatches (mode : Nat) : Nat := match mode with | 0 => 2 ^ 26 | 1 => 2 ^ 25 | _ => 2 ^ 23
/-- Reserved patches at the top of the range. -/
def setReserved (mode : Nat) : Nat := match mode with | 0 => 6145 | 1 => 3073 | _ => 769

/-- What a physical patch number names (15 R360). -/
inductive PatchKind where
  | hbm | host | scale | refused
deriving DecidableEq, Repr

/-- The patch as a partition of a die set may use it (15 R360); the scale-up window ends with that of peer 191 (20 R429). -/
def patchKind (mode set ppn : Nat) : PatchKind :=
  if ppn < 2 ^ 26 then
    (if setBase mode set ≤ ppn && ppn < setBase mode set + setPatches mode - setReserved mode then .hbm else .refused)
  else if ppn < 2 ^ 26 + 2 ^ 24 then .host
  else if 2 ^ 27 ≤ ppn && ppn < 2 ^ 27 + 192 * 2 ^ 26 then .scale
  else .refused

/-- Home memory die and slot of a line of a die set's range, before any bank drop (15 R363). -/
def homeSlot (mode set l : Nat) : Nat × Nat :=
  let mems := setMems mode set
  let n := mems.length
  let r := l - 64 * setBase mode set
  let g := r / n
  let h := (g % 64 + g / 2 ^ 6 % 64 + g / 2 ^ 12 % 64 + g / 2 ^ 18 % 64 + g / 2 ^ 24 % 64 + g / 2 ^ 30 % 64) % n
  (nth mems ((r % n + h) % n) 8, g + (if 2 ≤ mode then set * 44739242 else 0))

/-- Lines of one of the 16 regions of a range (15 R365). -/
def regionLines (mode : Nat) : Nat := 64 * setPatches mode / 16
/-- Region of a line. -/
def regionOf (mode set l : Nat) : Nat := (l - 64 * setBase mode set) / regionLines mode % 16

/-- Home under a region entry (15 R367, Table 15-6): a drop sends the unit's slots to the substitute die. -/
def homeUnder (mode set l : Nat) (entry : Word) : Nat :=
  let (die, slot) := homeSlot mode set l
  let e := entry.toNat
  if bitAt e 0 && die == 8 + bits e 2 4 && slot / 2 ^ 23 == bits e 6 6 then 8 + bits e 12 4 else die

/-- The next die on the way from one die to another (01 R20). -/
def nextHop (src dst : Nat) : Nat :=
  if src < 8 then
    if dst < 8 then
      let c := src % 4
      let c' := dst % 4
      if c < c' then src + 1 else if c' < c then src - 1 else (src + 4) % 8
    else if dst < 20 then dst
    else 20
  else if src < 20 then (if dst < 8 then dst else 20)
  else if src = 20 then dst
  else 20

/-- The compute dies of a row's way from one to another along the row, the first left out. -/
def alongRow (src dst : Nat) : List Nat :=
  let c := src % 4
  let c' := dst % 4
  let r := src / 4 * 4
  if c < c' then (List.range (c' - c)).map fun i => r + c + 1 + i else (List.range (c - c')).map fun i => r + c - 1 - i
/-- The compute dies from one to another by 01 R20, both included: along the row, then to the other row. -/
def routeOf (src dst : Nat) : List Nat :=
  src :: alongRow src dst ++ (if src / 4 = dst / 4 then [] else [dst])
/-- The alternative route of 16 R385: to the other row first, along it, and back if the target lies in the first row. -/
def altRoute (src dst : Nat) : List Nat :=
  let across := (src + 4) % 8
  src :: across :: alongRow across dst ++ (if src / 4 = dst / 4 then [dst] else [])

/-- The die at the other end of a link, by its number on a die (16 Table 16-1). -/
def linkPeer (die link : Nat) : Option Nat :=
  if die < 8 then
    if link < 12 then some (8 + link)
    else if link = 12 then some 20
    else if link = 13 then (if die % 4 = 0 then none else some (die - 1))
    else if link = 14 then (if die % 4 = 3 then none else some (die + 1))
    else if link = 15 then some ((die + 4) % 8)
    else none
  else if die < 20 then (if link < 8 then some link else if link = 8 then some 20 else none)
  else if die = 20 then (if link < 20 then some link else if link = 20 then some 21 else none)
  else if die = 21 then (if link = 0 then some 20 else none)
  else none

/-- The number of the link from a die to a neighbour (16 Table 16-1). -/
def linkTo (die peer : Nat) : Nat :=
  if die < 8 then
    if peer < 8 then (if peer + 1 = die then 13 else if peer = die + 1 then 14 else 15)
    else if peer < 20 then peer - 8
    else 12
  else if die < 20 then (if peer < 8 then peer else 8)
  else if die = 20 then (if peer < 20 then peer else 20)
  else 0

/-- The edge router of a die whose module leads to a neighbouring compute die (01 R21). -/
def edgeRouter (die peer : Nat) : Nat :=
  if peer / 4 != die / 4 then (if die < 4 then coreAt die 16 31 else coreAt die 16 0)
  else if die < peer then coreAt die 31 16 else coreAt die 0 16

/-- The output ports that a mesh message takes within a die, along x first and then along y (01 R21): each router with its port, 0 east,
1 west, 2 north and 3 south. -/
def meshPath (src dst : Nat) : List (Nat × Nat) :=
  let x := xOf src
  let y := yOf src
  let x' := xOf dst
  let y' := yOf dst
  let d := dieOf src
  (if x ≤ x' then (List.range (x' - x)).map fun i => (coreAt d (x + i) y, 0) else (List.range (x - x')).map fun i => (coreAt d (x - i) y, 1)) ++
    if y ≤ y' then (List.range (y' - y)).map fun i => (coreAt d x' (y + i), 2) else (List.range (y - y')).map fun i => (coreAt d x' (y - i), 3)

/-- The hop count between two cores of one die (01 R21). -/
def meshHops (src dst : Nat) : Nat := (meshPath src dst).length

/-- The mesh ports on the way from a core to another, over every die that the message traverses (01 R20, R21): from the router where it
enters a die to the one where it leaves. -/
def meshRoute (src dst : Nat) : List (Nat × Nat) :=
  go src (routeOf (dieOf src) (dieOf dst))
where
  /-- From a router of the first die of the way on. -/
  go : Nat → List Nat → List (Nat × Nat)
    | from_, d :: e :: r => meshPath from_ (edgeRouter d e) ++ go (edgeRouter e d) (e :: r)
    | from_, _ => meshPath from_ dst

/-- Offsets that each half's page tables map (04 R83). -/
def halfSize : Nat := 12288 * 1536 ^ 4
/-- First address of the mesh window. -/
def meshBase : Nat := 0x00FF000000000000

/-- Regions of the virtual space (04 Table 4-1). -/
inductive Region where
  | global | mesh | context | gap
deriving DecidableEq, Repr

/-- The region of an address below 2^57; anything above counts as a gap. -/
def regionAt (va : Nat) : Region :=
  if va < halfSize then .global
  else if meshBase ≤ va && va < meshBase + 2 ^ 29 then .mesh
  else if va < 2 ^ 56 then .gap
  else if va < 2 ^ 56 + 2 ^ 48 then .context
  else if va < 2 ^ 56 + halfSize then .global
  else .gap

/-- Core that owns a core-store location (02 R37). -/
def locCore (loc : Nat) : Nat := loc / 65536 % 8192

end Sys2Proof.Machine
end

