-- ==== Sys2Proof/Machine/Units.lean ====
section
/-! DEFINITION. The units of the package and named operations over them: units themselves, page tables (15 R351 to R355),
context lines and their registers (02 R36 to R42), messages between dies, slots and queues (14 R336), waking and ending
a context. -/

namespace Sys2Proof.Machine

open Sys2Proof

/-- What a step answers. -/
abbrev Out := Host.Outcome State Fault Refusal

/-! ### Units -/

/-- A core; one that was never changed is as reset left it. -/
def State.core (s : State) (c : Nat) : Core := getD s.cores c {}
/-- Changes a core. -/
def State.modCore (s : State) (c : Nat) (f : Core → Core) : State := { s with cores := put s.cores c (f (s.core c)) }
/-- A cluster, 64 x die + number. -/
def State.cluster (s : State) (c : Nat) : Cluster := getD s.clusters c {}
/-- Changes a cluster. -/
def State.modCluster (s : State) (c : Nat) (f : Cluster → Cluster) : State :=
  { s with clusters := put s.clusters c (f (s.cluster c)) }
/-- A die, numbered as 16 R376 has it. -/
def State.die (s : State) (d : Nat) : Die := getD s.dies d {}
/-- Changes a die. -/
def State.modDie (s : State) (d : Nat) (f : Die → Die) : State := { s with dies := put s.dies d (f (s.die d)) }
/-- One end of a link. -/
def State.link (s : State) (die l : Nat) : LinkEnd := getD s.links (32 * die + l) {}
/-- Changes one end of a link. -/
def State.modLink (s : State) (die l : Nat) (f : LinkEnd → LinkEnd) : State :=
  { s with links := put s.links (32 * die + l) (f (s.link die l)) }
/-- A resident partition, 4 x die set + index. -/
def State.part (s : State) (p : Nat) : Partition := getD s.parts p {}
/-- Changes a partition. -/
def State.modPart (s : State) (p : Nat) (f : Partition → Partition) : State :=
  { s with parts := put s.parts p (f (s.part p)) }
/-- A die set. -/
def State.set (s : State) (d : Nat) : DieSet := getD s.sets d {}
/-- Changes a die set. -/
def State.modSet (s : State) (d : Nat) (f : DieSet → DieSet) : State := { s with sets := put s.sets d (f (s.set d)) }
/-- Changes a started block, if it has not ended. -/
def State.modBlock (s : State) (b : Nat) (f : Block → Block) : State :=
  match get? s.blocks b with
  | some x => { s with blocks := put s.blocks b (f x) }
  | none => s
/-- Changes a launch, if it has not completed. -/
def State.modLaunch (s : State) (l : Nat) (f : Launch → Launch) : State :=
  match get? s.launches l with
  | some x => { s with launches := put s.launches l (f x) }
  | none => s
/-- An event of a source adds to a counter that names it and is enabled; a core counter looks at the slot (19 R419). -/
def EvCounter.add (c : EvCounter) (source : Nat) (slot : Option Nat) (n : Nat) : EvCounter :=
  let v := c.cfg.toNat
  let slots := bits v 16 16
  let mine := slots == 0 || match slot with | some k => bitAt slots k | none => true
  if bits v 0 8 == source && bitAt v 8 && mine then { c with val := c.val + BitVec.ofNat 64 n } else c
/-- Counts an event of a core (19 Table 19-2). -/
def State.countCore (s : State) (core source : Nat) (slot : Option Nat) : State :=
  if (s.core core).evs.all fun c => c.add source slot 1 == c then s
  else s.modCore core fun c => { c with evs := c.evs.map fun x => x.add source slot 1 }
/-- Counts an event of a cluster, `n` times. -/
def State.countCluster (s : State) (k source n : Nat) : State :=
  if (s.cluster k).evs.all fun c => c.add source none n == c then s
  else s.modCluster k fun c => { c with evs := c.evs.map fun x => x.add source none n }

/-- What a die's rate correction has gained since it was set, in 10^-9 ticks (16 R382). -/
def Die.slewed (d : Die) (now : Nat) : Int := ((now - d.slewAt : Nat) : Int) * d.tslew + d.frac
/-- A die's gtime less the grandmaster's (16 R382). -/
def Die.offset (d : Die) (now : Nat) : Int := d.ahead + d.slewed now / 1000000000
/-- gtime as a die reads it, in ticks modulo 2^64 (01 R34, 16 R382). -/
def State.dieTime (s : State) (d : Nat) : Nat := wrap 64 ((s.gtime : Int) + (s.die d).offset s.gtime)
/-- A partition is the active one of its die set and is not pre-empted on a die. -/
def State.active (s : State) (part die : Nat) : Bool :=
  (s.set (part / 4)).active == some (part % 4) && !(s.die die).preempted

/-- Core, slot and line of the issuing slot. -/
def State.here (s : State) : Cur := s.cur.getD ⟨0, 0, 0⟩
/-- The issuing core. -/
def State.hereCore (s : State) : Nat := s.here.core
/-- The issuing compute die. -/
def State.hereDie (s : State) : Nat := dieOf s.here.core

/-! ### Page tables (15 R351 to R354) -/

/-- A page-table entry's PPN. -/
def ptePpn (e : Nat) : Nat := bits e 16 40
/-- Patches of a page at a level. -/
def pagePatches (level : Nat) : Nat := 1536 ^ (level - 1)
/-- Whether a partition of a die set may use every patch of a page (15 R360): both ends lie in one allowed range. -/
def pageAllowed (mode set ppn n : Nat) : Bool :=
  patchKind mode set ppn != .refused && patchKind mode set ppn == patchKind mode set (ppn + n - 1)
/-- A present and well-formed entry at a level, for an offset inside the context window or not (15 R352, R354). -/
def pteOk (mode set level e : Nat) (inCtx : Bool) : Bool :=
  bitAt e 0 && bits e 56 8 == 0 && bits e 6 10 == 0 &&
    if bitAt e 1 then
      !(bitAt e 3 && !bitAt e 2) && ptePpn e % pagePatches level == 0 &&
        pageAllowed mode set (ptePpn e) (pagePatches level) &&
        (!inCtx || (bitAt e 2 && bitAt e 3 && !bitAt e 4 && !bitAt e 5))
    else level != 1 && !bitAt e 5 && pageAllowed mode set (ptePpn e) 1

/-- What a walk found: a leaf, or nothing; the non-leaf entries it read from memory, by level; and where the entries that it read lie. -/
structure WalkResult where
  leaf : Option TlbEntry
  nodes : List WalkEntry
  reads : List Nat := []

/-- A walk from a node down (15 R351, R355): entries of the die's walk cache are taken as they stand there, others are
read from memory. -/
def walkFrom (mem : Memory) (cache : List WalkEntry) (mode part : Nat) (hi : Bool) (o node : Nat) : Nat → WalkResult
  | 0 => { leaf := none, nodes := [] }
  | k + 1 =>
    let level := k + 1
    let page := o / (12288 * pagePatches level) * pagePatches level
    match cache.find? fun w => w.part == part && w.hi == hi && w.level == level && w.page == page with
    | some w => walkFrom mem cache mode part hi o w.ppn k
    | none =>
      let pa := node * 12288 + 8 * (o / (12288 * pagePatches level) % 1536)
      let e := readNat mem pa 8
      if !pteOk mode (part / 4) level e (hi && o < 2 ^ 48) then { leaf := none, nodes := [], reads := [pa] }
      else if bitAt e 1 then
        { leaf := some ⟨part, hi, level, page, ptePpn e, bitAt e 2, bitAt e 3, bitAt e 4, bitAt e 5⟩, nodes := [], reads := [pa] }
      else
        let r := walkFrom mem cache mode part hi o (ptePpn e) k
        { leaf := r.leaf, nodes := ⟨part, hi, level, page, ptePpn e⟩ :: r.nodes, reads := pa :: r.reads }

/-- The walk of an offset within a half from a root (15 R351, R356). -/
def State.walkRoot (s : State) (cache : List WalkEntry) (part : Nat) (hi : Bool) (root o : Nat) : WalkResult :=
  if bitAt root 63 && pageAllowed s.mode (part / 4) (bits root 0 40) 1 && o < halfSize then
    walkFrom s.mem cache s.mode part hi o (bits root 0 40) 4
  else { leaf := none, nodes := [] }

/-- The walk from the partition's root as it stands. -/
def State.walk (s : State) (cache : List WalkEntry) (part : Nat) (hi : Bool) (o : Nat) : WalkResult :=
  s.walkRoot cache part hi (if hi then (s.part part).ptHi else (s.part part).ptLo).toNat o

/-- The physical address that a leaf gives an offset. -/
def TlbEntry.pa (e : TlbEntry) (o : Nat) : Nat := e.ppn * 12288 + o % (12288 * pagePatches e.level)

/-- The physical address of a virtual one, from the page tables as they stand. -/
def State.physOf (s : State) (part va : Nat) : Option Nat :=
  let o := va % 2 ^ 56
  if regionAt va = .global || regionAt va = .context then
    ((s.walk [] part (bitAt va 56) o).leaf).map fun e => e.pa o
  else none

/-! ### Context lines -/

/-- A context line; the issuing context's is its register bank. -/
def State.ctx (s : State) (id : Nat) : Ctx :=
  match s.cur with
  | some u => if u.ctx = id then s.th else getD s.ctxs id {}
  | none => getD s.ctxs id {}
/-- Changes a context line. -/
def State.modCtx (s : State) (id : Nat) (f : Ctx → Ctx) : State :=
  match s.cur with
  | some u => if u.ctx = id then { s with th := f s.th } else { s with ctxs := put s.ctxs id (f (getD s.ctxs id {})) }
  | none => { s with ctxs := put s.ctxs id (f (getD s.ctxs id {})) }
/-- A home's entry of a context line. -/
def State.centry (s : State) (id : Nat) : CtxEntry := getD s.cdir id {}
/-- Changes a home's entry of a context line. -/
def State.modEntry (s : State) (id : Nat) (f : CtxEntry → CtxEntry) : State :=
  { s with cdir := put s.cdir id (f (s.centry id)) }

/-- A wait tag (02 R37). -/
def mkTag (kind : Nat) (arg : Nat) : Word := BitVec.ofNat 64 (kind % 16 * 2 ^ 60 + arg % 2 ^ 60)
/-- The wait tag of a line. -/
def Ctx.tag (c : Ctx) : Word := c.kind ++ c.warg
/-- Sets the wait tag of a line. -/
def Ctx.setTag (c : Ctx) (t : Word) : Ctx := { c with kind := t.extractLsb' 60 4, warg := t.extractLsb' 0 60 }
/-- The status word (02 Table 2-3). -/
def Ctx.sw (c : Ctx) : Word :=
  c.pend ++ c.epoch ++ c.cause ++ c.extneed ++ c.pair ++ c.prio ++ c.priv ++ c.cmds ++ c.pfxval ++
    BitVec.ofBool c.pfx ++ c.fee ++ c.few
/-- Doubleword i of a line (02 Table 2-1). -/
def Ctx.word (c : Ctx) (i : Nat) : Word :=
  match i with
  | 8 => c.pc.setWidth 64
  | 9 => c.pw
  | 10 => c.e[0]
  | 11 => c.e[1]
  | 12 => c.e[2]
  | 13 => c.e[3]
  | 14 => c.tag
  | 15 => c.sw
  | i => (c.w[i]?).getD 0
/-- A free line: all 128 bytes are zero (13 R309). -/
def Ctx.isFree (c : Ctx) : Bool := (List.range 16).all fun i => c.word i == 0

/-- One bit of an 8-bit or 4-bit set of registers. -/
def regBit (n i : Nat) : BitVec n := 1#n <<< i
/-- Whether a register is full: 0 to 7 for w, 8 to 11 for e (02 Table 2-2). -/
def Ctx.full (c : Ctx) (r : Nat) : Bool := if r < 8 then c.few.getLsbD r else c.fee.getLsbD (r - 8)
/-- The value of a general register. -/
def Ctx.wv (c : Ctx) (r : Reg) : Word := c.w[r.toNat]'r.isLt
/-- The value of an extension register; only e0 to e3 exist. -/
def Ctx.ev (c : Ctx) (r : Nat) : Word := (c.e[r]?).getD 0
/-- A short write of a general register: full, and its EPOCH bit toggles (02 R40, R42). A fill that is outstanding is void
from then on, also when a second write has brought the bit back: the last writer determines the register (R42, 13 R317). -/
def Ctx.setW (c : Ctx) (r : Reg) (v : Word) : Ctx :=
  { c with w := c.w.set r.toNat v r.isLt, few := c.few ||| regBit 8 r.toNat, epoch := c.epoch ^^^ regBit 8 r.toNat,
           void := c.void ||| (c.pend &&& regBit 8 r.toNat) }
/-- A short write of an extension register. -/
def Ctx.setE (c : Ctx) (r : Nat) (v : Word) : Ctx :=
  { c with e := if h : r < 4 then c.e.set r v h else c.e, fee := c.fee ||| regBit 4 r }
/-- The issue of a long write: empty, EPOCH toggled, PEND set (02 R42). -/
def Ctx.emptyW (c : Ctx) (r : Reg) : Ctx :=
  { c with few := c.few &&& ~~~regBit 8 r.toNat, epoch := c.epoch ^^^ regBit 8 r.toNat, pend := c.pend ||| regBit 8 r.toNat,
           void := c.void &&& ~~~regBit 8 r.toNat }
/-- The issue of a long write of an extension register. -/
def Ctx.emptyE (c : Ctx) (r : Nat) : Ctx :=
  { c with fee := c.fee &&& ~~~regBit 4 r, epend := c.epend ||| regBit 4 r }
/-- The epoch bit that a long write of a register is tagged with. -/
def Ctx.etag (c : Ctx) (r : Nat) : Bool := if r < 8 then c.epoch.getLsbD r else false
/-- Moves the pc past an instruction, modulo 2^57 (06 R132), and ends an idle spell. -/
def Ctx.advance (c : Ctx) (n : Nat) : Ctx :=
  { c with pc := c.pc + BitVec.ofNat 57 n, stall := none, badVa := none, marked := 0, quest := none, seen := [] }

/-- Applies a fill to a line (02 R42): a register takes it if it is outstanding, its tag is current and no later write has made
it void; PEND is cleared either way. The second component says that the fill was discarded. -/
def Ctx.fill (c : Ctx) (r : Nat) (tag : Bool) (v : Word) : Ctx × Bool :=
  if r < 8 then
    let c' := { c with pend := c.pend &&& ~~~regBit 8 r, void := c.void &&& ~~~regBit 8 r }
    if c.pend.getLsbD r && tag == c.epoch.getLsbD r && !c.void.getLsbD r then
      ({ c' with w := c'.w.setIfInBounds r v, few := c'.few ||| regBit 8 r }, false)
    else (c', true)
  else if c.epend.getLsbD (r - 8) then
    ({ c with e := c.e.setIfInBounds (r - 8) v, fee := c.fee ||| regBit 4 (r - 8), epend := c.epend &&& ~~~regBit 4 (r - 8) }, false)
  else (c, true)

/-! ### Messages -/

/-- Makes a step due. -/
def State.post (s : State) (ev : Ev) : State := { s with inbox := s.inbox ++ [ev] }

/-- The next die on a message's way, as a die on it knows of failures: by the route of 01 R20, by the alternative route of
16 R385 where that one crosses a failed die, and none where both do or the destination has failed. A message that was under way
before the failure goes on by the routes of the die that it has reached. -/
def State.hop (s : State) (at_ src dst : Nat) : Option Nat :=
  let down := (s.die at_).knows
  let ok (p : List Nat) : Bool := !p.any down.contains
  let next (p : List Nat) : Option Nat := ((p.dropWhile (· != at_)).drop 1).head?
  let from_ (x : Nat) : Option Nat := ([routeOf x dst, altRoute x dst].find? ok).bind next
  if down.contains dst then none
  else if src < 8 && dst < 8 && at_ < 8 then (from_ src).or (from_ at_)
  else some (nextHop at_ dst)

/-- A die has no way left to another (16 R385, R387). -/
def State.cutOff (s : State) (src dst : Nat) : Bool := src != dst && s.hop src src dst == none

/-- Queues a message on a link towards a die (01 R20, 16 R378); a posted operation sets the link's bit (05 R116). One that
has no route left is discarded (16 R385). -/
def State.enqueue (s : State) (at_ : Nat) (m : LinkMsg) : State :=
  match s.hop at_ m.src m.dst with
  | some n => s.modLink at_ (linkTo at_ n) fun l =>
      { l with queue := l.queue ++ [m], posted := l.posted || m.posted
               postedAt := if m.posted && !l.posted then s.gtime else l.postedAt }
  | none => s

/-- Sends a message from one die to another; within a die it is due at once (05 R106). -/
def State.send (s : State) (src dst cls bytes : Nat) (posted : Bool) (tx : Option Nat) (ev : Ev) : State :=
  if src = dst then s.post ev
  else s.enqueue src { src, dst, cls, bytes, posted, tx, ev, since := s.gtime }

/-- A transaction id for a non-idempotent request from one die to another (16 R376); none within a die. -/
def State.newTx (s : State) (src dst : Nat) : Option Nat × State :=
  if src = dst then (none, s)
  else
    let n := getD (s.die src).txNext dst 0
    (some (src * 2 ^ 27 + n), s.modDie src fun d => { d with txNext := put d.txNext dst ((n + 1) % 2 ^ 24) })

/-- Remembers a request until it is confirmed: a returning one by its response, a posted one by a token round on its link that
begins after it (16 R376). -/
def State.unconfirmed (s : State) (src dst : Nat) (posted : Bool) (tx : Option Nat) : State :=
  match tx with
  | none => s
  | some t =>
    let by_ := if posted then (s.hop src src dst).map fun n =>
        let l := linkTo src n
        (l, (getD (s.die src).rounds l 0 + 1) % 65536)
      else none
    s.modDie src fun d => { d with unconf := d.unconf ++ [(dst, t, by_)] }

/-- A response confirms its request. -/
def Die.confirm (d : Die) (dst t : Nat) : Die := { d with unconf := d.unconf.eraseP fun x => x.1 == dst && x.2.1 == t }

/-- A source that holds 4,096 unconfirmed requests to a target sends it no more that need an id (16 R376). -/
def State.saturated (s : State) (src dst : Nat) : Bool :=
  src != dst && 4096 ≤ ((s.die src).unconf.filter fun x => x.1 == dst).length

/-- Sends a non-idempotent request with its transaction id (16 R376). -/
def State.sendOnce (s : State) (src dst cls bytes : Nat) (posted : Bool) (ev : Option Nat → Ev) : State :=
  let (tx, s) := s.newTx src dst
  (s.unconfirmed src dst posted tx).send src dst cls bytes posted tx (ev tx)

/-- Sends a message that carries a transaction id, by which its receiver's duplicate filter discards a repeat, and that needs no
confirmation (14 R334). -/
def State.sendNamed (s : State) (src dst cls bytes : Nat) (ev : Ev) : State :=
  let (tx, s) := s.newTx src dst
  s.send src dst cls bytes false tx ev

/-- Sends the response of a returning request, which carries the request's id, and records it in the duplicate filter. -/
def State.respond (s : State) (src dst cls bytes : Nat) (tx : Option Nat) (ev : Ev) : State :=
  let s := match tx with
    | some t => s.modDie src fun d => { d with filter := d.filter.map fun (k, r) => if k = t then (k, some ev) else (k, r) }
    | none => s
  s.send src dst cls bytes false tx ev

/-- A die that holds a unit of a context line; the home's die for a line in memory. -/
def holderDie (home : Nat) : Holder → Nat
  | .core c => dieOf c
  | .shadow d => d
  | .l2 k => k / 64
  | .memory => home

/-- The region entry under which a line's home is chosen (15 R365, R367): below the cursor of a migration the new entry
holds, from the cursor on the old one. -/
def State.regionEntry (s : State) (set l : Nat) : Word :=
  let d := s.set set
  let r := regionOf s.mode set l
  let cur := nth d.regions r 0
  if d.mig = some r && nth d.cursors r 0 ≤ (l - 64 * setBase s.mode set) % regionLines s.mode then d.oldEntry else cur

/-- The home of a physical byte for a partition: a memory die, the host die for its own memory, which is reached through the
X-die (01 R20, 20 R427), or the X-die for the scale-up window. -/
def State.homeDie (s : State) (set pa : Nat) : Nat :=
  if pa / 12288 < 2 ^ 26 then homeUnder s.mode set (pa / 192) (s.regionEntry set (pa / 192))
  else if pa / 12288 < 2 ^ 26 + 2 ^ 24 then 21 else 20

/-- The region version and the home under which a die sends a request, as a message carries them (15 R365). -/
def State.verAt (s : State) (src home : Nat) : Nat := (s.set (setOf s.mode src)).rver % 16 + 16 * (home + 1)

/-- The home of a context line (14 R333). -/
def State.ctxHome (s : State) (id : Nat) : Nat := s.homeDie ((s.ctx id).part / 4) id

/-! ### Accesses and commands on their way (05 R106 to R110) -/

/-- What an access in flight touches: a sector of global memory, or a core store. -/
inductive Spot where
  | sector (n : Nat)
  | store (core : Nat)
deriving DecidableEq, Repr

/-- An access in flight. -/
structure Touch where
  ctx : Nat
  core : Nat
  spot : Spot
  /-- The second place that a read of the bit stream touches (07 R188). -/
  also : Option Spot := none
  /-- Later accesses of the context wait for it (05 Table 5-3). -/
  acq : Bool := false
  /-- It reads. -/
  read : Bool := false
  write : Bool := false
  /-- It returns nothing to its issuer (05 Table 5-2). -/
  posted : Bool := false
deriving DecidableEq, Repr

/-- An access touches a place. -/
def Touch.on (t : Touch) (p : Spot) : Bool := t.spot == p || t.also == some p
/-- Two accesses touch a place in common. -/
def Touch.meets (t u : Touch) : Bool := t.on u.spot || u.also.any t.on

/-- The place of a request. -/
def spotOf (r : Req) (inCore : Bool) : Spot := if inCore then .store (locCore r.addr) else .sector (r.addr / 48)

/-- The place of the last byte of a stream read, where it is another than the first one's. -/
def spotAlso (r : Req) (inCore : Bool) : Option Spot :=
  match r.kind with
  | .stream _ _ first =>
    let last := if first < r.size then r.data + (r.size - first) - 1 else r.addr + r.size - 1
    let p := spotOf { r with addr := last } inCore
    if p == spotOf r inCore then none else some p
  | _ => none

/-- A request that writes. -/
def writes : ReqKind → Bool
  | .load => false
  | .nibLoad _ => false
  | .stream _ _ _ => false
  | _ => true

/-- The access that a message stands for. -/
def touchOf : Ev → Option Touch
  | .homeReadRequest r =>
    -- a prefetch orders nothing (08 R199)
    if 17 ≤ r.reg then none else some { ctx := r.ctx, core := r.core, spot := spotOf r false, also := spotAlso r false, acq := r.ordered, read := true }
  | .storeVisible r => some { ctx := r.ctx, core := r.core, spot := spotOf r false, write := true }
  | .nibbleStoreExecute r => some { ctx := r.ctx, core := r.core, spot := spotOf r false, write := true, posted := true }
  | .coreStoreAccess r =>
    let w := writes r.kind
    -- the repeat of a load is nobody's (16 R377)
    if 17 ≤ r.reg && !w && r.reg != 18 then none
    else some { ctx := r.ctx, core := r.core, spot := spotOf r true, also := spotAlso r true, acq := r.ordered && !w, read := !w,
                write := w, posted := w && r.kind != .storeTs }
  | .atomicExecute _ posted inCore _ r =>
    some { ctx := r.ctx, core := r.core, spot := spotOf r inCore, acq := r.ordered && !posted, read := !posted, write := true,
           posted := posted }
  | .semVExecute loc ctx _ _ => some { ctx := ctx, core := 0, spot := .store (locCore loc), write := true, posted := true }
  | .semPExecute loc ctx _ _ => some { ctx := ctx, core := 0, spot := .store (locCore loc), read := true, write := true }
  | .jcUpdate loc _ _ ctx _ => some { ctx := ctx, core := 0, spot := .store (locCore loc), write := true, posted := true }
  | .ksendAccumulate loc _ _ ctx _ => some { ctx := ctx, core := 0, spot := .store (locCore loc), write := true, posted := true }
  | .homeNackRetry m => touchOf m
  | .bankNackRetry m => touchOf m
  | .messageReturn _ m => touchOf m
  | _ => none

/-- A flit of a replay buffer that the other end has yet to accept. -/
def State.unaccepted (s : State) (k : Nat) (f : Flit) : Bool :=
  match linkPeer (k / 32) (k % 32) with
  | some p => (s.link p (linkTo p (k / 32))).got ≤ f.no
  | none => false

/-- The messages that one end of a link has still to deliver, oldest first. -/
def State.undelivered (s : State) (k : Nat) (l : LinkEnd) : List Ev :=
  ((l.replay.filter (s.unaccepted k)).map fun f => f.msgs.map (·.ev)).flatten ++ l.queue.map (·.ev)

/-- Operations held by a replay (19 R423), which came before what is in the inbox. -/
def State.replayHeld (s : State) : List Ev := (s.parts.map fun (_, p) => p.rplHeld.map (·.2.2.2.2)).flatten

/-- Every message that has not yet taken effect. -/
def State.flying (s : State) : List Ev := (s.links.map fun (k, l) => s.undelivered k l).flatten ++ s.replayHeld ++ s.inbox

/-- The two contexts of a pair are one thread (17 R396, R397). -/
def State.sameThread (s : State) (a b : Nat) : Bool := a == b || (s.ctx a).peer == some b

/-- The accesses of a thread in flight. -/
def State.touches (s : State) (ctx : Nat) : List Touch := (s.flying.filterMap touchOf).filter fun t => s.sameThread t.ctx ctx

/-- The accesses of a thread that are held at its core (05 R108, R436). -/
def State.heldTouches (s : State) (ctx : Nat) : List Touch :=
  ((s.held.filter fun h => s.sameThread h.ctx ctx).filterMap fun h => touchOf h.ev)

/-- A report of a block is on its way to its trace unit (10 R261, R263). -/
def State.reporting (s : State) (blk : Nat) : Bool :=
  s.flying.any fun e => match e with
    | .traceReport b _ _ _ _ => b == blk
    | _ => false

/-- Every store and posted operation of a thread has performed, so that it may leave its core (05 R110), the reports of its block to their
trace unit among them (10 R261); a returning atomic, whose value follows the context (08 R202, 18 R412), does not keep it (DEDUCED, log
38). -/
def State.drained (s : State) (ctx : Nat) : Bool :=
  !((s.touches ctx).any fun t => t.write && !t.read) && !(s.held.any fun h => s.sameThread h.ctx ctx) &&
    !(match get? s.blocks (s.ctx ctx).blk with
      | some b => b.trace.isSome && s.reporting (s.ctx ctx).blk
      | none => false)

/-- The context has a command on its way to a Juggler, or the reply to one; it keeps its slot meanwhile (09 R232). -/
def State.commanding (s : State) (id : Nat) : Bool :=
  (s.flying ++ s.held.map (·.ev)).any fun e => match e with
    | .commandAccept c => c.ctx == id
    | .commandReply c _ _ _ _ _ => c == id
    | _ => false

/-! ### Slots and queues (14 R336, 02 R44 to R50) -/

/-- Position of a context among a core's slots. -/
def Core.slotOf (c : Core) (id : Nat) : Option Nat := c.slots.findIdx? fun x => x.ctx == some id
/-- Changes one slot. -/
def Core.modSlot (c : Core) (k : Nat) (f : Slot → Slot) : Core := { c with slots := c.slots.modify k f }
/-- Empties whatever slot holds a context; one kept for a stopped context stays so (13 R329), and what a waiting `getue` holds in the
L1 stays held until it issues (07 R188). -/
def Core.leave (c : Core) (id : Nat) : Core :=
  { c with slots := c.slots.map fun x => if x.ctx == some id then { x with ctx := none, fence := none } else x }
/-- No slot is kept for a context any longer. -/
def Core.unhold (c : Core) (id : Nat) : Core :=
  { c with slots := c.slots.map fun x => if x.heldFor == some id then { x with heldFor := none } else x }
/-- The slot that is kept for a stopped context. -/
def Core.heldSlot (c : Core) (id : Nat) : Option Nat := c.slots.findIdx? fun x => x.heldFor == some id
/-- Removes a context from the ready queues. -/
def Core.unready (c : Core) (id : Nat) : Core :=
  { c with readyH := c.readyH.filter (· != id), ready := c.ready.map (·.filter (· != id)) }
/-- A context joins the tail of a priority's queue. -/
def Core.enq (c : Core) (level id : Nat) : Core :=
  { c with ready := (c.unready id).ready.modify level (· ++ [id]) }
/-- A context joins the head of a priority's queue. -/
def Core.enqHead (c : Core) (level id : Nat) : Core :=
  { c with ready := (c.unready id).ready.modify level (id :: ·) }

/-- The other context of a pair that has not ended (17 R396). -/
def State.mate (s : State) (id : Nat) : Option Nat :=
  (s.ctx id).peer.filter fun p => (s.ctx p).kind != 11 && (s.ctx p).kind != 12
/-- The contexts that are scheduled and moved with a context: itself, and the other of its pair (17 R396). -/
def State.unit (s : State) (id : Nat) : List Nat := id :: (s.mate id).toList
/-- The context by which queues, rings and claims name a unit: the leading one of a pair. -/
def State.lead (s : State) (id : Nat) : Nat := if (s.ctx id).pair == 2 then (s.mate id).getD id else id
/-- Every context of a unit is ready. -/
def State.unitReady (s : State) (id : Nat) : Bool := (s.unit id).all fun x => (s.ctx x).kind == 0
/-- The trailing context has caught up with the leading one (17 R396, R397): it has issued every instruction that the leading one has
retired, and claimed every value of the queue. -/
def State.caughtUp (s : State) (id : Nat) : Bool :=
  (s.mate id).isNone || ((s.ctx (s.lead id)).ahead == 0 && (s.ctx (s.lead id)).lvq.all fun e => e.claim != none)
/-- Contexts of a pair are pre-empted, parked and stopped together, once the trailing one has caught up with the leading one (17
R396); those of which one is halted stand already. -/
def State.pairStands (s : State) (id : Nat) : Bool := s.caughtUp id || (s.unit id).any fun x => 8 ≤ (s.ctx x).kind.toNat
/-- A unit may be moved at this boundary: no Juggler's answer is awaited (09 R232), and a pair stands together (17 R396). -/
def State.atRest (s : State) (id : Nat) : Bool := (s.unit id).all (fun x => !s.commanding x) && s.caughtUp id

/-- What a wait tag of an idling instruction waits for has still to come: a register's fill, an empty register, or a
command count below 63 (02 R41, R42; 09 R232). -/
def Ctx.unmet (c : Ctx) (t : Word) : Bool :=
  let r := bits t.toNat 0 4
  match bits t.toNat 60 4 with
  | 1 => if t.getLsbD 4 then c.pend.getLsbD r else !c.full r
  | 7 => c.cmds == 63
  | _ => false

/-- A context that leaves its slot while an instruction idles takes the wait tag of that instruction, if its wait has not
ended (02 R41, R42). -/
def Ctx.rest (c : Ctx) : Ctx :=
  match c.stall with
  | some t => if c.kind == 0 && c.unmet t then { c.setTag t with stall := none } else { c with stall := none }
  | none => c

/-- A slot of a core. -/
def State.slotAt (s : State) (core k : Nat) : Slot := nth (s.core core).slots k {}
/-- A slot that issues: not parked, not kept for a stopped context, and its register bank not being rewritten (17 R395). -/
def Slot.usable (x : Slot) : Bool := !x.parked && x.heldFor == none && x.blank == none
/-- A slot that a context may be given. -/
def Slot.isOpen (x : Slot) : Bool := x.usable && x.ctx == none
/-- SUSPECT of a core (17 R400). -/
def State.suspect (s : State) (core : Nat) : Bool := (s.core core).rasCore.getLsbD 0

/-- The slots that a unit fills from slot `k` on: a pair has k and k + 8 (17 R396). -/
def State.needs (s : State) (id k : Nat) : List Nat := if (s.mate id).isSome then [k, k + 8] else [k]
/-- The slots of a core at which a unit may run: its own under PINNED (02 R50), any for another; the leading context of a
pair has one of the first eight, and a SUSPECT core runs no pair (17 R396). -/
def State.slotsFor (s : State) (core id : Nat) : List Nat :=
  match (s.ctx id).pin with
  | some p => if p / 16 = core then [p % 16] else []
  | none => if (s.mate id).isSome then (if s.suspect core then [] else List.range 8) else List.range 16

/-- Gives a slot to a context of the core's context L1: a core that the context did not hold last forgets its L1 first
(04 R91), as does one that takes a context which has held none, where R91 is silent (DESIGN CHOICE, log 77); the quantum
begins (02 R45); the cluster becomes its affinity (14 R333). -/
def State.seatOne (s : State) (core slot id : Nat) : State :=
  let s := if (s.ctx id).lastCore = some core then s else s.modCore core fun c => { c with l1 := [], l1held := [] }
  let s := (s.countCore core 6 (some slot)).modCore core fun c =>
    (c.unready id).modSlot slot fun x => { x with ctx := some id, heldFor := none }
  let s := s.modEntry id fun e => { e with affinity := clusterOf core }
  s.modCtx id fun c =>
    { c with lastCore := some core, lastSlot := slot, runAt := s.gtime, lastIssue := (s.die (dieOf core)).cyc, stopSlot := none }

/-- Gives a unit the slots that it fills from one on. -/
def State.seat (s : State) (core slot id : Nat) : State :=
  match s.mate id with
  | some p => (s.seatOne core slot id).seatOne core (slot + 8) p
  | none => s.seatOne core slot id

/-- A ready unit, the first in the queues, that could take a slot if the occupants that `gone` names left, and the first slot
it would fill: handlers first (13 R312), then the slot's own PINNED context (02 R50), then the highest non-empty queue (14 R336). -/
def State.successor (s : State) (core slot : Nat) (gone : Nat → Bool) (waiting : List Nat) : Option (Nat × Nat) :=
  let free (k : Nat) : Bool :=
    let x := s.slotAt core k
    x.usable && match x.ctx with | some id => gone id | none => true
  let at_ (id : Nat) : Option Nat :=
    (s.slotsFor core id).find? fun k => (s.needs id k).contains slot && (s.needs id k).all free
  let first (p : Nat → Bool) : Option (Nat × Nat) :=
    waiting.findSome? fun id => if p id then (at_ id).map fun k => (id, k) else none
  match first fun id => (s.ctx id).handler != 0 with
  | some x => some x
  | none =>
    match first fun id => (s.ctx id).pin != none with
    | some x => some x
    | none => first fun _ => true

/-- Every context of a core that waits for a slot, in order. -/
def Core.waiting (c : Core) : List Nat := c.readyH ++ c.ready.flatten

/-- Fills the free slots of a core in slot order (14 R336). -/
def State.fillSlots (s : State) (core : Nat) : State :=
  each (List.range 16) (fun k s =>
    if (s.core core).waiting.isEmpty then s
    else if (s.slotAt core k).isOpen then
      match s.successor core k (fun _ => false) (s.core core).waiting with
      | some (id, k) => s.seat core k id
      | none => s
    else s) s

/-! ### Moving a line (14 R334) -/

/-- Takes a line out of what its holder keeps. -/
def State.dropLine (s : State) (id : Nat) : State :=
  match (s.centry id).holder with
  | .core k => s.modCore k fun c =>
      { (c.leave id).unready id with resident := c.resident.filter (· != id), l1held := c.l1held.filter fun x => x.1 != id }
  | .l2 k => s.modCluster k fun c => { c with l2 := c.l2.filter (· != id), l2bank := del c.l2bank id }
  | _ => s

/-- The home marks a line's entry in transfer (14 R334, step 2). A context that a core gives up ready is to be posted when it has
arrived (R338). -/
def State.markLine (s : State) (id : Nat) (dst : Holder) : State :=
  let due := match (s.centry id).holder with | .core _ => true | _ => false
  s.modEntry id fun e => { e with transfer := some dst, postDue := e.postDue || due }

/-- The holder of a line sends it to the unit to which the home has given it. -/
def State.shipLine (s : State) (id : Nat) (dst : Holder) : State :=
  let home := s.ctxHome id
  let old := (s.centry id).holder
  let s := (s.dropLine id).modCtx id fun c => { c.rest with bpExempt := false, badVa := none, marked := 0 }
  s.sendNamed (holderDie home old) (holderDie home dst) 2 144 (.contextLineArrival id dst)

/-- Sends a line that its holder gives up to another holder: the entry is in transfer until the new holder acknowledges (14 R334).
The holder's notice and the home's answer are one step with the sending (DESIGN CHOICE, log 55). -/
def State.sendLine (s : State) (id : Nat) (dst : Holder) : State := (s.markLine id dst).shipLine id dst

/-- The home gives a line to another unit: it supplies the line from memory, or tells the holder to send it (14 R334, step 2). -/
def State.giveLine (s : State) (id : Nat) (dst : Holder) : State :=
  let home := s.ctxHome id
  match (s.centry id).holder with
  | .memory => s.sendLine id dst
  | h => (s.markLine id dst).sendNamed home (holderDie home h) 2 16 (.errand (.fetch id dst))

/-- Sends the lines of a unit to another holder. -/
def State.sendUnit (s : State) (id : Nat) (dst : Holder) : State := each (s.unit id) (fun x s => s.sendLine x dst) s

/-- A unit that has left its slots with every context ready joins its queue, at the head or the tail, and its waiting begins
again; a handler stands ahead of the queues. -/
def State.requeue (s : State) (core id : Nat) (head : Bool) : State :=
  let id := s.lead id
  if !s.unitReady id then s
  else
    let s := each (s.unit id) (fun x s => s.modCtx x fun c => { c with readyAt := s.gtime, level := c.prio.toNat }) s
    let c := s.ctx id
    if c.handler != 0 then
      s.modCore core fun x => { x with readyH := if head then id :: x.readyH.filter (· != id) else x.readyH.filter (· != id) ++ [id] }
    else s.modCore core fun x => if head then x.enqHead c.level id else x.enq c.level id

/-- Takes a unit out of its slots, with the wait tag of an instruction that idles, and puts it back in its queue. -/
def State.vacate (s : State) (core id : Nat) (head : Bool) : State :=
  let s := each (s.unit id) (fun x s => (s.modCtx x Ctx.rest).modCore core fun c => c.leave x) s
  s.requeue core id head

/-- A stopped context that is ready again returns to the slot kept for it, unless its die is pre-empted or its core is halted: then
when its core goes on (13 R329). -/
def State.returnSlot (s : State) (core id : Nat) : State :=
  match (s.core core).heldSlot id with
  | some k => if (s.die (dieOf core)).preempted || (s.core core).halted then s else s.seatOne core k id
  | none => s

/-- The contexts in some slots of a core. -/
def State.occupants (s : State) (core : Nat) (ks : List Nat) : List Nat := ks.filterMap fun k => (s.slotAt core k).ctx
/-- The highest priority among some contexts, with the promotion that one has run on (02 R45; DEDUCED, log 93: it lasts until the
context leaves its slot); 4 where there is none. -/
def State.rank (s : State) (ids : List Nat) : Nat := ids.foldl (fun p id => min p (s.ctx id).level) 4

/-- Where a unit displaces what runs (02 R45, R50; 13 R312): among the slots it may have, that with the occupants of lowest
priority, the highest slot among equals; `ok` says which occupants may be displaced. -/
def State.placeFor (s : State) (core id : Nat) (ok : Ctx → Bool) : Option Nat :=
  (s.slotsFor core id).foldl (fun best k =>
    let ids := s.occupants core (s.needs id k)
    if !((s.needs id k).all fun k => (s.slotAt core k).usable) || ids.isEmpty || !(ids.all fun x => ok (s.ctx x)) then best
    else match best with
      | some b => if s.rank (s.occupants core (s.needs id b)) ≤ s.rank ids then some k else best
      | none => some k) none

/-- A unit displaces the occupants of its slots at their next boundary; none where they have not reached it. The displaced go
to the head of their queue (02 R45, 14 R336). -/
def State.displaceAt (s : State) (core k id : Nat) : Option State :=
  let out := s.occupants core (s.needs id k)
  if out.all s.atRest then some ((each out (fun x s => s.vacate core x true) s).seat core k id) else none

/-- The next displacement that is due on a core: a PINNED context takes its slot back (02 R50), a handler the place of the
lowest running context (13 R312), a ready context that of one with a lower priority (02 R45). -/
def State.displacement (s : State) (core : Nat) : Option State :=
  let c := s.core core
  let free (x : Ctx) : Bool := x.handler == 0 && x.pin == none
  let go (id : Nat) (ok : Ctx → Bool) : Option State := (s.placeFor core id ok).bind fun k => s.displaceAt core k id
  let back := c.ready.flatten.findSome? fun id => if (s.ctx id).pin != none then go id free else none
  match back, c.readyH with
  | some s, _ => some s
  | none, h :: _ => if (s.placeFor core h free).isSome then go h free else go h fun x => x.handler == 0
  | none, [] => c.ready.flatten.findSome? fun id =>
      if (s.ctx id).pin == none then go id fun x => free x && (s.ctx id).level < x.level else none

/-- Makes the displacements that are due, up to a number. -/
def State.displaceAll (s : State) (core : Nat) : Nat → State
  | 0 => s
  | n + 1 =>
    if (s.core core).waiting.isEmpty then s
    else match s.displacement core with
      | some s => s.displaceAll core n
      | none => s

/-- A SUSPECT core sends on the pairs that wait in its queues, once their stores have performed (17 R396, 05 R110). -/
def State.expel (s : State) (core : Nat) : State :=
  if s.suspect core then
    each (s.core core).ready.flatten (fun id s =>
      if (s.slotsFor core id).isEmpty && (s.unit id).all s.drained then s.sendUnit id (.l2 (clusterOf core)) else s) s
  else s

/-- Places ready contexts: free slots first, then by displacement. While a partition is pre-empted its slots stay empty (14
R346, R347), and on a halted core every context stays where it is (13 R330). -/
def State.dispatch (s : State) (core : Nat) : State :=
  if (s.die (dieOf core)).preempted || (s.core core).halted then s else ((s.expel core).fillSlots core).displaceAll core 16

/-- Moves a unit's lines to another holder; the slot it leaves is given on. -/
def State.moveLine (s : State) (id : Nat) (dst : Holder) : State :=
  match (s.centry id).holder with
  | .core k => (s.sendUnit id dst).dispatch k
  | _ => s.sendUnit id dst

/-- FIFO banks that take new entries; one that drains takes none (15 R369). -/
def Cluster.fifoBanks (k : Cluster) : List Nat :=
  (List.range 16).filter fun b => nth k.modes b .cache == .fifo && !k.drains.any fun d => d.bank == b

/-- Capacity of a cluster's ready ring for a partition (14 R340). -/
def State.ringRoom (s : State) (cluster part : Nat) : Nat :=
  let k := s.cluster cluster
  2048 + 32768 * (k.fifoBanks.filter fun b => nth k.owner b none == some (part % 4)).length

/-- Posts a context to its affinity cluster's ready ring; a full ring refuses and the home repeats the post (14 R341, R342). -/
def State.ring (s : State) (id : Nat) : State :=
  let c := s.ctx id
  let k := (s.centry id).affinity
  let r := getD (s.cluster k).rings c.part []
  if r.length < s.ringRoom k c.part then
    let s := s.modCluster k fun x =>
      { x with rings := put x.rings c.part (r ++ [⟨id, c.level, c.extneed, c.readyAt⟩]) }
    s.modEntry id fun e => { e with postPending := false }
  else (s.countCluster k 37 1).modEntry id fun e => { e with postPending := true, postAt := s.gtime }

/-- Sends the post of a ready context from the unit that holds its line to its affinity cluster (14 R341); the leading one of a
pair stands for both. -/
def State.sendPost (s : State) (id : Nat) : State :=
  let id := s.lead id
  let e := s.centry id
  s.send (holderDie (s.ctxHome id) e.holder) (e.affinity / 64) 2 16 false none (.ringPost id)

/-- What follows when a line is left with kind 0 (14 R335): its holder queues, posts or keeps it. A pair is ready when both its
contexts are; while its lines are on the way its new holder sees to it. -/
def State.nowReady (s : State) (id : Nat) : State :=
  let s := s.modCtx id fun c => { c with readyAt := s.gtime, level := c.prio.toNat }
  let l := s.lead id
  let c := s.ctx l
  if !s.unitReady l then s
  else if (s.unit l).any fun x => (s.centry x).transfer != none then
    s.modEntry l fun e => { e with postDue := true }
  else match (s.centry l).holder with
  | .core k =>
    if (s.core k).slotOf l != none || (s.core k).heldSlot l != none then s
    else if c.handler != 0 then (s.modCore k fun x => { x with readyH := l :: x.readyH.filter (· != l) }).dispatch k
    else (s.requeue k l false).dispatch k
  | .shadow _ => s
  | .l2 _ => s.sendPost l
  | .memory => s.sendPost l

/-- A line has still to reach the unit to which it was sent. -/
def CtxEntry.moving (e : CtxEntry) : Bool := e.transfer != none && e.transfer != some e.holder

/-- Makes a context ready (02 R37). -/
def State.makeReady (s : State) (id : Nat) : State :=
  (s.modCtx id fun c => { c with kind := 0, warg := 0 }).nowReady id

/-- A wakeup: kind 0 if the line has the kind that the wakeup is for (02 Table 2-2). -/
def State.wake (s : State) (id kind : Nat) : State :=
  if (s.ctx id).kind.toNat = kind then s.makeReady id else s

/-- The kind of wait is completed by a reply, and its instruction has retired (13 R314). -/
def Ctx.byReply (c : Ctx) : Bool := c.kind == 2 || c.kind == 5 || (c.kind == 4 && c.warg.getLsbD 10)

/-! ### Ending a context (02 R57) -/

/-- Adds to a count of a map. -/
def bump (m : FMap Nat) (k : Nat) (up : Bool) : FMap Nat :=
  let v := getD m k 0
  if up then put m k (v + 1) else if v ≤ 1 then del m k else put m k (v - 1)

/-- Charges or discharges one context at its anchor core, and its parents where the count leaves or reaches zero (02 R57). -/
def Launch.charge (l : Launch) (anchor : Nat) (up : Bool) : Launch :=
  let at0 (m : FMap Nat) (k : Nat) : Bool := getD m k 0 == (if up then 0 else 1)
  let k := clusterOf anchor
  let d := dieOf anchor
  let c1 := at0 l.liveCore anchor
  let c2 := c1 && at0 l.liveCluster k
  let c3 := c2 && at0 l.liveDie d
  { l with
    liveCore := bump l.liveCore anchor up
    liveCluster := if c1 then bump l.liveCluster k up else l.liveCluster
    liveDie := if c2 then bump l.liveDie d up else l.liveDie
    livePkg := if c3 then (if up then l.livePkg + 1 else l.livePkg - 1) else l.livePkg }

/-- How a context ends. -/
inductive Ending where
  | exited | killed | lost
deriving DecidableEq, Repr

/-- Returns the tiles and the allotment of a block whose last context has ended (04 R101). -/
def State.freeTiles (s : State) (cluster launch index : Nat) : State :=
  { s with tiles := s.tiles.filter fun (k, t) => !(k / 1024 == cluster && t.launch == launch && t.block == index) }

/-- A re-executed block whose new record is never written: old writes that are not known are listed as such (10 R273). Where they are
known, none is listed as orphaned (DESIGN CHOICE, log 103). -/
def Launch.unrecorded (l : Launch) (index : Nat) : Launch :=
  { l with relaunch := l.relaunch.map fun r =>
      if r.old.any fun x => x.1 == index && x.2.isNone then { r with orphans := r.orphans ++ [(0, index, 1)] } else r }

/-- The end of a block, when its last context has ended (02 R57, 04 R101, 10 R264): its tiles and its banks are free; a traced
block's record is written before the count of its anchor falls, but none once its trace unit is lost with its die. A block that
lost or killed contexts counts as completed too: 02 Table 2-7 does not say what 'Blocks completed' leaves out (DESIGN CHOICE,
log 78). -/
def State.blockMaybeEnds (s : State) (b : Nat) : State :=
  match get? s.blocks b with
  | some x =>
    if x.live.isEmpty && !x.ended then
      match get? s.launches x.launch with
      | some l =>
        let s := s.freeTiles x.cluster l.id x.index
        let s := s.modBlock b fun y => { y with ended := true, banks := [] }
        if x.trace.isSome && !s.diefail.getLsbD (x.cluster / 64) then s.post (.blockRecordWrite b)
        else
          let s := { s with blocks := del s.blocks b }
          let s := s.modLaunch x.launch fun l =>
            { (if x.trace.isSome then l.unrecorded x.index else l) with completed := l.completed + 1 }
          s.post (.launchCompletion x.launch)
      | none => s
    else s
  | none => s

/-- Takes a context out of its block (02 R57): the count falls, a spawned context returns to its pool, a kill or a loss is
counted and spoils a traced record (10 R264). -/
def State.discharge (s : State) (id : Nat) (how : Ending) : State :=
  let c := s.ctx id
  match get? s.blocks c.blk with
  | some x =>
    let s := s.modBlock c.blk fun y =>
      { y with live := y.live.filter (· != id)
               pool := if 1024 ≤ c.tindex && (s.mate id).isNone then y.pool ++ [c.tindex - 1024] else y.pool
               spoiled := y.spoiled || how != .exited }
    -- the anchor's count is kept up for the last context of a traced block until the record is written (10 R264)
    let last := x.trace.isSome && x.live.all (· == id) && !s.diefail.getLsbD (x.cluster / 64)
    let s := if last then s else s.modLaunch x.launch fun l => l.charge x.anchor false
    let s := s.modLaunch x.launch fun l =>
      { l with killed := l.killed + (if how = .killed then 1 else 0), lostCtx := l.lostCtx + (if how = .lost then 1 else 0) }
    s.blockMaybeEnds c.blk
  | none => s

/-- A core, or its image, no longer has a context in a slot or a queue. -/
def Core.forget (c : Core) (id : Nat) : Core :=
  { (c.leave id).unready id with
    preSlots := c.preSlots.map fun x => if x == some id then none else x, l1held := c.l1held.filter fun x => x.1 != id }

/-- Changes the image of the core whose lines a shadow storage controller holds, where a context's is among them (14 R349). -/
def State.modImage (s : State) (id : Nat) (f : Core → Core) : State :=
  s.modPart (s.ctx id).part fun p => { p with image := mapVals p.image fun _ c => if c.resident.contains id then f c else c }

/-- The slot that was kept for a stopped context is kept no longer, on its core or in the image of its partition. -/
def State.unhold (s : State) (id : Nat) : State :=
  match (s.ctx id).stopSlot with
  | some p =>
    let s := (s.modCtx id fun c => { c with stopSlot := none }).modPart (s.ctx id).part fun x =>
      { x with image := mapVals x.image fun k c => if k = p / 16 then c.unhold id else c }
    (s.modCore (p / 16) fun c => c.unhold id).dispatch (p / 16)
  | none => s

/-- A handler context of a core, still named by the register of its level (13 R311). -/
def State.isHandler (s : State) (id : Nat) : Bool :=
  (s.ctx id).handler != 0 && match (s.centry id).holder with
    | .core k => (s.core k).hctxS == some id || (s.core k).hctxM == some id
    | .shadow _ => true
    | _ => false

/-- Ends a context (02 R37): it leaves its slot and queues, outstanding fills are discarded, its line goes back to memory
(14 R338). A handler that the core still names is dormant instead, and keeps its line (R338, 13 R311). -/
def State.endCtx (s : State) (id : Nat) (how : Ending) (die : Nat) : State :=
  let mine (w : Waiter) : Bool := w.ctx == id
  let watching := (s.ctx id).kind == 5 || (s.cores.any fun x => x.2.waiters.any fun w => mine w && w.kind == 5) ||
    s.dies.any fun x => x.2.watches.any mine
  -- an entry of its own that reaches the head of a waiter list is skipped there (08 R208)
  let drop (ws : List Waiter) : List Waiter := ws.map fun w => if mine w then { w with dead := true } else w
  let s := if s.cores.any fun x => x.2.waiters.any mine then
      { s with cores := mapVals s.cores fun _ c => { c with waiters := drop c.waiters } } else s
  let s := if s.dies.any fun x => x.2.watches.any mine then
      { s with dies := mapVals s.dies fun _ d => { d with watches := drop d.watches } } else s
  let stays := how != .lost && s.isHandler id
  let s := (s.unhold id).discharge id how
  let s := s.modCtx id fun c =>
    { c with kind := if how = .lost then 12 else 11, warg := if how = .lost then BitVec.ofNat 60 die else 0,
             pend := 0, epend := 0, void := 0, heldTraps := [], heldStop := [], stall := none, resend := none, fenced := 0,
             quest := none, seen := [] }
  let s := if watching then s.post (.watchCancel id) else s
  let gone (c : Core) : Core := { c.forget id with resident := if stays then c.resident else c.resident.filter (· != id) }
  let s := match (s.centry id).holder with
    | .core k => (s.modCore k gone).dispatch k
    | .l2 k => s.modCluster k fun c => { c with l2 := c.l2.filter (· != id), l2bank := del c.l2bank id }
    | .shadow _ => s.modImage id gone
    | .memory => s
  if stays then s
  else
    let s := s.modCtx id fun c => { c with handler := 0 }
    s.modEntry id fun e => { e with holder := .memory, transfer := none }

end Sys2Proof.Machine
end

