-- ==== Sys2Proof/Machine/Write.lean ====
section
/-! DEFINITION. What a write does when it takes effect (05 R107, 10 R267, 17 R392, R393, 08 R210), the error log (17 R399),
and the records that dies write for debuggers and profilers (19 R414, R417, R418, R421). -/

namespace Sys2Proof.Machine

open Sys2Proof

/-! ### The error log -/

/-- Adds 1 to a word by a posted atomic of system scope that a die sends (17 R399, 19 R417); a word that no page maps takes none. -/
def State.postAdd (s : State) (die part va : Nat) : State :=
  match s.physOf part va with
  | some pa =>
    let home := s.homeDie (setOf s.mode die) pa
    s.sendOnce die home 1 32 true fun tx => .atomicExecute .add true false 0
      { ctx := 0, core := 1024 * die, kind := .store, addr := pa, size := 8, data := 1, scope := 5, tx, ver := s.verAt die home }
  | none => s

/-- Adds an entry to a compute die's error log (17 R399, Table 17-1), or counts it as dropped; the word that
`sys.ras.watch` names is incremented by a posted atomic of system scope. -/
def State.logError (s : State) (at_ unit die site struct kind addr : Nat) : State :=
  let d := s.die at_
  let w0 := BitVec.ofNat 64 (unit * 2 ^ 40 + die * 2 ^ 32 + site * 2 ^ 16 + struct * 2 ^ 8 + kind)
  if d.log.length < 256 then
    let s := s.modDie at_ fun d => { d with log := d.log ++ [(w0, BitVec.ofNat 64 addr)] }
    let part := 4 * setOf s.mode at_ + ((s.set (setOf s.mode at_)).active.getD 0)
    if d.rasWatch = 0 then s else s.postAdd at_ part d.rasWatch.toNat
  else s.modDie at_ fun d => { d with logDropped := (d.logDropped + 1) % 65536 }


/-- Cluster number and core of a core, as the error log names a place: 17 Table 17-1 names the contents of the field and not how they
are packed (DESIGN CHOICE, log 106). -/
def siteOf (core : Nat) : Nat := clusterOf core % 64 * 16 + (yOf core % 4 * 4 + xOf core % 4)

/-! ### Writes as they take effect -/

/-- A home's entry of a line. -/
def State.line (s : State) (l : Nat) : DirEntry := getD s.dir l {}
/-- Changes a home's entry of a line. -/
def State.modLine (s : State) (l : Nat) (f : DirEntry → DirEntry) : State := { s with dir := put s.dir l (f (s.line l)) }

/-- Sends a message to the unit that holds a context line (14 R334, 16 Table 16-2). -/
def State.tell (s : State) (src id cls bytes : Nat) (e : Holder → Ev) : State :=
  let h := (s.centry id).holder
  s.sendNamed src (holderDie (s.ctxHome id) h) cls bytes (e h)

/-- Wakes a watch (08 R210): its register is filled with a reason and its context made ready, by one wakeup of 16 bytes (16 Table
16-6). The entry of a context that has ended wakes none. -/
def State.wakeWatch (s : State) (src : Nat) (w : Waiter) (reason : Word) : State :=
  if w.dead then s else s.tell src w.ctx 2 16 fun h => .registerFill w.ctx w.reg w.tag reason false 0 h 5

/-- Wakes the watches of a line at its home memory die, when a write gains ownership of the line (08 R210). -/
def State.wakeLine (s : State) (line : Nat) : State :=
  (List.range 13).foldl (fun s k =>
    let d := s.die (8 + k)
    let hit := d.watches.filter fun w => w.loc / 192 == line
    if hit.isEmpty then s
    else
      let s := s.modDie (8 + k) fun d => { d with watches := d.watches.filter fun w => w.loc / 192 != line }
      each hit (fun w s => s.wakeWatch (8 + k) w 0) s) s

/-- The generation that a home directory or a cluster cache works with (10 R268): the current one, less one for every
advance whose broadcast it has still to take. -/
def State.unitGen (s : State) (set unit : Nat) : Nat :=
  let d := s.set set
  (d.gfull + 2 ^ 32 - (d.advances.filter fun a => a.await.contains unit).length) % 256

/-- The die set whose range holds a physical patch. -/
def setOfPatch (mode p : Nat) : Nat := match mode with | 0 => 0 | 1 => p / 2 ^ 25 % 2 | _ => p / 2 ^ 23 % 8

/-- The compute die that logs an event of a memory die at a physical address: the lowest of the partition that owns the storage, or
cd0 where none does (17 R399). -/
def State.logDie (s : State) (pa : Nat) : Nat :=
  if pa / 12288 < 2 ^ 26 then (setDies s.mode (setOfPatch s.mode (pa / 12288))).headD 0 else 0

/-- The home of a line stamps the line's patch with its copy of the generation (10 R267). While advances are under way, a stamp
that another home of the patch has given from a newer copy stays (DEDUCED, log 82: no write may escape a stamp of its generation). -/
def State.stamp (s : State) (line : Nat) : State :=
  let patch := line / 64
  let set := setOfPatch s.mode patch
  let g := s.unitGen set (s.homeDie set (192 * line))
  let ahead := (getD s.stamps patch (s.set set).stampBase + 256 - g) % 256
  if patch < 2 ^ 26 && !(1 ≤ ahead && ahead ≤ (s.set set).advances.length) then { s with stamps := put s.stamps patch g } else s

/-- The write sequence numbers of the sectors that some bytes lie in advance (17 R393). -/
def State.advanceSeqs (s : State) (pa n : Nat) : State :=
  each (List.range ((pa % 48 + n + 47) / 48)) (fun i s =>
    let k := pa / 48 + i
    { s with seqs := put s.seqs k ((getD s.seqs k 0 + 1) % 65536) }) s

/-- A halfword of physical memory, by address / 2. -/
def halfAt (m : Memory) (h : Nat) : BitVec 16 := readByte m (2 * h + 1) ++ readByte m (2 * h)

/-- Records what a write has replaced, for cores that may still fetch it as code (06 R133). -/
def State.keepOld (s : State) (m : Memory) (pa n : Nat) : State :=
  let gone := ((List.range (n + 1)).map (pa / 2 + ·)).filter fun h => 2 * h < pa + n && halfAt m h != halfAt s.mem h
  { s with olds := s.olds ++ gone.map fun h => (h, halfAt m h, s.fresh) }

/-- Writes bytes of physical memory as R392 lets it: a poisoned doubleword is replaced by a write of all of it, and a
narrower write leaves it as it is. -/
def State.putPhys (s : State) (pa v n : Nat) : State :=
  let bad := s.poison.filter fun w => pa < 8 * w + 8 && 8 * w < pa + n
  let whole (w : Nat) : Bool := pa ≤ 8 * w && 8 * w + 8 ≤ pa + n
  let kept := bad.filter fun w => !whole w
  let s := if bad.isEmpty then s else { s with poison := s.poison.filter fun w => !(bad.contains w && whole w) }
  let places := (List.range n).filterMap fun i =>
    if kept.contains ((pa + i) / 8) then none else some (pa + i, BitVec.ofNat 8 (v / 256 ^ i))
  let t := if kept.isEmpty then { s with mem := writeNat s.mem pa v n } else { s with mem := writePlaces s.mem places }
  (t.keepOld s.mem pa n).advanceSeqs pa n

/-! ### Poison outside the visible copy (17 R392) -/

/-- The place of a core-store location among the places of poison and of streams. -/
def storePlace : Nat := 2 ^ 62
/-- The first place of a tile's bytes. -/
def tilePlace : Nat := 2 ^ 63
/-- The place of a copy of a physical word in the L1 of a core. -/
def l1Place (core : Nat) : Nat := 2 ^ 70 * (1 + core)
/-- The place of a copy of a physical word in the CACHE banks of a cluster. -/
def cachePlace (k : Nat) : Nat := 2 ^ 70 * (8193 + k)

/-- Some of the bytes at a place are poisoned. -/
def State.markedAt (s : State) (p n : Nat) : Bool := s.poison.any fun w => p < 8 * w + 8 && 8 * w < p + n
/-- No word at a place is poisoned any longer. -/
def State.unmark (s : State) (p n : Nat) : State :=
  if s.markedAt p n then { s with poison := s.poison.filter fun w => !(p < 8 * w + 8 && 8 * w < p + n) } else s
/-- The words that lie whole among some bytes are poisoned no longer. -/
def State.unmarkWhole (s : State) (p n : Nat) : State :=
  if s.markedAt p n then { s with poison := s.poison.filter fun w => !(p ≤ 8 * w && 8 * w + 8 ≤ p + n) } else s

/-- Some of the bytes are poisoned, or their line is LOST (08 R196). -/
def State.poisoned (s : State) (pa n : Nat) : Bool :=
  (s.line (pa / 192)).st == .lost || s.poison.any fun w => pa < 8 * w + 8 && 8 * w < pa + n

/-- A repair run writes for a block (10 R277). -/
def State.repairing (s : State) (blk : Nat) : Bool :=
  match get? s.blocks blk with
  | some b => match get? s.launches b.launch with
    | some l => match l.relaunch with | some r => r.repair | none => false
    | none => false
  | none => false

/-- LOST is cleared from a line, which then reads as zeros; a patch's lost bit is cleared once no line of it is LOST (10
R277, 16 R386). -/
def State.clearLost (s : State) (pa : Nat) : State :=
  let line := pa / 192
  let s := if (s.line line).st == .lost then
      let s := s.modLine line fun e => { e with st := .i }
      { s with mem := writeNat s.mem (192 * line) 0 192, poison := s.poison.filter fun w => w / 24 != line }
    else s
  if s.dir.any fun (l, e) => l / 64 == pa / 12288 && e.st == .lost then s
  else { s with lost := s.lost.filter (· != pa / 12288) }

/-- The first write of a repair run to a LOST line zeroes it (10 R277). -/
def State.repair (s : State) (blk pa : Nat) : State := if s.repairing blk then s.clearLost pa else s

/-- The HBM unit of a physical address (17 Table 17-1, 15 R363); 0 for one outside HBM. -/
def State.hbmUnit (s : State) (pa : Nat) : Nat :=
  if pa / 12288 < 2 ^ 26 then (homeSlot s.mode (setOfPatch s.mode (pa / 12288)) (pa / 192)).2 / 2 ^ 23 else 0

/-- A write that a LOST line does not take is reported to the supervisor (08 R196, 17 Table 17-1). -/
def State.reportLost (s : State) (pa : Nat) : State :=
  let home := s.homeDie (setOfPatch s.mode (pa / 12288)) pa
  s.logError (s.logDie pa) (s.hbmUnit pa) home 0 0 4 pa

/-- A write to global memory takes effect: on a LOST line it is dropped and reported. -/
def State.writePhys (s : State) (blk pa v n : Nat) : State :=
  let s := s.repair blk pa
  if (s.line (pa / 192)).st == .lost then s.reportLost pa else s.putPhys pa v n

/-- The home takes a line from every cache for a write of its own (10 R267, 16 R381): state I, stamped, and its watches
woken. A LOST line stays LOST. -/
def State.ownHome (s : State) (line : Nat) : State :=
  let s := if (s.line line).st == .lost then s else s.modLine line fun e => { ({} : DirEntry) with await := e.await, req := e.req }
  (s.stamp line).wakeLine line

/-- Every line that some bytes lie in is taken by its home. -/
def State.ownHomeAll (s : State) (pa n : Nat) : State :=
  each (List.range ((pa % 192 + n + 191) / 192)) (fun i s => s.ownHome (pa / 192 + i)) s

/-- A write made at the home: the host's, a streamer's or one of the hardware's own records. -/
def State.homeWrite (s : State) (blk pa v n : Nat) : State := (s.ownHomeAll pa n).writePhys blk pa v n

/-! ### Core stores (04 R92 to R94) -/

/-- Bytes of a core store are written as R392 lets them: a poisoned word is replaced by a write of all of it, and a narrower write leaves
it as it is. -/
def State.putStore (s : State) (loc v n : Nat) : State :=
  if s.markedAt (storePlace + loc) n then
    let s := s.unmarkWhole (storePlace + loc) n
    let places := (List.range n).filterMap fun i =>
      if s.markedAt (storePlace + loc + i) 1 then none else some (loc + i, BitVec.ofNat 8 (v / 256 ^ i))
    { s with cstore := writePlaces s.cstore places }
  else { s with cstore := writeNat s.cstore loc v n }

/-- A write to a core store takes effect: watches of the doublewords it touches are woken (08 R210). -/
def State.writeStore (s : State) (loc v n : Nat) : State :=
  let core := locCore loc
  let s := s.putStore loc v n
  let hit (w : Waiter) : Bool := w.kind == 5 && w.loc / 8 * 8 < loc + n && loc < w.loc / 8 * 8 + 8
  let woken := (s.core core).waiters.filter hit
  if woken.isEmpty then s
  else
    let s := s.modCore core fun c => { c with waiters := c.waiters.filter fun w => !hit w }
    each woken (fun w s => s.wakeWatch (dieOf core) w 0) s

/-- The flits of a core-store access, and of its answer, are counted at the mesh ports on their ways (01 R21, 19 R420): one each, of
class 1. -/
def State.meshed (s : State) (r : Req) : State :=
  let there := meshRoute r.core (locCore r.addr)
  let back := if writes r.kind && r.kind != .storeTs then [] else meshRoute (locCore r.addr) r.core
  each (there ++ back) (fun (c, p) s =>
    s.modDie (dieOf c) fun d =>
      let k := 32 * (c % 1024) + 8 * p + 2
      { d with ports := put d.ports k ((getD d.ports k 0 + 1) % 2 ^ 32) }) s

/-! ### Records that dies write (19 R414) -/

/-- The partition that is active on a die, through whose tables the die's own record addresses are translated. -/
def State.dieActive (s : State) (die : Nat) : Nat :=
  4 * setOf s.mode die + ((s.set (setOf s.mode die)).active.getD 0)

/-- Adds 1 to the partition's notification word by a posted atomic of system scope (19 R417). -/
def State.notify (s : State) (part die : Nat) : State :=
  let va := (s.part part).notify
  if va == 0 then s else s.postAdd die part va.toNat

/-- The numbers of a die's records of a kind that have parts still to perform. -/
def State.recordsOut (s : State) (die kind : Nat) : List Nat :=
  (s.flying.filterMap fun e => match e with
    | .errand (.record d k n _ _ _) => if d = die && k = kind then some n else none
    | _ => none).eraseDups

/-- A record has performed: its ring's index counts it (19 R414), and the notification word of a partition follows it (R417). -/
def State.recordDone (s : State) (die kind : Nat) (tell : Option Nat) : State :=
  let s := match kind with
    | 1 => s.modDie die fun d => { d with dlogIdx := (d.dlogIdx + 1) % 2 ^ 32 }
    | 2 => s.modDie die fun d => { d with pctIdx := (d.pctIdx + 1) % 2 ^ 32 }
    | 3 => s.modDie die fun d => { d with lnkcDone := (d.lnkcDone + 1) % 2 ^ 32 }
    | _ => s
  match tell with
  | some p => s.notify p die
  | none => s

/-- Cuts bytes at the boundaries of 192-byte lines, from an address on: each piece with its address. -/
def pieces (va : Nat) (bs : List Byte) : Nat → List (Nat × List Byte)
  | 0 => []
  | f + 1 =>
    let n := 192 - va % 192
    if bs.isEmpty then [] else (va, bs.take n) :: pieces (va + n) (bs.drop n) f

/-- Sends a record at a virtual address of a partition as posted class-3 stores (19 R414); bytes that no page maps are not written. -/
def State.putRecord (s : State) (die part kind no va : Nat) (bs : List Byte) (tell : Option Nat) : State :=
  let ps := (pieces va bs (bs.length / 192 + 2)).filterMap fun (a, b) => (s.physOf part a).map fun pa => (pa, b)
  if ps.isEmpty then s.recordDone die kind tell
  else each ps (fun (pa, b) s =>
    s.send die (s.homeDie (setOf s.mode die) pa) 3 (16 + 48 * ((pa % 48 + b.length + 47) / 48)) true none
      (.errand (.record die kind no pa b tell))) s

/-- The bytes of doublewords. -/
def wordsBytes (ws : List Word) : List Byte := (ws.map fun w => bytesOfNat w.toNat 8).flatten

/-- A debug event record (19 R418, Table 19-3) in the die's ring: context, pc, place and detail, and the words of a
divergence; with `tell` it is notified once it has performed (R417). Nothing is written while the base is 0. -/
def State.debugRecord (s : State) (die cva pc slot core detail type : Nat) (more : List Word) (tell : Option Nat) : State :=
  let d := s.die die
  if d.dlogBase == 0 then (match tell with | some p => s.notify p die | none => s)
  else
    let w3 := BitVec.ofNat 64 (slot % 16 * 2 ^ 32 + core % 8192 * 2 ^ 16 + detail % 256 * 256 + type)
    let no := d.dlogIdx + (s.recordsOut die 1).length
    let va := d.dlogBase.toNat + 64 * (no % 2 ^ bits d.dlogCtl.toNat 0 5)
    let ws := [BitVec.ofNat 64 (s.dieTime die), BitVec.ofNat 64 cva, BitVec.ofNat 64 pc, w3] ++ more
    s.putRecord die (s.dieActive die) 1 no va (wordsBytes (ws ++ List.replicate (8 - ws.length) 0)) tell

/-! ### The PC table (19 R421) -/

/-- The index of an event. -/
def pctIndex (pc reason : Nat) : Nat :=
  (bits pc 1 12) ^^^ (bits pc 13 12) ^^^ (bits pc 25 12) ^^^ (bits pc 37 12) ^^^ (bits pc 49 8) ^^^ (reason * 0x101 % 4096)

/-- Spills an entry to the ring of the cluster's die. -/
def State.pctSpill (s : State) (cluster : Nat) (e : PctEntry) : State :=
  let die := cluster / 64
  let d := s.die die
  if d.pctBase == 0 then s
  else
    let no := d.pctIdx + (s.recordsOut die 2).length
    let va := d.pctBase.toNat + 16 * (no % 2 ^ bits d.pctSize.toNat 0 5)
    s.putRecord die (s.dieActive die) 2 no va (wordsBytes [BitVec.ofNat 64 (e.reason * 2 ^ 56 + bits e.pc 1 56),
      BitVec.ofNat 64 (e.launch * 2 ^ 48 + cluster % 64 * 2 ^ 42 + e.count)]) none

/-- Spills every entry of a cluster's table that a test picks. -/
def State.pctSpillWhere (s : State) (cluster : Nat) (p : PctEntry → Bool) : State :=
  let out := (s.cluster cluster).pct.filter fun x => p x.2
  let s := s.modCluster cluster fun k => { k with pct := k.pct.filter fun x => !p x.2 }
  each out (fun x s => s.pctSpill cluster x.2) s

/-- The low 16 bits of the launch id of a context; 0 for a handler. -/
def State.launchBits (s : State) (id : Nat) : Nat :=
  match get? s.blocks (s.ctx id).blk with
  | some b => match get? s.launches b.launch with
    | some l => l.id % 65536
    | none => 0
  | none => 0

/-- A core reports an event at a pc to its cluster's PC table, under a launch, if its partition's mask enables the reason. -/
def State.pcReportAs (s : State) (core part reason pc l : Nat) : State :=
  let ctl := (s.part part).pctCtl.toNat
  if !(bitAt ctl 0 && bitAt ctl (7 + reason)) then s
  else
    let k := clusterOf core
    let h := pctIndex pc reason
    let fresh : PctEntry := ⟨pc, reason, l, 1⟩
    match get? (s.cluster k).pct h with
    | some e =>
      if e.pc == pc && e.reason == reason && e.launch == l then
        s.modCluster k fun x => { x with pct := put x.pct h { e with count := min (e.count + 1) (2 ^ 42 - 1) } }
      else (s.pctSpill k e).modCluster k fun x => { x with pct := put x.pct h fresh }
    | none => s.modCluster k fun x => { x with pct := put x.pct h fresh }

/-- The same at a context's pc, under its launch. -/
def State.pcReport (s : State) (core id reason : Nat) : State :=
  s.pcReportAs core (s.ctx id).part reason (s.ctx id).pc.toNat (s.launchBits id)

/-- The core takes a sample at a cycle (19 R421). -/
def State.samples (s : State) (part c : Nat) : Bool :=
  let ctl := (s.part part).pctCtl.toNat
  let m := 2 ^ bits ctl 1 5
  bitAt ctl 0 && 4 ≤ bits ctl 1 5 && c % m == c / m % 16

/-- A sample of a core's cycle, if one falls due, is reported before anything else happens. -/
def State.sampleAt (s : State) (core part reason pc l : Nat) : State :=
  if s.samples part (s.die (dieOf core)).cyc then
    (s.modCore core fun k => { k with sample := some (part, reason, pc, l) }).post (.pcSample core)
  else s

end Sys2Proof.Machine
end

