-- ==== Sys2Proof/Machine/Ops.lean ====
section
/-! DEFINITION. Taking an exception: the trap of 13 R311 to R314 as one operation, and the return from one (R323). -/

namespace Sys2Proof.Machine

open Sys2Proof

/-! ### Traps (13 R311 to R314) -/

/-- Whether some context serves as a core's handler of a level. -/
def State.serving (s : State) (core level : Nat) : Bool :=
  let at_ (c : Ctx) : Bool := c.handler == level && c.lastCore == some core && c.kind != 11
  at_ s.th || (s.ctxs.any fun (id, _) => at_ (s.ctx id))

/-- The entry pc of a level's handler (13 R308: bit 0 and [63:57] ignored). -/
def Core.hentry (c : Core) (level : Nat) : BitVec 57 :=
  ((if level = 1 then c.hentryS else c.hentryM).setWidth 57) &&& ~~~1#57
/-- The line of a level's handler. -/
def Core.handler (c : Core) (level : Nat) : Option Nat := if level = 1 then c.hctxS else c.hctxM

/-- Delivery to a handler (13 R312, step 3): w0 to w3, the pc and kind 0; it stands ahead of every queue. -/
def State.deliver (s : State) (core level h : Nat) (w0 w1 w2 w3 : Word) : State :=
  let pc := (s.core core).hentry level
  let s := s.modCtx h fun c =>
    { (((c.setW 0 w0).setW 1 w1).setW 2 w2).setW 3 w3 with pc := pc, kind := 0, warg := 0, stall := none }
  s.nowReady h

/-- Marks a machine check and reports it (13 R311, 17 R399): bit 0 of sys.mcheck with the cause of the M handler's fault in
[15:8], or bit 1, which leaves that field (Table 13-1). Which structure such an entry names is not stated. -/
def State.machineCheck (s : State) (core b cause cva : Nat) : State :=
  let s := s.modCore core fun c =>
    { c with mcheck := if b = 0 then ((c.mcheck ||| 1) &&& 0xFF) ||| BitVec.ofNat 64 (cause % 256 * 256) else c.mcheck ||| 2 }
  s.logError (dieOf core) 0 (dieOf core) (siteOf core) ((Config.freeWord s.fresh 0).toNat % 256) 7 cva

/-- Puts a trap in the core's queue, or after it in the die overflow list; with both full it is a machine check. -/
def State.queueTrap (s : State) (core : Nat) (e : TrapEntry) : State :=
  let d := dieOf core
  if (s.core core).trapQ.length < 64 then s.modCore core fun c => { c with trapQ := c.trapQ ++ [e] }
  else if (s.die d).overflow.length < 4096 then s.modDie d fun x => { x with overflow := x.overflow ++ [(core, e)] }
  else s.machineCheck core 1 e.cause (s.ctx e.ctx).cva

/-- The level to which a trap is delivered (13 R311). -/
def State.trapLevel (s : State) (core id cause : Nat) : Nat :=
  let c := s.core core
  if c.tdeleg.getLsbD cause && c.hctxS != none && (s.ctx id).handler != 1 then 1 else 3

/-- Hands a trap to its level's handler, or queues it while one serves or a machine check stands (13 R311, R312). -/
def State.announce (s : State) (core : Nat) (e : TrapEntry) : State :=
  match (s.core core).handler e.level with
  | some h =>
    if (s.core core).mcheck == 0 && !s.serving core e.level then
      s.deliver core e.level h (BitVec.ofNat 64 (s.ctx e.ctx).cva) (BitVec.ofNat 64 e.cause) e.info e.tag
    else s.queueTrap core e
  | none => s.queueTrap core e

/-- Parks a trapped context (13 R312, steps 1 and 2): the pc, CAUSE and the wait tag {8, info}; it leaves its slot and
stays in the context L1. -/
def State.parkTrapped (s : State) (core id cause : Nat) (info : Word) (pc : BitVec 57) : State :=
  let s := s.modCtx id fun c =>
    { c with pc := pc, cause := BitVec.ofNat 8 cause, kind := 8, warg := info.setWidth 60, stall := none, badVa := none, marked := 0, entryHi := 0,
             quest := none, seen := [], comparator := [] }
  s.modCore core fun c => { (c.leave id).unready id with l1held := c.l1held.filter fun x => x.1 != id }

/-- Taking a trap (13 R312): context, core, cause, information word and the pc it is left with. A trap of the M handler,
or one that finds no M handler, is a machine check (R311). -/
def State.trap (s : State) (core id cause : Nat) (info : Word) (pc : BitVec 57) : State :=
  let tag := (s.ctx id).tag
  let level := s.trapLevel core id cause
  let fromM := (s.ctx id).handler == 3
  let s := (s.countCore core 7 ((s.core core).slotOf id)).pcReport core id 6
  let s := s.parkTrapped core id cause info pc
  let s := if fromM || (level == 3 && (s.core core).hctxM == none) then s.machineCheck core 0 cause (s.ctx id).cva
    else s.announce core ⟨id, cause, info, tag, level⟩
  s.dispatch core

/-- A trap that the issuing instruction raises, with the pc given. -/
def State.trapAt (s : State) (cause : Nat) (info : Word) (pc : BitVec 57) : State :=
  s.trap s.hereCore s.here.ctx cause info pc

/-- Takes the oldest held trap of a context on a core. -/
def State.takeHeld (s : State) (core id : Nat) : State :=
  match (s.ctx id).heldTraps with
  | (cause, info) :: r =>
    let s := s.modCtx id fun c => { c with heldTraps := r }
    s.trap core id cause info (s.ctx id).pc
  | [] => s

/-- A context's held traps wait with it: for the slot that it stands in to be freed (13 R328), or for its core to be reset
after a `halt` (R330). -/
def State.trapBarred (s : State) (core id : Nat) : Bool :=
  (s.core core).halted || match (s.core core).slotOf id with
    | some i => (s.slotAt core i).parked
    | none => false

/-- Removes the oldest queued trap of a level: from the core's queue, then from the die overflow list (13 R323). -/
def State.nextTrap (s : State) (core level : Nat) : Option (TrapEntry × State) :=
  match (s.core core).trapQ.find? fun e => e.level == level with
  | some e => some (e, s.modCore core fun c => { c with trapQ := c.trapQ.eraseP fun x => x.level == level })
  | none =>
    match (s.die (dieOf core)).overflow.find? fun x => x.1 == core && x.2.level == level with
    | some (_, e) => some (e, s.modDie (dieOf core) fun d =>
        { d with overflow := d.overflow.eraseP fun x => x.1 == core && x.2.level == level })
    | none => none

/-- The line of a handler that the register no longer names goes back to memory with kind 11 (13 R309, R323). -/
def State.retireHandler (s : State) (core h : Nat) : State :=
  let s := s.modCtx h fun c => { c with kind := 11, warg := 0, handler := 0, stall := none }
  let s := (s.unhold h).modCore core fun c => { (c.leave h).unready h with resident := c.resident.filter (· != h) }
  s.modEntry h fun e => { e with holder := .memory }

/-- Return from a trap (13 R323): the oldest queued trap of the level goes to the handler now named; without one the
issuing handler becomes dormant. -/
def State.eretFrom (s : State) (core h level : Nat) : State :=
  let named := (s.core core).handler level
  -- with no handler named the queue stays as it is, its oldest entry first (13 R323)
  let next := if (s.core core).mcheck == 0 && named.isSome then s.nextTrap core level else none
  let s := match next with
    | some (e, s) =>
      let s := if named = some h then s else s.retireHandler core h
      match named with
      | some n => s.deliver core level n (BitVec.ofNat 64 (s.ctx e.ctx).cva) (BitVec.ofNat 64 e.cause) e.info e.tag
      | none => s.queueTrap core e
    | none =>
      if named = some h then
        let s := s.modCtx h fun c => { c with kind := 11, warg := 0, stall := none }
        s.modCore core fun c => (c.leave h).unready h
      else s.retireHandler core h
  s.dispatch core

/-- An asynchronous trap of a context (13 R314): in place, held for a reply or for `ctx.ready`, or dropped. Of traps held
together the oldest is taken. BARRIER_TIMEOUT ends a wait in `bar.arr` itself. A line on its way keeps it for its next
holder (14 R334), and one of a reserved kind, which only a kill changes (02 Table 2-2), keeps it too. -/
def State.asyncTrap (s : State) (id cause : Nat) (info : Word) : State :=
  let c := s.ctx id
  let hold (s : State) : State := s.modCtx id fun c => { c with heldTraps := c.heldTraps ++ [(cause, info)] }
  if c.kind == 11 || c.kind == 12 then s
  else if c.kind == 8 || c.kind == 9 || 13 ≤ c.kind.toNat then hold s
  else if c.byReply && !(cause == 0x0E && c.kind == 4) then hold s
  else if (s.centry id).transfer != none then (hold s).modEntry id fun e => { e with postDue := true }
  -- contexts of a pair trap together, once the trailing one has caught up (17 R396)
  else if c.kind == 0 && !s.caughtUp id then hold s
  else
    let s := hold s
    match (s.centry id).holder with
    | .core k =>
      if s.trapBarred k id then (if c.byReply then s.modCtx id fun c => { c with kind := 0, warg := 0 } else s)
      else s.takeHeld k id
    | .shadow _ => if c.byReply then s.modCtx id fun c => { c with kind := 0, warg := 0 } else s
    | _ => s.sendPost id

end Sys2Proof.Machine
end

