-- ==== Sys2Proof/Machine/Flight.lean ====
section
/-! DEFINITION. Accesses on their way to their perform points (05 R106 to R110, R115, R118, R436): what each touches,
which are in flight, and when a release or an eviction has nothing left to wait for. Token rounds (R116). -/

namespace Sys2Proof.Machine

open Sys2Proof

/-- A sector of a peer's memory (20 R429). -/
def peerSector (n : Nat) : Bool := 2 ^ 27 * 256 ≤ n

/-- The die on which a posted operation takes effect; a global one leaves every compute die, and one to a peer the package. -/
def Touch.inInstance (t : Touch) (core scope : Nat) : Bool :=
  match t.spot with
  | .sector n => if peerSector n then 5 ≤ scope else 4 ≤ scope
  | .store c =>
    match scope with
    | 1 => c == core
    | 2 => clusterOf c == clusterOf core
    | 3 => dieOf c == dieOf core
    | _ => true

/-- A release of a scope waits for an access: every load and every global store, and the posted operations whose
destinations lie inside its instance (05 R115). Accesses to peers are ordered only at `.sy` (20 R429). -/
def Touch.awaited (t : Touch) (core scope : Nat) : Bool :=
  (!t.posted && match t.spot with | .sector n => !peerSector n | .store _ => true) || t.inInstance core scope

/-- Every earlier access of a context that a release of the scope covers has performed (05 R115); `n` counts the held
operations ahead of it. -/
def State.released (s : State) (ctx core scope n : Nat) : Bool :=
  !((s.touches ctx).any fun t => t.awaited core scope) &&
    !(((s.held.take n).filter fun h => s.sameThread h.ctx ctx).any fun h => match touchOf h.ev with
      | some t => t.awaited core scope
      | none => false)

/-- An access of a thread waits in its slot: an acquire of the thread has still to perform (05 Table 5-3), or a read that it made from
another core is on its way to the same place (R109, R110, R118; 11 R293). -/
def State.mustHold (s : State) (ctx core : Nat) (spot : Spot) : Bool :=
  ((s.touches ctx).any fun t => t.acq || (t.on spot && t.read && t.core != core)) || (s.heldTouches ctx).any (·.acq)

/-- A held operation of the thread, or a held store of its core, touches a place (05 R108, R109, R436). -/
def State.heldAt (s : State) (ctx core : Nat) (spot : Spot) : Bool :=
  ((s.heldTouches ctx).any fun t => t.on spot) ||
    s.held.any fun h => match h.ev with
      | .storeVisible r => r.core == core && spotOf r false == spot
      | _ => false

/-- An access that is no load must wait in its slot for what it follows at its core. -/
def State.mustWait (s : State) (ctx core : Nat) (spot : Spot) : Bool :=
  s.mustHold ctx core spot || s.heldAt ctx core spot || match spot with
    | .store c => s.saturated (dieOf core) (dieOf c)
    | .sector _ => false

/-- A held load follows what is held before it and touches its place: an operation of its thread, or a store of its core. -/
def State.heldBehind (s : State) (i : Nat) (h : HeldOp) : Bool :=
  match touchOf h.ev with
  | none => false
  | some a => (s.held.take i).any fun x => match touchOf x.ev with
    | some b => a.meets b && (s.sameThread x.ctx h.ctx || (x.core == h.core && b.write))
    | none => false

/-- An access that has not left its core's cluster: a load before its cluster and die have been asked, or a store before it
is visible. The others go straight to the place where they take effect. -/
def isLocal : Ev → Bool
  | .homeReadRequest r => r.ver == 0
  | .storeVisible _ => true
  | .bankNackRetry _ => true
  | _ => false

/-- The home to which a request was sent. -/
def sentTo : Ev → Nat
  | .homeReadRequest r => r.ver / 16
  | .atomicExecute _ _ _ _ r => r.ver / 16
  | .nibbleStoreExecute r => r.ver / 16
  | _ => 0

/-- A load that travels in class 0, where a later request of class 1 may overtake it (16 R378). -/
def inClass0 : Ev → Bool
  | .homeReadRequest r => !r.ordered
  | _ => false

/-- A request that goes straight to the home of a sector must wait in its slot (05 R109): an earlier access of the context to
the sector has still to leave the cluster, travels in another class, or has been sent to another home or refused by one (15 R366); or
the home is sent no more (16 R376). -/
def State.mustFollow (s : State) (ctx core pa : Nat) : Bool :=
  let home := s.homeDie (setOf s.mode (dieOf core)) pa + 1
  s.saturated (dieOf core) (home - 1) || s.flying.any fun e => match touchOf e with
    | some t => s.sameThread t.ctx ctx && t.on (.sector (pa / 48)) && (isLocal e || inClass0 e || sentTo e != home)
    | none => false

/-! ### Token rounds (05 R116) -/

/-- Rounds begun on a link of a die. -/
def Die.begun (d : Die) (link : Nat) : Nat := getD d.rounds link 0

/-- Begins a round on a link: the bit is cleared and a token is queued behind what is queued there. -/
def State.beginRound (s : State) (die link : Nat) : State :=
  match linkPeer die link with
  | some p =>
    let n := ((s.die die).begun link + 1) % 65536
    let s := s.modDie die fun d => { d with rounds := put d.rounds link n, roundsOpen := d.roundsOpen ++ [(link, n)] }
    let s := s.modLink die link fun l => { l with posted := false }
    s.modLink die link fun l =>
      { l with queue := l.queue ++ [{ src := die, dst := p, cls := 1, bytes := 16, posted := false, tx := none,
                                      ev := .fenceTokenArrival p (linkTo p die) n, since := s.gtime }] }
  | none => s

/-- The rounds a release of `.pk` or `.sy` waits for: on every link whose bit is set, and for `.sy` on the link to the
X-die; while a round is in flight on a link, its next one (what set the bit may have been sent before that round began). -/
def State.joinRounds (s : State) (die scope : Nat) : List (Nat × Nat) × State :=
  (List.range 16).foldl (fun (acc, s) l =>
    let busy := (s.die die).roundsOpen.any fun x => x.1 == l
    if scope < 4 || linkPeer die l == none || !(busy || (s.link die l).posted || (scope == 5 && l == 12)) then (acc, s)
    else if busy then
      (acc ++ [(l, ((s.die die).begun l + 1) % 65536)], s.modLink die l fun x => { x with posted := true })
    else
      let s := s.beginRound die l
      (acc ++ [(l, (s.die die).begun l)], s)) ([], s)

/-- A round is complete: it has begun, and its echo has returned. -/
def State.roundDone (s : State) (die : Nat) (x : Nat × Nat) : Bool :=
  ((s.die die).begun x.1 + 65536 - x.2) % 65536 < 32768 && !((s.die die).roundsOpen.contains x)

/-- Every round of a list is complete. -/
def State.roundsDone (s : State) (die : Nat) (l : List (Nat × Nat)) : Bool := l.all (s.roundDone die)

/-! ### Sending accesses -/

/-- Where a message of a context takes effect, its class, its size and whether it is posted (16 R378, R434). -/
def State.route (s : State) (e : Ev) : Nat × Nat × Nat × Bool :=
  match e with
  | .coreStoreAccess r => (dieOf (locCore r.addr), 1, 32, writes r.kind)
  | .atomicExecute _ posted inCore _ r =>
    (if inCore then dieOf (locCore r.addr) else s.homeDie (setOf s.mode (dieOf r.core)) r.addr, 1, 32, posted)
  | .nibbleStoreExecute r => (s.homeDie (setOf s.mode (dieOf r.core)) r.addr, 1, 32, true)
  | .semVExecute loc _ _ _ => (dieOf (locCore loc), 1, 32, true)
  | .semPExecute loc _ _ _ => (dieOf (locCore loc), 1, 32, false)
  | .jcUpdate loc _ _ _ _ => (dieOf (locCore loc), 1, 32, true)
  | .ksendAccumulate loc _ _ _ _ => (dieOf (locCore loc), 1, 32, true)
  | .homeReadRequest r => (s.homeDie (setOf s.mode (dieOf r.core)) r.addr, if r.ordered then 1 else 0, 32, false)
  | .commandAccept c => (c.cluster / 64, 1, 80, false)
  | _ => (0, 0, 16, false)

/-- Gives a non-idempotent request its transaction id (16 R376). -/
def withTx (e : Ev) (tx : Option Nat) : Ev :=
  match e with
  | .coreStoreAccess r => .coreStoreAccess { r with tx := tx }
  | .atomicExecute op p c v r => .atomicExecute op p c v { r with tx := tx }
  | .nibbleStoreExecute r => .nibbleStoreExecute { r with tx := tx }
  | .semVExecute l c sc _ => .semVExecute l c sc tx
  | .semPExecute l c sc _ => .semPExecute l c sc tx
  | .jcUpdate l a f c _ => .jcUpdate l a f c tx
  | .ksendAccumulate l f v c _ => .ksendAccumulate l f v c tx
  | e => e

/-- The transaction id that a message carries. -/
def txOf : Ev → Option Nat
  | .coreStoreAccess r => r.tx
  | .atomicExecute _ _ _ _ r => r.tx
  | .nibbleStoreExecute r => r.tx
  | .semVExecute _ _ _ tx => tx
  | .semPExecute _ _ _ tx => tx
  | .jcUpdate _ _ _ _ tx => tx
  | .ksendAccumulate _ _ _ _ tx => tx
  | _ => none


/-- Records the region version and the home under which a request was sent (15 R365). -/
def withVer (e : Ev) (v : Nat) : Ev :=
  match e with
  | .homeReadRequest r => .homeReadRequest { r with ver := v }
  | .atomicExecute op p false c r => .atomicExecute op p false c { r with ver := v }
  | .nibbleStoreExecute r => .nibbleStoreExecute { r with ver := v }
  | e => e

/-- Sends an access from a die to the place where it takes effect. -/
def State.launchEv (s : State) (src : Nat) (e : Ev) : State :=
  let (dst, cls, bytes, posted) := s.route e
  let e := withVer e (s.verAt src dst)
  match e with
  | .homeReadRequest _ => s.send src dst cls bytes posted none e
  | .coreStoreAccess r =>
    -- a load is idempotent and carries no id (16 R377)
    if writes r.kind then s.sendOnce src dst cls bytes posted (withTx e ·) else s.send src dst cls bytes posted none e
  | _ => s.sendOnce src dst cls bytes posted (withTx e ·)

/-- What a writing operation of the issuing thread is held for: the scope at which it releases, or that of an earlier
`fence.rel` or `fence.ar` that its earlier stores still keep open (05 R114); 0 where it is held for nothing. -/
def State.holdScope (s : State) (scope : Nat) : Nat := max scope s.th.fenced.toNat

/-- Ends what a `fence.rel` or `fence.ar` asks of the issuing thread's later stores, once its earlier accesses have performed. -/
def State.unfence (s : State) : State :=
  if s.th.fenced != 0 && s.released s.here.ctx s.hereCore s.th.fenced.toNat s.held.length then
    { s with th := { s.th with fenced := 0 } }
  else s

/-- Holds a release at its core until its condition holds (05 R115, R436), joining the token rounds it needs. -/
def State.hold (s : State) (ctx core scope : Nat) (e : Ev) : State :=
  let (rounds, s) := s.joinRounds (dieOf core) scope
  { s with held := s.held ++ [⟨e, ctx, core, scope, rounds⟩] }

end Sys2Proof.Machine
end

