-- ==== Sys2Proof/Machine/Issue.lean ====
section
/-! DEFINITION. What every instruction meets before it acts: extensions (02 R56), legality, privilege, empty sources and
outstanding fills in the order of 06 R153, and the pairing of 17 R396 to R398. -/

namespace Sys2Proof.Machine

open Sys2Proof

/-- The kinds in which a context counts as placed by its launch (02 R50): PINNED, and not spawned. -/
def State.pinned (s : State) (id : Nat) : Bool :=
  let c := s.ctx id
  match get? s.blocks c.blk with
  | some b => match get? s.launches b.launch with
    | some l => bitAt l.flags 3 && c.tindex < 1024
    | none => false
  | none => false

/-! ### Faults of the issuing instruction -/

/-- The slot idles on the instruction; the tag is what an eviction meanwhile would carry (02 R41, R42). -/
def State.idle (s : State) (tag : Word) : Out := .next { s with th := { s.th with stall := some tag } }

/-- A pair of contexts whose comparison failed (17 R398): restarted once where the launch is traced and PURE, and
otherwise left to the supervisor. `kind` is 1 for an address, 2 for data, 3 for fields, 4 for a one-sided trap, 5 for an
error in a context. The trailing context is `tr`, the leading one `ld`. -/
def State.mismatch (s : State) (ld tr kind : Nat) : State :=
  let core := ((s.ctx tr).lastCore).getD 0
  let s := s.logError (dieOf core) 0 (dieOf core) (siteOf core) 6 6 (s.ctx tr).cva
  match get? s.blocks (s.ctx tr).blk with
  | none => s
  | some b =>
    match get? s.launches b.launch with
    | none => s
    | some l =>
      let key := (s.ctx tr).blk
      let again := get? l.avoid b.index != none
      let slot := (s.ctx ld).lastSlot
      if bitAt l.flags 0 && bitAt l.flags 1 && !again then
        -- the block counts as unstarted again before its contexts leave the counts
        let s := s.modLaunch b.launch fun l =>
          { l with livePkg := l.livePkg + 1, avoid := put l.avoid b.index core, toStart := b.index :: l.toStart }
        let s := each b.live (fun _ s => s.modLaunch b.launch fun l => l.charge b.anchor false) s
        let s := s.freeTiles b.cluster l.id b.index
        let s := { s with blocks := del s.blocks key }
        (each b.live (fun id s => s.endCtx id .killed (dieOf core)) s).post (.blockStart b.launch)
      else
        let s := if again then (s.modCore core fun c => { c with rasCore := c.rasCore ||| 1 }).dispatch core else s
        let s := s.modLaunch b.launch fun l => { l with avoid := put l.avoid b.index core }
        let s := each (b.live.filter fun id => id != ld && id != tr) (fun id s => s.endCtx id .killed (dieOf core)) s
        let s := s.parkTrapped core ld (s.ctx ld).cause.toNat 0 (s.ctx ld).pc
        let s := s.modCtx ld fun c => { c with cause := 0 }
        s.trap core tr 0x11 (BitVec.ofNat 64 (slot % 16 + 256 * kind)) (s.ctx tr).pc

/-- What a paired context shows of a trap it is about to take. -/
def trapKey (cause : Nat) (info : Word) (pc : BitVec 57) : List Word :=
  [BitVec.allOnes 64, BitVec.ofNat 64 cause, info, pc.setWidth 64]

/-- A leading context waits at an instruction for its peer: what it shows enters the comparator, unless it stands there already. -/
def State.standsAt (s : State) (key : List Word) : Out :=
  let s := if s.th.comparator.getLast? = some key then s else { s with th := { s.th with comparator := s.th.comparator ++ [key] } }
  s.idle 0

/-- What a leading context shows that stands at an instruction which its peer performs now for both. -/
def meetKey : List Word := [0]

/-- A paired context's trap is taken only with its peer's, at the same instruction (17 R397): by both, where the leading one stands at
that instruction with the same trap, or for what the trailing one performs there for both. -/
def State.pairTrap (s : State) (cause : Nat) (info : Word) (pc : BitVec 57) : Out :=
  let key := trapKey cause info pc
  match s.th.peer with
  | none => .next (s.trapAt cause info pc)
  | some p =>
    if s.th.pair == 1 then s.standsAt key
    else if (s.ctx p).ahead != 0 then .next (s.mismatch p s.here.ctx 4)
    else
      match (s.ctx p).comparator with
      | [] => s.idle 0
      | k :: _ =>
        if k = key || k = meetKey then .next ((s.trap s.hereCore p cause info pc).trapAt cause info pc)
        else .next (s.mismatch p s.here.ctx 4)

/-- Raises a synchronous trap with a pc of the instruction's own. -/
def State.raise (s : State) (cause : Nat) (info : Word) (pc : BitVec 57) : Out :=
  if s.th.pair == 0 then .next (s.trapAt cause info pc) else s.pairTrap cause info pc

/-- Raises a synchronous trap of the issuing instruction, with the pc on it. -/
def State.fault (s : State) (cause : Nat) (info : Word) : Out := s.raise cause info s.th.pc

/-! ### Issuing an instruction (06 R153, 02 R41, R42) -/

/-- What a pair of contexts does with an instruction (17 R397). -/
inductive PairUse where
  /-- Each context executes it on its own registers. -/
  | own
  /-- A value from outside: the leading context executes it and the trailing one takes the value. -/
  | value
  /-- Such a value from memory: the leading context reads it after what both have performed before (05 R109, R112, R118). -/
  | load
  /-- Visible outside: performed once, when the trailing context presents the same. -/
  | visible
  /-- Visible, and it returns a value to both. -/
  | both
  /-- The leading context waits at it until the trailing one has performed it for both. -/
  | meet
deriving DecidableEq, Repr

/-- What an instruction needs before it acts. -/
structure Issue where
  /-- Legal for this context, apart from its encoding (13 R435). -/
  ok : Bool := true
  /-- What it accepts of a pending prefix. -/
  pfx : PfxRule := {}
  /-- Lowest privilege (13 Table 13-2). -/
  priv : Nat := 0
  /-- Sources: register number and policy bit, a named register with its own bit, an implicit one with 0. -/
  srcs : List (Nat × Bool) := []
  /-- General registers written by a long operation. -/
  long : List Nat := []
  /-- Extension registers written. -/
  eout : List Nat := []
  /-- How a pair executes it. -/
  use : PairUse := .own
  /-- The registers it writes, for a pair. -/
  dst : List Nat := []
  /-- Its length in bytes. -/
  len : Nat := 4
  /-- A memory operation of a pair: the size, the address and the data that it presents. -/
  mem : Option (Nat × Word × List Word) := none
  /-- An engine command, of which a pair compares the fields. -/
  cmd : Bool := false

/-- The lowest-numbered of some registers. -/
def lowestReg : List Nat → Option Nat
  | [] => none
  | r :: t => match lowestReg t with | some m => some (min r m) | none => some r

/-- The value of a register: 0 to 7 for w, 8 to 11 for e. -/
def Ctx.reg (c : Ctx) (r : Nat) : Word := if r < 8 then (c.w[r]?).getD 0 else c.ev (r - 8)

/-- The instruction has issued: the pc passes it and an accepted prefix is used up (06 R149). -/
def State.retire (s : State) (n : Nat) : State := { s with th := { s.th.advance n with pfx := false } }

/-- What a paired context shows of an instruction (17 R397): its encoding and prefix; a memory operation (1) its size, its address and
the data that it stores, a command (2) and any other (0) its sources. -/
def Issue.key (q : Issue) (c : Ctx) (enc : Word) : List Word :=
  enc :: (if c.pfx then c.pfxval.setWidth 64 else 0x10000) :: match q.mem with
    | some (n, ea, data) => 1 :: BitVec.ofNat 64 n :: ea :: data
    | none => (if q.cmd then 2 else 0) :: q.srcs.map fun x => c.reg x.1

/-- Which kind of mismatch two presentations show (17 R398): 1 for address or size, 2 for data, 3 for fields. -/
def mismatchKind : List Word → List Word → Nat
  | _ :: _ :: 1 :: n :: x :: d, _ :: _ :: 1 :: m :: y :: e => if n != m || x != y then 1 else if d != e then 2 else 3
  | a :: p :: 0 :: d, b :: q :: 0 :: e => if a != b || p != q || d.length != e.length then 3 else 2
  | _, _ => 3

/-- Empties a destination, as a long operation does. -/
def Ctx.emptyReg (c : Ctx) (r : Nat) : Ctx := if h : r < 8 then c.emptyW (BitVec.ofNatLT r h) else c.emptyE (r - 8)

/-- Gives the trailing context of a pair the values that have arrived for registers it has emptied (17 R397). -/
def State.settle (s : State) (ld tr : Nat) : State :=
  let ready := (s.ctx ld).lvq.filter fun e => e.claim != none && e.val != none
  let s := s.modCtx ld fun c => { c with lvq := c.lvq.filter fun e => e.claim == none || e.val == none }
  each ready (fun e s => match e.claim, e.val with
    | some t, some v => s.modCtx tr fun c => (c.fill e.reg t v).1
    | _, _ => s) s

/-- The newest thing that a context shows to its peer is a trap. -/
def Ctx.showsTrap (c : Ctx) : Bool := (c.comparator.getLast?.bind List.head?) == some (BitVec.allOnes 64)

/-- The issuing context has retired the instruction that stood at a pc: it neither idles nor waits there, and has not trapped or
ended. -/
def State.past (s : State) (pc : BitVec 57) : Bool :=
  s.th.stall.isNone && (s.th.kind == 0 || s.th.pc != pc) && s.th.kind != 11

/-- The leading context has retired an instruction, if it has gone past it. -/
def State.led (s : State) (pc : BitVec 57) : State := if s.past pc then { s with th := { s.th with ahead := s.th.ahead + 1 } } else s

/-- The leading context shows an operation that its peer will perform, and goes on; where the operation would trap now, it stands
there, and a memory operation waits for its translation and its own accesses as it would alone. -/
def State.shows (s : State) (q : Issue) (act : State → Out) (go : State → State) : Out :=
  match act s with
  | .next t =>
    if t.th.showsTrap || (q.mem.isSome && t.th.stall.isSome) then .next t
    else
      let u : State := go s
      let u : State := { u with th := { u.th with comparator := u.th.comparator ++ [q.key s.th s.ienc] } }
      .next ((u.retire q.len).led s.th.pc)
  | o => o

/-- The leading context's part of an instruction that a pair does not execute twice. -/
def leadPart (q : Issue) (s : State) (act : State → Out) : Out :=
  let key := q.key s.th s.ienc
  match q.use with
  | .own => match act s with
    | .next t => .next (t.led s.th.pc)
    | o => o
  | .value | .load =>
    if 64 < s.th.lvq.length + q.dst.length || (q.use == .load && !s.th.comparator.isEmpty) then s.idle 0
    else match act s with
      | .next t =>
        if !t.past s.th.pc then .next t
        else
          let th := { t.th with lvq := t.th.lvq ++ q.dst.map fun r => { reg := r, val := if t.th.full r then some (t.th.reg r) else none } }
          .next (State.led { t with th := th } s.th.pc)
      | o => o
  | .visible =>
    if 32 ≤ s.th.comparator.length then s.idle 0 else s.shows q act id
  | .both =>
    if 32 ≤ s.th.comparator.length || 64 < s.th.lvq.length + q.dst.length then s.idle 0
    else s.shows q act fun s =>
      let th := q.dst.foldl Ctx.emptyReg s.th
      { s with th := { th with lvq := th.lvq ++ q.dst.map fun r => { reg := r, claim := some (th.etag r) } } }
  | .meet =>
    if s.th.comparator.getLast? = some key || 32 ≤ s.th.comparator.length then s.idle 0
    else match act s with
      | .next t => if t.th.showsTrap then .next t else s.standsAt key
      | o => o

/-- The trailing context has issued an instruction that the leading one had retired, if it has gone past it. -/
def State.followed (s : State) (p : Nat) (pc : BitVec 57) : State :=
  if s.past pc then s.modCtx p fun c => { c with ahead := c.ahead - 1 } else s

/-- The trailing context performs for both the operation at which the leading one stands: what it has done, the leading one has done
too, and a trap is taken by both. -/
def State.meets (s : State) (p : Nat) (key : List Word) (act : State → Out) : Out :=
  match act (s.modCtx p fun c => { c with comparator := meetKey :: c.comparator.drop 1 }) with
  | .next t =>
    if t.th.pc = s.th.pc && t.th.kind != 11 then
      .next (t.modCtx p fun c => if c.comparator.head? = some meetKey then { c with comparator := key :: c.comparator.drop 1 } else c)
    else
      .next (t.modCtx p fun c => { c with pc := t.th.pc, kind := t.th.kind, warg := t.th.warg, pfx := false, stall := none,
                                          w := t.th.w, few := t.th.few, epoch := t.th.epoch, pend := t.th.pend,
                                          e := t.th.e, fee := t.th.fee, epend := t.th.epend, void := t.th.void,
                                          cmds := t.th.cmds, comparator := [] })
  | o => o

/-- The trailing context's part. At an instruction that the leading one has not retired it waits for it, performs what the leading one
waits for there, or takes its trap. -/
def trailPart (q : Issue) (s : State) (p : Nat) (act : State → Out) : Out :=
  let key := q.key s.th s.ienc
  let me := s.here.ctx
  if (s.ctx p).ahead = 0 then
    match (s.ctx p).comparator with
    | [] => s.idle 0
    | k :: _ =>
      if k.head? = some (BitVec.allOnes 64) then
        match act s with
        | .next t => if t.th.kind != 0 || t.th.stall.isSome then .next t else .next (s.mismatch p me 4)
        | o => o
      else if k != key then .next (s.mismatch p me (mismatchKind k key))
      else if q.use = .meet then s.meets p key act
      else s.idle 0
  else match q.use with
  | .own => match act s with
    | .next t => .next (t.followed p s.th.pc)
    | o => o
  | .value | .load =>
    let free := (s.ctx p).lvq.filter fun e => e.claim == none
    if free.length < q.dst.length then s.idle 0
    else
      let s := { s with th := q.dst.foldl Ctx.emptyReg s.th }
      let s := each q.dst (fun r s =>
        let tag := s.th.etag r
        s.modCtx p fun c =>
          match c.lvq.findIdx? fun e => e.claim == none with
          | some i => { c with lvq := c.lvq.modify i fun e => { e with claim := some tag, reg := r } }
          | none => c) s
      .next (((s.settle p me).retire q.len).followed p s.th.pc)
  | _ =>
    let k := (s.ctx p).comparator.headD []
    if k != key then .next (s.mismatch p me (mismatchKind k key))
    else match act s with
      | .next t =>
        if !t.past s.th.pc then .next t
        else .next ((t.modCtx p fun c => { c with comparator := c.comparator.drop 1 }).followed p s.th.pc)
      | o => o

/-- The action, or a paired context's part in it. -/
def paired (q : Issue) (s : State) (act : State → Out) : Out :=
  if s.th.pair == 0 then act s
  else match s.th.peer with
    | none => act s
    | some p => if s.th.pair == 1 then leadPart q s act else trailPart q s p act

/-- The conditions of 06 R153 in their order, then the action: prefix misuse and other illegality, privilege, an empty
source with policy 1, then waiting on empty sources, on PEND and on an outstanding extension fill. -/
def issue (q : Issue) (s : State) (act : State → Out) : Out :=
  let c := s.th
  let empty (p : Bool) : Option Nat := lowestReg ((q.srcs.filter fun x => x.2 == p && !c.full x.1).map (·.1))
  if !q.ok || (c.pfx && !q.pfx.accepts c.pfxval) then s.fault 1 s.ienc
  else if c.priv.toNat < q.priv then s.fault 3 s.ienc
  else
    match empty true, empty false with
    | some r, _ => s.fault 4 (BitVec.ofNat 64 r)
    | none, some r => s.idle (mkTag 1 r)
    | none, none =>
      match lowestReg (q.long.filter fun r => c.pend.getLsbD r), lowestReg (q.eout.filter fun r => c.epend.getLsbD r) with
      | some r, _ => s.idle (mkTag 1 (16 + r))
      | none, some r => s.idle (mkTag 1 (8 + r))
      | none, none => paired q s act

/-! ### Extensions (02 R56) -/

/-- Sends a unit to a core that has an extension, with the pc and any prefix kept; a pair moves as one (17 R396). -/
def State.migrate (s : State) (id ext : Nat) : State :=
  let s := each (s.unit id) (fun x s =>
    s.modCtx x fun c => { c with extneed := BitVec.ofNat 2 ext, kind := 10, warg := 0, stall := none }) s
  s.moveLine id (.l2 (clusterOf s.hereCore))

/-- An instruction of an extension's major, on a core that may lack it: before anything else the context moves to a
wide core, once its stores have performed (05 R110); a PINNED one, and a handler, traps with EXT_MISSING. A pair moves
as one. -/
def extGate (ext : Nat) (s : State) (act : State → Out) : Out :=
  if isWide s.hereCore then act s
  else if s.pinned s.here.ctx || s.th.handler != 0 then s.fault 2 s.ienc
  else if s.th.pair == 0 then
    if s.drained s.here.ctx then .next (s.migrate s.here.ctx ext) else s.idle 0
  else match s.th.peer with
    | none => s.fault 2 s.ienc
    | some p =>
      let key := trapKey 2 s.ienc s.th.pc
      if s.th.pair == 1 then
        s.standsAt key
      else if (s.ctx p).comparator.head? != some key then s.idle 0
      else if s.drained s.here.ctx && s.caughtUp s.here.ctx then
        .next ((s.modCtx p fun c => { c with comparator := [] }).migrate p ext)
      else s.idle 0

/-- An instruction of which other units carry out parts: its requests are sent once, under a number of its own, and it idles with the
pc on it until every answer has come; it goes on with what they have brought. A context that traps or stops meanwhile asks anew. -/
def asking (n : Nat) (send : Nat → State → State) (s : State) (act : Nat → State → Out) : Out :=
  match s.th.quest with
  | none =>
    if n = 0 then act 0 s else (send s.fresh { s with th := { s.th with quest := some (s.fresh, n, 0) } }).idle 0
  | some (_, 0, v) => act v { s with th := { s.th with quest := none } }
  | some _ => s.idle 0

/-- What an answer brings that a failed die cannot give (16 R387). -/
def noAnswer : Nat := 2 ^ 80

/-- A non-instruction encoding (06 R152), or one whose fields are reserved. -/
def illegal (s : State) : Out := s.fault 1 s.ienc

end Sys2Proof.Machine
end

