-- ==== Sys2Proof/Machine/Deliver.lean ====
section
/-! DEFINITION. What reaches a context line (14 R334, R335): fills, wakeups and traps at whichever unit holds the line,
and the moves of a line between units. -/

namespace Sys2Proof.Machine

open Sys2Proof

/-! ### A context made ready (13 R314, R316) -/

/-- An asynchronous trap (13 R314); one that meets a command on its way waits for the boundary after it (R316). -/
def State.trapLater (s : State) (id cause : Nat) (info : Word) : State :=
  if s.commanding id then s.modCtx id fun c => { c with heldTraps := c.heldTraps ++ [(cause, info)] }
  else s.asyncTrap id cause info

/-- Parks a context (13 R325) or stops it for a debugger (R329): a stopped context's slot is kept for it. A parked context of
a pair takes the other out of its slot with it, as the pair is scheduled as one (17 R396). -/
def State.haltCtx (s : State) (id how : Nat) : State :=
  let stop (c : Ctx) : Ctx :=
    { c with kind := if how = 1 then 8 else 9, warg := 0, cause := if how = 1 then 0 else 0x15, heldStop := c.heldStop.erase how, stall := none,
             quest := none, seen := [], comparator := [] }
  match (s.centry id).holder with
  | .core k =>
    let slot := (s.core k).slotOf id
    let s := s.modCtx id fun c => { stop c with stopSlot := if how = 1 then c.stopSlot else slot.map fun i => 16 * k + i }
    let s := each (if how = 1 then s.unit id else [id]) (fun x s => s.modCore k fun c => c.forget x) s
    let s := match slot with
      | some i => if how = 1 then s else s.modCore k fun c => c.modSlot i fun x => { x with heldFor := some id }
      | none => s
    s.dispatch k
  | .shadow _ => (s.modCtx id stop).modImage id fun c => c.forget id
  | _ => s.modCtx id stop

/-- Parks a context, or completes a `dstop`: that one is logged and notified (19 R417, R418). -/
def State.stopNow (s : State) (id how : Nat) : State :=
  let core := match (s.centry id).holder with
    | .core k => k
    | _ => ((s.ctx id).lastCore).getD 0
  let slot := ((s.core core).slotOf id).getD 0
  let s := s.haltCtx id how
  if how = 1 then s
  else
    let c := s.ctx id
    s.debugRecord (dieOf core) c.cva c.pc.toNat slot core 0 2 [] (some c.part)

/-- A wait has ended: a held trap is taken, else a held stop, else the context is ready (13 R314, R316, R325). -/
def State.resume (s : State) (id : Nat) : State :=
  let c := s.ctx id
  let s := s.modCtx id fun c => { c with kind := 0, warg := 0 }
  match c.heldTraps, (s.centry id).holder with
  | _ :: _, .core k => if s.trapBarred k id then s.nowReady id else s.takeHeld k id
  | _ :: _, _ => s.nowReady id
  | [], _ => match c.heldStop with
    | [] => s.nowReady id
    | how :: _ => s.stopNow id how

/-- A wakeup for a kind of wait; a context of any other kind is left alone (02 Table 2-2). Both contexts of a pair wait
and wake together (17 R397). -/
def State.wakeFor (s : State) (id kind : Nat) : State :=
  let one (s : State) (x : Nat) : State := if (s.ctx x).kind.toNat = kind then s.resume x else s
  let s := one s id
  match (s.ctx id).peer with
  | some p => if kind = 1 || kind = 7 then s else one s p
  | none => s

/-! ### Messages that find their line (14 R334) -/

/-- The same message addressed to another unit. -/
def toUnit (e : Ev) (h : Holder) : Ev :=
  match e with
  | .registerFill c r t v p i _ w => .registerFill c r t v p i h w
  | .wakeupApply c k a q _ => .wakeupApply c k a q h
  | .cmdsDecrement c f _ => .cmdsDecrement c f h
  | .errand (.line op l n p c r t _) => .errand (.line op l n p c r t h)
  | .errand (.answer c n d _) => .errand (.answer c n d h)
  | .errand (.waits c n l t p _) => .errand (.waits c n l t p h)
  | e => e

/-- The size of a message for a context line (16 Table 16-6). -/
def lineBytes : Ev → Nat
  | .registerFill _ _ _ _ _ _ _ wake => if wake = 5 then 16 else 32
  | .errand (.line (.st _ _) _ _ _ _ _ _ _) => 32
  | .errand (.answer _ _ _ _) => 32
  | _ => 16

/-- Applies a message at the unit it has reached, or returns it to the home if that unit no longer holds the line. One for a context
that was lost is dropped (16 R386, 17 R395). -/
def State.addressed (s : State) (id : Nat) (unit : Holder) (msg : Ev) (act : State → State) : State :=
  let e := s.centry id
  if (s.ctx id).kind = 12 then s
  else if e.holder = unit && e.transfer = none then act s
  else
    let home := s.ctxHome id
    s.sendNamed (holderDie home unit) home 2 (lineBytes msg) (.messageReturn id msg)

/-- Forwards a message from the home to the unit that holds the line. -/
def State.forward (s : State) (id : Nat) (msg : Ev) : State :=
  let home := s.ctxHome id
  let h := (s.centry id).holder
  s.sendNamed home (holderDie home h) 2 (lineBytes msg) (toUnit msg h)

/-- MESSAGE_RETURN (R334): the home queues it while the line is in transfer, and forwards it otherwise. -/
def execMessageReturn (ctx : Nat) (msg : Ev) (s : State) : Out :=
  if (s.centry ctx).transfer = none then .next (s.forward ctx msg)
  else .next (s.modEntry ctx fun e => { e with queue := e.queue ++ [msg] })

/-! ### Fills -/

/-- Fills a register of a line (02 R42): kind 1 ends when the register it waits for becomes full, or when the fill it waits
for arrives; a discarded fill is counted at the core that discards it. -/
def State.applyFill (s : State) (id reg : Nat) (tag : Bool) (v : Word) : State :=
  let (c, void) := (s.ctx id).fill reg tag v
  let s := s.modCtx id fun _ => c
  let s := match void, (s.centry id).holder with
    | true, .core k => (s.countCore k 8 none).modCore k fun x => { x with fdisc := x.fdisc + 1 }
    | _, _ => s
  let r := (c.warg.setWidth 4).toNat
  if c.kind == 1 && (if c.warg.getLsbD 4 then r == reg else c.full r) then s.resume id else s

/-- A fill that would be discarded (02 R42). -/
def Ctx.voids (c : Ctx) (reg : Nat) (tag : Bool) : Bool :=
  if reg < 8 then !c.pend.getLsbD reg || tag != c.epoch.getLsbD reg || c.void.getLsbD reg
  else reg < 12 && !c.epend.getLsbD (reg - 8)

/-- A poisoned reply (08 R196) to the fill of some registers, each with its tag: none changes, none is outstanding any
longer, and the thread traps once unless every fill is void. -/
def State.applyPoison (s : State) (id : Nat) (regs : List (Nat × Bool)) (info : Word) : State :=
  let c := s.ctx id
  let void := regs.all fun x => c.voids x.1 x.2
  let s := each regs (fun (reg, tag) s =>
    let drop := (s.ctx id).voids reg tag
    let s := s.modCtx id fun c =>
      if reg < 8 then { c with pend := c.pend &&& ~~~regBit 8 reg, void := c.void &&& ~~~regBit 8 reg }
      else if reg < 12 then { c with epend := c.epend &&& ~~~regBit 4 (reg - 8) } else c
    match drop, (s.centry id).holder with
    | true, .core k => (s.countCore k 8 none).modCore k fun x => { x with fdisc := x.fdisc + 1 }
    | _, _ => s) s
  let s := if c.kind == 1 && c.warg.getLsbD 4 && (regs.any fun x => (c.warg.setWidth 4).toNat == x.1) then s.resume id else s
  if void then s
  else
    let s := s.trapLater id 0x10 info
    match c.peer with
    | some p => s.trapLater p 0x10 info
    | none => s

/-- What a fill of one context of a pair means for the other (17 R397): a value that the leading context receives enters
the load-value queue, and a value returned to the trailing one is the leading one's too. -/
def State.pairFill (s : State) (id reg : Nat) (v : Word) : State :=
  match (s.ctx id).pair, (s.ctx id).peer with
  | 1, some p =>
    let s := s.modCtx id fun c =>
      match c.lvq.findIdx? fun e => e.reg == reg && e.val == none with
      | some i => { c with lvq := c.lvq.modify i fun e => { e with val := some v } }
      | none => c
    s.settle id p
  | 2, some p =>
    match (s.ctx p).lvq.find? fun e => e.reg == reg && e.claim != none && e.val == none with
    | some e =>
      let s := s.modCtx p fun c => { c with lvq := c.lvq.eraseP fun x => x == e }
      s.applyFill p reg (e.claim.getD false) v
    | none => s
  | _, _ => s

/-- REGISTER_FILL (02 R42, R43). The value of a `stv` is the issuing die's gtime when the reply reaches it (05 R125). A fill
that ends a wait makes both contexts of a pair ready. A poisoned reply to a load of two registers is one (`wake` 17, with the
second register's tag in bit 0 of the value). With 18 for the register it brings a byte of another core's store to the `getue` or
`getse` that scans it (07 R188). -/
def execRegisterFill (ctx reg : Nat) (tag : Bool) (val : Word) (poison : Bool) (info : Word) (unit : Holder) (wake : Nat)
    (s : State) : Out :=
  let (v, wake) :=
    if wake = 16 then
      let d := holderDie 0 unit
      (if (s.die d).locked then BitVec.ofNat 64 (s.dieTime d) else BitVec.allOnes 64, 0)
    else (val, wake)
  .next (s.addressed ctx unit (.registerFill ctx reg tag v poison info unit wake) fun s =>
    if poison then s.applyPoison ctx ((reg, tag) :: if wake = 17 then [(reg + 1, val.getLsbD 0)] else []) info
    else if reg = 18 then s.modCtx ctx fun c => { c with seen := put c.seen info.toNat (v.setWidth 8) }
    else
      let s := (s.applyFill ctx reg tag v).pairFill ctx reg v
      if wake = 0 then s else s.wakeFor ctx wake)

/-- WAKEUP_APPLY (02 R43, 08 R208, 05 R119). With bit 30 of the argument it brings no wakeup: it says that the owner has
queued the request, or with bit 29 that it could not, and bits [33:31] hold its scope; with bit 31 alone it is for a wait
on the location in [28:0]. An acquire invalidates the L1 before the context's next issue. -/
def execWakeupApply (ctx kind : Nat) (arg : BitVec 60) (acq : Bool) (unit : Holder) (s : State) : Out :=
  .next (s.addressed ctx unit (.wakeupApply ctx kind arg acq unit) fun s =>
    if arg.getLsbD 30 then
      if (s.ctx ctx).kind.toNat = kind then
        let scope := bits arg.toNat 31 3
        let s := s.modCtx ctx fun c =>
          { c with warg := arg &&& 0x3FFFFFFF, resend := if arg.getLsbD 29 then some scope else none, pollAt := s.gtime + us }
        if arg.getLsbD 29 then s.post (.semPResend ctx) else s
      else s
    -- a `jc.wait` that has not yet been told to wait tests again (08 R209)
    else if kind = 3 && (s.ctx ctx).kind == 0 && (s.ctx ctx).quest.isSome then
      s.modCtx ctx fun c => { c with quest := c.quest.map fun q => (q.1, q.2.1, if q.2.1 = 0 then q.2.2 else 1) }
    else if (s.ctx ctx).kind.toNat = kind && (!arg.getLsbD 31 || (s.ctx ctx).warg.setWidth 29 == arg.setWidth 29) then
      let s := if acq then s.modCtx ctx fun c => { c with inval := true } else s
      (s.modCtx ctx fun c => { c with resend := none }).wakeFor ctx kind
    else s)

/-! ### Lines on the move -/

/-- The order of victims by the three steps of 14 R338: waiting before ready, lower priority first, least recently issued
first. A pair waits while one of its contexts does. -/
def State.worse (s : State) (a b : Nat) : Bool :=
  let wait (x : Nat) : Bool := (s.unit x).any fun y => let k := (s.ctx y).kind.toNat; 1 ≤ k && k ≤ 7
  let ca := s.ctx a
  let cb := s.ctx b
  if wait a != wait b then wait a
  else if ca.prio != cb.prio then cb.prio.toNat < ca.prio.toNat
  else ca.issuedAt < cb.issuedAt

/-- The first victim among some lines. -/
def State.worst (s : State) : List Nat → Option Nat
  | [] => none
  | a :: r => match s.worst r with | some b => if s.worse b a then some b else some a | none => some a

/-- The unit that a core's context L1 gives up (14 R338), by its leading context: neither one in a slot, a handler, a PINNED
context nor one of kind 8 or 9 is chosen. -/
def State.victim (s : State) (core : Nat) : Option Nat :=
  s.worst ((s.core core).resident.filter fun id =>
    s.lead id == id && (s.unit id).all fun x =>
      let c := s.ctx x
      (s.core core).slotOf x == none && c.handler == 0 && c.pin == none && c.kind != 8 && c.kind != 9 &&
        (s.centry x).transfer == none && (s.centry x).holder == .core core)

/-- A unit's accesses that keep it on its core have performed (05 R110). -/
def State.unitDrained (s : State) (id : Nat) : Bool := (s.unit id).all s.drained

/-- Lines of a core's context L1 that are not reserved for its handlers (14 Table 14-1). -/
def State.l1Used (s : State) (core : Nat) : Nat := ((s.core core).resident.filter fun id => (s.ctx id).handler == 0).length

/-- A core's context L1 can take a line that reaches it: a line is free, or its victim can leave (14 R332, R338). -/
def State.l1Open (s : State) (core id : Nat) : Bool :=
  (s.ctx id).handler != 0 || s.l1Used core < 254 || match s.victim core with
    | some v => s.unitDrained v
    | none => false

/-- The CONTEXT banks of a cluster that take a partition's lines, none of them draining (14 R332, R339). -/
def State.l2Banks (s : State) (cluster part : Nat) : List Nat :=
  let k := s.cluster cluster
  (List.range 16).filter fun b =>
    nth k.modes b .cache == .context && nth k.owner b none == some (part % 4) && !k.drains.any fun d => d.bank == b

/-- Lines that a cluster's context L2 can hold for a partition: 4,096 in each CONTEXT bank (14 Table 14-1). -/
def State.l2Room (s : State) (cluster part : Nat) : Nat := 4096 * (s.l2Banks cluster part).length

/-- A bank of a context L2 with a free line. -/
def State.l2Free (s : State) (cluster part : Nat) : Option Nat :=
  (s.l2Banks cluster part).find? fun b => ((s.cluster cluster).l2bank.filter fun x => x.2 == b).length < 4096

/-- Takes a line into a context L2, which writes a victim back to memory if its partition's banks are full (14 R339); none with no
bank for the partition. -/
def State.takeL2 (s : State) (cluster id : Nat) : Option State :=
  let part := (s.ctx id).part
  let take (s : State) (b : Nat) : State :=
    s.modCluster cluster fun k => { k with l2 := k.l2 ++ [id], l2bank := put k.l2bank id b }
  match s.l2Free cluster part with
  | some b => some (take s b)
  | none =>
    let mine := (s.cluster cluster).l2.filter fun x =>
      (s.ctx x).part == part && s.lead x == x && (s.centry x).transfer == none &&
        (s.l2Banks cluster part).contains (getD (s.cluster cluster).l2bank x 16)
    match s.worst mine with
    | some v => some (take (s.sendUnit v .memory) (getD (s.cluster cluster).l2bank v 0))
    | none => none

/-- The same for a line that its cluster's context L2 is to hold; with no bank for the partition it goes on to memory. -/
def State.enterL2 (s : State) (cluster id : Nat) : State := (s.takeL2 cluster id).getD (s.sendLine id .memory)

/-- A context holds a trap for a core to take (13 R314). -/
def State.trapDue (s : State) (id : Nat) : Bool :=
  let c := s.ctx id
  !c.heldTraps.isEmpty && c.kind.toNat < 8 && !c.byReply

/-- What a core does with a unit whose lines have all reached it: one for which a slot is kept returns to it (13 R329), a trap held for
it is taken (R314), and a ready one joins the tail of its queue (14 R337). -/
def State.settleIn (s : State) (core id : Nat) : State :=
  if (s.core core).heldSlot id != none then (if (s.ctx id).kind == 0 then s.returnSlot core id else s)
  else
  let id := s.lead id
  let us := s.unit id
  if !us.all fun x => (s.centry x).holder == .core core then s
  else
    match us.find? s.trapDue with
    | some x => if s.trapBarred core x then s else s.takeHeld core x
    | none => if s.unitReady id then (s.modCore core fun x => x.enq (s.ctx id).level id).dispatch core else s

/-- A unit that a core has given up, or that became ready on its way, is posted by its new holder if it can be claimed, once its lines
have arrived there (14 R338, R341, R343; 18 R402). -/
def State.postReady (s : State) (id : Nat) : State :=
  let l := s.lead id
  let us := s.unit l
  if us.any (fun x => (s.centry x).moving) || !us.any fun x => (s.centry x).postDue then s
  else
    let s := each us (fun x s => s.modEntry x fun e => { e with postDue := false }) s
    let k := (s.ctx l).kind
    let ready := (us.any s.trapDue || ((k == 0 || k == 10) && us.all fun x => (s.ctx x).kind == k)) && !(s.ctx l).isFree
    match (s.centry l).holder with
    | .l2 _ => if ready then s.sendPost l else s
    | .memory => if ready then s.sendPost l else s
    | .core c => if (s.core c).slotOf l == none && !(s.core c).waiting.contains l then s.settleIn c l else s
    | .shadow _ => s

/-- A line on the move reaches its new holder, which acknowledges it to the home. A full context L1 gives up its victim
first (14 R338). -/
def State.arrive (s : State) (ctx : Nat) (dst : Holder) : State :=
  let home := s.ctxHome ctx
  let s := s.modEntry ctx fun e => { e with holder := dst }
  let ack (s : State) : State := s.send (holderDie home dst) home 2 16 false none (.contextTransferAck ctx)
  match dst with
  | .core k =>
    let s := if (s.ctx ctx).handler != 0 || s.l1Used k < 254 then s
      else match s.victim k with
        | some v => s.sendUnit v (.l2 (clusterOf k))
        | none => s
    let s := s.modCore k fun c => { c with resident := c.resident ++ [ctx], claims := c.claims.filter (· != ctx) }
    let s := if (s.ctx ctx).kind == 10 && isWide k then s.modCtx ctx fun c => { c with kind := 0 } else s
    (ack s).settleIn k ctx
  | .l2 k =>
    match s.takeL2 k ctx with
    | some s => (ack s).postReady ctx
    | none =>
      -- no bank for the partition: the line goes on to memory, and the transfer ends there
      (s.modEntry ctx fun e => { e with transfer := some .memory }).send (k / 64) home 2 144 false none (.contextLineArrival ctx .memory)
  | .memory => (ack s).postReady ctx
  | .shadow _ => ack s

/-- CONTEXT_LINE_ARRIVAL (14 R334): the new holder takes the line and acknowledges it to the home. A core that receives a
context of kind 10 sets kind 0 (R343); one with a trap held takes it there (13 R314). A context that was lost meanwhile no
longer moves (16 R386); a refused claim's NACK brings none (R343). -/
def execContextLineArrival (ctx : Nat) (dst : Holder) (s : State) : Out :=
  .next (if (s.centry ctx).transfer = some dst then s.arrive ctx dst else match dst with
    | .core k => s.modCore k fun c => { c with claims := c.claims.filter (· != ctx) }
    | _ => s)


/-- CONTEXT_TRANSFER_ACK (14 R334): the home records the new holder and forwards what it has queued, in arrival order. -/
def execContextTransferAck (ctx : Nat) (s : State) : Out :=
  let q := (s.centry ctx).queue
  let s := (s.modEntry ctx fun e => { e with transfer := none, queue := [] }).postReady ctx
  .next (each q (fun m s => s.forward ctx m) s)

end Sys2Proof.Machine
end

