-- ==== Sys2Proof/Machine/Access.lean ====
section
/-! DEFINITION. Access to memory: translation through the TLBs (15 R351 to R358), the checks of 08 R195 in their order,
the core L1 (04 R90), what a write does when it takes effect (05 R107, 10 R267, 17 R392, R393), fills, and the reports
of a traced block (10 R261 to R263). -/

namespace Sys2Proof.Machine

open Sys2Proof

/-! ### Translation -/

/-- Kinds of access to a page (15 R354). A hint (08 R199) needs no right, and `line` names a context line by its CVA (13 R319). -/
inductive Acc where
  | load | store | atomic | fetch | hint | line
deriving DecidableEq, Repr

/-- A leaf permits an access at a privilege (15 R354). -/
def TlbEntry.permits (e : TlbEntry) (a : Acc) (priv : Nat) : Bool :=
  (match a with
    | .load => e.r
    | .store => e.w
    | .atomic => e.w && e.r
    | .fetch => e.x && !(priv != 0 && e.u)
    | _ => true) && (priv != 0 || e.u)

/-- The entry of a TLB that maps an offset. -/
def tlbFind (tlb : List TlbEntry) (part : Nat) (hi : Bool) (o : Nat) : Option TlbEntry :=
  tlb.find? fun e => e.part == part && e.hi == hi && e.page == o / (12288 * pagePatches e.level) * pagePatches e.level

/-- The set of a TLB that holds an entry: by the page's number, of whatever size (DESIGN CHOICE, log 80: 15 R357 gives the number
of sets and not the index). -/
def tlbSet (sets : Nat) (e : TlbEntry) : Nat := e.page / pagePatches e.level % sets

/-- Adds an entry to a TLB of some sets and ways (15 R357). A full set gives up one of its entries; since eviction may take any
entry at any time, another may go too. `pick` chooses both. -/
def tlbAdd (tlb : List TlbEntry) (sets ways pick : Nat) (e : TlbEntry) : List TlbEntry :=
  if tlb.contains e then tlb
  else
    let mine := tlb.filter fun x => tlbSet sets x == tlbSet sets e
    let tlb := if mine.length < ways then tlb else match mine[pick / 2 % mine.length]? with
      | some v => tlb.erase v
      | none => tlb
    (if pick % 2 = 1 then tlb.eraseIdx (pick / 2 ^ 16 % tlb.length) else tlb) ++ [e]

/-- A core's TLB takes an entry: 64 entries, fully associative. -/
def State.tlbCore (s : State) (core : Nat) (e : TlbEntry) : State :=
  s.modCore core fun k => { k with tlb := tlbAdd k.tlb 1 64 (Config.tlbVictim s.fresh core) e }

/-- A cluster's TLB takes an entry: 512 sets of 8 ways. -/
def State.tlbCluster (s : State) (cluster : Nat) (e : TlbEntry) : State :=
  s.modCluster cluster fun k => { k with tlb := tlbAdd k.tlb 512 8 (Config.tlbVictim s.fresh (8192 + cluster)) e }

/-- The number that names a base page of a half of a partition. -/
def pageKey (part : Nat) (hi : Bool) (page : Nat) : Nat := (2 * part + (if hi then 1 else 0)) * 2 ^ 44 + page

/-- The number that names a walk. -/
def walkKey (w : Walk) : Nat := pageKey w.part w.hi w.page

/-- A walk that a Juggler's translation waits for. -/
def State.walksFor (s : State) (cluster id : Nat) : Bool :=
  let d := s.die (cluster / 64)
  (d.walks ++ d.walkQ ++ d.walkHeld).any fun w => w.waiters.any fun x => x.ctx == id && x.core == 8192 + cluster

/-- A miss joins the walk of its page, or begins, queues or holds one (15 R358). -/
def State.beginWalk (s : State) (die : Nat) (w : Walk) : State :=
  let d := s.die die
  let same (x : Walk) : Bool := walkKey x == walkKey w
  let join (x : Walk) : Walk := if same x then { x with waiters := w.waiters.foldl addNew x.waiters } else x
  if (d.walks ++ d.walkQ ++ d.walkHeld).any same then
    s.modDie die fun d => { d with walks := d.walks.map join, walkQ := d.walkQ.map join, walkHeld := d.walkHeld.map join }
  else if d.walks.length < 512 then
    (s.modDie die fun d => { d with walks := d.walks ++ [w] }).post (.walkComplete die (walkKey w))
  else if d.walkQ.length < 4096 then s.modDie die fun d => { d with walkQ := d.walkQ ++ [w] }
  else (s.modDie die fun d => { d with walkHeld := d.walkHeld ++ [w] }).post (.walkQueueRetry die)

/-- Queued misses of a die's pool begin their walks while it has room, the oldest first, from the roots as they stand (15 R356, R358). -/
def State.startQueued (s : State) (die : Nat) : State :=
  let d := s.die die
  let n := 512 - d.walks.length
  let go := (d.walkQ.take n).map fun w => { w with root := if w.hi then (s.part w.part).ptHi else (s.part w.part).ptLo }
  if go.isEmpty then s
  else each go (fun w s => s.post (.walkComplete die (walkKey w)))
    (s.modDie die fun d => { d with walks := d.walks ++ go, walkQ := d.walkQ.drop n })

/-- What a look-up answers. -/
inductive Look where
  | ok (pa : Nat) (s : State)
  | fault (cause : Nat) (s : State)
  | wait (s : State)

/-- The root register of a half (15 R356). -/
def Partition.root (p : Partition) (hi : Bool) : Word := if hi then p.ptHi else p.ptLo

/-- A walk of a die that a context waits for at an address. -/
def State.walking (s : State) (die id va : Nat) : Bool :=
  let d := s.die die
  (d.walks ++ d.walkQ ++ d.walkHeld).any fun w => w.waiters.any fun x => x.ctx == id && x.info == BitVec.ofNat 64 va

/-- Translates an address outside the mesh window for the issuing context (15 R351 to R358), and checks the right. A miss
of the core TLB is counted once per access; a miss of the cluster TLB starts a walk, and the slot idles. -/
def State.look (s : State) (core id : Nat) (va : Nat) (a : Acc) : Look :=
  let c := s.ctx id
  let priv := c.priv.toNat
  let o := va % 2 ^ 56
  let hi := bitAt va 56
  let inCtx := regionAt va == .context
  if regionAt va == .gap || regionAt va == .mesh || 2 ^ 57 ≤ va then .fault 6 s
  else
    let allow (e : TlbEntry) : Bool := (!inCtx || a == .line) && !(priv == 0 && hi) && e.permits a priv
    let count (s : State) : State :=
      if s.walking (dieOf core) id va then s
      else (s.countCore core 10 ((s.core core).slotOf id)).modCore core fun k => { k with tlbmiss := k.tlbmiss + 1 }
    if c.badVa == some va then .fault 6 s
    else match tlbFind (s.core core).tlb c.part hi o with
    | some e => if allow e then .ok (e.pa o) s else .fault 7 s
    | none =>
      match tlbFind (s.cluster (clusterOf core)).tlb c.part hi o with
      | some e =>
        let s := (count s).tlbCore core e
        if allow e then .ok (e.pa o) s else .fault 7 s
      | none =>
        .wait ((count s).beginWalk (dieOf core)
          ⟨c.part, (s.part c.part).root hi, hi, o / 12288, clusterOf core, [⟨id, BitVec.ofNat 64 va, core⟩]⟩)

/-- Where an access goes. -/
inductive Place where
  | phys (pa : Nat)
  | store (loc : Nat)
deriving DecidableEq, Repr

/-- The spot of a place. -/
def Place.spot : Place → Spot
  | .phys pa => .sector (pa / 48)
  | .store loc => .store (locCore loc)

/-- The die set of a partition does not hold a die. -/
def State.outside (s : State) (part die : Nat) : Bool := !((setDies s.mode (part / 4)).contains die)

/-- The checks of 08 R195 on the effective address of the issuing instruction, in their order. -/
def withPlace (ea : Word) (bytes : Nat) (a : Acc) (s : State) (k : Place → State → Out) : Out :=
  let va := ea.toNat
  let mesh := regionAt va == .mesh
  if mesh && s.outside s.th.part ((va - meshBase) / 2 ^ 26 % 8) then s.fault 8 ea
  else if va % bytes != 0 then s.fault 5 ea
  else if mesh then k (.store (va - meshBase)) s
  else match s.look s.hereCore s.here.ctx va a with
    | .ok pa s => k (.phys pa) s
    | .fault c s => s.fault c ea
    | .wait s => s.idle 0

/-- The mesh-window address that a wait object must have (08 R208): a global or context-window one raises MESH_RANGE, and one in a gap,
or with bits [63:57] set, PAGE_NOT_PRESENT (04 R83). -/
def withStore (ea : Word) (align : Nat) (s : State) (k : Nat → State → Out) : Out :=
  let va := ea.toNat
  if regionAt va == .gap then s.fault 6 ea
  else if regionAt va != .mesh then s.fault 8 ea
  else if s.outside s.th.part ((va - meshBase) / 2 ^ 26 % 8) then s.fault 8 ea
  else if va % align != 0 then s.fault 5 ea
  else k (va - meshBase) s

/-! ### Reports of a traced block (10 R261 to R263) -/

/-- The impure entry of Table 10-4 in a report names no patch. -/
def noPatch : Nat := 2 ^ 40

/-- Sends a report to the trace unit of a block's home cluster, as a posted operation in class 1. -/
def State.report (s : State) (blk : Nat) (src patch : Nat) (wr : Bool) (icause pc : Nat) : State :=
  match get? s.blocks blk with
  | some b =>
    if b.trace.isSome then s.send src (b.cluster / 64) 1 32 true none (.traceReport blk patch wr icause pc) else s
  | none => s

/-- Reports the patch of an access of the issuing thread; a page outside HBM is also impure (ICAUSE 8). -/
def State.reportPa (s : State) (pa : Nat) (wr : Bool) : State :=
  s.report s.th.blk s.hereDie (pa / 12288) wr (if pa / 12288 < 2 ^ 26 then 0 else 8) s.th.pc.toNat

/-- Reports an instruction of the impure class. -/
def State.reportImpure (s : State) (icause : Nat) : State :=
  s.report s.th.blk s.hereDie noPatch false icause s.th.pc.toNat

/-! ### The core L1 (04 R90) -/

/-- The core forgets every line of its L1. -/
def State.forget (s : State) (core : Nat) : State := s.modCore core fun c => { c with l1 := [], l1held := [] }

/-- A core performs an acquire of scope `.cl` or wider: it forgets its L1 (04 R90), and fetches from then on the code that is
visible now (06 R133). -/
def State.acquireL1 (s : State) (core : Nat) : State :=
  s.modCore core fun c => { c with l1 := [], l1held := [], acqAt := s.fresh + 1 }

/-- An acquire of a scope (04 R90). -/
def State.acquire (s : State) (core scope : Nat) : State := if 2 ≤ scope then s.acquireL1 core else s

/-- Bytes that the L1 holds, if it holds their sector. -/
def Core.cached (c : Core) (pa n : Nat) : Option Nat :=
  (get? c.l1 (pa / 48)).map fun b => natOfBytes ((b.drop (pa % 48)).take n)

/-- Lines of the L1 in the set of a line (04 R89: 40 sets of 4 ways). -/
def Core.setLines (c : Core) (line : Nat) : List Nat :=
  (c.l1.map fun x => x.1 / 4).foldl (fun l x => if x % 40 == line % 40 then addNew l x else l) []

/-- Fills a sector into a core's L1 from the visible bytes; a full set gives up a line that nothing holds. -/
def State.fillL1 (s : State) (core sector : Nat) : State :=
  let c := s.core core
  let lines := c.setLines (sector / 4)
  let bytes := readList s.mem (48 * sector) 48
  let free := lines.filter fun l => !c.l1held.any fun x => x.2 == l
  let s := s.unmark (l1Place core + 48 * sector) 48
  if lines.contains (sector / 4) || lines.length < 4 then s.modCore core fun c => { c with l1 := put c.l1 sector bytes }
  else match free[Config.l1Victim s.fresh % free.length]? with
    | some v => s.modCore core fun c => { c with l1 := put (c.l1.filter fun x => x.1 / 4 != v) sector bytes }
    | none => s

/-- Puts bytes into a list from a place on. -/
def splice (l : List Byte) (at_ : Nat) (bs : List Byte) : List Byte := l.take at_ ++ bs ++ l.drop (at_ + bs.length)

/-- A store of a core updates the L1 copy of its bytes, and of no others, if there is one (04 R90, 05 R107, R108). -/
def State.refreshL1 (s : State) (core pa v n : Nat) : State :=
  (s.unmarkWhole (l1Place core + pa) n).modCore core fun c => match get? c.l1 (pa / 48) with
    | some b => { c with l1 := put c.l1 (pa / 48) (splice b (pa % 48) (bytesOfNat v n)) }
    | none => c

/-! ### Loads and fills -/

/-- `n` bits of a stream from bit `pos` of its first byte on, the most significant bit first (07 R183, R184). -/
def streamBits (bytes : List Byte) (pos : Nat) : Nat → Nat
  | 0 => 0
  | n + 1 =>
    let p := pos + n
    2 * streamBits bytes pos n + (if (nth bytes (p / 8) 0).getLsbD (7 - p % 8) then 1 else 0)

/-- The registers and values that a reply of `v` gives (08 R193, R198); a request for a line alone gives none, and one for a byte of
another core's store gives the waiting scan its byte (07 R188). -/
def loadValues (r : Req) (v : Nat) : List (Nat × Bool × Word) :=
  if 16 ≤ r.reg then (if r.reg = 18 then [(18, false, BitVec.ofNat 64 v)] else [])
  else match r.kind with
  | .nibLoad hi =>
    let x := bits v (if hi then 4 else 0) 4
    [(r.reg, r.tag, if r.signed then BitVec.ofInt 64 (signed 4 x) else BitVec.ofNat 64 x)]
  | .stream pos n _ => [(r.reg, r.tag, BitVec.ofNat 64 (streamBits (bytesOfNat v r.size) pos n))]
  | _ =>
    if r.size = 16 then
      [(r.reg, r.tag, BitVec.ofNat 64 v), (r.reg + 1, r.tag2, BitVec.ofNat 64 (v / 2 ^ 64))]
    else [(r.reg, r.tag, extendLoad r.signed r.size v)]

/-- Replies to a load from the die that performed it: the fills are addressed to the context (02 R43). A poisoned reply to a
pair of registers is one fill, which names the second one's tag (08 R196). -/
def State.reply (s : State) (src cls : Nat) (r : Req) (v : Nat) (poison : Bool) : State :=
  let fill (reg : Nat) (tag : Bool) (x : Word) (wake : Nat) (s : State) : State :=
    s.respond src (dieOf r.core) cls (if cls = 0 then 64 else 32) r.tx (.registerFill r.ctx reg tag x poison r.info (.core r.core) wake)
  if poison then
    if r.reg = 16 then fill 16 false 0 0 s
    else if r.size = 16 && r.kind = .load then fill r.reg r.tag (if r.tag2 then 1 else 0) 17 s
    else fill r.reg r.tag 0 0 s
  else each (loadValues r v) (fun (reg, tag, x) s => fill reg tag x 0 s) s

/-- The second register of a `.q` access. -/
def secondReg (t : Reg) : Reg := t + 1

/-- What a load leaves when it is short: its registers written at once (08 R193). -/
def State.loadShort (s : State) (len : Nat) (r : Req) (v : Nat) : State :=
  let th := (loadValues r v).foldl (fun c (x : Nat × Bool × Word) =>
    if h : x.1 < 8 then c.setW (BitVec.ofNatLT x.1 h) x.2.2 else c.setE (x.1 - 8) x.2.2) s.th
  { s with th := th }.retire len

/-- What a load leaves when it is long: its registers emptied and the request tagged (02 R42). -/
def State.loadLong (s : State) (len : Nat) (r : Req) (dst : List Nat) : Req × State :=
  let th := dst.foldl Ctx.emptyReg s.th
  ({ r with tag := th.etag (dst.headD 0), tag2 := th.etag (dst.headD 0 + 1) }, { s with th := th }.retire len)

/-- A load of the issuing thread may read the L1: no earlier access of the thread to the sector is on its way, which it would
overtake, and no store of its core (05 R108, R109). -/
def State.l1Clear (s : State) (spot : Spot) : Bool :=
  !((s.touches s.here.ctx).any fun t => t.on spot) && !s.heldAt s.here.ctx s.hereCore spot &&
    !(s.flying.any fun e => match e with
      | .storeVisible q => q.core == s.hereCore && spotOf q false == spot
      | _ => false)

/-- Sends a long load, behind what its core holds for its place (05 R108, R436). -/
def State.sendLoad (s : State) (spot : Spot) (e : Ev) : State :=
  if s.heldAt s.here.ctx s.hereCore spot then s.hold s.here.ctx s.hereCore 0 e
  else match e with
    | .homeReadRequest _ => s.post e
    | e => s.launchEv s.hereDie e

/-- A load of the issuing instruction (08 R193): short from the L1 or the core's own store, else long, and then it does
not issue while a fill of its destination is outstanding (02 R42). `ea` is the effective address. -/
def doLoad (len scope : Nat) (kind : ReqKind) (bytes : Nat) (sg : Bool) (dst : List Nat) (ea : Word) (s : State) : Out :=
  withPlace ea (if kind = .load then bytes else 1) .load s fun p s =>
    let core := s.hereCore
    let id := s.here.ctx
    let r : Req := { ctx := id, core := core, kind := kind, addr := 0, size := bytes, reg := dst.headD 0, signed := sg,
                     info := ea, scope := scope, ordered := scope != 0 }
    let pend := lowestReg (dst.filter fun r => r < 8 && s.th.pend.getLsbD r)
    match p with
    | .store loc =>
      let r := { r with addr := loc }
      if s.mustHold id core (.store (locCore loc)) then s.idle 0
      else if locCore loc = core && dst.all (· < 8) then
        if s.heldAt id core (.store core) || (s.touches id).any fun t => t.on (.store core) then s.idle 0
        else if s.markedAt (storePlace + loc) bytes then
          -- the core's own store answers with poison (17 R392, 08 R196)
          match pend with
          | some x => s.idle (mkTag 1 (16 + x))
          | none =>
            let (q, s) := (s.acquire core scope).loadLong len r dst
            .next (s.reply (dieOf core) 1 { q with tx := none } 0 true)
        else .next ((s.acquire core scope).loadShort len r (readNat s.cstore loc bytes))
      else match pend with
        | some x => s.idle (mkTag 1 (16 + x))
        | none =>
          let far := locCore loc != core
          let s := if far then (s.countCore core 5 (some s.here.slot)).pcReport core id 7 else s
          let (q, s) := (s.acquire core scope).loadLong len r dst
          if s.cutOff (dieOf core) (dieOf (locCore loc)) then .next (s.reply (dieOf core) 1 q 0 true)
          else .next (s.sendLoad (.store (locCore loc)) (.coreStoreAccess q))
    | .phys pa =>
      let r := { r with addr := pa }
      if s.mustHold id core (.sector (pa / 48)) then s.idle 0
      else
        let near := scope < 2 && s.l1Clear (.sector (pa / 48))
        match (if near then (s.core core).cached pa bytes else none), pend with
        | some v, p =>
          let s := s.reportPa pa false
          if s.markedAt (l1Place core + pa) bytes then
            -- the L1's copy is poisoned (17 R392, 08 R196)
            match p with
            | some x => s.idle (mkTag 1 (16 + x))
            | none =>
              let (q, s) := s.loadLong len r dst
              .next (s.reply (dieOf core) 0 { q with tx := none } 0 true)
          else if dst.all (· < 8) then .next (s.loadShort len r v)
          else
            -- an extension register is always filled by a long operation (07 R171), here from the L1
            let (q, s) := s.loadLong len r dst
            .next (s.reply (dieOf core) 0 { q with tx := none } v false)
        | none, some x => s.idle (mkTag 1 (16 + x))
        | none, none =>
          let s := (s.countCore core 4 (some s.here.slot)).pcReport core id 4
          let (q, s) := ((s.reportPa pa false).acquire core scope).loadLong len r dst
          .next (s.sendLoad (.sector (pa / 48)) (.homeReadRequest q))

/-! ### Stores -/

/-- A store of the issuing instruction, once its data are known (08 R193): the core's own store takes it at once, another
core's by a message, and global memory when its cluster owns the line. A release is held until its condition holds
(05 R115, R436). -/
def doStore (len scope : Nat) (kind : ReqKind) (bytes data : Nat) (ea : Word) (s : State) : Out :=
  withPlace ea (if kind = .store then bytes else 1) .store s fun p s =>
    let core := s.hereCore
    let id := s.here.ctx
    let r : Req := { ctx := id, core := core, kind := kind, addr := 0, size := bytes, data := data, info := ea,
                     scope := scope, ordered := scope != 0 }
    match p with
    | .store loc =>
      let r := { r with addr := loc }
      if s.mustWait id core (.store (locCore loc)) then s.idle 0
      else if s.holdScope scope != 0 then .next ((s.hold id core (s.holdScope scope) (.coreStoreAccess r)).retire len)
      else if locCore loc = core && kind = .store then
        if (s.touches id).any fun t => t.on (.store core) then s.idle 0
        else .next ((s.writeStore loc data bytes).retire len)
      else .next ((s.launchEv (dieOf core) (.coreStoreAccess r)).retire len)
    | .phys pa =>
      let r := { r with addr := pa }
      let nib := match kind with | .nibStore _ => true | _ => false
      if s.mustWait id core (.sector (pa / 48)) || (nib && s.mustFollow id core pa) then s.idle 0
      else
        let s := s.reportPa pa true
        match kind with
        | .nibStore _ =>
          if s.holdScope 0 != 0 then .next ((s.hold id core (s.holdScope 0) (.nibbleStoreExecute r)).retire len)
          else .next ((s.launchEv (dieOf core) (.nibbleStoreExecute r)).retire len)
        | _ =>
          if s.holdScope scope != 0 then .next ((s.hold id core (s.holdScope scope) (.storeVisible r)).retire len)
          else .next ((s.post (.storeVisible r)).retire len)

end Sys2Proof.Machine
end

