-- ==== Sys2Proof/Machine/Int.lean ====
section
/-! DEFINITION. Scalar integer instructions (07 R161 to R170; 03 R76 to R78) and their 16-bit forms (06 Table 6-8), which
read every source under policy 0. -/

namespace Sys2Proof.Machine

open Sys2Proof

/-- A short result in a general register; the pc passes the instruction. -/
def State.putW (s : State) (d : Reg) (v : Word) (n : Nat) : State := ({ s with th := s.th.setW d v }).retire n

/-- A long result: the destination is emptied at issue and its fill is on its way to the line (02 R40, R42, R43). -/
def State.putLong (s : State) (d : Reg) (v : Word) : State :=
  let th := s.th.emptyW d
  (({ s with th := th }).retire 4).post
    (.registerFill s.here.ctx d.toNat (th.etag d.toNat) v false 0 (.core s.hereCore) 0)

/-- Two sources, one short result; `n` is the length of the instruction. -/
def alu2 (n : Nat) (g : Bool) (b : Reg) (h : Bool) (a d : Reg) (f : Word → Word → Word) (s : State) : Out :=
  issue { srcs := [(a.toNat, h), (b.toNat, g)] } s fun s => .next (s.putW d (f (s.th.wv a) (s.th.wv b)) n)

/-- One source, one short result. -/
def alu1 (n : Nat) (h : Bool) (a d : Reg) (f : Word → Word) (s : State) : Out :=
  issue { srcs := [(a.toNat, h)] } s fun s => .next (s.putW d (f (s.th.wv a)) n)

/-- Two sources, one long result. -/
def alu2Long (g : Bool) (b : Reg) (h : Bool) (a d : Reg) (f : Word → Word → Word) (s : State) : Out :=
  issue { srcs := [(a.toNat, h), (b.toNat, g)], long := [d.toNat] } s fun s =>
    .next (s.putLong d (f (s.th.wv a) (s.th.wv b)))

/-- Writes the predicate word; the pc passes the instruction. -/
def State.putPw (s : State) (v : Word) : State := ({ s with th := { s.th with pw := v } }).retire 4

/-- Sum, difference or product (07 Table 7-1): x + y. -/
def execAdd (w g : Bool) (b : Reg) (h : Bool) (a d : Reg) (s : State) : Out :=
  alu2 4 g b h a d (atWidth w (fun _ x y => x + y)) s

/-- Sum, difference or product (07 Table 7-1): x - y. -/
def execSub (w g : Bool) (b : Reg) (h : Bool) (a d : Reg) (s : State) : Out :=
  alu2 4 g b h a d (atWidth w (fun _ x y => x - y)) s

/-- Sum, difference or product (07 Table 7-1): low bits of x x y. -/
def execMul (w g : Bool) (b : Reg) (h : Bool) (a d : Reg) (s : State) : Out :=
  alu2 4 g b h a d (atWidth w (fun _ x y => x * y)) s

/-- MULH (07 Table 7-1): bits [2w-1:w] of the exact product. -/
def execMulh (z w g : Bool) (b : Reg) (h : Bool) (a d : Reg) (s : State) : Out :=
  alu2 4 g b h a d (atWidth w (mulhN z)) s

/-- DIV (03 R77), long. -/
def execDiv (z w g : Bool) (b : Reg) (h : Bool) (a d : Reg) (s : State) : Out :=
  alu2Long g b h a d (atWidth w (divN z)) s

/-- REM (03 R77), long. -/
def execRem (z w g : Bool) (b : Reg) (h : Bool) (a d : Reg) (s : State) : Out :=
  alu2Long g b h a d (atWidth w (remN z)) s

/-- AND (07 Table 7-1). -/
def execAnd (w g : Bool) (b : Reg) (h : Bool) (a d : Reg) (s : State) : Out :=
  alu2 4 g b h a d (atWidth w fun _ x y => x &&& y) s

/-- OR (07 Table 7-1). -/
def execOr (w g : Bool) (b : Reg) (h : Bool) (a d : Reg) (s : State) : Out :=
  alu2 4 g b h a d (atWidth w fun _ x y => x ||| y) s

/-- XOR (07 Table 7-1). -/
def execXor (w g : Bool) (b : Reg) (h : Bool) (a d : Reg) (s : State) : Out :=
  alu2 4 g b h a d (atWidth w fun _ x y => x ^^^ y) s

/-- ANDN (07 Table 7-1). -/
def execAndn (w g : Bool) (b : Reg) (h : Bool) (a d : Reg) (s : State) : Out :=
  alu2 4 g b h a d (atWidth w fun _ x y => x &&& ~~~y) s

/-- ORN (07 Table 7-1). -/
def execOrn (w g : Bool) (b : Reg) (h : Bool) (a d : Reg) (s : State) : Out :=
  alu2 4 g b h a d (atWidth w fun _ x y => x ||| ~~~y) s

/-- SHL (03 R76): the amount is W[b][7:0]. -/
def execShl (w g : Bool) (b : Reg) (h : Bool) (a d : Reg) (s : State) : Out :=
  alu2 4 g b h a d (fun x y => atWidthAmt w shlN x (amount y)) s

/-- SHR (03 R76): the amount is W[b][7:0]. -/
def execShr (w g : Bool) (b : Reg) (h : Bool) (a d : Reg) (s : State) : Out :=
  alu2 4 g b h a d (fun x y => atWidthAmt w shrN x (amount y)) s

/-- SAR (03 R76): the amount is W[b][7:0]. -/
def execSar (w g : Bool) (b : Reg) (h : Bool) (a d : Reg) (s : State) : Out :=
  alu2 4 g b h a d (fun x y => atWidthAmt w sarN x (amount y)) s

/-- ROL (03 R76): the amount is W[b][7:0]. -/
def execRol (w g : Bool) (b : Reg) (h : Bool) (a d : Reg) (s : State) : Out :=
  alu2 4 g b h a d (fun x y => atWidthAmt w rolN x (amount y)) s

/-- ROR (03 R76): the amount is W[b][7:0]. -/
def execRor (w g : Bool) (b : Reg) (h : Bool) (a d : Reg) (s : State) : Out :=
  alu2 4 g b h a d (fun x y => atWidthAmt w rorN x (amount y)) s

/-- CLZ (07 Table 7-1). -/
def execClz (w h : Bool) (a d : Reg) (s : State) : Out :=
  alu1 4 h a d (fun x => BitVec.ofNat 64 (leadingZeros (takeW w x) (widthOf w))) s

/-- CTZ (07 Table 7-1). -/
def execCtz (w h : Bool) (a d : Reg) (s : State) : Out :=
  alu1 4 h a d (fun x => BitVec.ofNat 64 (trailingZeros (takeW w x) (widthOf w))) s

/-- POPC (07 Table 7-1). -/
def execPopc (w h : Bool) (a d : Reg) (s : State) : Out :=
  alu1 4 h a d (fun x => BitVec.ofNat 64 (popcount (takeW w x) (widthOf w))) s

/-- BEXT (07 R166). -/
def execBext (z w g : Bool) (b : Reg) (h : Bool) (a d : Reg) (s : State) : Out :=
  alu2 4 g b h a d (bextVal z w) s

/-- BINS (07 R166): the destination is read too, under policy 0 (R161). -/
def execBins (w g : Bool) (b : Reg) (h : Bool) (a d : Reg) (s : State) : Out :=
  issue { srcs := [(a.toNat, h), (b.toNat, g), (d.toNat, false)] } s fun s =>
    .next (s.putW d (binsVal w (s.th.wv a) (s.th.wv b) (s.th.wv d)) 4)

/-- SEXT (07 Table 7-1). -/
def execSext (sz : BitVec 2) (w h : Bool) (a d : Reg) (s : State) : Out :=
  alu1 4 h a d (sextVal sz w) s

/-- ZEXT (07 Table 7-1). -/
def execZext (sz : BitVec 2) (w h : Bool) (a d : Reg) (s : State) : Out :=
  alu1 4 h a d (zextVal sz w) s

/-- MIN (07 Table 7-1). -/
def execMin (z w g : Bool) (b : Reg) (h : Bool) (a d : Reg) (s : State) : Out :=
  alu2 4 g b h a d (atWidth w (minN z)) s

/-- MAX (07 Table 7-1). -/
def execMax (z w g : Bool) (b : Reg) (h : Bool) (a d : Reg) (s : State) : Out :=
  alu2 4 g b h a d (atWidth w (maxN z)) s

/-- ABS (07 Table 7-1). -/
def execAbs (w h : Bool) (a d : Reg) (s : State) : Out :=
  alu1 4 h a d (absVal w) s

/-- MOV (07 Table 7-1): x, so W clears the high half. -/
def execMov (w h : Bool) (a d : Reg) (s : State) : Out :=
  alu1 4 h a d (fun x => BitVec.ofNat 64 (takeW w x)) s

/-- SEL (07 Table 7-1): a bit of the predicate word chooses the source. -/
def execSel (p : BitVec 6) (g : Bool) (b : Reg) (h : Bool) (a d : Reg) (s : State) : Out :=
  issue { srcs := [(a.toNat, h), (b.toNat, g)] } s fun s =>
    .next (s.putW d (if pwBit s.th.pw p then s.th.wv a else s.th.wv b) 4)

/-- CMP (07 Table 7-1, 06 Table 6-4): writes one bit of the predicate word. -/
def execCmp (w : Bool) (p : BitVec 6) (g : Bool) (b : Reg) (h : Bool) (a : Reg) (c : BitVec 3) (s : State) : Out :=
  issue { srcs := [(a.toNat, h), (b.toNat, g)] } s fun s =>
    let x := s.th.wv a
    let y := s.th.wv b
    .next (s.putPw (setPwBit s.th.pw p
      (if w then intCond c (x.setWidth 32) (y.setWidth 32) else intCond c x y)))

/-- XSET (07 R170): E[d] := W[a], full; it waits for an outstanding fill of ed (02 R42). -/
def execXset (h : Bool) (a d : Reg) (s : State) : Out :=
  issue { srcs := [(a.toNat, h)], eout := [d.toNat] } s fun s =>
    .next (({ s with th := s.th.setE d.toNat (s.th.wv a) }).retire 4)

/-- XGET (07 R170): W[d] := E[a]; fa governs the e source. -/
def execXget (h : Bool) (a d : Reg) (s : State) : Out :=
  issue { srcs := [(8 + a.toNat, h)] } s fun s => .next (s.putW d (s.th.ev a.toNat) 4)

/-- ANDI (07 R167): the immediate is sign-extended and taken to the width. -/
def execAndi (w : Bool) (i : BitVec 12) (h : Bool) (a d : Reg) (s : State) : Out :=
  alu1 4 h a d (fun x => atWidth w (fun _ x y => x &&& y) x (sx i)) s

/-- ORI (07 R167): the immediate is sign-extended and taken to the width. -/
def execOri (w : Bool) (i : BitVec 12) (h : Bool) (a d : Reg) (s : State) : Out :=
  alu1 4 h a d (fun x => atWidth w (fun _ x y => x ||| y) x (sx i)) s

/-- XORI (07 R167): the immediate is sign-extended and taken to the width. -/
def execXori (w : Bool) (i : BitVec 12) (h : Bool) (a d : Reg) (s : State) : Out :=
  alu1 4 h a d (fun x => atWidth w (fun _ x y => x ^^^ y) x (sx i)) s

/-- MULI (07 R167): the immediate is sign-extended and taken to the width. -/
def execMuli (w : Bool) (i : BitVec 12) (h : Bool) (a d : Reg) (s : State) : Out :=
  alu1 4 h a d (fun x => atWidth w (fun _ x y => x * y) x (sx i)) s

/-- SHLI (07 R167): the amount is imm12[7:0]. -/
def execShli (w : Bool) (i : BitVec 8) (h : Bool) (a d : Reg) (s : State) : Out :=
  alu1 4 h a d (fun x => atWidthAmt w shlN x i.toNat) s

/-- SHRI (07 R167): the amount is imm12[7:0]. -/
def execShri (w : Bool) (i : BitVec 8) (h : Bool) (a d : Reg) (s : State) : Out :=
  alu1 4 h a d (fun x => atWidthAmt w shrN x i.toNat) s

/-- SARI (07 R167): the amount is imm12[7:0]. -/
def execSari (w : Bool) (i : BitVec 8) (h : Bool) (a d : Reg) (s : State) : Out :=
  alu1 4 h a d (fun x => atWidthAmt w sarN x i.toNat) s

/-- ROLI (07 R167): the amount is imm12[7:0]. -/
def execRoli (w : Bool) (i : BitVec 8) (h : Bool) (a d : Reg) (s : State) : Out :=
  alu1 4 h a d (fun x => atWidthAmt w rolN x i.toNat) s

/-- RORI (07 R167): the amount is imm12[7:0]. -/
def execRori (w : Bool) (i : BitVec 8) (h : Bool) (a d : Reg) (s : State) : Out :=
  alu1 4 h a d (fun x => atWidthAmt w rorN x i.toNat) s

/-- ADDI (07 R168). -/
def execAddi (i : BitVec 18) (h : Bool) (a d : Reg) (s : State) : Out :=
  alu1 4 h a d (· + sx i) s

/-- MOVI (07 R168). -/
def execMovi (i : BitVec 18) (d : Reg) (s : State) : Out :=
  issue {} s fun s => .next (s.putW d (sx i) 4)

/-- MOVH (07 R168): the immediate is unsigned. -/
def execMovh (i : BitVec 18) (h : Bool) (a d : Reg) (s : State) : Out :=
  alu1 4 h a d (fun x => (x <<< 18) + i.setWidth 64) s

/-- CMPI (07 R169). -/
def execCmpi (p : BitVec 6) (i : BitVec 12) (h : Bool) (a : Reg) (c : BitVec 3) (s : State) : Out :=
  issue { srcs := [(a.toNat, h)] } s fun s => .next (s.putPw (setPwBit s.th.pw p (intCond c (s.th.wv a) (sx i))))

/-! ### 16-bit forms (06 Table 6-8) -/

/-- ADDI, 16-bit: imm5 signed. -/
def execAddiC16 (d a : Reg) (i : BitVec 5) (s : State) : Out :=
  alu1 2 false a d (· + sx i) s

/-- AND with an immediate, 16-bit: imm5 signed. -/
def execAndiC16 (d a : Reg) (i : BitVec 5) (s : State) : Out :=
  alu1 2 false a d (· &&& sx i) s

/-- SHL by an immediate, 16-bit: imm5 unsigned. -/
def execShliC16 (d a : Reg) (i : BitVec 5) (s : State) : Out :=
  alu1 2 false a d (fun x => shlN 64 x i.toNat) s

/-- SHR by an immediate, 16-bit: imm5 unsigned. -/
def execShriC16 (d a : Reg) (i : BitVec 5) (s : State) : Out :=
  alu1 2 false a d (fun x => shrN 64 x i.toNat) s

/-- SAR by an immediate, 16-bit: imm5 unsigned. -/
def execSariC16 (d a : Reg) (i : BitVec 5) (s : State) : Out :=
  alu1 2 false a d (fun x => sarN 64 x i.toNat) s

/-- MOVI, 16-bit: imm8 signed. -/
def execMoviC16 (d : Reg) (i : BitVec 8) (s : State) : Out :=
  issue {} s fun s => .next (s.putW d (sx i) 2)

/-- ADD, 16-bit. -/
def execAddC16 (d a b : Reg) (s : State) : Out :=
  alu2 2 false b false a d (fun x y => x + y) s

/-- SUB, 16-bit. -/
def execSubC16 (d a b : Reg) (s : State) : Out :=
  alu2 2 false b false a d (fun x y => x - y) s

/-- AND, 16-bit. -/
def execAndC16 (d a b : Reg) (s : State) : Out :=
  alu2 2 false b false a d (fun x y => x &&& y) s

/-- OR, 16-bit. -/
def execOrC16 (d a b : Reg) (s : State) : Out :=
  alu2 2 false b false a d (fun x y => x ||| y) s

/-- XOR, 16-bit. -/
def execXorC16 (d a b : Reg) (s : State) : Out :=
  alu2 2 false b false a d (fun x y => x ^^^ y) s

/-- ANDN, 16-bit. -/
def execAndnC16 (d a b : Reg) (s : State) : Out :=
  alu2 2 false b false a d (fun x y => x &&& ~~~y) s

/-- MUL, 16-bit. -/
def execMulC16 (d a b : Reg) (s : State) : Out :=
  alu2 2 false b false a d (fun x y => x * y) s

/-- MOV, 16-bit. -/
def execMovC16 (d a : Reg) (s : State) : Out :=
  alu1 2 false a d (fun x => x) s

/-- SHL, 16-bit. -/
def execShlC16 (d a b : Reg) (s : State) : Out :=
  alu2 2 false b false a d (fun x y => shlN 64 x (amount y)) s

/-- SHR, 16-bit. -/
def execShrC16 (d a b : Reg) (s : State) : Out :=
  alu2 2 false b false a d (fun x y => shrN 64 x (amount y)) s

/-- SAR, 16-bit. -/
def execSarC16 (d a b : Reg) (s : State) : Out :=
  alu2 2 false b false a d (fun x y => sarN 64 x (amount y)) s

end Sys2Proof.Machine
end

