-- ==== Sys2Proof/Machine/MemX.lean ====
section
/-! DEFINITION. Loads and stores (08 R192 to R197), nibble accesses (R198), cache control (R199), atomics (R200 to R202),
fences and timed stores (R203 to R205), and `xld` (07 R171). -/

namespace Sys2Proof.Machine

open Sys2Proof

/-- The source registers of store data: t, and t + 1 for a pair. -/
def dataRegs (z : BitVec 3) (t : Reg) : List Nat := if z == 7 then [t.toNat, (secondReg t).toNat] else [t.toNat]

/-- Store data: W[t], or {W[t+1], W[t]} for a pair. -/
def Ctx.dataOf (c : Ctx) (z : BitVec 3) (t : Reg) : Nat :=
  if z == 7 then (c.wv t).toNat + 2 ^ 64 * (c.wv (secondReg t)).toNat else (c.wv t).toNat % 2 ^ (8 * sizeBytes z)

/-- Store data as a context of a pair shows them (17 R397). -/
def Ctx.shown (c : Ctx) (z : BitVec 3) (t : Reg) : List Word := wordsOf (c.dataOf z t)
where
  /-- The two doublewords of a number. -/
  wordsOf (n : Nat) : List Word := [BitVec.ofNat 64 n, BitVec.ofNat 64 (n / 2 ^ 64)]

/-- A load from W[a] + disp. -/
def loadAt (n : Nat) (scope : Nat) (z : BitVec 3) (h : Bool) (a t : Reg) (ea : Word → Word) (s : State) : Out :=
  issue { srcs := [(a.toNat, h)], use := .load, dst := dataRegs z t, len := n } s fun s =>
    doLoad n scope .load (sizeBytes z) (sizeSigned z) (dataRegs z t) (ea (s.th.wv a)) s

/-- A store to W[a] + disp. -/
def storeAt (n : Nat) (scope : Nat) (z : BitVec 3) (f : Bool) (h : Bool) (a t : Reg) (ea : Word → Word) (s : State) : Out :=
  issue { srcs := (a.toNat, h) :: (dataRegs z t).map fun r => (r, f), use := .visible, len := n,
          mem := some (sizeBytes z, ea (s.th.wv a), s.th.shown z t) } s fun s =>
    doStore n scope .store (sizeBytes z) (s.th.dataOf z t) (ea (s.th.wv a)) s

/-- The anchor-relative address of 04 R93, for a thread of a block: none where it leaves the mesh or the core store. -/
def anchorAddr (anchor : Nat) (dx dy : BitVec 5) (off : Word) : Option Word :=
  let x : Int := xOf anchor + dx.toInt
  let y : Int := yOf anchor + dy.toInt
  if x < 0 || 31 < x || y < 0 || 31 < y || 0xFFFF < off.toNat then none
  else some (BitVec.ofNat 64 (meshBase + coreAt (dieOf anchor) x.toNat y.toNat * 65536 + off.toNat))

/-- The information word of a MESH_RANGE that the anchor-relative form raises (04 R93). -/
def anchorInfo (dx dy : BitVec 5) (off : Word) : Word := dx ++ dy ++ off.setWidth 54

/-- The anchor core of the issuing thread's block. -/
def State.anchor (s : State) : Nat :=
  match get? s.blocks s.th.blk with
  | some b => b.anchor
  | none => 0

/-- The sector of an atomic or nibble store leaves the L1 of the core that issued it (05 R109). -/
def State.dropSector (s : State) (core pa : Nat) : State :=
  s.modCore core fun c => { c with l1 := del c.l1 (pa / 48) }

/-- An atomic (08 R200): relaxed or acquiring ones are sent at once, ones that release are held until their condition
holds (05 R115, R436). -/
def amo (op : AtomOp) (post : Bool) (e : Bool) (o sc : BitVec 3) (g : Bool) (b : Reg) (h : Bool) (a d : Reg) (s : State) : Out :=
  let cas := op == .cas
  issue { srcs := [(a.toNat, h), (b.toNat, g)] ++ (if cas then [(8, false)] else []),
          long := if post then [] else [d.toNat],
          use := if post then .visible else .both, dst := if post then [] else [d.toNat]
          mem := some (if e then 8 else 4, s.th.wv a, ((s.th.wv b).toNat :: if cas then [(s.th.ev 0).toNat] else []).map fun x =>
            BitVec.ofNat 64 (x % 2 ^ (if e then 64 else 32))) } s fun s =>
    let n := if e then 8 else 4
    let ea := s.th.wv a
    withPlace ea n .atomic s fun p s =>
      let core := s.hereCore
      let id := s.here.ctx
      let (addr, inCore) := match p with | .store loc => (loc, true) | .phys pa => (pa, false)
      let spot : Spot := if inCore then .store (locCore addr) else .sector (addr / 48)
      if s.mustWait id core spot || (!inCore && s.mustFollow id core addr) then s.idle 0
      else
        let acq := o == 1 || o == 3 || o == 4
        let rel := o == 2 || o == 3 || o == 4
        let held := s.holdScope (if rel then sc.toNat else 0)
        let s := if inCore then s else s.reportImpure 2
        let s := if acq then s.acquire core sc.toNat else s
        let s := if inCore then s else s.dropSector core addr
        let th := if post then s.th else s.th.emptyW d
        let r : Req := { ctx := id, core := core, kind := .store, addr := addr, size := n, data := (s.th.wv b).toNat % 2 ^ (8 * n),
                         reg := d.toNat, tag := th.etag d.toNat, info := ea, scope := sc.toNat, ordered := acq }
        let ev : Ev := .atomicExecute op post inCore (s.th.ev 0) r
        let s := { s with th := th }
        if held != 0 then .next ((s.hold id core held ev).retire 4)
        else if inCore && s.cutOff (dieOf core) (dieOf (locCore addr)) then
          .next (if post then s.retire 4 else (s.reply (dieOf core) 1 r 0 true).retire 4)
        else .next ((s.launchEv (dieOf core) ev).retire 4)

/-- LD (08 R192, R193). -/
def execLd (k : BitVec 11) (sc : BitVec 3) (z : BitVec 3) (h : Bool) (a t : Reg) (s : State) : Out :=
  loadAt 4 sc.toNat z h a t (fun x => dispAddr x k (sizeBytes z)) s

/-- ST (08 R192, R193). -/
def execSt (k : BitVec 11) (sc : BitVec 3) (z : BitVec 3) (f h : Bool) (a t : Reg) (s : State) : Out :=
  storeAt 4 sc.toNat z f h a t (fun x => dispAddr x k (sizeBytes z)) s

/-- LD, anchor-relative (04 R93): a handler has no anchor (13 R435). -/
def execLdAnchorRel (x y : BitVec 5) (sc : BitVec 3) (z : BitVec 3) (h : Bool) (a t : Reg) (s : State) : Out :=
  issue { ok := s.th.handler == 0, srcs := [(a.toNat, h)], use := .load, dst := dataRegs z t } s fun s =>
    match anchorAddr s.anchor x y (s.th.wv a) with
    | some ea => doLoad 4 sc.toNat .load (sizeBytes z) (sizeSigned z) (dataRegs z t) ea s
    | none => s.fault 8 (anchorInfo x y (s.th.wv a))

/-- ST, anchor-relative. -/
def execStAnchorRel (x y : BitVec 5) (sc : BitVec 3) (z : BitVec 3) (f h : Bool) (a t : Reg) (s : State) : Out :=
  issue { ok := s.th.handler == 0, srcs := (a.toNat, h) :: (dataRegs z t).map fun r => (r, f), use := .visible,
          mem := (anchorAddr s.anchor x y (s.th.wv a)).map fun ea => (sizeBytes z, ea, s.th.shown z t) } s fun s =>
    match anchorAddr s.anchor x y (s.th.wv a) with
    | some ea => doStore 4 sc.toNat .store (sizeBytes z) (s.th.dataOf z t) ea s
    | none => s.fault 8 (anchorInfo x y (s.th.wv a))

/-- LDD, 16-bit (06 Table 6-8). -/
def execLdDC16 (d a : Reg) (i : BitVec 5) (s : State) : Out :=
  loadAt 2 0 3 false a d (fun x => x + BitVec.ofNat 64 (i.toNat * 8)) s

/-- LDW, 16-bit (06 Table 6-8). -/
def execLdWC16 (d a : Reg) (i : BitVec 5) (s : State) : Out :=
  loadAt 2 0 2 false a d (fun x => x + BitVec.ofNat 64 (i.toNat * 4)) s

/-- STD, 16-bit: d is the data. -/
def execStDC16 (d a : Reg) (i : BitVec 5) (s : State) : Out :=
  storeAt 2 0 3 false false a d (fun x => x + BitVec.ofNat 64 (i.toNat * 8)) s

/-- STW, 16-bit: d is the data. -/
def execStWC16 (d a : Reg) (i : BitVec 5) (s : State) : Out :=
  storeAt 2 0 2 false false a d (fun x => x + BitVec.ofNat 64 (i.toNat * 4)) s

/-- AMO_ADD (08 R200). -/
def execAmoAdd (e : Bool) (o sc : BitVec 3) (g : Bool) (b : Reg) (h : Bool) (a d : Reg) (s : State) : Out :=
  amo .add false e o sc g b h a d s

/-- AMO_AND (08 R200). -/
def execAmoAnd (e : Bool) (o sc : BitVec 3) (g : Bool) (b : Reg) (h : Bool) (a d : Reg) (s : State) : Out :=
  amo .and false e o sc g b h a d s

/-- AMO_OR (08 R200). -/
def execAmoOr (e : Bool) (o sc : BitVec 3) (g : Bool) (b : Reg) (h : Bool) (a d : Reg) (s : State) : Out :=
  amo .or false e o sc g b h a d s

/-- AMO_XOR (08 R200). -/
def execAmoXor (e : Bool) (o sc : BitVec 3) (g : Bool) (b : Reg) (h : Bool) (a d : Reg) (s : State) : Out :=
  amo .xor false e o sc g b h a d s

/-- AMO_MINS (08 R200). -/
def execAmoMinS (e : Bool) (o sc : BitVec 3) (g : Bool) (b : Reg) (h : Bool) (a d : Reg) (s : State) : Out :=
  amo .minS false e o sc g b h a d s

/-- AMO_MAXS (08 R200). -/
def execAmoMaxS (e : Bool) (o sc : BitVec 3) (g : Bool) (b : Reg) (h : Bool) (a d : Reg) (s : State) : Out :=
  amo .maxS false e o sc g b h a d s

/-- AMO_SWP (08 R200). -/
def execAmoSwp (e : Bool) (o sc : BitVec 3) (g : Bool) (b : Reg) (h : Bool) (a d : Reg) (s : State) : Out :=
  amo .swp false e o sc g b h a d s

/-- AMO_CAS (08 R200). -/
def execAmoCas (e : Bool) (o sc : BitVec 3) (g : Bool) (b : Reg) (h : Bool) (a d : Reg) (s : State) : Out :=
  amo .cas false e o sc g b h a d s

/-- AMO_FADD (08 R200). -/
def execAmoFadd (e : Bool) (o sc : BitVec 3) (g : Bool) (b : Reg) (h : Bool) (a d : Reg) (s : State) : Out :=
  amo .fadd false e o sc g b h a d s

/-- AMO_MINZ (08 R200). -/
def execAmoMinZ (e : Bool) (o sc : BitVec 3) (g : Bool) (b : Reg) (h : Bool) (a d : Reg) (s : State) : Out :=
  amo .minZ false e o sc g b h a d s

/-- AMO_MAXZ (08 R200). -/
def execAmoMaxZ (e : Bool) (o sc : BitVec 3) (g : Bool) (b : Reg) (h : Bool) (a d : Reg) (s : State) : Out :=
  amo .maxZ false e o sc g b h a d s

/-- AMO_ADD_POST. -/
def execAmoAddPost (e : Bool) (o sc : BitVec 3) (g : Bool) (b : Reg) (h : Bool) (a : Reg) (s : State) : Out :=
  amo .add true e o sc g b h a 0 s

/-- AMO_AND_POST. -/
def execAmoAndPost (e : Bool) (o sc : BitVec 3) (g : Bool) (b : Reg) (h : Bool) (a : Reg) (s : State) : Out :=
  amo .and true e o sc g b h a 0 s

/-- AMO_OR_POST. -/
def execAmoOrPost (e : Bool) (o sc : BitVec 3) (g : Bool) (b : Reg) (h : Bool) (a : Reg) (s : State) : Out :=
  amo .or true e o sc g b h a 0 s

/-- AMO_XOR_POST. -/
def execAmoXorPost (e : Bool) (o sc : BitVec 3) (g : Bool) (b : Reg) (h : Bool) (a : Reg) (s : State) : Out :=
  amo .xor true e o sc g b h a 0 s

/-- AMO_MINS_POST. -/
def execAmoMinSPost (e : Bool) (o sc : BitVec 3) (g : Bool) (b : Reg) (h : Bool) (a : Reg) (s : State) : Out :=
  amo .minS true e o sc g b h a 0 s

/-- AMO_MAXS_POST. -/
def execAmoMaxSPost (e : Bool) (o sc : BitVec 3) (g : Bool) (b : Reg) (h : Bool) (a : Reg) (s : State) : Out :=
  amo .maxS true e o sc g b h a 0 s

/-- AMO_SWP_POST. -/
def execAmoSwpPost (e : Bool) (o sc : BitVec 3) (g : Bool) (b : Reg) (h : Bool) (a : Reg) (s : State) : Out :=
  amo .swp true e o sc g b h a 0 s

/-- AMO_CAS_POST. -/
def execAmoCasPost (e : Bool) (o sc : BitVec 3) (g : Bool) (b : Reg) (h : Bool) (a : Reg) (s : State) : Out :=
  amo .cas true e o sc g b h a 0 s

/-- AMO_FADD_POST. -/
def execAmoFaddPost (e : Bool) (o sc : BitVec 3) (g : Bool) (b : Reg) (h : Bool) (a : Reg) (s : State) : Out :=
  amo .fadd true e o sc g b h a 0 s

/-- AMO_MINZ_POST. -/
def execAmoMinZPost (e : Bool) (o sc : BitVec 3) (g : Bool) (b : Reg) (h : Bool) (a : Reg) (s : State) : Out :=
  amo .minZ true e o sc g b h a 0 s

/-- AMO_MAXZ_POST. -/
def execAmoMaxZPost (e : Bool) (o sc : BitVec 3) (g : Bool) (b : Reg) (h : Bool) (a : Reg) (s : State) : Out :=
  amo .maxZ true e o sc g b h a 0 s

/-- LD_N (08 R198): a byte load of which one nibble is kept. -/
def execLdN (z u h : Bool) (a d : Reg) (s : State) : Out :=
  issue { srcs := [(a.toNat, h)], use := .load, dst := [d.toNat] } s fun s =>
    doLoad 4 0 (.nibLoad u) 1 (!z) [d.toNat] (s.th.wv a) s

/-- ST_N (08 R198, 04 R102, R103). -/
def execStN (u g : Bool) (b : Reg) (h : Bool) (a : Reg) (s : State) : Out :=
  issue { srcs := [(a.toNat, h), (b.toNat, g)], use := .visible, mem := some (1, s.th.wv a, [s.th.wv b &&& 15]) } s fun s =>
    doStore 4 0 (.nibStore u) 1 ((s.th.wv b).toNat % 16) (s.th.wv a) s

/-- The physical address of an instruction of the issuing thread that has no effect where its address is not a mapped global one: it is
translated as any other (15 R358), and never faults. -/
def withHint (va : Word) (s : State) (k : Nat → State → State) : Out :=
  match s.look s.hereCore s.here.ctx va.toNat .hint with
  | .ok pa s => .next ((k pa s).retire 4)
  | .fault _ s => .next (s.retire 4)
  | .wait s => s.idle 0

/-- PF (08 R199): requests the line of W[a] into the core L1, the cluster cache or the memory-side cache. It orders nothing, and is
dropped where the address is not a mapped global one, at any privilege: 04 R84 counts a prefetch of the context window, or at U of
the upper half, among what raises PAGE_PERMISSION, and R199 says that it never faults (DESIGN CHOICE, log 81: R199 is followed). -/
def execPf (l : BitVec 2) (h : Bool) (a : Reg) (s : State) : Out :=
  issue { srcs := [(a.toNat, h)] } s fun s =>
    withHint (s.th.wv a) s fun pa s =>
      let r : Req := { ctx := s.here.ctx, core := s.hereCore, kind := .load, addr := pa, size := 1, reg := 17 + l.toNat, info := s.th.wv a }
      s.post (.homeReadRequest r)

/-- A core's L1 forgets one line. -/
def State.dropL1Line (s : State) (core line : Nat) : State :=
  s.modCore core fun c => { c with l1 := c.l1.filter fun x => x.1 / 4 != line, l1held := c.l1held.filter fun x => x.2 != line }

/-- CFLUSH (08 R199): after the thread's own stores to the line, every cluster cache gives the line up to its home, and the issuing
core's L1 forgets it. It faults as a load of the line's first byte, and has no effect in the mesh window. -/
def execCflush (h : Bool) (a : Reg) (s : State) : Out :=
  issue { srcs := [(a.toNat, h)], use := .visible } s fun s =>
    let v := (s.th.wv a).toNat
    if regionAt v == .mesh then .next (s.retire 4)
    else
      let first := v / 2 ^ 56 * 2 ^ 56 + v % 2 ^ 56 / 192 * 192
      withPlace (BitVec.ofNat 64 first) 1 .load s fun p s =>
        match p with
        | .store _ => .next (s.retire 4)
        | .phys pa =>
          let onLine (t : Touch) : Bool := match t.spot with | .sector n => t.write && n / 4 == pa / 192 | _ => false
          if s.th.fenced != 0 || (s.touches s.here.ctx ++ s.heldTouches s.here.ctx).any onLine then s.idle 0
          else
            let s := if (s.line (pa / 192)).st == .lost then s
              else s.modLine (pa / 192) fun e => { ({} : DirEntry) with await := e.await, req := e.req }
            .next ((s.dropL1Line s.hereCore (pa / 192)).retire 4)

/-- CINVAL (08 R199): never faults. -/
def execCinval (h : Bool) (a : Reg) (s : State) : Out :=
  issue { srcs := [(a.toNat, h)] } s fun s =>
    withHint (s.th.wv a) s fun pa s => s.dropL1Line s.hereCore (pa / 192)

/-- CINVAL_ALL (08 R199). -/
def execCinvalAll  (s : State) : Out :=
  issue {} s fun s => .next ((s.forget s.hereCore).retire 4)

/-- What a fence waits for in its slot has performed (05 Table 5-4): earlier loads, where it acquires, those in flight and those
held, the reads of atomics among them; and every earlier access, for one of kind `.sc`. -/
def State.fenceDone (s : State) (kind scope : Nat) : Bool :=
  (kind == 1 || !((s.touches s.here.ctx ++ s.heldTouches s.here.ctx).any (·.read))) &&
    (kind != 3 || s.released s.here.ctx s.hereCore scope s.held.length)

/-- FENCE (08 R203): a fence of thread scope is a `nop`. Any other waits in its slot until the loads that it orders have performed;
one of `.pk` or `.sy` that releases also for its token rounds (05 R116). One that acquires at `.cl` or wider forgets the L1. Earlier
stores that are still to perform after a `fence.rel` or `fence.ar` hold back the later stores, not the later loads (05 R114, Table
5-6; DEDUCED, log 83); a `fence.sc` waits for them. -/
def execFence (k : BitVec 2) (sc : BitVec 3) (s : State) : Out :=
  issue { use := .visible } s fun s =>
    if sc == 0 then .next (s.retire 4)
    else
      let core := s.hereCore
      let slot := s.here.slot
      let die := dieOf core
      let (rounds, s) := match (nth (s.core core).slots slot {}).fence with
        | some r => (r, s)
        | none => if k == 0 then ([], s) else s.joinRounds die sc.toNat
      if s.roundsDone die rounds && s.fenceDone k.toNat sc.toNat then
        let s := s.modCore core fun c => c.modSlot slot fun x => { x with fence := none }
        let s := if k == 1 then s else s.acquire core sc.toNat
        let open_ := (k == 1 || k == 2) && !s.released s.here.ctx core sc.toNat s.held.length
        let s := if open_ && s.th.fenced.toNat < sc.toNat then { s with th := { s.th with fenced := sc } } else s
        .next (s.retire 4)
      else (s.modCore core fun c => c.modSlot slot fun x => { x with fence := some rounds }).idle 0

/-- STV (08 R204, 05 R125): a store whose destination is filled with the gtime at which the core learns that it has performed. -/
def execStv (z : BitVec 2) (g : Bool) (b : Reg) (h : Bool) (a d : Reg) (s : State) : Out :=
  issue { srcs := [(a.toNat, h), (b.toNat, g)], long := [d.toNat], use := .both, dst := [d.toNat],
          mem := some (2 ^ z.toNat, s.th.wv a, [BitVec.ofNat 64 ((s.th.wv b).toNat % 2 ^ (8 * 2 ^ z.toNat))]) } s fun s =>
    let n := 2 ^ z.toNat
    let ea := s.th.wv a
    withPlace ea n .store s fun p s =>
      let core := s.hereCore
      let id := s.here.ctx
      let (addr, inCore) := match p with | .store loc => (loc, true) | .phys pa => (pa, false)
      let spot : Spot := if inCore then .store (locCore addr) else .sector (addr / 48)
      if s.mustWait id core spot then s.idle 0
      else
        let th := s.th.emptyW d
        let r : Req := { ctx := id, core := core, kind := .storeTs, addr := addr, size := n, data := (s.th.wv b).toNat % 2 ^ (8 * n),
                         reg := d.toNat, tag := th.etag d.toNat, info := ea }
        -- the patch of a global stv is not reported (10 Table 10-5): the block is impure (Table 10-4)
        let s := ({ s with th := th }).reportImpure 1
        if s.holdScope 0 != 0 then
          .next ((s.hold id core (s.holdScope 0) (if inCore then .coreStoreAccess r else .storeVisible r)).retire 4)
        else if inCore then .next ((s.launchEv (dieOf core) (.coreStoreAccess r)).retire 4)
        else .next ((s.post (.storeVisible r)).retire 4)

/-- A kind-6 deadline has been reached (02 Table 2-2). -/
def reached (gtime deadline : Nat) : Bool := (gtime + 2 ^ 60 - deadline % 2 ^ 60) % 2 ^ 60 < 2 ^ 59

/-- TWAIT (08 R205): TIME_UNSYNC on an unlocked die; past its deadline it forgets the L1 and retires; else it waits with kind 6 and its pc on it. -/
def execTwait (h : Bool) (a : Reg) (s : State) : Out :=
  issue { srcs := [(a.toNat, h)], use := .meet } s fun s =>
    let d := s.hereDie
    let x := s.th.wv a
    if !(s.die d).locked then s.fault 0x12 x
    else if reached (s.dieTime d) (x.toNat % 2 ^ 60) then .next ((s.forget s.hereCore).retire 4)
    else .next { s with th := { s.th with kind := 6, warg := x.setWidth 60, stall := none } }

/-- XLD (07 R171): long, into an extension register. -/
def execXld (k : BitVec 7) (h : Bool) (a d : Reg) (s : State) : Out :=
  issue { srcs := [(a.toNat, h)], eout := [d.toNat], use := .load, dst := [8 + d.toNat] } s fun s =>
    doLoad 4 0 .load 8 false [8 + d.toNat] (s.th.wv a + sx k * 8) s

end Sys2Proof.Machine
end

