-- ==== Sys2Proof/Machine/Bits.lean ====
section
/-! DEFINITION. The EXT-BITS major (07 R183 to R188): a stream of bits in e0 and e1, and the CRC. Only wide cores execute
it (02 R56). -/

namespace Sys2Proof.Machine

open Sys2Proof

/-- BITSTREAM_OVERRUN with its information word (07 R186). -/
def State.overrun (s : State) (flag : Bool) : Out :=
  s.fault 0x0F (BitVec.ofNat 64 ((if flag then 2 ^ 63 else 0) + (s.th.ev 0).toNat % 2 ^ 60))

/-- The stream position and end; bits [63:60] of either raise BITSTREAM_OVERRUN (07 R183). -/
def withStream (s : State) (act : Nat → Nat → Out) : Out :=
  let p := (s.th.ev 0).toNat
  let e := (s.th.ev 1).toNat
  if 2 ^ 60 ≤ p || 2 ^ 60 ≤ e then s.overrun false else act p e

/-- Writes e0. -/
def State.setPos (s : State) (p : Nat) : State := { s with th := s.th.setE 0 (BitVec.ofNat 64 p) }

/-- The count of an instruction: an immediate less one, or a register (07 R184). -/
def issueCount (n : Option (BitVec 6)) (g : Bool) (b : Reg) (q : Issue) (s : State) (act : Nat → State → Out) : Out :=
  match n with
  | some i => issue { q with srcs := [(8, false), (9, false)] } s (act (i.toNat + 1))
  | none => issue { q with srcs := [(b.toNat, g), (8, false), (9, false)] } s fun s => act (s.th.wv b).toNat s

/-- The places of some bytes, each checked as `ld.b` checks it, in order (07 R188). -/
def withPlaces (s : State) (addrs : List Nat) (k : List Place → State → Out) : Out :=
  match addrs with
  | [] => k [] s
  | a :: r => withPlace (BitVec.ofNat 64 a) 1 .load s fun p s => withPlaces s r fun ps s => k (p :: ps) s

/-- The byte at a place, if a plain load of it would be short: from the L1, or the core's own store. -/
def State.nearByte (s : State) (p : Place) : Option Byte :=
  match p with
  | .phys pa =>
    if s.l1Clear p.spot && !s.markedAt (l1Place s.hereCore + pa) 1 then ((s.core s.hereCore).cached pa 1).map fun v => BitVec.ofNat 8 v
    else none
  | .store loc =>
    if locCore loc = s.hereCore && !s.markedAt (storePlace + loc) 1 && !s.heldAt s.here.ctx s.hereCore p.spot &&
        !(s.touches s.here.ctx).any fun t => t.on p.spot then some (readByte s.cstore loc) else none

/-- Reports the patches of some places. -/
def State.reportPlaces (s : State) (ps : List Place) : State :=
  each ps (fun p s => match p with | .phys pa => s.reportPa pa false | .store _ => s) s

/-- A place whose byte is poison: in the store of a core whose die no way leads to (16 R387), or a poisoned word of the core's own L1 or
store (17 R392). -/
def State.severed (s : State) : Place → Bool
  | .phys pa => s.markedAt (l1Place s.hereCore + pa) 1 && ((s.core s.hereCore).cached pa 1).isSome
  | .store loc => s.cutOff s.hereDie (dieOf (locCore loc)) || (locCore loc == s.hereCore && s.markedAt (storePlace + loc) 1)

/-- Counts and reports the places of a read that its core does not see: an L1 miss, or an access of another core's store (19 R419,
R421). -/
def State.countFar (s : State) (far : List Place) : State :=
  let one (n : Nat) (s : State) : State := (s.countCore s.hereCore n (some s.here.slot)).pcReport s.hereCore s.here.ctx (if n = 4 then 4 else 7)
  let miss := far.any fun x => match x with | .phys _ => true | .store _ => false
  let away := far.any fun x => match x with | .phys _ => false | .store loc => locCore loc != s.hereCore
  let s := if miss then one 4 s else s
  if away then one 5 s else s

/-- `getb` and `peekb` (07 R184, R188): short if every byte is near, else long; the position is advanced at issue. A byte in the store
of a failed die poisons the reply (16 R387). -/
def readBits (adv : Bool) (d : Reg) (cnt : Nat) (s : State) : Out :=
  withStream s fun p e =>
    let n := min cnt 64
    let done (s : State) : State := if adv then s.setPos (p + n) else s
    if e < p + n then s.overrun false
    else if n = 0 then .next ((done s).putW d 0 4)
    else
      let first := p / 8
      let cntB := (p + n - 1) / 8 - first + 1
      withPlaces s ((List.range cntB).map (first + ·)) fun ps s =>
        if ps.any fun x => s.mustHold s.here.ctx s.hereCore x.spot then s.idle 0
        else
          let near := ps.filterMap s.nearByte
          if near.length = cntB then
            .next ((done (s.reportPlaces ps)).putW d (BitVec.ofNat 64 (streamBits near (p % 8) n)) 4)
          else if s.th.pend.getLsbD d.toNat then s.idle (mkTag 1 (16 + d.toNat))
          else
            let s := done ((s.reportPlaces ps).countFar (ps.filter fun x => s.nearByte x == none))
            let th := s.th.emptyW d
            let s := { s with th := th }.retire 4
            let at_ : Place → Nat | .phys pa => pa | .store loc => loc
            let addrs := ps.map at_
            let a0 := addrs.headD 0
            -- bytes that follow the first one in place, and where the others begin
            let run := ((List.range cntB).takeWhile fun i => nth addrs i 0 == a0 + i).length
            let r : Req := { ctx := s.here.ctx, core := s.hereCore, kind := .stream (p % 8) n run, addr := a0, size := cntB,
                             data := nth addrs run 0, reg := d.toNat, tag := th.etag d.toNat, info := BitVec.ofNat 64 first }
            let ev : Ev := match ps.headD (.phys 0) with
              | .phys _ => .homeReadRequest r
              | .store _ => .coreStoreAccess r
            if ps.any s.severed then .next (s.reply s.hereDie 1 r 0 true)
            else
              -- behind what the core holds for any of its places (05 R108, R436)
              match ps.find? fun x => s.heldAt s.here.ctx s.hereCore x.spot with
              | some x => .next (s.sendLoad x.spot ev)
              | none => .next (s.sendLoad (ps.headD (.phys 0)).spot ev)

/-- What a scan for an Exp-Golomb code meets (07 R185). -/
inductive Scan where
  | code (bits : List Bool)
  | overrun (flag : Bool)
  | need (addr : Nat)
deriving DecidableEq, Repr

/-- The place of a byte, if it is translated by a TLB that holds it and permits a load. -/
def State.nearPlace (s : State) (va : Nat) : Option Place :=
  if regionAt va == .mesh then
    if s.outside s.th.part ((va - meshBase) / 2 ^ 26 % 8) then none else some (.store (va - meshBase))
  else match s.look s.hereCore s.here.ctx va .load with
    | .ok pa _ => some (.phys pa)
    | _ => none

/-- A stream bit that the slot can see, once nothing that the read follows is on its way (07 R188, 05 R109, R111, R118). No L1
holds bytes of another core's store, for which the rule waits: each is read at its owner, by a message, and kept for the scan
(DEDUCED, log 84). -/
def State.streamBit (s : State) (p : Nat) : Option Bool :=
  match s.nearPlace (p / 8) with
  | none => none
  | some pl =>
    if s.mustWait s.here.ctx s.hereCore pl.spot then none
    else
      let byte := match pl with
        | .store loc =>
          if locCore loc = s.hereCore then s.nearByte pl else get? s.th.seen (p / 8)
        | .phys _ => s.nearByte pl
      byte.map fun b => b.getLsbD (7 - p % 8)

/-- The leading zeros of a code from a position on. -/
def scanZeros (s : State) (p e : Nat) (z : Nat) : Nat → Scan
  | 0 => .overrun true
  | k + 1 =>
    if e ≤ p + z then .overrun false
    else match s.streamBit (p + z) with
      | none => .need ((p + z) / 8)
      | some true => .code (List.replicate z false)
      | some false => if z + 1 = 32 then .overrun true else scanZeros s p e (z + 1) k

/-- The bits of a code after its zeros. -/
def scanBits (s : State) (p : Nat) (acc : List Bool) : Nat → Scan
  | 0 => .code acc
  | k + 1 =>
    match s.streamBit p with
    | none => .need (p / 8)
    | some b => scanBits s (p + 1) (acc ++ [b]) k

/-- `getue` and `getse` (07 R185, R188): the slot scans as far as it sees the stream, requests the first byte it does not
see, and issues when it sees the whole code. -/
def expGolomb (d : Reg) (f : Nat → Word) (s : State) : Out :=
  withStream s fun p e =>
    let need (a : Nat) : Out :=
      withPlace (BitVec.ofNat 64 a) 1 .load s fun pl s =>
        match pl with
        | .store loc =>
          let mine : Ev → Bool
            | .coreStoreAccess r => r.ctx == s.here.ctx && r.reg == 18
            | .registerFill c 18 _ _ _ _ _ _ => c == s.here.ctx
            | _ => false
          let r : Req := { ctx := s.here.ctx, core := s.hereCore, kind := .load, addr := loc, size := 1, reg := 18, info := BitVec.ofNat 64 a }
          if (locCore loc = s.hereCore && !s.severed pl) || s.mustWait s.here.ctx s.hereCore pl.spot || (s.flying.any mine) ||
              (s.touches s.here.ctx).any (fun t => t.on pl.spot) then s.idle 0
          else
            let s := s.countFar [pl]
            if s.severed pl then (s.reply s.hereDie 1 r 0 true).idle 0
            else (s.launchEv s.hereDie (.coreStoreAccess r)).idle 0
        | .phys pa =>
          let mine : Ev → Bool
            | .homeReadRequest r => r.ctx == s.here.ctx && r.addr / 48 == pa / 48
            | .registerFill c 16 _ _ _ _ _ _ => c == s.here.ctx
            | _ => false
          let r : Req := { ctx := s.here.ctx, core := s.hereCore, kind := .load, addr := pa, size := 1, reg := 16, info := BitVec.ofNat 64 a }
          if s.mustWait s.here.ctx s.hereCore pl.spot || s.flying.any mine then s.idle 0
          else if s.severed pl then (s.reply s.hereDie 0 r 0 true).idle 0
          else ((s.countFar [pl]).post (.homeReadRequest { ctx := s.here.ctx, core := s.hereCore, kind := .load, addr := pa, size := 1,
                                                           reg := 16, info := BitVec.ofNat 64 a })).idle 0
    match scanZeros s p e 0 32 with
    | .overrun f => s.overrun f
    | .need a => need a
    | .code zs =>
      let z := zs.length
      if e < p + 2 * z + 1 then s.overrun false
      else match scanBits s (p + z) [] (z + 1) with
        | .need a => need a
        | .overrun f => s.overrun f
        | .code bs =>
          let k := bs.foldl (fun n b => 2 * n + (if b then 1 else 0)) 0 - 1
          let n := (p + 2 * z) / 8 - p / 8 + 1
          let ps := (List.range n).filterMap fun i => s.nearPlace (p / 8 + i)
          let s := s.reportPlaces ps
          let s := s.modCore s.hereCore fun c => { c with l1held := c.l1held.filter fun x => x.1 != s.here.ctx }
          .next ((s.setPos (p + 2 * z + 1)).putW d (f k) 4)

/-- BSOPEN (07 R184). -/
def execBsopen (g : Bool) (b : Reg) (h : Bool) (a : Reg) (s : State) : Out :=
  extGate 2 s fun s =>
    issue { srcs := [(a.toNat, h), (b.toNat, g)], eout := [0, 1] } s fun s =>
      let x := (s.th.wv a).toNat
      let y := (s.th.wv b).toNat
      if 2 ^ 57 ≤ x + y then s.fault 6 (s.th.wv a)
      else .next ({ s with th := (s.th.setE 0 (BitVec.ofNat 64 (8 * x))).setE 1 (BitVec.ofNat 64 (8 * (x + y))) }.retire 4)

/-- GETB, with a register count. -/
def execGetb (g : Bool) (b d : Reg) (s : State) : Out :=
  extGate 2 s fun s => issueCount none g b { use := .meet } s (readBits true d)

/-- GETB, with an immediate count. -/
def execGetbImm (n : BitVec 6) (d : Reg) (s : State) : Out :=
  extGate 2 s fun s => issueCount (some n) false 0 { use := .meet } s (readBits true d)

/-- PEEKB, with a register count. -/
def execPeekb (g : Bool) (b d : Reg) (s : State) : Out :=
  extGate 2 s fun s => issueCount none g b { use := .meet } s (readBits false d)

/-- PEEKB, with an immediate count. -/
def execPeekbImm (n : BitVec 6) (d : Reg) (s : State) : Out :=
  extGate 2 s fun s => issueCount (some n) false 0 { use := .meet } s (readBits false d)

/-- `skipb`: the position moves on and no memory is read. -/
def skipBits (n : Nat) (s : State) : Out :=
  withStream s fun p e => if e < p + n then s.overrun false else .next ((s.setPos (p + n)).retire 4)

/-- SKIPB, with a register count. -/
def execSkipb (g : Bool) (b : Reg) (s : State) : Out :=
  extGate 2 s fun s => issueCount none g b {} s skipBits

/-- SKIPB, with an immediate count. -/
def execSkipbImm (n : BitVec 6) (s : State) : Out :=
  extGate 2 s fun s => issueCount (some n) false 0 {} s skipBits

/-- GETUE. -/
def execGetue (d : Reg) (s : State) : Out :=
  extGate 2 s fun s =>
    issue { srcs := [(8, false), (9, false)], use := .meet } s (expGolomb d fun k => BitVec.ofNat 64 k)

/-- GETSE: odd codes are positive, even ones negative. -/
def execGetse (d : Reg) (s : State) : Out :=
  extGate 2 s fun s =>
    issue { srcs := [(8, false), (9, false)], use := .meet } s
      (expGolomb d fun k => if k % 2 = 1 then BitVec.ofNat 64 ((k + 1) / 2) else -BitVec.ofNat 64 (k / 2))

/-- BSALIGN. -/
def execBsalign (s : State) : Out :=
  extGate 2 s fun s =>
    issue { srcs := [(8, false), (9, false)] } s fun s =>
      withStream s fun p e =>
        let q := (p + 7) / 8 * 8
        if e < q then s.overrun false else .next ((s.setPos q).retire 4)

/-- CRC (07 R187). -/
def execCrc (p : Bool) (c : BitVec 3) (g : Bool) (b : Reg) (h : Bool) (a d : Reg) (s : State) : Out :=
  extGate 2 s (alu2 4 g b h a d fun x y =>
    (crcVal (if p then 0x82F63B78 else 0xEDB88320) (x.setWidth 32) y (c.toNat + 1)).setWidth 64)

end Sys2Proof.Machine
end

