-- ==== Sys2Proof/Machine/Control.lean ====
section
/-! DEFINITION. Predicate-word and control-transfer instructions (07 R180 to R182, 06 R139, R140, R147, R148). -/

namespace Sys2Proof.Machine

open Sys2Proof

/-- A branch of `n` bytes: to the target where it is taken, else to the next instruction. -/
def State.branch (s : State) (n : Nat) (taken : Bool) (t : BitVec 57) : State :=
  let s := s.retire n
  if taken then { s with th := { s.th with pc := t } } else s

/-- A branch on the value of a register. -/
def branchOn {m : Nat} (n : Nat) (k : BitVec m) (h : Bool) (a : Reg) (f : Word → Bool) (s : State) : Out :=
  issue { srcs := [(a.toNat, h)] } s fun s => .next (s.branch n (f (s.th.wv a)) (target s.th.pc k))

/-- A branch on the predicate word, which is never empty. -/
def branchPw {m : Nat} (n : Nat) (k : BitVec m) (f : Word → Bool) (s : State) : Out :=
  issue {} s fun s => .next (s.branch n (f s.th.pw) (target s.th.pc k))

/-- A jump to a register's value (07 R182): an odd one raises ALIGN, one of 2^57 or more PAGE_NOT_PRESENT. A link writes
the address of the next instruction to w7 after W[a] is read. -/
def jump (n : Nat) (link : Bool) (h : Bool) (a : Reg) (s : State) : Out :=
  issue { srcs := [(a.toNat, h)] } s fun s =>
    let t := s.th.wv a
    if t.getLsbD 0 then s.fault 5 t
    else if t.extractLsb' 57 7 != 0 then s.fault 6 t
    else
      let th := if link then s.th.setW 7 ((s.th.pc + BitVec.ofNat 57 n).setWidth 64) else s.th
      .next (({ s with th := th }).branch n true (t.setWidth 57))

/-- PSET (07 Table 7-7). -/
def execPset (n : BitVec 6) (s : State) : Out :=
  issue {} s fun s => .next (s.putPw (setPwBit s.th.pw n true))

/-- PCLR. -/
def execPclr (n : BitVec 6) (s : State) : Out :=
  issue {} s fun s => .next (s.putPw (setPwBit s.th.pw n false))

/-- PNOT: mask byte d := not mask byte a. -/
def execPnot (a d : Reg) (s : State) : Out :=
  issue {} s fun s => .next (s.putPw (setMaskByte s.th.pw d (~~~maskByte s.th.pw a)))

/-- PAND. -/
def execPand (b a d : Reg) (s : State) : Out :=
  issue {} s fun s => .next (s.putPw (setMaskByte s.th.pw d (maskByte s.th.pw a &&& maskByte s.th.pw b)))

/-- POR. -/
def execPor (b a d : Reg) (s : State) : Out :=
  issue {} s fun s => .next (s.putPw (setMaskByte s.th.pw d (maskByte s.th.pw a ||| maskByte s.th.pw b)))

/-- PXOR. -/
def execPxor (b a d : Reg) (s : State) : Out :=
  issue {} s fun s => .next (s.putPw (setMaskByte s.th.pw d (maskByte s.th.pw a ^^^ maskByte s.th.pw b)))

/-- PWR: W[d] := PW. -/
def execPwr (d : Reg) (s : State) : Out :=
  issue {} s fun s => .next (s.putW d s.th.pw 4)

/-- PWW. -/
def execPww (g : Bool) (b : Reg) (h : Bool) (a : Reg) (s : State) : Out :=
  issue { srcs := [(a.toNat, h), (b.toNat, g)] } s fun s =>
    .next (s.putPw ((s.th.pw &&& ~~~s.th.wv b) ||| (s.th.wv a &&& s.th.wv b)))

/-- PCNT. -/
def execPcnt (h : Bool) (a d : Reg) (s : State) : Out :=
  issue { srcs := [(a.toNat, h)] } s fun s =>
    .next (s.putW d (BitVec.ofNat 64 (popcount (s.th.pw &&& s.th.wv a).toNat 64)) 4)

/-- JR (07 Table 7-8). -/
def execJr (h : Bool) (a : Reg) (s : State) : Out :=
  jump 4 false h a s

/-- JR_L: links in w7. -/
def execJrL (h : Bool) (a : Reg) (s : State) : Out :=
  jump 4 true h a s

/-- NOP. -/
def execNop  (s : State) : Out :=
  issue {} s fun s => .next (s.retire 4)

/-- B. -/
def execB (k : BitVec 25) (s : State) : Out :=
  branchPw 4 k (fun _ => true) s

/-- BL: links in w7. -/
def execBl (k : BitVec 25) (s : State) : Out :=
  issue {} s fun s =>
    .next (({ s with th := s.th.setW 7 ((s.th.pc + 4).setWidth 64) }).branch 4 true (target s.th.pc k))

/-- BZ. -/
def execBz (k : BitVec 18) (h : Bool) (a : Reg) (s : State) : Out :=
  branchOn 4 k h a (· == 0) s

/-- BNZ. -/
def execBnz (k : BitVec 18) (h : Bool) (a : Reg) (s : State) : Out :=
  branchOn 4 k h a (· != 0) s

/-- BANY: mask byte a is not zero. -/
def execBany (k : BitVec 18) (a : Reg) (s : State) : Out :=
  branchPw 4 k (fun pw => maskByte pw a != 0) s

/-- BALL: mask byte a is 0xFF. -/
def execBall (k : BitVec 18) (a : Reg) (s : State) : Out :=
  branchPw 4 k (fun pw => maskByte pw a == 0xFF) s

/-- BNONE: mask byte a is zero. -/
def execBnone (k : BitVec 18) (a : Reg) (s : State) : Out :=
  branchPw 4 k (fun pw => maskByte pw a == 0) s

/-- LOOP: W[a] := W[a] - 1; taken if the new value is not 0. -/
def execLoop (k : BitVec 18) (h : Bool) (a : Reg) (s : State) : Out :=
  issue { srcs := [(a.toNat, h)] } s fun s =>
    let v := s.th.wv a - 1
    .next (({ s with th := s.th.setW a v }).branch 4 (v != 0) (target s.th.pc k))

/-- BPT: taken if the predicate bit is 1. -/
def execBpt (k : BitVec 18) (p : BitVec 6) (s : State) : Out :=
  branchPw 4 k (fun pw => pwBit pw p) s

/-- BPF: taken if the predicate bit is 0. -/
def execBpf (k : BitVec 18) (p : BitVec 6) (s : State) : Out :=
  branchPw 4 k (fun pw => !pwBit pw p) s

/-- JR, 16-bit. -/
def execJrC16 (a : Reg) (s : State) : Out :=
  jump 2 false false a s

/-- NOP, 16-bit. -/
def execNopC16  (s : State) : Out :=
  issue {} s fun s => .next (s.retire 2)

/-- BZ, 16-bit: the offset is {d, imm5}. -/
def execBzC16 (k : BitVec 3) (a : Reg) (k2 : BitVec 5) (s : State) : Out :=
  branchOn 2 (k ++ k2) false a (· == 0) s

/-- BNZ, 16-bit. -/
def execBnzC16 (k : BitVec 3) (a : Reg) (k2 : BitVec 5) (s : State) : Out :=
  branchOn 2 (k ++ k2) false a (· != 0) s

/-- B, 16-bit. -/
def execBC16 (k : BitVec 11) (s : State) : Out :=
  branchPw 2 k (fun _ => true) s

/-- BPT, 16-bit. -/
def execBptC16 (p : BitVec 6) (k : BitVec 5) (s : State) : Out :=
  branchPw 2 k (fun pw => pwBit pw p) s

/-- BPF, 16-bit. -/
def execBpfC16 (p : BitVec 6) (k : BitVec 5) (s : State) : Out :=
  branchPw 2 k (fun pw => !pwBit pw p) s

/-- FMT (06 R147, R148): a prefix becomes pending; one that finds a prefix pending raises ILLEGAL_INSTR. -/
def execFmt (f : BitVec 4) (r : BitVec 3) (sat : Bool) (s : State) : Out :=
  issue {} s fun s =>
    let s := s.retire 2
    .next { s with th := { s.th with pfx := true, pfxval := f ++ r ++ BitVec.ofBool sat ++ 0#5 } }

end Sys2Proof.Machine
end

