-- ==== Sys2Proof/Machine/Fp.lean ====
section
/-! DEFINITION. Floating-point instructions (07 R175 to R177; 03 R62, R69 to R73) and the EXT-F64 major (07 R178, R179),
which only wide cores execute (02 R56). -/

namespace Sys2Proof.Machine

open Sys2Proof

/-- Prefix rule of arithmetic: a rounding mode, but no format, saturation or SR (07 R175). -/
def roundRule : PfxRule := { any := true, rnd := true }

/-- Rounding mode that the pending prefix gives; RNE without one (03 R69). -/
def Ctx.mode (c : Ctx) : Nat := if c.pfx then pfxMode c.pfxval else 0

/-- Saturation that the pending prefix gives. -/
def Ctx.sat (c : Ctx) : Bool := c.pfx && pfxSat c.pfxval

/-- The FP32 value in the low half of a register, or the binary64 value in all of it. -/
def fval (f : FFmt) (x : Word) : FVal := f.value (bits x.toNat 0 f.width)

/-- The register image of a result. -/
def fword (f : FFmt) (mode : Nat) (v : FVal) : Word := BitVec.ofNat 64 (f.round mode false false 0 v)

/-- A two-source operation, rounded once. -/
def fbin (f : FFmt) (g : Bool) (b : Reg) (h : Bool) (a d : Reg) (op : Bool → FVal → FVal → FVal) (s : State) : Out :=
  issue { srcs := [(a.toNat, h), (b.toNat, g)], pfx := roundRule } s fun s =>
    let m := s.th.mode
    .next (s.putW d (fword f m (op (m == 3) (fval f (s.th.wv a)) (fval f (s.th.wv b)))) 4)

/-- A fused multiply-add: the destination is read under policy 0 (07 R161), and the result is rounded once. -/
def ffma (f : FFmt) (g : Bool) (b : Reg) (h : Bool) (a d : Reg) (s : State) : Out :=
  issue { srcs := [(a.toNat, h), (b.toNat, g), (d.toNat, false)], pfx := roundRule } s fun s =>
    let m := s.th.mode
    .next (s.putW d (fword f m (fAdd (m == 3) (fMul (fval f (s.th.wv a)) (fval f (s.th.wv b))) (fval f (s.th.wv d)))) 4)

/-- A long two-source operation. -/
def fbinLong (f : FFmt) (g : Bool) (b : Reg) (h : Bool) (a d : Reg) (op : FVal → FVal → FVal) (s : State) : Out :=
  issue { srcs := [(a.toNat, h), (b.toNat, g)], long := [d.toNat], pfx := roundRule } s fun s =>
    .next (s.putLong d (fword f s.th.mode (op (fval f (s.th.wv a)) (fval f (s.th.wv b)))))

/-- A long square root. -/
def fsqrtLong (f : FFmt) (h : Bool) (a d : Reg) (s : State) : Out :=
  issue { srcs := [(a.toNat, h)], long := [d.toNat], pfx := roundRule } s fun s =>
    .next (s.putLong d (fword f s.th.mode (fSqrt (fval f (s.th.wv a)))))

/-- The lesser or greater of two values, as their encodings (03 R62). -/
def fpick (f : FFmt) (left : FVal → FVal → Bool) (x y : Word) : Word :=
  let u := fval f x
  let v := fval f y
  if u = .nan && v = .nan then BitVec.ofNat 64 f.nanEnc
  else BitVec.ofNat 64 (bits (if left u v then x else y).toNat 0 f.width)

/-- A comparison into a predicate bit (07 R176). -/
def fcompare (f : FFmt) (p : BitVec 6) (g : Bool) (b : Reg) (h : Bool) (a : Reg) (c : BitVec 3) (s : State) : Out :=
  issue { srcs := [(a.toNat, h), (b.toNat, g)] } s fun s =>
    .next (s.putPw (setPwBit s.th.pw p (fltCond c (fval f (s.th.wv a)) (fval f (s.th.wv b)))))

/-- A converted element as a register holds it (07 R177): sign-extended for the signed integers. -/
def regOf (f : Fmt) (v : Nat) : Word :=
  match f with
  | .int true w => BitVec.ofInt 64 (signed w v)
  | _ => BitVec.ofNat 64 v

/-- The low bits of a register that a format reads (07 R177). -/
def elemOf (f : Fmt) (x : Word) : Nat := bits x.toNat 0 f.width

/-- The job seed of the issuing thread's launch; 0 for a handler (13 R435). -/
def State.seedOf (s : State) (id : Nat) : Word :=
  match get? s.blocks (s.ctx id).blk with
  | some b => match get? s.launches b.launch with
    | some l => l.seed
    | none => 0
  | none => 0

/-- FADD (07 Table 7-4). -/
def execFadd (g : Bool) (b : Reg) (h : Bool) (a d : Reg) (s : State) : Out :=
  fbin fp32 g b h a d (fun rd x y => fAdd rd x y) s

/-- FSUB (07 Table 7-4). -/
def execFsub (g : Bool) (b : Reg) (h : Bool) (a d : Reg) (s : State) : Out :=
  fbin fp32 g b h a d (fun rd x y => fAdd rd x (fNeg y)) s

/-- FMUL (07 Table 7-4). -/
def execFmul (g : Bool) (b : Reg) (h : Bool) (a d : Reg) (s : State) : Out :=
  fbin fp32 g b h a d (fun _ x y => fMul x y) s

/-- FMA (07 Table 7-4). -/
def execFma (g : Bool) (b : Reg) (h : Bool) (a d : Reg) (s : State) : Out :=
  ffma fp32 g b h a d s

/-- FDIV (07 Table 7-4), long. -/
def execFdiv (g : Bool) (b : Reg) (h : Bool) (a d : Reg) (s : State) : Out :=
  fbinLong fp32 g b h a d fDiv s

/-- FSQRT (07 Table 7-4), long. -/
def execFsqrt (h : Bool) (a d : Reg) (s : State) : Out :=
  fsqrtLong fp32 h a d s

/-- FMIN (03 R62). -/
def execFmin (g : Bool) (b : Reg) (h : Bool) (a d : Reg) (s : State) : Out :=
  alu2 4 g b h a d (fpick fp32 minTakesLeft) s

/-- FMAX (03 R62). -/
def execFmax (g : Bool) (b : Reg) (h : Bool) (a d : Reg) (s : State) : Out :=
  alu2 4 g b h a d (fpick fp32 maxTakesLeft) s

/-- FCMP (07 R176). -/
def execFcmp (p : BitVec 6) (g : Bool) (b : Reg) (h : Bool) (a : Reg) (c : BitVec 3) (s : State) : Out :=
  fcompare fp32 p g b h a c s

/-- FCVT (07 R177): to the prefix's format, FP32 without one; SR draws from the mixer of 03 R74, with e3 read at issue. -/
def execFcvt (f : BitVec 4) (h : Bool) (a d : Reg) (s : State) : Out :=
  let sr := s.th.mode == 5
  issue { srcs := (a.toNat, h) :: (if sr then [(11, false)] else []),
          pfx := { any := true, fmt := true, rnd := true, sat := true, sr := srAccepts f.toNat } } s fun s =>
    let dst := fmtOf (if s.th.pfx then pfxFmt s.th.pfxval else 6)
    let e3 := (s.th.ev 3).toNat
    let rnd := mixBits (s.seedOf s.here.ctx) (bits e3 0 32) (bits e3 32 16) (bits e3 48 16)
    let v := convert (fmtOf f.toNat) dst s.th.mode s.th.sat false rnd (elemOf (fmtOf f.toNat) (s.th.wv a))
    .next (s.putW d (regOf dst v) 4)

/-- FCLASS (07 R176): bit c of W[b] for the class c of W[a]. -/
def execFclass (p : BitVec 6) (g : Bool) (b : Reg) (h : Bool) (a : Reg) (s : State) : Out :=
  issue { srcs := [(a.toNat, h), (b.toNat, g)] } s fun s =>
    .next (s.putPw (setPwBit s.th.pw p ((s.th.wv b).getLsbD (fClass fp32 (bits (s.th.wv a).toNat 0 32)))))

/-! ### EXT-F64 (07 R178, R179) -/

/-- DADD (07 Table 7-6). -/
def execDadd (g : Bool) (b : Reg) (h : Bool) (a d : Reg) (s : State) : Out :=
  extGate 1 s (fbin fp64 g b h a d (fun rd x y => fAdd rd x y))

/-- DSUB (07 Table 7-6). -/
def execDsub (g : Bool) (b : Reg) (h : Bool) (a d : Reg) (s : State) : Out :=
  extGate 1 s (fbin fp64 g b h a d (fun rd x y => fAdd rd x (fNeg y)))

/-- DMUL (07 Table 7-6). -/
def execDmul (g : Bool) (b : Reg) (h : Bool) (a d : Reg) (s : State) : Out :=
  extGate 1 s (fbin fp64 g b h a d (fun _ x y => fMul x y))

/-- DFMA. -/
def execDfma (g : Bool) (b : Reg) (h : Bool) (a d : Reg) (s : State) : Out :=
  extGate 1 s (ffma fp64 g b h a d)

/-- DDIV, long. -/
def execDdiv (g : Bool) (b : Reg) (h : Bool) (a d : Reg) (s : State) : Out :=
  extGate 1 s (fbinLong fp64 g b h a d fDiv)

/-- DSQRT, long. -/
def execDsqrt (h : Bool) (a d : Reg) (s : State) : Out :=
  extGate 1 s (fsqrtLong fp64 h a d)

/-- DCVT_TO (07 R179): from a format to binary64. -/
def execDcvtTo (f : BitVec 4) (h : Bool) (a d : Reg) (s : State) : Out :=
  extGate 1 s fun s =>
    issue { srcs := [(a.toNat, h)], pfx := { any := true, rnd := true, sat := true } } s fun s =>
      let v := convert (fmtOf f.toNat) (.flt fp64) s.th.mode s.th.sat false 0 (elemOf (fmtOf f.toNat) (s.th.wv a))
      .next (s.putW d (BitVec.ofNat 64 v) 4)

/-- DCVT_FROM (07 R179): from binary64 to a format; into MK8 only RNE (03 R66). -/
def execDcvtFrom (f : BitVec 4) (h : Bool) (a d : Reg) (s : State) : Out :=
  extGate 1 s fun s =>
    issue { srcs := [(a.toNat, h)], pfx := { any := true, rnd := f != 14, sat := true } } s fun s =>
      let v := convert (.flt fp64) (fmtOf f.toNat) s.th.mode s.th.sat false 0 (s.th.wv a).toNat
      .next (s.putW d (regOf (fmtOf f.toNat) v) 4)

/-- DCMP (07 R176, R178). -/
def execDcmp (p : BitVec 6) (g : Bool) (b : Reg) (h : Bool) (a : Reg) (c : BitVec 3) (s : State) : Out :=
  extGate 1 s (fcompare fp64 p g b h a c)

end Sys2Proof.Machine
end

