-- ==== Sys2Proof/Machine/Tiles.lean ====
section
/-! DEFINITION. Tiles and handles (04 R96 to R101, 09 R225 to R229): attributes, views, the bytes of a tile and its
elements. -/

namespace Sys2Proof.Machine

open Sys2Proof

/-! ### Handles (04 Table 4-6) and descriptors (09 Table 9-2) -/

/-- The tile-table key that a handle names: 1,024 x (64 x DIE + CLUSTER) + INDEX. -/
def handleKey (h : Nat) : Nat := bits h 13 19
/-- The die that a handle names. -/
def handleDie (h : Nat) : Nat := bits h 29 3
/-- First row of a handle's view. -/
def handleRow (h : Nat) : Nat := bits h 6 7
/-- Row count of a handle's view; 0 means every row to the last. -/
def handleCount (h : Nat) : Nat := bits h 0 6
/-- Format code of a descriptor word. -/
def descFmt (d : Nat) : Nat := bits d 0 4
/-- Rows of a descriptor word. -/
def descRows (d : Nat) : Nat := bits d 4 7 + 1
/-- Columns of a descriptor word. -/
def descCols (d : Nat) : Nat := bits d 11 10 + 1
/-- MX axis of a descriptor word: 0 none, 1 ROW, 2 COLUMN. -/
def descAxis (d : Nat) : Nat := bits d 21 2

/-- A descriptor word that `talloc` accepts (09 R224, 04 Table 4-5). -/
def descOk (d : Nat) : Bool :=
  d < 2 ^ 23 && descAxis d != 3 && descCols d ≤ 4096 / (fmtOf (descFmt d)).storage &&
    (descAxis d == 0 || isMx (descFmt d)) && (descAxis d != 1 || descCols d % 32 == 0) &&
    (descAxis d != 2 || descRows d % 32 == 0)

/-- Rows of a tile, or of its scale half (04 R99). -/
def halfRows (desc : Nat) (scale : Bool) : Nat := if scale && descAxis desc == 2 then descRows desc / 32 else descRows desc
/-- Columns of a tile, or of its scale half. -/
def halfCols (desc : Nat) (scale : Bool) : Nat := if scale && descAxis desc == 1 then descCols desc / 32 else descCols desc
/-- Format code of a tile; 16 stands for E8M0, which has none (03 Table 3-1). -/
def halfFmt (desc : Nat) (scale : Bool) : Nat := if scale then 16 else descFmt desc
/-- Storage bits of an element. -/
def halfStorage (desc : Nat) (scale : Bool) : Nat := if scale then 8 else (fmtOf (descFmt desc)).storage
/-- Value bits of an element. -/
def halfWidth (desc : Nat) (scale : Bool) : Nat := if scale then 8 else (fmtOf (descFmt desc)).width
/-- Row bytes (04 Table 4-5). -/
def rowBytes (desc : Nat) (scale : Bool) : Nat := (halfCols desc scale * halfStorage desc scale + 7) / 8
/-- Stride: the row bytes rounded up to 32 (04 R96). -/
def stride (desc : Nat) (scale : Bool) : Nat := (rowBytes desc scale + 31) / 32 * 32
/-- 32-byte granules of a tile at its stride. -/
def granulesOf (desc : Nat) (scale : Bool) : Nat := halfRows desc scale * stride desc scale / 32

/-! ### Elements -/

/-- A byte of a tile; one never written is a free value (09 R225). -/
def Tile.byte (t : Tile) (off : Nat) : Byte := (get? t.data off).getD (Config.freeByte t.seed off)
/-- Writes a byte of a tile. -/
def Tile.setByte (t : Tile) (off : Nat) (b : Byte) : Tile := { t with data := put t.data off b }
/-- Offset of the first byte of an element. -/
def Tile.at (t : Tile) (r c : Nat) : Nat := r * stride t.desc t.scale + c * halfStorage t.desc t.scale / 8
/-- The encoding of an element, by the tile's own rows (03 R59: bits [7:6] of a 6-bit element are ignored). -/
def Tile.elem (t : Tile) (r c : Nat) : Nat :=
  let w := halfStorage t.desc t.scale
  let o := t.at r c
  if w = 4 then bits (t.byte o).toNat (4 * (c % 2)) 4
  else natOfBytes ((List.range (w / 8)).map fun i => t.byte (o + i)) % 2 ^ halfWidth t.desc t.scale
/-- Writes an element. -/
def Tile.setElem (t : Tile) (r c v : Nat) : Tile :=
  let w := halfStorage t.desc t.scale
  let o := t.at r c
  if w = 4 then
    let old := (t.byte o).toNat
    t.setByte o (BitVec.ofNat 8 (if c % 2 = 0 then old / 16 * 16 + v % 16 else old % 16 + 16 * (v % 16)))
  else
    let v := v % 2 ^ halfWidth t.desc t.scale
    (List.range (w / 8)).foldl (fun t i => t.setByte (o + i) (BitVec.ofNat 8 (v / 256 ^ i))) t

/-- An operand as an engine sees it: a tile and the rows of its view. -/
structure View where
  t : Tile
  row0 : Nat
  rows : Nat

/-- Columns of a view. -/
def View.cols (v : View) : Nat := halfCols v.t.desc v.t.scale
/-- Format code of a view. -/
def View.fmt (v : View) : Nat := halfFmt v.t.desc v.t.scale
/-- MX axis of a view's tile. -/
def View.axis (v : View) : Nat := if v.t.scale then 0 else descAxis v.t.desc
/-- An element, counted in the view. -/
def View.elem (v : View) (r c : Nat) : Nat := v.t.elem (v.row0 + r) c
/-- Writes every element of a view. -/
def View.fill (v : View) (f : Nat → Nat → Nat) : Tile :=
  (List.range v.rows).foldl (fun t r => (List.range v.cols).foldl (fun t c => t.setElem (v.row0 + r) c (f r c)) t) v.t

/-! ### Handles against the tile table (04 R98) -/

/-- Shape of a handle operand. -/
def TRef.cols (x : TRef) : Nat := halfCols x.desc x.scale
/-- Format code of a handle operand. -/
def TRef.fmt (x : TRef) : Nat := halfFmt x.desc x.scale
/-- MX axis of a handle operand. -/
def TRef.axis (x : TRef) : Nat := if x.scale then 0 else descAxis x.desc

/-- The operand that a handle names for a block, before its view is checked; none where it raises BAD_HANDLE. -/
def State.tileRef (s : State) (blk slot h : Nat) (whole : Bool) : Option TRef :=
  match get? s.blocks blk, get? s.tiles (handleKey h) with
  | some b, some t =>
    let l := get? s.launches b.launch
    let mine := t.block == b.index && (l.map (·.id)) == some t.launch
    let part := (l.map (·.part)).getD 0
    if t.freed || !mine || s.outside part (handleDie h) then none
    else
      let n := halfRows t.desc t.scale
      let row0 := if whole then 0 else handleRow h
      some { slot, handle := h, key := handleKey h, seed := t.seed, desc := t.desc, scale := t.scale, row0,
             rows := if whole then n else if handleCount h = 0 then n - row0 else handleCount h }
  | _, _ => none

/-- The view reaches past the tile's last row (04 R98). -/
def TRef.past (x : TRef) : Bool := halfRows x.desc x.scale < x.row0 + x.rows || x.rows == 0

/-- Two operands share storage (04 R100). -/
def TRef.shares (x y : TRef) : Bool := x.key == y.key && x.row0 < y.row0 + y.rows && y.row0 < x.row0 + x.rows
/-- Two operands coincide. -/
def TRef.coincides (x y : TRef) : Bool := x.key == y.key && x.row0 == y.row0 && x.rows == y.rows

/-- The tile that an operand named at acceptance, if its block has not ended since; else its storage as a free value
(04 R101). -/
def State.tileAt (s : State) (key seed desc : Nat) (scale : Bool) : Tile :=
  let gone : Tile := { desc := desc, launch := 0, block := 0, base := 0, granules := 0, scale := scale, seed := seed }
  match get? s.tiles key with
  | some t => if t.seed = seed then t else gone
  | none => gone

/-- The view of an operand. -/
def State.viewOf (s : State) (x : TRef) : View := ⟨s.tileAt x.key x.seed x.desc x.scale, x.row0, x.rows⟩

/-- The scale half of an operand's MX tile. -/
def State.scaleOf (s : State) (x : TRef) : Tile := s.tileAt (x.key + 1) (x.seed + 1) x.desc true

/-- Writes a tile's new contents, unless the tile is gone (04 R101). -/
def State.putTile (s : State) (key : Nat) (t : Tile) : State :=
  match get? s.tiles key with
  | some u => if u.seed = t.seed then { s with tiles := put s.tiles key { u with data := t.data } } else s
  | none => s

end Sys2Proof.Machine
end

