-- ==== Sys2Proof/Machine/Engine.lean ====
section
/-! DEFINITION. What the engines compute (09 R235 to R247; 03 R80 to R82): every function takes views of the operands and
gives the new contents of the destination. -/

namespace Sys2Proof.Machine

open Sys2Proof

/-- What governs the arithmetic of a command: its flush bit (03 R63), its prefix, and the inputs of stochastic
rounding (03 R72). -/
structure Rounding where
  flush : Bool
  mode : Nat
  sat : Bool
  key : Word
  l : Nat
  q : Nat

/-- The rounding of a command (09 R231, R237). -/
def roundingOf (c : Cmd) (seed : Word) : Rounding :=
  { flush := c.f, mode := (c.pfx.map pfxMode).getD 0, sat := (c.pfx.map pfxSat).getD false, key := seed,
    l := bits c.e0.toNat 16 32, q := bits c.e0.toNat 0 16 }

/-- The random bits of an element of D (03 R72, R74), drawn only under SR. -/
def Rounding.draw (g : Rounding) (d : View) (r c : Nat) : Nat :=
  if g.mode = 5 then mixBits g.key g.l ((d.row0 + r) * d.cols + c) g.q else 0

/-- The value of an encoding, its subnormal taken as zero under the flush bit. -/
def Rounding.val (g : Rounding) (code v : Nat) : FVal := (fmtOf code).input g.flush v
/-- An exact value in a floating format, rounded once (09 R237). -/
def Rounding.enc (g : Rounding) (code rnd : Nat) (x : FVal) : Nat :=
  match fmtOf code with
  | .flt f => f.round g.mode g.sat g.flush rnd x
  | .mk8 => mk8Round x
  | .int s w => toInt g.mode rnd s w x

/-- The integer that an encoding stands for (03 R60). -/
def intVal (code v : Nat) : Int :=
  match fmtOf code with
  | .int s w => laneVal (!s) w v
  | _ => 0
/-- An exact integer result in an integer format: wrapped, or clamped under the saturate bit (03 R79). -/
def intEnc (code : Nat) (sat : Bool) (x : Int) : Nat :=
  match fmtOf code with
  | .int s w => wrap w (if sat then clampI x (intMin s w) (intMax s w) else x)
  | _ => 0

/-- The lesser or the greater of two encodings (09 Table 9-6: as `fmin`, `fmax`, integer compare, MK8 by value). -/
def pick (g : Rounding) (greater : Bool) (code x y : Nat) : Nat :=
  match fmtOf code with
  | .int _ _ => if (if greater then decide (intVal code x < intVal code y) else decide (intVal code y < intVal code x)) then y else x
  | .mk8 =>
    let a := mk8Value x
    let b := mk8Value y
    if (if greater then maxTakesLeft a b else minTakesLeft a b) then x else y
  | .flt f =>
    let a := g.val code x
    let b := g.val code y
    f.round 0 false g.flush 0 (if (if greater then maxTakesLeft a b else minTakesLeft a b) then a else b)

/-- The magnitude of a value. -/
def fAbs : FVal → FVal
  | .nan => .nan
  | .inf _ => .inf false
  | .fin _ n d e => .fin false n d e

/-- 2^n. -/
def pow2 (n : Int) : FVal := .fin false 1 1 n
/-- Zero of a sign. -/
def fZero (neg : Bool) : FVal := .fin neg 0 1 0

/-- The value of a finite number that is an integer. -/
def asInt : FVal → Option Int
  | .fin s n d e =>
    let (a, b) := ratio n d e
    if a % b = 0 then some (if s then -((a / b : Nat) : Int) else ((a / b : Nat) : Int)) else none
  | _ => none

/-- The special functions on the operands for which 09 Table 9-7 gives a result; a NaN gives NaN throughout (03 R62). -/
def sfuExact (op : Nat) (x : FVal) : Option FVal :=
  match x with
  | .nan => some .nan
  | .inf s =>
    match op with
    | 8 => some (if s then fZero false else .inf false)
    | 9 => some (if s then .nan else .inf false)
    | 10 => some (fZero s)
    | 11 => some (if s then .nan else fZero false)
    | _ => some (.fin s 1 1 0)
  | .fin s n d e =>
    match op with
    | 8 =>
      if n = 0 then some (pow2 0)
      else if fLt x (ofInt (-150)) then some (fZero false)
      else if !fLt x (ofInt 128) then some (.inf false)
      else match asInt x with
        | some k => if -149 ≤ k then some (pow2 k) else none
        | none => none
    | 9 =>
      if n = 0 then some (.inf true)
      else if s then some .nan
      else
        let k := log2Ratio n d + e
        if fLt (pow2 k) x then none else some (if k = 0 then fZero false else ofInt k)
    | 10 => if n = 0 then some (.inf s) else none
    | 11 => if n = 0 then some (.inf s) else if s then some .nan else none
    | _ => if n = 0 then some x else if fLt (fAbs x) (.fin false 19 1 (-1)) then none else some (.fin s 1 1 0)

/-- 2^(f / 2^64) for a fraction f of 64 bits, scaled by 2^64 and rounded down: the product of the roots 2^(1/2), 2^(1/4)
and so on that the bits of f choose; `c` is the last root. -/
def exp2Frac (f p c : Nat) : Nat → Nat
  | 0 => p
  | i + 1 =>
    let c := isqrt (c * 2 ^ 64) 0 65
    exp2Frac f (if bitAt f i then p * c / 2 ^ 64 else p) c i

/-- Bits of the base-2 logarithm of m / 2^128, for 2^128 ≤ m < 2^129, after those in `acc`. -/
def log2Frac (m acc : Nat) : Nat → Nat
  | 0 => acc
  | i + 1 =>
    let q := m * m / 2 ^ 128
    if 2 ^ 129 ≤ q then log2Frac (q / 2) (2 * acc + 1) i else log2Frac q (2 * acc) i

/-- Values between which 2^x lies, for a finite x. -/
def exp2Between (neg : Bool) (n d : Nat) (e : Int) : FVal × FVal :=
  let (a, b) := ratio n d e
  let z : Int := if neg then -(a : Int) else a
  let k := z / (b : Int)
  let p := exp2Frac ((z % (b : Int)).toNat * 2 ^ 64 / b) (2 ^ 64) (2 ^ 65) 64
  (.fin false p 1 (k - 64), .fin false (p * (2 ^ 48 + 1)) 1 (k - 112))

/-- The base-2 logarithm of e, to 34 decimal places. -/
def log2e : FVal := .fin false 14426950408889634073599246810018921 (10 ^ 34) 0

/-- Values between which the exact result of a special function lies, for an operand that Table 9-7 does not list. -/
def sfuBetween (op : Nat) (x : FVal) : FVal × FVal :=
  match x with
  | .fin s n d e =>
    match op with
    | 8 => exp2Between s n d e
    | 9 =>
      let k := log2Ratio n d + e
      let (a, b) := ratio n d (e - k)
      let z : Int := k * 2 ^ 60 + (log2Frac (a * 2 ^ 128 / b) 0 60 : Nat)
      (.fin (z < 0) z.natAbs 1 (-60), .fin (z + 2 < 0) (z + 2).natAbs 1 (-60))
    | 10 => (fDiv (pow2 0) x, fDiv (pow2 0) x)
    | 11 =>
      match fSqrt x with
      | .fin _ m _ q => (fDiv (pow2 0) (.fin false (m + 2) 1 q), fDiv (pow2 0) (.fin false (m - 1) 1 q))
      | y => (y, y)
    | _ =>
      let y := fAbs x
      let (lo, hi) :=
        if fLt y (pow2 (-12)) then (fAdd false y (fNeg (fDiv (fMul y (fMul y y)) (ofInt 3))), y)
        else match fMul (ofInt 2) (fMul y log2e) with
          | .fin _ n d e =>
            let (u, v) := exp2Between false n d e
            let f := fun w => fDiv (fAdd false w (fNeg (pow2 0))) (fAdd false w (pow2 0))
            (f u, f v)
          | _ => (y, y)
      if s then (fNeg hi, fNeg lo) else (lo, hi)
  | _ => (x, x)

/-- The error that Table 9-7 allows a result near y: 1 or 2 units in its last place, or 2^-22 for `vlog2` inside [0.5, 2]. -/
def sfuError (op : Nat) (x y : FVal) : FVal :=
  if op = 9 && !fLt x (pow2 (-1)) && !fLt (pow2 1) x then pow2 (-22)
  else match y with
    | .fin _ n d e => pow2 (max (log2Ratio n d + e) (-126) - (if op = 10 then 23 else 22))
    | _ => fZero false

/-- A special function in FP32 (09 R238): where the table states no result, a free value within the table's error. -/
def sfu (g : Rounding) (op : Nat) (x : FVal) : FVal :=
  match sfuExact op x with
  | some y => (Fmt.flt fp32).input g.flush (fp32.round 0 false g.flush 0 y)
  | none =>
    let (lo, hi) := sfuBetween op x
    let err := sfuError op x hi
    let c := (Config.sfu op (BitVec.ofNat 32 (fp32.round 0 false false 0 x))).toNat
    let v := fp32.value c
    let ok := !fLt v (fAdd false lo (fNeg err)) && !fLt (fAdd false hi err) v && v != .nan
    (Fmt.flt fp32).input g.flush (if ok then c else fp32.round 0 false false 0 lo)

/-- A shift of an element (03 R76); `vshl` under the saturate bit clamps its exact result. -/
def shiftElem (g : Rounding) (op code x amt : Nat) : Nat :=
  match fmtOf code with
  | .int _ w =>
    match op with
    | 0x16 => if g.sat then intEnc code true (intVal code x * (2 ^ amt : Nat)) else (shlN w (BitVec.ofNat w x) amt).toNat
    | 0x17 => (shrN w (BitVec.ofNat w x) amt).toNat
    | _ => (sarN w (BitVec.ofNat w x) amt).toNat
  | _ => 0

/-- `vclamp` (09 Table 9-6). -/
def clampElem (g : Rounding) (code lo hi x : Nat) : Nat :=
  match fmtOf code with
  | .int _ w => wrap w (min (max (intVal code x) (intVal code lo)) (intVal code hi))
  | _ => if g.val code x = .nan then g.enc code 0 .nan else pick g false code (pick g true code x lo) hi

/-- A command that gives each element of D by itself (09 R237 to R243): D's format, sources, the element's position. Two
points are the model's choice (DESIGN CHOICE, log 86): `vmov` and `vsel` copy encodings unchanged under the flush bit, while
`vabs`, `vneg`, `vmin`, `vmax` and `vclamp` take subnormals as zero, where 03 R63 does not say whether the bit acts on a
command that rounds nothing; and `vabs` and `vneg` of an infinity under the saturate bit give the largest value (03 R70),
where Table 9-6 speaks of the sign alone. -/
def elemWise (c : Cmd) (g : Rounding) (d a b m : View) (scale : Tile) (r k : Nat) : Nat :=
  let code := d.fmt
  let x := a.elem r k
  let y := b.elem r k
  let z := m.elem r k
  let e1 := c.e1.toNat
  let w := (fmtOf code).width
  let fl (v : FVal) : Nat := g.enc code 0 v
  let rd := g.mode == 3
  match c.op with
  | 0x00 => if isI code then intEnc code g.sat (intVal code x + intVal code y) else fl (fAdd rd (g.val code x) (g.val code y))
  | 0x01 => if isI code then intEnc code g.sat (intVal code x - intVal code y)
            else fl (fAdd rd (g.val code x) (fNeg (g.val code y)))
  | 0x02 => if isI code then intEnc code g.sat (intVal code x * intVal code y) else fl (fMul (g.val code x) (g.val code y))
  | 0x03 => pick g false code x y
  | 0x04 => pick g true code x y
  | 0x05 => fl (fAdd rd (fMul (g.val code x) (g.val code y)) (g.val code z))
  | 0x06 =>
    match fmtOf code with
    | .int _ _ => intEnc code g.sat (intVal code x).natAbs
    | .mk8 => if x = 0x80 then x else x % 0x80
    | .flt f => f.round 0 g.sat g.flush 0 (fAbs (g.val code x))
  | 0x07 =>
    match fmtOf code with
    | .int _ _ => intEnc code g.sat (-(intVal code x))
    | .mk8 => if x = 0x80 || x = 0 then x else (x + 0x80) % 0x100
    | .flt f => f.round 0 g.sat g.flush 0 (fNeg (g.val code x))
  | 0x0D => roundTo (fmtOf a.fmt) (fmtOf code) g.mode g.sat g.flush (g.draw d r k) x
  | 0x0E =>
    let cond := BitVec.ofNat 3 c.mods
    let n := (fmtOf a.fmt).width
    let holds := if isI a.fmt then intCond cond (BitVec.ofNat n x) (BitVec.ofNat n y)
      else fltCond cond (g.val a.fmt x) (g.val a.fmt y)
    if holds then 1 else 0
  | 0x0F => if z = 0 then y else x
  | 0x12 => if bitAt c.mods 0 then a.elem 0 k else a.elem r 0
  | 0x13 => a.elem k r
  | 0x14 =>
    if bitAt c.mods 0 then
      let row := a.row0 + r
      let v := if a.axis = 1 then scale.elem row (k / 32) else scale.elem (row / 32) k
      fl (if v = 0xFF then .nan else fMul (g.val a.fmt x) (pow2 ((v : Int) - 127)))
    else fl (fMul (g.val code x) (g.val 6 (bits e1 0 32)))
  | 0x16 => shiftElem g 0x16 code x (if bitAt c.mods 0 then y % 256 else e1 % 256)
  | 0x17 => shiftElem g 0x17 code x (if bitAt c.mods 0 then y % 256 else e1 % 256)
  | 0x18 => shiftElem g 0x18 code x (if bitAt c.mods 0 then y % 256 else e1 % 256)
  | 0x19 => clampElem g code (bits e1 0 w) (bits e1 32 w) x
  | 0x1A => x
  | 0x1B => bits e1 0 w
  | 0x1C =>
    if bits e1 0 8 ≤ r && r < bits e1 8 8 && bits e1 16 10 ≤ k && k < bits e1 26 10 &&
        (!bitAt c.mods 0 || decide ((k : Int) ≤ r + signed 12 (bits e1 36 12))) then 1 else 0
  | op => fl (sfu g op (g.val code x))

/-! ### Reductions (09 R241) -/

/-- One step of a floating sum: an RNE rounding to FP32. -/
def sumStep (g : Rounding) (code : Nat) (acc : Nat) (v : Nat) : Nat :=
  fp32.round 0 false g.flush 0 (fAdd false (g.val 6 acc) (g.val code v))

/-- A reduction of encodings of a format into a format: 0 sum, 1 max, 2 min, 3 amax. -/
def reduce (g : Rounding) (op src dst : Nat) (vs : List Nat) : Nat :=
  match vs with
  | [] => 0
  | v :: r =>
    if isI src then
      let xs := vs.map (intVal src)
      intEnc dst g.sat (match op with
        | 0 => xs.sum
        | 1 => (r.map (intVal src)).foldl max (intVal src v)
        | 2 => (r.map (intVal src)).foldl min (intVal src v)
        | _ => ((xs.map Int.natAbs).foldl max 0 : Nat))
    else
      let into := fun (code x : Nat) => roundTo (fmtOf code) (fmtOf dst) g.mode g.sat g.flush 0 x
      match op with
      | 0 => into 6 (r.foldl (sumStep g src) (fp32.round 0 false g.flush 0 (g.val src v)))
      | 3 =>
        let mag (x : Nat) : Nat := x % 2 ^ ((fmtOf src).width - 1)
        into src (r.foldl (fun a x => pick g true src a (mag x)) (pick g true src (mag v) (mag v)))
      | _ => into src (r.foldl (fun a x => pick g (op == 1) src a x) (pick g (op == 1) src v v))

/-! ### Quantisation (09 R244) -/

/-- emax of an MX element format. -/
def emaxOf (code : Nat) : Int := match code with | 9 => 8 | 10 => 15 | 11 => 2 | 12 => 4 | _ => 2

/-- The scale byte of a block. -/
def blockScale (code : Nat) (xs : List FVal) : Nat :=
  if xs.any fun x => match x with | .fin _ _ _ _ => false | _ => true then 0xFF
  else
    let es := xs.filterMap fun x => match x with
      | .fin _ n d e => if n = 0 then none else some (log2Ratio n d + e)
      | _ => none
    let e : Int := match es with | [] => 0 | a :: r => r.foldl max a - emaxOf code
    (clampI e (-127) 127 + 127).toNat

/-- The values of the block in which an element of D lies, as A holds them. -/
def blockOf (g : Rounding) (d a : View) (r k : Nat) : List FVal :=
  (List.range 32).map fun i =>
    g.val a.fmt (if d.axis = 1 then a.elem r (k / 32 * 32 + i)
      else a.elem ((d.row0 + r) / 32 * 32 - d.row0 + i) k)

/-- An element of `vquant`: the exact quotient, rounded once and saturating; a block of scale 0xFF holds 0. -/
def quantElem (g : Rounding) (d a : View) (r k : Nat) : Nat :=
  let s := blockScale d.fmt (blockOf g d a r k)
  if s = 0xFF then 0
  else match fmtOf d.fmt with
    | .flt f => f.round g.mode true g.flush (g.draw d r k) (fMul (g.val a.fmt (a.elem r k)) (pow2 (127 - (s : Int))))
    | _ => 0

/-- The scale tile of D after `vquant`. -/
def quantScales (g : Rounding) (d a : View) (scale : Tile) : Tile :=
  (List.range d.rows).foldl (fun t r => (List.range d.cols).foldl (fun t k =>
    let s := blockScale d.fmt (blockOf g d a r k)
    if d.axis = 1 then (if k % 32 = 0 then t.setElem (d.row0 + r) (k / 32) s else t)
    else if (d.row0 + r) % 32 = 0 then t.setElem ((d.row0 + r) / 32) k s else t) t) scale

/-! ### Matrix (03 R80 to R82, 09 R245) -/

/-- Sum of the products of a group (03 R81), with `f` fraction bits below the largest. -/
def groupSum (f : Nat) (ps : List FVal) : FVal :=
  let infs := ps.filterMap fun p => match p with | .inf s => some s | _ => none
  if ps.any (· = .nan) || (infs.contains true && infs.contains false) then .nan
  else match infs with
    | s :: _ => .inf s
    | [] =>
      let es := ps.filterMap fun p => match p with
        | .fin _ n d e => if n = 0 then none else some (log2Ratio n d + e)
        | _ => none
      match es with
      | [] => fZero false
      | a :: r =>
        let u := r.foldl max a - f
        let t : Int := (ps.map fun p => match p with
          | .fin s n d e => let (x, y) := ratio n d (e - u); if s then -((x / y : Nat) : Int) else ((x / y : Nat) : Int)
          | _ => 0).sum
        if t = 0 then fZero false else .fin (t < 0) t.natAbs 1 u

/-- Group size and fraction bits of a pair (03 Table 3-7); integer groups are exact. -/
def groupOf (code : Nat) : Nat × Nat := if isMx code || code < 2 then (32, 73) else (4, 60)

/-- The scale byte of a row and group of an MX operand; 0x7F for one without (09 R245). -/
def scaleByte (v : View) (scale : Tile) (r group : Nat) : Nat :=
  if v.axis = 1 then scale.elem (v.row0 + r) group else 0x7F

/-- One element of a floating `mma`: groups `from` on, from the accumulator as an FP32 encoding. -/
def mmaFloat (fl : Bool) (a b : View) (sa sb : Tile) (m n : Nat) (acc : Nat) (groups : List Nat) : Nat :=
  let (gs, f) := groupOf a.fmt
  let fa := fmtOf a.fmt
  let fb := fmtOf b.fmt
  groups.foldl (fun acc g =>
    let ps := (List.range gs).map fun i => fMul (fa.input fl (a.elem m (gs * g + i))) (fb.input fl (b.elem n (gs * g + i)))
    let s := groupSum f ps
    let s := if isMx a.fmt then
        let x := scaleByte a sa m g
        let y := scaleByte b sb n g
        if x = 0xFF || y = 0xFF then .nan else fMul s (pow2 ((x : Int) + y - 254))
      else s
    let t := fp32.round 0 false fl 0 s
    fp32.round 0 false fl 0 (fAdd false ((Fmt.flt fp32).input fl acc) ((Fmt.flt fp32).input fl t))) acc

/-- An 8-bit element read as S8 or, with Z, as Z8 (09 R245). -/
def byteVal (z : Bool) (v : Nat) : Int := laneVal z 8 v

/-- One element of an integer `mma`. -/
def mmaInt (za zb sat : Bool) (a b : View) (m n : Nat) (acc : Int) (groups : List Nat) : Int :=
  groups.foldl (fun acc g =>
    let s : Int := ((List.range 32).map fun i =>
      byteVal za (a.elem m (32 * g + i)) * byteVal zb (b.elem n (32 * g + i))).sum
    if sat then clampI (acc + s) (intMin true 32) (intMax true 32) else signed 32 (wrap 32 (acc + s))) acc

/-- The groups of an `mma`'s whole K. -/
def mmaGroups (a : View) : Nat := a.cols / (groupOf a.fmt).1

/-- D's contents after the groups `from .. from + n - 1`: the first starts from C or from zero, a later one from D. -/
def mmaRun (c : Cmd) (d a b : View) (cv : Option View) (sa sb : Tile) (start n : Nat) : Tile :=
  let groups := (List.range n).map (start + ·)
  d.fill fun m k =>
    let acc0 := if start = 0 then (match cv with | some v => v.elem m k | none => 0) else d.elem m k
    if d.fmt = 4 then
      wrap 32 (mmaInt (bitAt c.mods 0) (bitAt c.mods 1) (bitAt c.mods 2) a b m k (signed 32 acc0)
        groups)
    else mmaFloat c.f a b sa sb m k acc0 groups

/-- The row sums of A (09 R245, RS). -/
def rowSums (c : Cmd) (v a : View) : Tile :=
  v.fill fun m _ => wrap 32 (((List.range a.cols).map fun k => byteVal (bitAt c.mods 0) (a.elem m k)).sum)

/-- An element of `mdrain` (09 R247). -/
def drainElem (c : Cmd) (g : Rounding) (d a b m : View) (r k : Nat) : Nat :=
  let e1 := c.e1.toNat
  let v : FVal :=
    if a.fmt = 4 then
      let s := clampI (intVal 0 (m.elem 0 k)) (-31) 31
      fMul (ofInt (intVal 4 (a.elem r k) * intVal 4 (b.elem 0 k))) (pow2 (-(31 + s)))
    else fMul (g.val 6 (a.elem r k)) (g.val 6 (b.elem 0 k))
  match fmtOf d.fmt with
  | .int sg w =>
    let zp := signed 16 (bits e1 0 16)
    let lo := signed 16 (bits e1 16 16)
    let hi := signed 16 (bits e1 32 16)
    let lower := max (min lo hi) (intMin sg w)
    let upper := min hi (intMax sg w)
    wrap w (match v with
      | .inf s => min (if s then lower else upper) upper
      | v => min (max ((roundInt g.mode (g.draw d r k) v).getD 0 + zp) lower) upper)
  | _ => g.enc d.fmt (g.draw d r k) v

end Sys2Proof.Machine
end

