-- ==== Sys2Proof/Machine/Sync.lean ====
section
/-! DEFINITION. The SYNC major (08 R207 to R221): semaphores, join counters, watches, ending and creating threads, chunk
counters, hardware barriers, key-routed sends, identity, clocks and launches. -/

namespace Sys2Proof.Machine

open Sys2Proof

/-- Waits in the slot until a release of a scope by the issuing thread has nothing left to wait for (05 R115, R116). -/
def afterRelease (scope : Nat) (s : State) (act : State → Out) : Out :=
  let core := s.hereCore
  let slot := s.here.slot
  let (rounds, s) := match (nth (s.core core).slots slot {}).fence with
    | some r => (r, s)
    | none => s.joinRounds (dieOf core) scope
  if s.roundsDone (dieOf core) rounds && s.released s.here.ctx core scope s.held.length then
    act (s.modCore core fun c => c.modSlot slot fun x => { x with fence := none })
  else (s.modCore core fun c => c.modSlot slot fun x => { x with fence := some rounds }).idle 0

/-- A core-store operation of the issuing thread: at once, or held where it releases (05 R436). -/
def storeOp (scope : Nat) (loc : Nat) (e : Ev) (s : State) : Out :=
  if s.mustWait s.here.ctx s.hereCore (.store (locCore loc)) then s.idle 0
  else if s.holdScope scope = 0 then .next ((s.launchEv s.hereDie e).retire 4)
  else .next ((s.hold s.here.ctx s.hereCore (s.holdScope scope) e).retire 4)

/-- SEM_V (08 R208). -/
def execSemV (sc : BitVec 3) (h : Bool) (a : Reg) (s : State) : Out :=
  issue { srcs := [(a.toNat, h)], use := .visible, mem := some (8, s.th.wv a, []) } s fun s =>
    withStore (s.th.wv a) 8 s fun loc s => storeOp sc.toNat loc (.semVExecute loc s.here.ctx sc.toNat none) s

/-- SEM_P (08 R208): retires at issue and waits with kind 2 for the owner's reply. -/
def execSemP (sc : BitVec 3) (h : Bool) (a : Reg) (s : State) : Out :=
  issue { srcs := [(a.toNat, h)], use := .meet, mem := some (8, s.th.wv a, []) } s fun s =>
    withStore (s.th.wv a) 8 s fun loc s =>
      if s.th.fenced != 0 || s.mustWait s.here.ctx s.hereCore (.store (locCore loc)) then s.idle 0
      else
        let s := s.retire 4
        let s := { s with th := { s.th with kind := 2, warg := BitVec.ofNat 60 loc } }
        .next (s.launchEv s.hereDie (.semPExecute loc s.here.ctx sc.toNat none))

/-- JC_ADD (08 R209). -/
def execJcAdd (sc : BitVec 3) (g : Bool) (b : Reg) (h : Bool) (a : Reg) (s : State) : Out :=
  issue { srcs := [(a.toNat, h), (b.toNat, g)], use := .visible, mem := some (8, s.th.wv a, [s.th.wv b]) } s fun s =>
    withStore (s.th.wv a) 32 s fun loc s => storeOp sc.toNat loc (.jcUpdate loc (s.th.wv b) 0 s.here.ctx none) s

/-- Queues a waiter in a core store's list of 256 entries; the answer says whether there was room (02 R53). A context that waits there
already, for the same thing, waits from now on as the later request says; the entry of one that has ended is another's. -/
def State.queueWaiter (s : State) (core : Nat) (w : Waiter) : Bool × State :=
  let l := (s.core core).waiters
  let same (x : Waiter) : Bool := !x.dead && !w.dead && x.ctx == w.ctx && x.kind == w.kind && x.loc == w.loc
  if l.any same then (true, s.modCore core fun c => { c with waiters := c.waiters.map fun x => if same x then w else x })
  else if l.length < 256 then (true, s.modCore core fun c => { c with waiters := c.waiters ++ [w] })
  else (false, s)

/-- A join counter's count, as a signed value (02 R54). -/
def State.jcCount (s : State) (loc : Nat) : Int := signed 64 (readNat s.cstore loc 8)

/-- A waiter that found the list full tests again in 1 us (02 R53). -/
def State.repollLater (s : State) (id : Nat) : State :=
  (s.modCtx id fun c => { c with pollAt := s.gtime + us }).post (.jcWaitRepoll id)

/-- JC_WAIT (08 R209): an acquire at `.pk` when it retires; else it waits with kind 3 and its pc on it, queued at the owner
or, where the list is full, polling. Another core's counter is tested by its owner, to which a message takes the test (04 R94). -/
def execJcWait (g : Bool) (b : Reg) (h : Bool) (a : Reg) (s : State) : Out :=
  issue { srcs := [(a.toNat, h), (b.toNat, g)], use := .meet, mem := some (8, s.th.wv a, [s.th.wv b]) } s fun s =>
    let thr := (s.th.wv b).toNat
    if 2 ^ 31 ≤ thr then s.fault 1 (s.th.wv b)
    else withStore (s.th.wv a) 32 s fun loc s =>
      let spot : Spot := .store (locCore loc)
      if s.mustWait s.here.ctx s.hereCore spot || (s.touches s.here.ctx).any fun t => t.on spot then s.idle 0
      else if locCore loc != s.hereCore then
        asking 1 (fun id s =>
          if s.cutOff s.hereDie (dieOf (locCore loc)) then s.post (.errand (.answer s.here.ctx id noAnswer (.core s.hereCore)))
          else s.send s.hereDie (dieOf (locCore loc)) 1 32 false none (.errand (.join loc thr s.here.ctx id true))) s
          fun v s =>
            if v = 0 then .next ((s.acquire s.hereCore 4).retire 4)
            else if v = noAnswer then s.fault 0x10 (s.th.wv a)
            else s.fault 0x0D (BitVec.ofNat 64 v)
      else
        let f := readNat s.cstore (loc + 16) 8
        if f != 0 then s.fault 0x0D (BitVec.ofNat 64 f)
        else if s.jcCount loc ≤ thr then .next ((s.acquire s.hereCore 4).retire 4)
        else
          let s := { s with th := { s.th with kind := 3, warg := BitVec.ofNat 60 (thr * 2 ^ 29 + loc), stall := none } }
          let (ok, s) := s.queueWaiter (locCore loc) { ctx := s.here.ctx, loc := loc, kind := 3, thr := thr }
          .next (if ok then s else s.repollLater s.here.ctx)

/-- WAIT_MEM (08 R210): W[d] is emptied, and the context waits with kind 5 for the reply of the word's home. -/
def execWaitMem (t : BitVec 4) (g : Bool) (b : Reg) (h : Bool) (a d : Reg) (s : State) : Out :=
  issue { srcs := [(a.toNat, h), (b.toNat, g)], long := [d.toNat], use := .meet, mem := some (8, s.th.wv a, [s.th.wv b]) } s fun s =>
    let ea := s.th.wv a
    let x := s.th.wv b
    withPlace ea 8 .load s fun p s =>
      if s.mustWait s.here.ctx s.hereCore p.spot || (s.touches s.here.ctx).any fun t => t.on p.spot then s.idle 0
      else
        let s := s.reportImpure 6
        let th := s.th.emptyW d
        let s := { s with th := { th with kind := 5, warg := ea.setWidth 60 } }.retire 4
        let limit := if t == 15 then 0 else 2 ^ t.toNat * us
        let arm (inCore : Bool) (addr dst : Nat) : State :=
          s.send s.hereDie dst 1 32 false none
            (.watchArm inCore addr x s.here.ctx d.toNat (th.etag d.toNat) limit ⟨s.hereDie, if inCore then 0 else s.verAt s.hereDie dst⟩)
        match p with
        | .store loc => .next (arm true loc (dieOf (locCore loc)))
        | .phys pa => .next (arm false pa (s.homeDie (setOf s.mode s.hereDie) pa))

/-- The thread goes to the tail of its ready queue, if another ready context waits there (08 R211); a pair goes as one (17 R396). -/
def yieldOp (n : Nat) (s : State) : Out :=
  issue { ok := s.th.handler == 0, use := .meet, len := n } s fun s =>
    let s := s.retire n
    let core := s.hereCore
    if (nth (s.core core).ready s.th.prio.toNat []).isEmpty then .next s
    else .next ((s.vacate core s.here.ctx false).dispatch core)

/-- YIELD. -/
def execYield (s : State) : Out := yieldOp 4 s

/-- A thread ends (08 R211): once it has no command outstanding and every access, report and request of its own has
performed. A pair ends as one. -/
def exitOp (n : Nat) (s : State) : Out :=
  issue { ok := s.th.handler == 0, use := .meet, len := n } s fun s =>
    let id := s.here.ctx
    if s.th.cmds != 0 then .next { s with th := { s.th with kind := 7, warg := 0, stall := none } }
    else if s.flying.any fun e => match e with
        | .traceReport b _ _ _ _ => b == s.th.blk
        | .spawnPoolRequest _ c _ _ _ _ _ _ => c == id
        | _ => false then s.idle 0
    else afterRelease 4 s fun s =>
      let s := s.retire n
      let s := match s.th.peer with
        | some p => s.endCtx p .exited 0
        | none => s
      .next (s.endCtx id .exited 0)

/-- EXIT. -/
def execExit (s : State) : Out := exitOp 4 s

/-- EXIT, 16-bit. -/
def execExitC16 (s : State) : Out := exitOp 2 s

/-- YIELD, 16-bit. -/
def execYieldC16 (s : State) : Out := yieldOp 2 s

/-- The home cluster of the issuing thread's block. -/
def State.homeCluster (s : State) : Nat :=
  match get? s.blocks s.th.blk with
  | some b => b.cluster
  | none => 0

/-- Asks the anchor core for a context of the spawn pool (08 R212). -/
def State.askPool (s : State) (d : Reg) (entry arg : Word) (jc : Option Nat) : State :=
  let th := s.th.emptyW d
  let s := { s with th := th }.retire 4
  s.send s.hereDie (dieOf s.anchor) 1 32 false none
    (.spawnPoolRequest s.th.blk s.here.ctx d.toNat (th.etag d.toNat) entry arg jc s.hereDie)

/-- SPAWN (08 R212): an odd entry raises ALIGN. -/
def execSpawn (g : Bool) (b : Reg) (h : Bool) (a d : Reg) (s : State) : Out :=
  issue { ok := s.th.handler == 0, srcs := [(a.toNat, h), (b.toNat, g)], long := [d.toNat], use := .both, dst := [d.toNat] } s
    fun s =>
      if (s.th.wv a).getLsbD 0 then s.fault 5 (s.th.wv a)
      else .next (s.askPool d (s.th.wv a) (s.th.wv b) none)

/-- SPAWN_DEF (08 R212): W[d] names the join counter, read under policy 0. -/
def execSpawnDef (g : Bool) (b : Reg) (h : Bool) (a d : Reg) (s : State) : Out :=
  issue { ok := s.th.handler == 0, srcs := [(a.toNat, h), (b.toNat, g), (d.toNat, false)], long := [d.toNat],
          use := .both, dst := [d.toNat] } s fun s =>
    if (s.th.wv a).getLsbD 0 then s.fault 5 (s.th.wv a)
    else withStore (s.th.wv d) 32 s fun loc s => .next (s.askPool d (s.th.wv a) (s.th.wv b) (some loc))

/-- CHUNK_INIT (08 R213). -/
def execChunkInit (c : BitVec 4) (g : Bool) (b : Reg) (h : Bool) (a : Reg) (s : State) : Out :=
  issue { ok := s.th.handler == 0, srcs := [(a.toNat, h), (b.toNat, g)], use := .visible } s fun s =>
    let x := (s.th.wv a).toNat
    let y := (s.th.wv b).toNat
    if x = 0 || 2 ^ 32 ≤ x then s.fault 1 (s.th.wv a)
    else if 2 ^ 32 ≤ y || y % 65536 = 0 || y / 65536 = 0 then s.fault 1 (s.th.wv b)
    else
      let s := (s.reportImpure 5).retire 4
      let k := s.homeCluster
      .next (s.send s.hereDie (k / 64) 1 32 true none (.chunkInitRequest k c.toNat x (y % 65536) (y / 65536) s.hereCore))

/-- CHUNK (08 R213). -/
def execChunk (c : BitVec 4) (d : Reg) (s : State) : Out :=
  issue { ok := s.th.handler == 0, long := [d.toNat], use := .both, dst := [d.toNat] } s fun s =>
    let s := s.reportImpure 5
    let th := s.th.emptyW d
    let s := { s with th := th }.retire 4
    let k := s.homeCluster
    .next (s.send s.hereDie (k / 64) 1 32 false none
      (.chunkRequest k c.toNat s.here.ctx d.toNat (th.etag d.toNat) s.hereCore))

/-! ### Hardware barriers (08 R214 to R217) -/

/-- A barrier register of a core. -/
def State.bar (s : State) (core n : Nat) : Bar := nth (s.core core).bars n {}
/-- Changes a barrier register. -/
def State.modBar (s : State) (core n : Nat) (f : Bar → Bar) : State :=
  s.modCore core fun c => { c with bars := c.bars.modify n f }

/-- Sends the signals that a core owes its neighbours (08 R215): row done east, column done north, and from the corner the
release. -/
def State.advanceBar (s : State) (core n : Nat) : State :=
  let b := s.bar core n
  let x := xOf core
  let y := yOf core
  let d := dieOf core
  let rowDone := b.arrived == b.count && (x == b.x0 || b.rowIn)
  let east := x + 1 == b.x0 + b.wd
  let north := y + 1 == b.y0 + b.ht
  if !b.cfg || b.aborted != none || !rowDone then s
  else if !east then
    if b.rowOut then s
    else (s.modBar core n fun b => { b with rowOut := true }).post (.barrierSignal (coreAt d (x + 1) y) n false)
  else if !(y == b.y0 || b.colIn) || b.colOut then s
  else
    let s := s.modBar core n fun b => { b with colOut := true }
    if !north then s.post (.barrierSignal (coreAt d x (y + 1)) n true)
    else s.post (.barrierRelease core n)

/-- BAR_CFG (08 R214). -/
def execBarCfg (n : BitVec 2) (g : Bool) (b : Reg) (h : Bool) (a : Reg) (s : State) : Out :=
  issue { ok := s.pinned s.here.ctx, srcs := [(a.toNat, h), (b.toNat, g)], use := .meet } s fun s =>
    let v := (s.th.wv a).toNat
    let cnt := bits v 22 5
    let ht := bits v 16 6
    let wd := bits v 10 6
    let y0 := bits v 5 5
    let x0 := bits v 0 5
    let core := s.hereCore
    if 2 ^ 27 ≤ v || cnt = 0 || 16 < cnt || ht = 0 || 32 < ht || wd = 0 || 32 < wd then s.fault 1 (s.th.wv a)
    else if 32 < x0 + wd || 32 < y0 + ht || xOf core < x0 || x0 + wd ≤ xOf core || yOf core < y0 || y0 + ht ≤ yOf core then
      s.fault 8 (s.th.wv a)
    else
      let t := (s.th.wv b).toNat
      -- signals that came before this register was configured are held (08 R215); those of a phase that ran here are not
      let keep (old : Bar) : Bool := !old.cfg || old.aborted != none
      let mine (e : Ev) : Bool := match e with | .barrierAbort c m _ => c == core && m == n.toNat | _ => false
      let s := { s with inbox := s.inbox.filter fun e => !mine e }
      .next ((s.modBar core n.toNat fun old =>
        { ({} : Bar) with cfg := true, x0 := x0, y0 := y0, wd := wd, ht := ht, count := cnt, timeout := t,
                          rowIn := keep old && old.rowIn, colIn := keep old && old.colIn }).retire 4)

/-- The conditions of a barrier instruction (08 R216, R217): a configured register, and BARRIER_TIMEOUT on an aborted
one. -/
def withBar (n : BitVec 2) (q : Issue) (s : State) (act : Bar → State → Out) : Out :=
  let b := s.bar s.hereCore n.toNat
  issue { q with ok := q.ok && b.cfg } s fun s =>
    match b.aborted with
    | some m => s.fault 0x0E m
    | none => act b s

/-- BAR_ARR (08 R216): a release at `.di`; an arrival beyond the core's count waits with kind 4 for the phase's end. -/
def execBarArr (n : BitVec 2) (d : Reg) (s : State) : Out :=
  withBar n { ok := s.pinned s.here.ctx, use := .meet } s fun _ s =>
    afterRelease 3 s fun s =>
      let core := s.hereCore
      let b := s.bar core n.toNat
      if b.arrived < b.count then
        let s := s.modBar core n.toNat fun b => { b with arrived := b.arrived + 1, firstAt := some (b.firstAt.getD s.gtime) }
        .next ((s.putW d (b.gen.setWidth 64) 4).advanceBar core n.toNat)
      else if s.th.pend.getLsbD d.toNat then s.idle (mkTag 1 (16 + d.toNat))
      else
        let th := s.th.emptyW d
        let s := { s with th := { th with kind := 4, warg := BitVec.ofNat 60 (n.toNat + 4 * b.gen.toNat + 1024) } }.retire 4
        .next (s.modBar core n.toNat fun b => { b with late := b.late ++ [(s.here.ctx, d.toNat, th.etag d.toNat)] })

/-- BAR_WAIT (08 R216). -/
def execBarWait (n : BitVec 2) (h : Bool) (a : Reg) (s : State) : Out :=
  withBar n { ok := s.pinned s.here.ctx, srcs := [(a.toNat, h)], use := .meet } s fun b s =>
    let g := (s.th.wv a).setWidth 8
    if b.gen != g then .next ((s.acquire s.hereCore 3).retire 4)
    else .next { s with th := { s.th with kind := 4, warg := BitVec.ofNat 60 (n.toNat + 4 * g.toNat), stall := none } }

/-- BAR_TEST (08 R216): the generation differs in bit 0, or with FULL in [7:0]. -/
def execBarTest (f : Bool) (n : BitVec 2) (h : Bool) (a d : Reg) (s : State) : Out :=
  withBar n { srcs := [(a.toNat, h)], use := .value, dst := [d.toNat] } s fun b s =>
    let g := (s.th.wv a).setWidth 8
    let diff := if f then b.gen != g else b.gen.getLsbD 0 != g.getLsbD 0
    .next ((if diff then s.acquire s.hereCore 3 else s).putW d (if diff then 1 else 0) 4)

/-! ### Key-routed sends (08 R218, R219) -/

/-- KBIN_CFG (08 R218). -/
def execKbinCfg (n : BitVec 2) (g : Bool) (b : Reg) (h : Bool) (a : Reg) (s : State) : Out :=
  issue { ok := s.th.handler == 0, srcs := [(a.toNat, h), (b.toNat, g)], use := .visible } s fun s =>
    let v := (s.th.wv a).toNat
    let u := (s.th.wv b).toNat
    let ht := bits v 16 6
    let wd := bits v 10 6
    let nb := bits u 16 16
    let base := bits u 0 16
    if 2 ^ 23 ≤ v || ht = 0 || 32 < ht || wd = 0 || 32 < wd then s.fault 1 (s.th.wv a)
    else if 2 ^ 32 ≤ u || nb = 0 || 16384 < nb then s.fault 1 (s.th.wv b)
    else if base % 4 != 0 then s.fault 5 (s.th.wv b)
    else if 32 < bits v 0 5 + wd || 32 < bits v 5 5 + ht then s.fault 8 (s.th.wv a)
    else if 65536 < base + 4 * nb then s.fault 8 (s.th.wv b)
    else .next ((s.modBlock s.th.blk fun k => { k with kbins := put k.kbins n.toNat (s.th.wv a, s.th.wv b) }).retire 4)

/-- The core-store location that a key routes to (08 R219); none for a key beyond the bins. -/
def keyLoc (die : Nat) (geo bins : Word) (g : Nat) : Option Nat :=
  let v := geo.toNat
  let u := bins.toNat
  let wd := bits v 10 6
  let c := wd * bits v 16 6
  if c * bits u 16 16 ≤ g then none
  else
    let q := g / c
    let i := (g % c + q * 0x9E3779B9) % c
    some (coreAt die (bits v 0 5 + i % wd) (bits v 5 5 + i / wd) * 65536 + (bits u 0 16 + 4 * q))

/-- KSEND (08 R219). -/
def execKsend (n : BitVec 2) (g : Bool) (b : Reg) (h : Bool) (a : Reg) (s : State) : Out :=
  issue { ok := s.th.handler == 0, srcs := [(a.toNat, h), (b.toNat, g)], use := .visible } s fun s =>
    match get? s.blocks s.th.blk with
    | none => s.fault 8 (s.th.wv a)
    | some k =>
      match get? k.kbins n.toNat with
      | none => s.fault 8 (s.th.wv a)
      | some (geo, bn) =>
        match keyLoc (dieOf k.anchor) geo bn (s.th.wv a).toNat with
        | none => s.fault 8 (s.th.wv a)
        | some loc =>
          if s.mustWait s.here.ctx s.hereCore (.store (locCore loc)) then s.idle 0
          else
            let s := s.reportImpure 3
            let ev : Ev := .ksendAccumulate loc (geo.getLsbD 22) ((s.th.wv b).setWidth 32) s.here.ctx none
            .next (if s.holdScope 0 = 0 then (s.launchEv s.hereDie ev).retire 4
              else (s.hold s.here.ctx s.hereCore (s.holdScope 0) ev).retire 4)

/-! ### Identity, clocks and launches (08 R206, R220, R221) -/

/-- The identity values of 02 Table 2-6; a handler reads 0 of all but the core (13 R435). -/
def State.identity (s : State) (sel : Nat) : Word :=
  let of (f : Block → Launch → Word) : Word :=
    match get? s.blocks s.th.blk with
    | some b => match get? s.launches b.launch with
      | some l => f b l
      | none => 0
    | none => 0
  match sel with
  | 0 => of fun _ _ => BitVec.ofNat 64 s.th.tindex
  | 1 => of fun b _ => BitVec.ofNat 64 b.index
  | 2 => of fun _ l => BitVec.ofNat 64 l.id
  | 3 => of fun b _ => BitVec.ofNat 64 b.anchor
  | 4 => of fun _ l => l.seed
  | _ => BitVec.ofNat 64 s.hereCore

/-- A value read from outside the registers, short. -/
def readValue (d : Reg) (icause : Nat) (f : State → Word) (s : State) : Out :=
  issue { use := .value, dst := [d.toNat] } s fun s =>
    .next ((if icause = 0 then s else s.reportImpure icause).putW d (f s) 4)

/-- IDR (08 R220). -/
def execIdr (sel : BitVec 3) (d : Reg) (s : State) : Out :=
  readValue d (if sel == 5 then 7 else 0) (fun s => s.identity sel.toNat) s

/-- GTIME (08 R206). -/
def execGtime (d : Reg) (s : State) : Out :=
  readValue d 1 (fun s => BitVec.ofNat 64 (s.dieTime s.hereDie)) s

/-- GTIME_LK. -/
def execGtimeLk (d : Reg) (s : State) : Out :=
  readValue d 1 (fun s => if (s.die s.hereDie).locked then 1 else 0) s

/-- CYC. -/
def execCyc (d : Reg) (s : State) : Out :=
  readValue d 1 (fun s => BitVec.ofNat 64 (s.die s.hereDie).cyc) s

/-- CYC_T: the die in [63:61]. -/
def execCycT (d : Reg) (s : State) : Out :=
  readValue d 1 (fun s => BitVec.ofNat 64 (s.hereDie * 2 ^ 61 + (s.die s.hereDie).cyc % 2 ^ 61)) s

/-- An object that Ringmaster reads: its physical address, or 2^62 + the core-store location. -/
def Place.object : Place → Word
  | .phys pa => BitVec.ofNat 64 pa
  | .store loc => BitVec.ofNat 64 (2 ^ 62 + loc)

/-- LAUNCH (08 R221): a release at `.sy`; W[d] is filled once Ringmaster has answered. A descriptor in the mesh window is accepted
and read from its core store: 02 R47 puts descriptors in global memory and names no fault for another place (DESIGN CHOICE, log
92). Ringmaster is reached at the X-die (log 91). -/
def execLaunch (h : Bool) (a d : Reg) (s : State) : Out :=
  issue { ok := s.th.handler == 0, srcs := [(a.toNat, h)], long := [d.toNat], use := .both, dst := [d.toNat] } s fun s =>
    withPlace (s.th.wv a) 128 .load s fun p s =>
      afterRelease 5 s fun s =>
        let s := s.reportImpure 4
        let th := s.th.emptyW d
        let s := { s with th := th }.retire 4
        .next (s.sendOnce s.hereDie 20 1 32 false fun _ =>
          .launchAccept s.th.part p.object s.here.ctx d.toNat (th.etag d.toNat) s.th.priv.toNat 0)

end Sys2Proof.Machine
end

