-- ==== Sys2Proof/Machine/Task.lean ====
section
/-! DEFINITION. The TILE and TASK majors at the issuing core (09 R223 to R232): the checks of issue, and sending a
command to its Juggler. -/

namespace Sys2Proof.Machine

open Sys2Proof

/-! ### Sending a command (09 R232) -/

/-- The context whose command is sent: the leading one of a pair (09 R256). -/
def State.commander (s : State) : Nat := if s.th.pair == 2 then s.th.peer.getD s.here.ctx else s.here.ctx

/-- The Juggler has refused the command for want of room, and the slot retries after 64 cycles (09 R232). -/
def State.retrying (s : State) (id : Nat) : Bool := s.inbox.any fun e => match e with | .commandRetry c => c == id | _ => false

/-- The command travels to its Juggler, once the thread's earlier accesses have performed (05 R121); the pc stays on the
instruction until the reply. -/
def State.sendCommand (s : State) (c : Cmd) : Out :=
  if s.commanding c.ctx || s.retrying c.ctx then s.idle 0 else (s.hold c.ctx c.core 4 (.commandAccept c)).idle 0

/-- The parts of a command that every one has. -/
def State.cmd (s : State) (op mods : Nat) (j f : Bool) (wa wb : Word) : Cmd :=
  { ctx := s.commander, core := s.hereCore, cluster := if op = 0x28 && mods = 2 then clusterOf s.hereCore else s.homeCluster,
    blk := s.th.blk, op, mods, j, f, wa, wb, e0 := s.th.ev 0, e1 := s.th.ev 1, e2 := s.th.ev 2, e3 := s.th.ev 3,
    pfx := if s.th.pfx then some s.th.pfxval else none, priv := s.th.priv.toNat, enc := s.ienc.setWidth 32, pc := s.th.pc.toNat }

/-- A command that CMDS counts waits in its slot while 63 are outstanding (09 R232). -/
def State.counted (s : State) (c : Cmd) : Out :=
  if s.th.cmds == 63 && !s.commanding c.ctx then (s.pcReport s.hereCore s.here.ctx 5).idle (mkTag 7 1) else s.sendCommand c

/-- A TASK instruction at issue (09 R231, R232): both registers, e0 under SR, the e words it names, and with J the join
counter's address in e3. Handlers have no block (13 R435). -/
def taskOp (pfx : PfxRule) (es : List Nat) (op mods : Nat) (g : Bool) (b : Reg) (h : Bool) (a : Reg) (j f : Bool) (s : State) : Out :=
  let es := (if s.th.pfx && pfxMode s.th.pfxval == 5 then [0] else []) ++ es ++ (if j then [3] else [])
  issue { ok := s.th.handler == 0, pfx, srcs := [(a.toNat, h), (b.toNat, g)] ++ es.map fun e => (8 + e, false), use := .meet,
          cmd := true } s
    fun s =>
      let c := s.cmd op mods j f (s.th.wv a) (s.th.wv b)
      if j then withStore (s.th.ev 3) 32 s fun _ s => s.counted c else s.counted c

/-- The mod bits from an instruction's single bits. -/
def modBits (bs : List Bool) : Nat := bs.foldr (fun b n => (if b then 1 else 0) + 2 * n) 0

/-! ### The TILE major -/

/-- TALLOC (09 R224, R225): checked at issue, served by the Juggler of the home cluster. -/
def execTalloc (h : Bool) (a d : Reg) (s : State) : Out :=
  issue { ok := s.th.handler == 0, srcs := [(a.toNat, h)], long := [d.toNat], use := .both, dst := [d.toNat] } s fun s =>
    let v := s.th.wv a
    if !descOk v.toNat then s.fault 1 v
    else
      let th := s.th.emptyW d
      let s := { s with th := th }.retire 4
      let k := s.homeCluster
      .next (s.sendOnce s.hereDie (k / 64) 1 32 false
        fun _ => .tallocServe k s.here.ctx d.toNat (th.etag d.toNat) s.th.blk v s.hereDie)

/-- TFREE (09 R226), as a command. -/
def execTfree (h : Bool) (a : Reg) (s : State) : Out :=
  issue { ok := s.th.handler == 0, srcs := [(a.toNat, h)], use := .meet, cmd := true } s fun s =>
    let v := s.th.wv a
    if 2 ^ 32 ≤ v.toNat then s.fault 1 v else s.counted (s.cmd 0x81 0 false false v 0)

/-- TVIEW (09 R227): no check of the tile table. -/
def execTview (g : Bool) (b : Reg) (h : Bool) (a d : Reg) (s : State) : Out :=
  issue { srcs := [(a.toNat, h), (b.toNat, g)] } s fun s =>
    let v := (s.th.wv a).toNat
    let off := bits (s.th.wv b).toNat 0 7
    let n := bits (s.th.wv b).toNat 8 6
    let pn := handleCount v
    if 2 ^ 32 ≤ v then s.fault 1 (s.th.wv a)
    else if (pn != 0 && (n == 0 || pn < off + n)) || 127 < handleRow v + off then s.fault 0x0A (s.th.wv a)
    else .next (s.putW d (BitVec.ofNat 64 (v / 2 ^ 13 * 2 ^ 13 + (handleRow v + off) * 64 + n)) 4)

/-- What `tinfo` answers (09 R228). -/
def TRef.info (x : TRef) : Nat :=
  x.desc + 2 ^ 23 * x.row0 + 2 ^ 30 * (x.rows - 1) + (if x.scale then 2 ^ 37 else 0)

/-- The check of a handle (04 R98) and what `tinfo` then fills W[d] with, as one number: 0 for BAD_HANDLE, 1 for TILE_BOUNDS, and else 2
more than the value. -/
def State.handleInfo (s : State) (blk : Nat) (v : Word) : Nat :=
  match s.tileRef blk 0 v.toNat false with
  | none => 0
  | some x => if x.past then 1 else 2 + x.info

/-- TINFO (09 R228): a table of another die's cluster is asked by a message (01 R19). -/
def execTinfo (h : Bool) (a d : Reg) (s : State) : Out :=
  issue { ok := s.th.handler == 0, srcs := [(a.toNat, h)], long := [d.toNat], use := .both, dst := [d.toNat] } s fun s =>
    let v := s.th.wv a
    let die := handleKey v.toNat / 65536
    let done (n : Nat) (s : State) : Out :=
      if n = 0 then s.fault 9 v
      else if n = 1 then s.fault 0x0A v
      else if n = noAnswer then s.fault 0x10 v
      else
        let th := s.th.emptyW d
        let s := { s with th := th }.retire 4
        .next (s.send s.hereDie s.hereDie 2 32 false none
          (.registerFill s.here.ctx d.toNat (th.etag d.toNat) (BitVec.ofNat 64 (n - 2)) false 0 (.core s.hereCore) 0))
    if 2 ^ 32 ≤ v.toNat then s.fault 1 v
    else if die = s.hereDie || s.outside s.th.part die then done (s.handleInfo s.th.blk v) s
    else asking (if s.cutOff s.hereDie die then 0 else 1) (fun id s =>
      s.send s.hereDie die 1 16 false none (.errand (.look (64 * die) s.th.blk v s.here.ctx id))) s done

/-- The bits of W[a] that `tget` and `tset` allow (09 R229). -/
def posOk (v : Word) : Bool := bits v.toNat 39 9 == 0 && bits v.toNat 58 6 == 0

/-- TGET (09 R229): W[d] changes only when the accept reply arrives. -/
def execTget (h : Bool) (a d : Reg) (s : State) : Out :=
  issue { ok := s.th.handler == 0, srcs := [(a.toNat, h)], long := [d.toNat], use := .meet, cmd := true } s fun s =>
    let v := s.th.wv a
    if !posOk v then s.fault 1 v
    else s.sendCommand (s.cmd 0x82 0 false false v
      (BitVec.ofNat 64 (d.toNat + (if (s.ctx s.commander).etag d.toNat then 0 else 8))))

/-- TSET (09 R229), as a command. -/
def execTset (g : Bool) (b : Reg) (h : Bool) (a : Reg) (s : State) : Out :=
  issue { ok := s.th.handler == 0, srcs := [(a.toNat, h), (b.toNat, g)], use := .meet, cmd := true } s fun s =>
    let v := s.th.wv a
    if !posOk v then s.fault 1 v else s.counted (s.cmd 0x80 0 false false v (s.th.wv b))

/-- VFENCE (09 R230): waits with kind 7 and its pc on it, then acquires at `.pk` (05 R124). -/
def execVfence (s : State) : Out :=
  issue {} s fun s =>
    if s.th.cmds != 0 then .next { s with th := { s.th with kind := 7, warg := 0, stall := none } }
    else .next ((s.acquire s.hereCore 4).retire 4)

/-- VBUSY (09 R230). -/
def execVbusy (d : Reg) (s : State) : Out :=
  issue { use := .value, dst := [d.toNat] } s fun s => .next (s.putW d (s.th.cmds.setWidth 64) 4)

/-! ### The TASK major (09 Table 9-3) -/

/-- Rounding and saturation (09 Table 9-3, R and S). -/
def pfxRS : PfxRule := { any := true, rnd := true, sat := true }
/-- Saturation alone. -/
def pfxS : PfxRule := { any := true, sat := true }

/-- VADD. -/
def execVadd (g : Bool) (b : Reg) (h : Bool) (a : Reg) (j f : Bool) (s : State) : Out :=
  taskOp pfxRS [] 0x00 0 g b h a j f s

/-- VSUB. -/
def execVsub (g : Bool) (b : Reg) (h : Bool) (a : Reg) (j f : Bool) (s : State) : Out :=
  taskOp pfxRS [] 0x01 0 g b h a j f s

/-- VMUL. -/
def execVmul (g : Bool) (b : Reg) (h : Bool) (a : Reg) (j f : Bool) (s : State) : Out :=
  taskOp pfxRS [] 0x02 0 g b h a j f s

/-- VMIN. -/
def execVmin (g : Bool) (b : Reg) (h : Bool) (a : Reg) (j f : Bool) (s : State) : Out :=
  taskOp {} [] 0x03 0 g b h a j f s

/-- VMAX. -/
def execVmax (g : Bool) (b : Reg) (h : Bool) (a : Reg) (j f : Bool) (s : State) : Out :=
  taskOp {} [] 0x04 0 g b h a j f s

/-- VFMA. -/
def execVfma (g : Bool) (b : Reg) (h : Bool) (a : Reg) (j f : Bool) (s : State) : Out :=
  taskOp pfxRS [] 0x05 0 g b h a j f s

/-- VABS. -/
def execVabs (h : Bool) (a : Reg) (j f : Bool) (s : State) : Out :=
  taskOp pfxS [] 0x06 0 false 0 h a j f s

/-- VNEG. -/
def execVneg (h : Bool) (a : Reg) (j f : Bool) (s : State) : Out :=
  taskOp pfxS [] 0x07 0 false 0 h a j f s

/-- VEXP2. -/
def execVexp2 (h : Bool) (a : Reg) (j f : Bool) (s : State) : Out :=
  taskOp {} [] 0x08 0 false 0 h a j f s

/-- VLOG2. -/
def execVlog2 (h : Bool) (a : Reg) (j f : Bool) (s : State) : Out :=
  taskOp {} [] 0x09 0 false 0 h a j f s

/-- VRCP. -/
def execVrcp (h : Bool) (a : Reg) (j f : Bool) (s : State) : Out :=
  taskOp {} [] 0x0A 0 false 0 h a j f s

/-- VRSQRT. -/
def execVrsqrt (h : Bool) (a : Reg) (j f : Bool) (s : State) : Out :=
  taskOp {} [] 0x0B 0 false 0 h a j f s

/-- VTANH. -/
def execVtanh (h : Bool) (a : Reg) (j f : Bool) (s : State) : Out :=
  taskOp {} [] 0x0C 0 false 0 h a j f s

/-- VCVT. -/
def execVcvt (h : Bool) (a : Reg) (j f : Bool) (s : State) : Out :=
  taskOp { pfxRS with sr := fun _ => true } [] 0x0D 0 false 0 h a j f s

/-- VCMP. -/
def execVcmp (c : BitVec 3) (g : Bool) (b : Reg) (h : Bool) (a : Reg) (j f : Bool) (s : State) : Out :=
  taskOp {} [] 0x0E c.toNat g b h a j f s

/-- VSEL. -/
def execVsel (g : Bool) (b : Reg) (h : Bool) (a : Reg) (j f : Bool) (s : State) : Out :=
  taskOp {} [] 0x0F 0 g b h a j f s

/-- VROWRED. -/
def execVrowred (r : BitVec 2) (h : Bool) (a : Reg) (j f : Bool) (s : State) : Out :=
  taskOp pfxRS [] 0x10 r.toNat false 0 h a j f s

/-- VCOLRED. -/
def execVcolred (r : BitVec 2) (h : Bool) (a : Reg) (j f : Bool) (s : State) : Out :=
  taskOp pfxRS [] 0x11 r.toNat false 0 h a j f s

/-- VBCAST. -/
def execVbcast (m : Bool) (h : Bool) (a : Reg) (j f : Bool) (s : State) : Out :=
  taskOp {} [] 0x12 (modBits [m]) false 0 h a j f s

/-- VTRANS. -/
def execVtrans (h : Bool) (a : Reg) (j f : Bool) (s : State) : Out :=
  taskOp {} [] 0x13 0 false 0 h a j f s

/-- VSCALE. -/
def execVscale (m : Bool) (h : Bool) (a : Reg) (j f : Bool) (s : State) : Out :=
  taskOp pfxRS [1] 0x14 (modBits [m]) false 0 h a j f s

/-- VQUANT. -/
def execVquant (h : Bool) (a : Reg) (j f : Bool) (s : State) : Out :=
  taskOp { any := true, rnd := true, sr := fun _ => true } [] 0x15 0 false 0 h a j f s

/-- VSHL. Table 9-3 lists e1 for the row whatever PER is, so it must be full also where PER takes the amounts from B (R237), which
no rule says outright (DESIGN CHOICE, log 87). -/
def execVshl (m : Bool) (g : Bool) (b : Reg) (h : Bool) (a : Reg) (j f : Bool) (s : State) : Out :=
  taskOp pfxS [1] 0x16 (modBits [m]) g b h a j f s

/-- VSHR. Table 9-3 lists e1 for the row whatever PER is, so it must be full also where PER takes the amounts from B (R237), which
no rule says outright (DESIGN CHOICE, log 87). -/
def execVshr (m : Bool) (g : Bool) (b : Reg) (h : Bool) (a : Reg) (j f : Bool) (s : State) : Out :=
  taskOp {} [1] 0x17 (modBits [m]) g b h a j f s

/-- VSAR. Table 9-3 lists e1 for the row whatever PER is, so it must be full also where PER takes the amounts from B (R237), which
no rule says outright (DESIGN CHOICE, log 87). -/
def execVsar (m : Bool) (g : Bool) (b : Reg) (h : Bool) (a : Reg) (j f : Bool) (s : State) : Out :=
  taskOp {} [1] 0x18 (modBits [m]) g b h a j f s

/-- VCLAMP. -/
def execVclamp (h : Bool) (a : Reg) (j f : Bool) (s : State) : Out :=
  taskOp {} [1] 0x19 0 false 0 h a j f s

/-- VMOV. -/
def execVmov (h : Bool) (a : Reg) (j f : Bool) (s : State) : Out :=
  taskOp {} [] 0x1A 0 false 0 h a j f s

/-- VFILL. -/
def execVfill (h : Bool) (a : Reg) (j f : Bool) (s : State) : Out :=
  taskOp {} [1] 0x1B 0 false 0 h a j f s

/-- VMASK. -/
def execVmask (m : Bool) (h : Bool) (a : Reg) (j f : Bool) (s : State) : Out :=
  taskOp {} [1] 0x1C (modBits [m]) false 0 h a j f s

/-- MMA. -/
def execMma (r s y x : Bool) (g : Bool) (b : Reg) (h : Bool) (a : Reg) (j f : Bool) (t : State) : Out :=
  taskOp {} (if r then [1] else []) 0x20 (modBits [x, y, s, r]) g b h a j f t

/-- MDRAIN. -/
def execMdrain (g : Bool) (b : Reg) (h : Bool) (a : Reg) (j f : Bool) (s : State) : Out :=
  taskOp { pfxRS with sr := fun _ => true } [1] 0x21 0 g b h a j f s

/-- CPY.MT. -/
def execCpyMt (g : Bool) (b : Reg) (h : Bool) (a : Reg) (j f : Bool) (s : State) : Out :=
  taskOp {} [1] 0x28 0 g b h a j f s

/-- CPY.TM. -/
def execCpyTm (g : Bool) (b : Reg) (h : Bool) (a : Reg) (j f : Bool) (s : State) : Out :=
  taskOp {} [1] 0x28 1 g b h a j f s

/-- CPY.MM. -/
def execCpyMm (g : Bool) (b : Reg) (h : Bool) (a : Reg) (j f : Bool) (s : State) : Out :=
  taskOp {} [1] 0x28 2 g b h a j f s

/-- GATH. -/
def execGath (g : Bool) (b : Reg) (h : Bool) (a : Reg) (j f : Bool) (s : State) : Out :=
  taskOp {} [1, 2] 0x29 0 g b h a j f s

/-- SCAT. -/
def execScat (g : Bool) (b : Reg) (h : Bool) (a : Reg) (j f : Bool) (s : State) : Out :=
  taskOp {} [1, 2] 0x2A 0 g b h a j f s

end Sys2Proof.Machine
end

