-- ==== Sys2Proof/Machine/Juggler.lean ====
section
/-! DEFINITION. The Jugglers, engines and streamers (09 R225, R232 to R236, R245 to R256; 05 R121 to R124; 15 R359):
acceptance, admission in order, execution, and completion. -/

namespace Sys2Proof.Machine

open Sys2Proof

/-! ### Acceptance checks (09 Table 9-4) -/

/-- The operand slots D, A, B, C of a command, and the handle in e1. -/
def cmdSlot (c : Cmd) (i : Nat) : Nat :=
  match i with
  | 0 => bits c.wa.toNat 0 32
  | 1 => bits c.wa.toNat 32 32
  | 2 => bits c.wb.toNat 0 32
  | 3 => bits c.wb.toNat 32 32
  | _ => bits c.e1.toNat 0 32

/-- The slots that hold handles, in the order of check 1 (09 Table 9-3). -/
def handleSlots (c : Cmd) : List Nat :=
  match c.op with
  | 0x05 => [0, 1, 2, 3]
  | 0x0F => [0, 1, 2, 3]
  | 0x20 => [0, 1, 2, 3] ++ (if bitAt c.mods 3 then [4] else [])
  | 0x21 => [0, 1, 2, 3]
  | 0x1B => [0]
  | 0x1C => [0]
  | 0x28 => match c.mods with | 0 => [0] | 1 => [2] | _ => []
  | 0x29 => [0]
  | 0x2A => [2]
  | 0x80 => [0]
  | 0x81 => [0]
  | 0x82 => [0]
  | 0x0E => [0, 1, 2]
  | op => if op ≤ 4 || (0x16 ≤ op && op ≤ 0x18 && bitAt c.mods 0) then [0, 1, 2] else [0, 1]

/-- The slots that a command uses, an address counting as the pair it fills (09 R231). -/
def usedSlots (c : Cmd) : List Nat :=
  match c.op with
  | 0x28 => match c.mods with | 0 => [0, 2, 3] | 1 => [0, 1, 2] | _ => [0, 1, 2, 3]
  | 0x29 => [0, 2, 3]
  | 0x2A => [0, 1, 2]
  | _ => if 0x80 ≤ c.op then [0, 1, 2, 3] else handleSlots c

/-- An operand by its slot. -/
def refIn (refs : List TRef) (slot : Nat) : Option TRef := refs.find? fun x => x.slot == slot

/-- Check 1: the handles in order; a C slot of 0 is no handle for `mma`, nor is C for an FP32 `mdrain`. -/
def State.lookUp (s : State) (c : Cmd) : List Nat → List TRef → Except (Nat × Word) (List TRef)
  | [], acc => .ok acc
  | i :: r, acc =>
    let none_ := i == 3 && ((c.op == 0x20 && cmdSlot c 3 == 0) || (c.op == 0x21 && (refIn acc 1).any fun a => a.fmt == 6))
    if none_ then s.lookUp c r acc
    else match s.tileRef c.blk i (cmdSlot c i) (c.op == 0x81) with
      | some x => s.lookUp c r (acc ++ [x])
      | none => .error (9, BitVec.ofNat 64 (cmdSlot c i))

/-- Rows and columns of an operand. -/
def TRef.shape (x : TRef) : Nat × Nat := (x.rows, x.cols)
/-- M and N of an `mma` (09 R245). -/
def mmaSide (n : Nat) : Bool := n == 16 || n == 32 || n == 64 || n == 128

/-- Check 2, shapes: the first handle of the mismatched pair. -/
def badShape (c : Cmd) (refs : List TRef) : Option Nat :=
  let d? := refIn refs 0
  let a? := refIn refs 1
  let no (b : Bool) (h : Nat) : Option Nat := if b then some h else none
  match d?, a? with
  | some d, some a =>
    match c.op with
    | 0x10 => no (d.shape != (a.rows, 1)) d.handle
    | 0x11 => no (d.shape != (1, a.cols)) d.handle
    | 0x12 => no (a.shape != (if bitAt c.mods 0 then (1, d.cols) else (d.rows, 1))) d.handle
    | 0x13 => no (d.shape != (a.cols, a.rows)) d.handle
    | 0x20 =>
      let b := refIn refs 2
      if !mmaSide d.rows || !mmaSide d.cols || a.rows != d.rows || (b.any fun b => b.rows != d.cols) ||
          ((refIn refs 3).any fun x => x.shape != d.shape) || ((refIn refs 4).any fun x => x.shape != (d.rows, 1)) then some d.handle
      else no (a.cols % 32 != 0 || b.any fun b => b.cols != a.cols) a.handle
    | 0x21 =>
      no (d.shape != a.shape || ((refs.filter fun x => 2 ≤ x.slot).any fun x => x.shape != (1, a.cols))) d.handle
    | 0x15 =>
      no (d.shape != a.shape || (d.axis == 2 && (d.row0 % 32 != 0 || d.rows % 32 != 0))) d.handle
    | _ => no (refs.any fun x => x.shape != d.shape) d.handle
  | some d, none =>
    if c.op = 0x80 || c.op = 0x82 then
      no (d.rows ≤ bits c.wa.toNat 32 7 || d.cols ≤ bits c.wa.toNat 48 10) d.handle
    else none
  | _, _ => none

/-- Check 3, a slot or e word that breaks a condition (09 R231): the whole register or e word. -/
def badWord (c : Cmd) (refs : List TRef) : Option Word :=
  let mode := (c.pfx.map pfxMode).getD 0
  let unused := ([0, 1, 2, 3].filter fun i => !(usedSlots c).contains i && cmdSlot c i != 0) ++
    (if c.op = 0x21 && (refIn refs 3).isNone && cmdSlot c 3 != 0 then [3] else [])
  let e1 := c.e1.toNat
  match unused with
  | i :: _ => some (if i < 2 then c.wa else c.wb)
  | [] =>
    if mode = 5 && bits c.e0.toNat 48 16 != 0 then some c.e0
    else match c.op with
      | 0x14 => if bitAt c.mods 0 && e1 != 0 then some c.e1 else none
      | 0x1C => if bits e1 48 16 != 0 then some c.e1 else none
      | 0x21 =>
        let whole := (refIn refs 0).any fun d => isI d.fmt
        if bits e1 48 16 != 0 || (!whole && e1 != 0) then some c.e1 else none
      | 0x28 => if bits e1 32 32 != 0 || (c.mods == 2 && e1 == 0) then some c.e1 else none
      | 0x29 => if bits c.e2.toNat 32 32 = 0 then some c.e2 else none
      | 0x2A => if bits c.e2.toNat 32 32 = 0 then some c.e2 else none
      | _ => none

/-- A format that is an element of `I`, `F` or MK8 (09 Table 9-6). -/
def isFIM (f : Nat) : Bool := isF f || isI f || f == 14
/-- The operand pairs of 03 Table 3-7. -/
def mmaPair (a b : Nat) : Bool :=
  (isMx a && isMx b) || (a < 2 && b < 2) || (a == b && (a == 7 || a == 8))

/-- Check 3, formats and axes: the first handle that cannot be accepted given what stands before it. Elements of 4 bits are
refused for `vtrans` alone: R242 says so in the sentence on `vtrans`, and whether it covers `vbcast` is not said (DESIGN CHOICE,
log 89). -/
def badFormat (c : Cmd) (refs : List TRef) : Option Nat :=
  let mode := (c.pfx.map pfxMode).getD 0
  match refIn refs 0 with
  | none => none
  | some d =>
    let df := d.fmt
    let a? := refIn refs 1
    let af := (a?.map (·.fmt)).getD 16
    let ah := (a?.map (·.handle)).getD d.handle
    let same (ok : Bool) : Option Nat :=
      if !ok then some d.handle else ((refs.drop 1).find? fun x => x.fmt != df).map (·.handle)
    let two (okD okA : Bool) : Option Nat := if !okD then some d.handle else if !okA then some ah else none
    match c.op with
    | 0x05 => same (isF df)
    | 0x03 => same (isFIM df)
    | 0x04 => same (isFIM df)
    | 0x06 => same (isFIM df)
    | 0x07 => same (isFIM df)
    | 0x0D =>
      if 15 < df || (df == 14 && mode != 0) then some d.handle
      else if 15 < af then some ah
      else if mode == 5 && !srAccepts af df then some d.handle else none
    | 0x0E =>
      if df != 1 then some d.handle
      else if !isFIM af || (4 < c.mods && !isI af) then some ah
      else ((refIn refs 2).filter fun b => b.fmt != af).map (·.handle)
    | 0x0F =>
      if 15 < df then some d.handle
      else ((refs.drop 1).find? fun x => x.fmt != (if x.slot = 3 then 1 else df)).map (·.handle)
    | 0x10 => two (isF df || isI df) ((isF af && (df == af || df == 6)) || (isI af && (df == af || df == 4 || df == 5)))
    | 0x11 => two (isF df || isI df) ((isF af && (df == af || df == 6)) || (isI af && (df == af || df == 4 || df == 5)))
    | 0x12 => two (df ≤ 15) (af == df)
    | 0x13 => two (df ≤ 15 && (fmtOf df).storage != 4) (af == df)
    | 0x14 => two (isF df) (if bitAt c.mods 0 then (a?.any fun a => a.axis != 0) else af == df)
    | 0x15 => two (isMx df && d.axis != 0) (isF af)
    | 0x16 => same (isI df)
    | 0x17 => same (isI df)
    | 0x18 => same (isI df)
    | 0x1A => same (df ≤ 15)
    | 0x1B => same (df ≤ 15)
    | 0x1C => same (df == 1)
    | 0x20 =>
      let b? := refIn refs 2
      if !(df == 4 || (df == 6 && c.mods == 0)) then some d.handle
      else if !(if df = 4 then af < 2 else isMx af || af == 7 || af == 8) || (a?.any fun a => a.axis == 2) then some ah
      else if b?.any fun b => !mmaPair af b.fmt || b.axis == 2 then b?.map (·.handle)
      else if (refIn refs 3).any fun x => x.fmt != df then (refIn refs 3).map (·.handle)
      else ((refIn refs 4).filter fun x => x.fmt != 4).map (·.handle)
    | 0x21 =>
      if !(df == 0 || df == 1 || df == 7 || df == 9 || df == 10) then some d.handle
      else if !(af == 4 || af == 6) then some ah
      else if (refIn refs 2).any fun b => b.fmt != af then (refIn refs 2).map (·.handle)
      else ((refIn refs 3).filter fun x => x.fmt != 0).map (·.handle)
    | 0x28 => none
    | 0x29 => none
    | 0x2A => none
    | op =>
      if 0x80 ≤ op then none
      else if op ≤ 2 || op == 0x19 then same (isF df || isI df)
      else same (isF df)

/-- Check 4 (09 R235): the destination whose storage is shared where it may not be. -/
def badOverlap (c : Cmd) (refs : List TRef) : Option Nat :=
  match refIn refs 0 with
  | none => none
  | some d =>
    let srcs := refs.filter fun x => 1 ≤ x.slot && x.slot ≤ 3
    if c.op = 0x20 then
      let ab := refs.filter fun x => x.slot == 1 || x.slot == 2
      let r? := refIn refs 4
      let c? := refIn refs 3
      if ab.any d.shares then some d.handle
      else if r?.any fun r => ab.any r.shares then r?.map (·.handle)
      else if r?.any d.shares then some d.handle
      else if c?.any fun x => d.shares x && !d.coincides x then some d.handle
      else if r?.any fun r => c?.any r.shares then r?.map (·.handle)
      else none
    else
      let strict := (0x10 ≤ c.op && c.op ≤ 0x13) || c.op == 0x15 || c.op == 0x21
      if srcs.any fun x => d.shares x && (strict || !d.coincides x) then some d.handle else none

/-! ### Memory operands (09 R249, 15 R359) -/

/-- Who asks for a translation at a Juggler: a number that stands for it, its partition and privilege, and the cluster. -/
structure Asker where
  id : Nat
  part : Nat
  cluster : Nat
  priv : Nat

/-- Translates one address for an engine with a thread's privilege, by what walks have answered it and by its cluster's TLB (15 R359); 0
in place of a cause means that its page has still to be walked. -/
def State.engineLook (s : State) (g : Asker) (va : Nat) (wr : Bool) : Except Nat Nat :=
  let o := va % 2 ^ 56
  let hi := bitAt va 56
  let k := s.cluster g.cluster
  let allow (e : TlbEntry) : Except Nat Nat :=
    if !(g.priv == 0 && hi) && e.permits (if wr then .store else .load) g.priv then .ok (e.pa o) else .error 7
  match regionAt va with
  | .mesh => if s.outside g.part ((va - meshBase) / 2 ^ 26 % 8) then .error 8 else .ok (storePlace + (va - meshBase))
  | .context => .error 7
  | .gap => .error 6
  | .global =>
    if g.priv == 0 && hi then .error 7
    else match k.xlat.find? fun x => x.1 == g.id && x.2.1 == pageKey g.part hi (o / 12288) with
      | some (_, _, some e) => allow e
      | some (_, _, none) => .error 6
      | none => match tlbFind k.tlb g.part hi o with
        | some e => allow e
        | none => .error 0

/-- Cuts a range of addresses at base pages of their half and at core stores. -/
def chunks (va n : Nat) : Nat → List (Nat × Nat)
  | 0 => []
  | fuel + 1 =>
    if n = 0 then []
    else
      let va := va % 2 ^ 64
      let k := min n (if regionAt va == .mesh then 65536 - va % 65536 else 12288 - va % 2 ^ 56 % 12288)
      (va, k) :: chunks (va + k) (n - k) fuel

/-- The pieces of a range, with fuel for every patch of it. -/
def rangeChunks (va n : Nat) : List (Nat × Nat) := chunks va n (n / 4096 + 3)

/-- The runs of places of ranges of addresses; a run that does not translate carries its cause. -/
def State.rangeRuns (s : State) (g : Asker) (wr : Bool) (rs : List (Nat × Nat)) : List (Except Nat (Nat × Nat)) :=
  (rs.flatMap fun (va, n) => rangeChunks va n).map fun (v, k) => (s.engineLook g v wr).map fun p => (p, k)

/-- The pages of ranges of addresses that have still to be walked, each with its half. -/
def State.unwalked (s : State) (g : Asker) (wr : Bool) (rs : List (Nat × Nat)) : List (Bool × Nat) :=
  ((rs.flatMap fun (va, n) => rangeChunks va n).filterMap fun (v, _) => match s.engineLook g v wr with
    | .error 0 => some (bitAt v 56, v % 2 ^ 56 / 12288)
    | _ => none).eraseDups

/-- Asks the walk pool of the die for pages (15 R358, R359). -/
def State.engineWalks (s : State) (g : Asker) (ps : List (Bool × Nat)) : State :=
  each ps (fun (hi, page) s =>
    s.beginWalk (g.cluster / 64) ⟨g.part, (s.part g.part).root hi, hi, page, g.cluster, [⟨g.id, 0, 8192 + g.cluster⟩]⟩) s

/-- What walks have answered is used once. -/
def State.forgetWalks (s : State) (g : Asker) : State :=
  if (s.cluster g.cluster).xlat.any fun x => x.1 == g.id then
    s.modCluster g.cluster fun k => { k with xlat := k.xlat.filter fun x => x.1 != g.id }
  else s

/-- The runs before the first fault, and that fault. -/
def goodRuns : List (Except Nat (Nat × Nat)) → List (Nat × Nat) × Option Nat
  | [] => ([], none)
  | .ok x :: r => let (l, f) := goodRuns r; (x :: l, f)
  | .error e :: _ => ([], some e)

/-- Every run that translates. -/
def anyRuns (l : List (Except Nat (Nat × Nat))) : List (Nat × Nat) :=
  l.filterMap fun x => match x with | .ok r => some r | .error _ => none

/-- The places of runs, byte by byte. -/
def placesOf (l : List (Nat × Nat)) : List Nat := (l.map fun (p, n) => (List.range n).map (p + ·)).flatten

/-- The 192-byte granules of runs as footprint entries (09 R234). -/
def granulesIn (l : List (Nat × Nat)) : List (Bool × Nat × Nat × Nat) :=
  l.map fun (p, n) =>
    let b := if storePlace ≤ p then storePlace else 0
    (false, (if storePlace ≤ p then 1 else 0), (p - b) / 192, (p - b + n - 1) / 192 - (p - b) / 192 + 1)

/-- The rows of the scale tile that belong to an MX operand's rows. -/
def TRef.scaleRows (x : TRef) : List (Bool × Nat × Nat × Nat) :=
  if x.axis = 1 then [(true, x.key + 1, x.row0, x.rows)]
  else if x.axis = 2 then [(true, x.key + 1, x.row0 / 32, (x.row0 + x.rows - 1) / 32 - x.row0 / 32 + 1)]
  else []

/-- An operand's footprint entries (09 Table 9-5): its rows, and for `mma` their scale rows, for a vector command the whole
scale tile of an MX source and the scale rows of an MX destination; the row-sum tile of an `mma` is written whole, and a copy,
gather or scatter has rows only. -/
def TRef.foot (x : TRef) (op : Nat) (written : Bool) : List (Bool × Nat × Nat × Nat) :=
  if op = 0x20 && x.slot == 4 then [(true, x.key, 0, 128)]
  else (true, x.key, x.row0, x.rows) ::
    (if 0x28 ≤ op then []
     else if op = 0x20 || written then x.scaleRows
     else if x.axis != 0 then [(true, x.key + 1, 0, 128)] else [])

/-- Two footprint entries meet. -/
def footMeets (a b : Bool × Nat × Nat × Nat) : Bool :=
  a.1 == b.1 && a.2.1 == b.2.1 && a.2.2.1 < b.2.2.1 + b.2.2.2 && b.2.2.1 < a.2.2.1 + a.2.2.2

/-- A later task has an edge from an earlier one (05 R122). -/
def Task.after (t u : Task) : Bool :=
  (t.wr.any fun a => (u.wr ++ u.rd).any (footMeets a)) || t.rd.any fun a => u.wr.any (footMeets a)

/-- Reports the patches of a task's memory footprint to the block's trace unit (09 R252, 10 R261). -/
def State.reportRuns (s : State) (c : Cmd) (wr : Bool) (l : List (Nat × Nat)) : State :=
  each (l.filter fun x => x.1 < storePlace) (fun (p, n) s =>
    each (List.range ((p + n - 1) / 12288 - p / 12288 + 1)) (fun i s =>
      let patch := p / 12288 + i
      s.report c.blk (c.cluster / 64) patch wr (if patch < 2 ^ 26 then 0 else 8) c.pc) s) s

/-- The base, stride, row count and row bytes of a gather's or scatter's region (09 R253). -/
def streamRegion (c : Cmd) (rb : Nat) : Nat × Nat :=
  (c.e1.toNat, (bits c.e2.toNat 32 32 - 1) * bits c.e2.toNat 0 32 + rb)

/-- The memory operands of a command as ranges of addresses: bytes read and written, and the footprint read and written. -/
structure MemOps where
  src : List (Nat × Nat) := []
  dst : List (Nat × Nat) := []
  rd : List (Nat × Nat) := []
  wr : List (Nat × Nat) := []

/-- The memory operands of a task (09 R251 to R254, Table 9-5). -/
def Task.memOps (t : Task) : MemOps :=
  let c := t.cmd
  let st := bits c.e1.toNat 0 32
  let rb (x : TRef) : Nat := rowBytes x.desc x.scale
  let rows (x : TRef) (va : Nat) : List (Nat × Nat) := (List.range x.rows).map fun r => (va + r * st, rb x)
  let span (x : TRef) (va : Nat) : List (Nat × Nat) := [(va, (x.rows - 1) * st + rb x)]
  match c.op, c.mods, refIn t.refs 0, refIn t.refs 2 with
  | 0x28, 0, some d, _ => { src := rows d c.wb.toNat, rd := span d c.wb.toNat }
  | 0x28, 1, _, some b => { dst := rows b c.wa.toNat, wr := span b c.wa.toNat }
  | 0x28, _, _, _ =>
    { src := [(c.wb.toNat, st)], dst := [(c.wa.toNat, st)], rd := [(c.wb.toNat, st)], wr := [(c.wa.toNat, st)] }
  | 0x29, _, some d, _ => { src := [(c.wb.toNat, 4 * d.rows)], rd := [(c.wb.toNat, 4 * d.rows), streamRegion c (rb d)] }
  | 0x2A, _, _, some b => { src := [(c.wa.toNat, 4 * b.rows)], rd := [(c.wa.toNat, 4 * b.rows)], wr := [streamRegion c (rb b)] }
  | _, _, _, _ => {}

/-- A task's command, as it asks for translations. -/
def Task.asker (t : Task) : Asker := ⟨t.cmd.ctx, t.part, t.cmd.cluster, t.cmd.priv⟩

/-- The pages of a task's memory operands that have still to be walked. -/
def State.unwalkedOps (s : State) (t : Task) : List (Bool × Nat) :=
  let m := t.memOps
  (s.unwalked t.asker false (m.src ++ m.rd) ++ s.unwalked t.asker true (m.dst ++ m.wr)).eraseDups

/-- Adds the translated memory operands of an accepted command to its task, with their footprint and reports. -/
def State.memOperands (s : State) (t : Task) : Task × State :=
  let m := t.memOps
  let (src, f) := goodRuns (s.rangeRuns t.asker false m.src)
  let (dst, g) := goodRuns (s.rangeRuns t.asker true m.dst)
  let rd := anyRuns (s.rangeRuns t.asker false m.rd)
  let wr := anyRuns (s.rangeRuns t.asker true m.wr)
  ({ t with src := src, dst := dst, flt := f.or g, rd := t.rd ++ granulesIn rd, wr := t.wr ++ granulesIn wr },
    (s.reportRuns t.cmd false rd).reportRuns t.cmd true wr)

/-- The checks of Table 9-4 in their order, and the task of an accepted command. Where a word breaks a condition of R231 and a
format or axis is refused as well, both under check 3, the word is reported; the table gives no order between the two (DESIGN
CHOICE, log 88). -/
def State.judge (s : State) (c : Cmd) : Except (Nat × Word) Task :=
  match s.lookUp c (handleSlots c) [] with
  | .error e => .error e
  | .ok refs =>
    let late := (refs.find? (·.past)).map (·.handle)
    match (if late.isSome then late else badShape c refs), badWord c refs, badFormat c refs, badOverlap c refs with
    | some h, _, _, _ => .error (0x0A, BitVec.ofNat 64 h)
    | none, some w, _, _ => .error (1, w)
    | none, none, some h, _ => .error (1, BitVec.ofNat 64 h)
    | none, none, none, some h => .error (0x0B, BitVec.ofNat 64 h)
    | none, none, none, none =>
      let l := (get? s.blocks c.blk).bind fun b => get? s.launches b.launch
      let k := s.cluster c.cluster
      let order := ((k.inq.map (·.order)) ++ (k.tasks.map fun x => x.2.order)).foldl max 0 + 1
      -- D and the row sums are written; `tget` reads its row, `tset` writes it, and `tfree` writes the whole tile
      let one := bits c.wa.toNat 32 7
      let narrow (x : TRef) : TRef := if c.op = 0x80 || c.op = 0x82 then { x with row0 := x.row0 + one, rows := 1 } else x
      let writes (x : TRef) : Bool := (x.slot == 0 && c.op != 0x82) || x.slot == 4
      let whole (x : TRef) : List (Bool × Nat × Nat × Nat) :=
        if c.op = 0x81 then [(true, x.key / 2 * 2, 0, 128), (true, x.key / 2 * 2 + 1, 0, 128)].filter fun y =>
          y.2.1 == x.key || descAxis x.desc != 0
        else if c.op = 0x80 || c.op = 0x82 then [(true, x.key, x.row0 + one, 1)] else x.foot c.op (writes x)
      let t : Task := { cmd := c, part := (l.map (·.part)).getD 0, seed := (l.map (·.seed)).getD 0, order, refs := refs.map narrow,
                        rd := ((refs.filter fun x => !writes x).map whole).flatten,
                        wr := ((refs.filter writes).map whole).flatten }
      .ok t

/-- Marks a tile, or both halves of an MX pair, freed (09 R226). -/
def State.retireTile (s : State) (x : TRef) : State :=
  { s with tiles := mapVals s.tiles fun k t =>
      if k == x.key || (descAxis x.desc != 0 && k / 2 == x.key / 2) then { t with freed := true } else t }

/-- COMMAND_ACCEPT (09 R232): a full inbound queue refuses; else the checks of Table 9-4, and an accepted command becomes
a task that waits for admission. Its memory operands are translated first; a page that misses is walked (15 R359). -/
def execCommandAccept (c : Cmd) (s : State) : Out :=
  let k := s.cluster c.cluster
  let room := 256 + 2048 * k.fifoBanks.length
  let reply (s : State) (kind cause : Nat) (info : Word) : State :=
    s.send (c.cluster / 64) (dieOf c.core) 1 16 false none
      (.commandReply c.ctx c.op kind cause info (if c.op = 0x82 then c.wb.toNat % 8 else 16))
  if room ≤ k.inq.length then .next (reply (s.countCluster c.cluster 39 1) 2 0 0)
  else match s.judge c with
    | .error (cause, info) => .next (reply s 1 cause info)
    | .ok t =>
      match s.unwalkedOps t with
      | p :: ps => .next ((s.engineWalks t.asker (p :: ps)).post (.commandAccept c))
      | [] =>
        let (t, s) := s.memOperands t
        let s := match c.op, refIn t.refs 0 with
          | 0x81, some x => s.retireTile x
          | _, _ => s
        let s := (s.forgetWalks t.asker).modCluster c.cluster fun k => { k with inq := k.inq ++ [t] }
        .next ((reply s 0 0 0).post (.taskAdmit c.cluster))

/-- COMMAND_RETRY (09 R232): the slot may try again. -/
def execCommandRetry (_ : Nat) (s : State) : Out := .next s

/-- What an accept reply does to a context: CMDS, the prefix and the pc; for `tget` the destination instead of CMDS (09
R229, R232). -/
def Ctx.accepted (c : Ctx) (op reg : Nat) : Ctx :=
  let c := { c.advance 4 with pfx := false, bpExempt := false }
  if op = 0x82 then (if h : reg < 8 then c.emptyW (BitVec.ofNatLT reg h) else c) else { c with cmds := c.cmds + 1 }

/-- COMMAND_REPLY (09 R232, R256): 0 accept, 1 fault, 2 NACK. In a pair it is applied to both contexts. -/
def execCommandReply (ctx op kind cause : Nat) (info : Word) (reg : Nat) (s : State) : Out :=
  let c := s.ctx ctx
  let peer := if c.pair == 1 then c.peer else none
  let core := match (s.centry ctx).holder with | .core k => k | _ => 0
  if c.kind == 11 || c.kind == 12 then .next s
  else match kind with
    | 0 =>
      -- the command issues with its acceptance (19 R419, R421)
      let slot := (s.core core).slotOf ctx
      let s := (s.countCore core 1 slot).countCore core 9 slot
      let s := if slot.any (· == (s.die (dieOf core)).cyc % 16) then s.sampleAt core c.part 1 c.pc.toNat (s.launchBits ctx) else s
      let s := s.modCtx ctx fun c =>
        { c.accepted op reg with lastIssue := (s.die (dieOf core)).cyc, issuedAt := s.gtime }
      match peer with
      | none => .next s
      | some p =>
        let s := s.modCtx p fun c => c.accepted op reg
        let tag := (s.ctx p).etag reg
        .next (s.modCtx ctx fun c =>
          { c with comparator := c.comparator.drop 1
                   lvq := if op = 0x82 then c.lvq ++ [{ reg := reg, claim := some tag }] else c.lvq })
    | 1 =>
      if c.kind != 0 then .next s
      else
        let s := match peer with
          | none => s
          | some p => (s.modCtx ctx fun c => { c with comparator := c.comparator.drop 1 }).trap core p cause info (s.ctx p).pc
        .next (s.trap core ctx cause info c.pc)
    | _ => .next ((s.pcReport core ctx 5).post (.commandRetry ctx))

/-! ### Poisoned words of tiles (17 R392) -/

/-- The bytes of rows of a tile, by their offsets. -/
def rowSpans (desc : Nat) (scale : Bool) (row0 rows : Nat) : List (Nat × Nat) :=
  (List.range rows).map fun r => ((row0 + r) * stride desc scale, rowBytes desc scale)

/-- Writes some bytes of a tile: a poisoned word that they cover is poisoned no longer, and one that they cover in part stays as it
was (17 R392). -/
def State.putWords (s : State) (key : Nat) (t : Tile) (spans : List (Nat × Nat)) : State :=
  let base := tilePlace + key * 2 ^ 16
  match s.markedAt base (2 ^ 16), get? s.tiles key with
  | true, some u =>
    let mine (w : Nat) : Bool := base ≤ 8 * w && 8 * w < base + 2 ^ 16
    let whole (w : Nat) : Bool := spans.any fun x => base + x.1 ≤ 8 * w && 8 * w + 8 ≤ base + x.1 + x.2
    let keep (t : Tile) (w : Nat) : Tile := (List.range 8).foldl (fun t i => t.setByte (8 * w - base + i) (u.byte (8 * w - base + i))) t
    let t := (s.poison.filter fun w => mine w && !whole w).foldl keep t
    if u.seed = t.seed then { (s.putTile key t) with poison := s.poison.filter fun w => !(mine w && whole w) } else s
  | _, _ => s.putTile key t

/-- Writes the rows of an operand's view. -/
def State.putRows (s : State) (x : TRef) (t : Tile) : State := s.putWords x.key t (rowSpans x.desc x.scale x.row0 x.rows)

/-- Writes the scale rows that belong to an MX operand's rows. -/
def State.putScales (s : State) (x : TRef) (t : Tile) : State :=
  s.putWords (x.key + 1) t (x.scaleRows.flatMap fun y => rowSpans x.desc true y.2.2.1 y.2.2.2)

/-- A task would read a poisoned word of a tile. -/
def State.tastes (s : State) (t : Task) : Bool :=
  t.rd.any fun x => x.1 && match get? s.tiles x.2.1 with
    | some u => s.markedAt (tilePlace + x.2.1 * 2 ^ 16 + x.2.2.1 * stride u.desc u.scale) (x.2.2.2 * stride u.desc u.scale)
    | none => false

/-- A task that consumes poison has faulted (17 R392, 09 R236). -/
def Task.poisoned (t : Task) : Task := { t with flt := if t.flt.isNone then some 0x10 else t.flt }

/-! ### Tiles -/

/-- 32-byte granules of a SCRATCH bank. -/
def bankGranules : Nat := 16384

/-- The lowest-addressed run of `n` free granules of an allotment, given the runs taken (09 R225): it begins at 0 or where a
taken run ends. -/
def firstRun (taken : List (Nat × Nat)) (n total : Nat) : Option Nat :=
  let fits (b : Nat) : Bool := b + n ≤ total && !taken.any fun x => x.1 < b + n && b < x.1 + x.2
  (0 :: taken.map fun x => x.1 + x.2).foldl (fun best b =>
    if fits b then (match best with | some m => some (min m b) | none => some b) else best) none

/-- The lowest free entry that a new tile may take, the even one of a free pair for an MX tile (09 R225, 04 R99). -/
def State.freeEntry (s : State) (cluster : Nat) (mx : Bool) : Option Nat :=
  let free (i : Nat) : Bool := (get? s.tiles (1024 * cluster + i)).isNone
  ((List.range 1024).drop 1).find? fun i => if mx then i % 2 == 0 && free i && free (i + 1) else free i

/-- TALLOC_SERVE (09 R225): the handle, or 0 where no entry or no run is free. -/
def execTallocServe (cluster ctx reg : Nat) (tag : Bool) (blk : Nat) (desc : Word) (_ : Nat) (s : State) : Out :=
  let d := desc.toNat
  let mx := descAxis d != 0
  let n := granulesOf d false
  let m := if mx then granulesOf d true else 0
  let answer (s : State) (v : Nat) : State :=
    s.tell (cluster / 64) ctx 2 32 fun h => .registerFill ctx reg tag (BitVec.ofNat 64 v) false 0 h 0
  match get? s.blocks blk with
  | none => .next (answer s 0)
  | some b =>
    let id := ((get? s.launches b.launch).map (·.id)).getD 0
    let mine := s.tiles.filter fun (k, t) => k / 1024 == cluster && t.launch == id && t.block == b.index
    match s.freeEntry cluster mx, firstRun (mine.map fun (_, t) => (t.base, t.granules)) (n + m) (b.banks.length * bankGranules) with
    | some i, some base =>
      let t : Tile := { desc := d, launch := id, block := b.index, base := base, granules := n, seed := 2 * s.fresh }
      let tiles := put s.tiles (1024 * cluster + i) t
      let tiles := if mx then put tiles (1024 * cluster + i + 1) { t with base := base + n, granules := m, scale := true, seed := t.seed + 1 }
        else tiles
      let s := (s.unmark (tilePlace + (1024 * cluster + i) * 2 ^ 16) (if mx then 2 ^ 17 else 2 ^ 16))
      .next (answer { s with tiles := tiles } (2 ^ 13 * (1024 * cluster + i)))
    | _, _ => .next (answer s 0)

/-! ### Tasks -/

/-- A task in flight. -/
def State.task (s : State) (cluster n : Nat) : Option Task := get? (s.cluster cluster).tasks n
/-- Changes a task in flight. -/
def State.modTask (s : State) (cluster n : Nat) (f : Task → Task) : State :=
  s.modCluster cluster fun k => match get? k.tasks n with
    | some t => { k with tasks := put k.tasks n (f t) }
    | none => k

/-- The engines that run a task: 2 matrix engines for `mma`, 4 vector units for a vector command and `mdrain`; the other tasks
take none (01 Table 1-2). -/
def engines (op : Nat) : Option Nat :=
  if op = 0x20 then some 2 else if op < 0x28 then some 4 else none

/-- A task that no earlier task in flight has an edge to (05 R122), of a partition that runs on the cluster's die (09 R255). -/
def State.taskFree (s : State) (cluster : Nat) (t : Task) : Bool :=
  s.active t.part (cluster / 64) &&
    !((s.cluster cluster).tasks.any fun (_, u) => u.order < t.order && !u.performed && t.after u)

/-- The task that the Juggler issues next to an engine that is free: of those ready, the oldest (01 R17). -/
def State.nextIssued (s : State) (cluster : Nat) : Option Nat :=
  let ts := (s.cluster cluster).tasks
  let busy (cap : Nat) : Nat := (ts.filter fun (_, u) =>
    u.running && !u.performed && engines u.cmd.op == some cap && s.active u.part (cluster / 64)).length
  let may (t : Task) : Bool :=
    !t.running && !t.performed && (engines t.cmd.op).any (fun cap => busy cap < cap) && s.taskFree cluster t
  (ts.foldl (fun best x =>
    if !may x.2 then best
    else match best with
      | some (_, o) => if x.2.order < o then some (x.1, x.2.order) else best
      | none => some (x.1, x.2.order)) none).map (·.1)

/-- The Juggler issues ready tasks, oldest first, while engines are free (01 R17). -/
def State.issueTasks (s : State) (cluster : Nat) : State :=
  each (List.range 6) (fun _ s => match s.nextIssued cluster with
    | some n => s.modTask cluster n fun t => { t with running := true }
    | none => s) s

/-- A task may take its next step: its engine works on it, or it needs none and no earlier task has an edge to it. -/
def State.taskMayRun (s : State) (cluster n : Nat) : Bool :=
  match s.task cluster n with
  | none => false
  | some t => if (engines t.cmd.op).isSome then t.running && s.active t.part (cluster / 64) else s.taskFree cluster t

/-- A number that stands for a task's part, or for its Juggler, as the sender of join-counter updates. -/
def senderOf (cluster n part : Nat) : Nat := 2 ^ 80 + (64 * cluster + n) * 2 ^ 20 + part
/-- The sender that stands for the Juggler itself. -/
def jugglerPart : Nat := 2 ^ 20 - 1

/-- Some update of a join counter by this sender has still to be acknowledged (09 R236). -/
def State.updating (s : State) (sender : Nat) : Bool :=
  s.flying.any fun e => match e with | .jcUpdate _ _ _ c _ => c == sender | _ => false

/-- A die's Juggler or streamer sends an update of a task's join counter. -/
def State.updateJc (s : State) (t : Task) (die sender : Nat) (addend : Word) (flt : Nat) : State :=
  let loc := t.cmd.e3.toNat - meshBase
  s.sendOnce die (dieOf (locCore loc)) 1 32 false fun tx => .jcUpdate loc addend flt sender tx

/-- What a fault word, or TASK_FAULT, says of a task's fault. -/
def Task.fault (t : Task) (n : Nat) : Nat := match t.flt with | some c => n * 256 + c | none => 0

/-- The first of the 64 task numbers that is free. -/
def Cluster.freeTask (k : Cluster) : Option Nat := (List.range 64).find? fun i => (get? k.tasks i).isNone

/-- A copy, gather or scatter. -/
def isStream (op : Nat) : Bool := 0x28 ≤ op && op ≤ 0x2A

/-- TASK_ADMIT (05 R122): in arrival order, while there is room among 64. -/
def execTaskAdmit (cluster : Nat) (s : State) : Out :=
  let k := s.cluster cluster
  match k.inq, k.freeTask with
  | t :: r, some n =>
    let s := (s.countCluster cluster 32 1).modCluster cluster fun k => { k with inq := r, tasks := put k.tasks n t }
    .next ((s.issueTasks cluster).post (if t.cmd.op = 0x20 then .mmaFragmentDone cluster n
      else if isStream t.cmd.op then .streamerPartStart cluster n 0 else .taskComplete cluster n))
  | _, _ => .next s

/-- The views of D, A, B and C; a slot without an operand shows D. -/
def State.views (s : State) (t : Task) : Option (View × View × View × View) :=
  (refIn t.refs 0).map fun d =>
    let v (i : Nat) : View := s.viewOf ((refIn t.refs i).getD d)
    (v 0, v 1, v 2, v 3)

/-- The scale half of a slot's MX operand. -/
def State.scaleIn (s : State) (t : Task) (slot : Nat) : Tile :=
  match refIn t.refs slot with
  | some x => s.scaleOf x
  | none => { desc := 0, launch := 0, block := 0, base := 0, granules := 0, seed := 0 }

/-- What a vector command, `mdrain`, `tset` or `tfree` does to the tiles (09 R226, R229, R237 to R247). -/
def State.perform (s : State) (t : Task) : State :=
  let c := t.cmd
  let g := roundingOf c t.seed
  match s.views t, refIn t.refs 0 with
  | some (d, a, b, m), some x =>
    match c.op with
    | 0x10 => s.putRows x (d.fill fun r _ => reduce g c.mods a.fmt d.fmt ((List.range a.cols).map fun k => a.elem r k))
    | 0x11 => s.putRows x (d.fill fun _ k => reduce g c.mods a.fmt d.fmt ((List.range a.rows).map fun r => a.elem r k))
    | 0x15 =>
      (s.putRows x (d.fill (quantElem g d a))).putScales x (quantScales g d a (s.scaleIn t 0))
    | 0x20 => s
    | 0x21 => s.putRows x (d.fill (drainElem c g d a b m))
    | 0x80 =>
      let col := bits c.wa.toNat 48 10
      s.putWords x.key (d.t.setElem x.row0 col c.wb.toNat) [(d.t.at x.row0 col, (halfStorage x.desc x.scale + 7) / 8)]
    | 0x81 =>
      { s with tiles := s.tiles.filter fun (k, u) =>
          !((k == x.key && u.seed == x.seed) || (descAxis x.desc != 0 && k / 2 == x.key / 2 && u.seed / 2 == x.seed / 2)) }
    | 0x82 => s
    | 0x28 => s
    | 0x29 => s
    | 0x2A => s
    | _ => s.putRows x (d.fill (elemWise c g d a b m (s.scaleIn t 1)))
  | _, _ => s

/-- The element that `tget` answers (09 R229). -/
def State.tgetValue (s : State) (t : Task) : Word :=
  match refIn t.refs 0 with
  | some x =>
    let v := (s.viewOf x).t.elem x.row0 (bits t.cmd.wa.toNat 48 10)
    match if x.scale then .mk8 else fmtOf x.fmt with
    | .int true w => BitVec.ofInt 64 (signed w v)
    | _ => BitVec.ofNat 64 v
  | none => 0

/-- The element that `tget` reads lies in a poisoned word: its answer is poison. -/
def State.tgetPoison (s : State) (t : Task) : Bool :=
  match refIn t.refs 0 with
  | some x => s.markedAt (tilePlace + x.key * 2 ^ 16 + (s.viewOf x).t.at x.row0 (bits t.cmd.wa.toNat 48 10)) ((halfStorage x.desc x.scale + 7) / 8)
  | none => false

/-- A task leaves its Juggler and its completion is sent, carrying its fault unless a join counter has it (09 R236). -/
def State.finish (s : State) (cluster n : Nat) (t : Task) : State :=
  let c := t.cmd
  let s := (s.modCluster cluster fun k => { k with tasks := del k.tasks n }).issueTasks cluster
  let s := if s.cluster cluster |>.inq.isEmpty then s else s.post (.taskAdmit cluster)
  if c.op = 0x82 then
    s.tell (cluster / 64) c.ctx 1 32 fun h =>
      .registerFill c.ctx (c.wb.toNat % 8) (bitAt c.wb.toNat 3) (s.tgetValue t) (s.tgetPoison t) c.wa h 0
  else
    let flt := match t.flt with
      | some x => if c.j then none else some (BitVec.ofNat 64 (c.op % 128 * 65536 + n * 256 + x))
      | none => none
    s.tell (cluster / 64) c.ctx 1 16 fun h => .cmdsDecrement c.ctx flt h

/-- TASK_COMPLETE (09 R236): the task's writes perform; then its join counter is decremented, and once that is
acknowledged CMDS is. -/
def execTaskComplete (cluster task : Nat) (s : State) : Out :=
  match s.task cluster task with
  | none => .next s
  | some t =>
    if t.performed then .next (s.finish cluster task t)
    else
      let vector := !isStream t.cmd.op && t.cmd.op < 0x80
      -- how long a vector unit is busy is timing, which no step of the model fixes
      let s := if vector then s.countCluster cluster 34 (Config.freeWord s.fresh 3).toNat else s
      -- a task that consumes poison faults, and writes nothing (DESIGN CHOICE, log 111)
      let bad := !isStream t.cmd.op && t.cmd.op != 0x82 && s.tastes t
      let t := if bad then t.poisoned else t
      let s := if bad then s.modTask cluster task Task.poisoned else s.perform t
      if t.cmd.j then
        let s := (s.modTask cluster task fun t => { t with performed := true }).issueTasks cluster
        .next ((s.updateJc t (cluster / 64) (senderOf cluster task jugglerPart) (-1) (t.fault task)).post (.taskComplete cluster task))
      else .next (s.finish cluster task t)

/-- k-groups that one fragment of an `mma` accumulates: at most 1,024 cycles, 32 of them fill (09 R246). -/
def fragmentGroups (d a b : View) : Nat :=
  let p := if isMx a.fmt || a.fmt < 2 then (if a.fmt = 13 && b.fmt = 13 then 65536 else 32768) else 16384
  max 1 (992 * p / (d.rows * d.cols * (groupOf a.fmt).1))

/-- MMA_FRAGMENT_DONE (09 R246): a fragment's groups are accumulated in D; with the last, the row sums are written. -/
def execMmaFragmentDone (cluster task : Nat) (s : State) : Out :=
  match s.task cluster task with
  | none => .next s
  | some t =>
    match (if t.done = 0 && s.tastes t then none else s.views t), refIn t.refs 0 with
    | some (d, a, b, _), some x =>
      let total := mmaGroups a
      let n := min (fragmentGroups d a b) (total - t.done)
      let cv := (refIn t.refs 3).map s.viewOf
      -- how long a fragment takes is timing, which no step of the model fixes
      let s := s.countCluster cluster 33 (Config.freeWord s.fresh 4).toNat
      let s := s.putRows x (mmaRun t.cmd d a b cv (s.scaleIn t 1) (s.scaleIn t 2) t.done n)
      let s := s.modTask cluster task fun t => { t with done := t.done + n }
      if t.done + n < total then .next (s.post (.mmaFragmentDone cluster task))
      else
        let s := match refIn t.refs 4 with
          | some r => s.putRows r (rowSums t.cmd (s.viewOf r) a)
          | none => s
        .next (s.post (.taskComplete cluster task))
    | _, _ => .next (s.post (.taskComplete cluster task))

/-- CMDS_DECREMENT (09 R236, R256): CMDS falls, waits for it end, and a fault that it carries is an asynchronous trap. In
a pair it is applied to both contexts. -/
def execCmdsDecrement (ctx : Nat) (flt : Option Word) (unit : Holder) (s : State) : Out :=
  .next (s.addressed ctx unit (.cmdsDecrement ctx flt unit) fun s =>
    let peer := if (s.ctx ctx).pair == 1 then (s.ctx ctx).peer else none
    each (ctx :: peer.toList) (fun id s =>
      let s := s.modCtx id fun c => { c with cmds := if c.cmds = 0 then 0 else c.cmds - 1 }
      let c := s.ctx id
      let s := if c.kind == 7 && (if c.warg.getLsbD 0 then c.cmds.toNat < 63 else c.cmds == 0) && flt.isNone then s.resume id else s
      match flt with
      | some w => s.trapLater id 0x0D w
      | none => s) s)

/-! ### Streamers (09 R248 to R254) -/

/-- The die that holds a place. -/
def State.placeDie (s : State) (part place : Nat) : Nat :=
  if tilePlace ≤ place then (place - tilePlace) / 2 ^ 26 / 64
  else if storePlace ≤ place then dieOf (locCore (place - storePlace))
  else s.homeDie (part / 4) place

/-- The streamer that serves a source place: its owner (01 R29), for host memory and the scale-up window that of the
set's first memory die: 01 R20 has a streamer read host memory, and no rule says which one does (DESIGN CHOICE, log 90). -/
def State.streamer (s : State) (part place : Nat) : Nat :=
  if tilePlace ≤ place then 64 + (place - tilePlace) / 2 ^ 26
  else if storePlace ≤ place then 64 + clusterOf (locCore (place - storePlace))
  else if s.homeDie (part / 4) place < 20 then s.homeDie (part / 4) place
  else nth (setMems s.mode (part / 4)) 0 8

/-- The die of a streamer. -/
def streamerDie (unit : Nat) : Nat := if unit < 64 then unit else (unit - 64) / 64

/-- The tile places of a row of a stream's tile operand. -/
def rowPlaces (x : TRef) (r : Nat) : List Nat :=
  (List.range (rowBytes x.desc x.scale)).map fun i => tilePlace + x.key * 2 ^ 16 + (x.row0 + r) * stride x.desc x.scale + i

/-- The byte at a place. -/
def State.placeByte (s : State) (t : Task) (p : Nat) : Byte :=
  if tilePlace ≤ p then
    match t.refs with
    | x :: _ => (s.viewOf x).t.byte ((p - tilePlace) % 2 ^ 16)
    | [] => 0
  else if storePlace ≤ p then readByte s.cstore (p - storePlace)
  else readByte s.mem p

/-- A place whose byte is poison. -/
def State.placePoisoned (s : State) (p : Nat) : Bool := if storePlace ≤ p then s.markedAt p 1 else s.poisoned p 1

/-- The index that a gather's or scatter's list has for a row, or the cause of the fault that it meets there; none where the list did not
translate. -/
def Task.index (t : Task) (r : Nat) : Option (Except Nat Nat) :=
  let ps := (t.list.drop (4 * r)).take 4
  if ps.length < 4 then none
  else if ps.any (·.isNone) then some (.error 0x10)
  else
    let i := natOfBytes (ps.map fun b => b.getD 0)
    some (if bits t.cmd.e2.toNat 32 32 ≤ i then .error 0x0C else .ok i)

/-- The range of addresses of the region's row that an index names. -/
def Task.rowRange (t : Task) (x : TRef) (i : Nat) : Nat × Nat :=
  (t.cmd.e1.toNat + i * bits t.cmd.e2.toNat 0 32, rowBytes x.desc x.scale)

/-- The rows of a gather or scatter (09 R253, R254): each index in list order; one outside the region, or whose row does
not translate, faults the task and moves nothing. -/
def State.indexRows (s : State) (g : Asker) (t : Task) (x : TRef) (wr : Bool) : List (Nat × Nat) × Option Nat :=
  (List.range x.rows).foldl (fun (ms, flt) r =>
    let bad (f : Nat) : List (Nat × Nat) × Option Nat := (ms, if flt.isSome then flt else some f)
    match t.index r with
    | none => (ms, flt)
    | some (.error f) => bad f
    | some (.ok i) =>
      match goodRuns (s.rangeRuns g wr [t.rowRange x i]) with
      | (runs, none) =>
        let mem := placesOf runs
        let row := rowPlaces x r
        (ms ++ (if wr then mem.zip row else row.zip mem), flt)
      | (_, some f) => bad f) ([], t.flt)

/-- The pages of a gather's or scatter's rows that have still to be walked (15 R359). -/
def State.unwalkedRows (s : State) (g : Asker) (t : Task) : List (Bool × Nat) :=
  match t.cmd.op, t.refs with
  | 0x28, _ => []
  | op, x :: _ => s.unwalked g (op == 0x2A) ((List.range x.rows).filterMap fun r => match t.index r with
      | some (.ok i) => some (t.rowRange x i)
      | _ => none)
  | _, [] => []

/-- The byte moves of a stream, destination first, in the order in which they are written. -/
def State.streamMoves (s : State) (g : Asker) (t : Task) : List (Nat × Nat) × Option Nat :=
  match t.cmd.op, t.cmd.mods, t.refs with
  | 0x28, 0, x :: _ => ((((List.range x.rows).map (rowPlaces x)).flatten).zip (placesOf t.src), t.flt)
  | 0x28, 1, x :: _ => ((placesOf t.dst).zip (((List.range x.rows).map (rowPlaces x)).flatten), t.flt)
  | 0x28, _, _ => (if t.flt.isSome then [] else (placesOf t.dst).zip (placesOf t.src), t.flt)
  | 0x29, _, x :: _ => s.indexRows g t x false
  | _, _, x :: _ => s.indexRows g t x true
  | _, _, [] => ([], t.flt)

/-- The bytes that one message of a read brings: those that follow one another within a 192-byte granule (16 R434). -/
def readLen : List Nat → Nat
  | p :: q :: r => if q = p + 1 && q / 192 = p / 192 then 1 + readLen (q :: r) else 1
  | [_] => 1
  | [] => 0

/-- The size of the message that brings bytes of a place: the sectors that they lie in. -/
def fillBytes (p n : Nat) : Nat := 16 + 48 * ((p % 48 + n + 47) / 48)

/-- The list of a gather or scatter is read by its cluster's streamer, in another die's storage by messages (01 R20, 09 R253): what the
next of its steps does, none once it has been read. -/
def State.fetchList (s : State) (cluster task : Nat) (t : Task) : Option State :=
  match (if t.cmd.op = 0x28 then [] else (placesOf t.src).drop t.list.length) with
  | [] => none
  | p :: r =>
    let here := cluster / 64
    let from_ := s.placeDie t.part p
    let ps := (p :: r).take (readLen (p :: r))
    let byte (x : Nat) : Option Byte := if s.placePoisoned x then none else some (s.placeByte t x)
    let go (s : State) (src dst n : Nat) : State :=
      s.send src dst (if storePlace ≤ p then 1 else 0) n false none (.streamerPartStart cluster task 0)
    if from_ != here && t.asked % 2 = 0 then some (go (s.modTask cluster task fun t => { t with asked := t.asked + 1 }) here from_ 32)
    else
      some (go (s.modTask cluster task fun t =>
        { t with list := t.list ++ ps.map byte, asked := if from_ != here then t.asked + 1 else t.asked }) from_ here (fillBytes p ps.length))

/-- Bytes that a part reads when it begins. -/
def State.readPart (s : State) (t : Task) (p : Part) : Part :=
  if p.moves.any fun m => s.placePoisoned m.2 then { p with begun := true, moves := [], data := [] }
  else { p with begun := true, data := p.moves.map fun m => s.placeByte t m.2 }

/-- Begins a part: its bytes are read, and a poisoned one faults the task and is not pushed. -/
def State.beginPart (s : State) (cluster task part : Nat) : State :=
  s.modTask cluster task fun t =>
    match t.parts[part]? with
    | some p =>
      let bad := !p.begun && p.moves.any fun m => s.placePoisoned m.2
      { t with parts := t.parts.modify part fun p => if p.begun then p else s.readPart t p
               flt := if bad && t.flt.isNone then some 0x10 else t.flt }
    | none => t

/-- The moves of one push: destinations that follow one another within a 192-byte granule. -/
def pushLen : List (Nat × Nat) → Nat
  | (d, _) :: (e, x) :: r => if e = d + 1 && e / 192 = d / 192 then 1 + pushLen ((e, x) :: r) else 1
  | [_] => 1
  | [] => 0

/-- Sends a part's next push to the die of its destination, in class 3 (16 Table 16-2), or ends a part that has none left. -/
def State.nextPush (s : State) (t : Task) (cluster task part : Nat) (p : Part) : State :=
  let dst := match p.moves with | (d, _) :: _ => s.placeDie t.part d | [] => streamerDie p.unit
  s.send (streamerDie p.unit) dst 3 (16 + pushLen p.moves) false none (.streamerPush cluster task part)

/-- The rows of a gather or scatter ask for translations by the number of their task. -/
def Task.rowAsker (t : Task) (cluster task : Nat) : Asker := { t.asker with id := senderOf cluster task 0 }

/-- Splits a task into parts, one for each streamer that serves source bytes, and posts them (09 R248); with J and more than one part,
the counter is raised first. A copy between two ranges that overlap reads its whole source at once (R251). -/
def State.splitTask (s : State) (cluster task : Nat) (t : Task) : State :=
  match s.fetchList cluster task t with
  | some s => s
  | none =>
    let g := t.rowAsker cluster task
    match s.unwalkedRows g t with
    | p :: ps => (s.engineWalks g (p :: ps)).post (.streamerPartStart cluster task 0)
    | [] =>
      let (moves, flt) := s.streamMoves g t
      let units := moves.foldl (fun l m => addNew l (s.streamer t.part m.2)) []
      let parts : List Part := units.map fun u => { unit := u, moves := moves.filter fun m => s.streamer t.part m.2 == u }
      let s := (s.forgetWalks g).modTask cluster task fun t => { t with parts := parts, flt := flt }
      if parts.isEmpty then s.post (.taskComplete cluster task)
      else
        let laps := t.cmd.op = 0x28 && t.cmd.mods = 2 && t.dst.any fun x => t.src.any fun y => x.1 < y.1 + y.2 && y.1 < x.1 + x.2
        let s := if laps then each (List.range parts.length) (fun i s => s.beginPart cluster task i) s else s
        let s := if t.cmd.j && 1 < parts.length then
            s.updateJc t (cluster / 64) (senderOf cluster task jugglerPart) (BitVec.ofNat 64 (parts.length - 1)) 0 else s
        each (List.range units.length) (fun i s =>
          s.send (cluster / 64) (streamerDie (nth units i 0)) 1 80 false none (.streamerPartStart cluster task i)) s

/-- A part at its streamer: it reads its bytes, those that lie in another die's storage by messages through the X-die (01 R20, 16 R434), and
pushes them. A poisoned one faults the task, and none is pushed. -/
def State.startPart (s : State) (cluster task part : Nat) (t : Task) (p : Part) : State :=
  let here := streamerDie p.unit
  let change (f : Part → Part) (s : State) : State := s.modTask cluster task fun t => { t with parts := t.parts.modify part f }
  let go (s : State) (src dst n : Nat) : State := s.send src dst 0 n false none (.streamerPartStart cluster task part)
  let push (s : State) : State := match (s.task cluster task).bind (·.parts[part]?) with
    | some p => s.nextPush t cluster task part p
    | none => s
  match (p.moves.map (·.2)).drop p.data.length with
  | [] => push s
  | x :: r =>
    let from_ := s.placeDie t.part x
    let ps := (x :: r).take (readLen (x :: r))
    if p.data.isEmpty && !p.begun && (x :: r).all fun y => s.placeDie t.part y == here then push (s.beginPart cluster task part)
    else if from_ != here && p.asked % 2 = 0 then go (change (fun p => { p with asked := p.asked + 1, begun := true }) s) here from_ 32
    else
      let step (p : Part) : Part := { p with begun := true, asked := if from_ != here then p.asked + 1 else p.asked }
      let s := if ps.any s.placePoisoned then
          (change (fun p => { step p with moves := [], data := [] }) s).modTask cluster task Task.poisoned
        else change (fun p => { step p with data := p.data ++ ps.map (s.placeByte t) }) s
      go s from_ here (fillBytes x ps.length)

/-- STREAMER_PART_START (09 R248): the first splits the task, and each of the others begins a part at its streamer. -/
def execStreamerPartStart (cluster task part : Nat) (s : State) : Out :=
  match s.task cluster task with
  | none => .next s
  | some t =>
    if t.parts.isEmpty then .next (s.splitTask cluster task t)
    else match t.parts[part]? with
      | none => .next s
      | some p => .next (s.startPart cluster task part t p)

/-- Writes pushed bytes at their destination. -/
def State.writePlaceBytes (s : State) (t : Task) (p : Nat) (bs : List Byte) : State :=
  if tilePlace ≤ p then
    match t.refs with
    | x :: _ =>
      let v := s.viewOf x
      let o := (p - tilePlace) % 2 ^ 16
      s.putWords x.key ((List.range bs.length).foldl (fun u i => u.setByte (o + i) (nth bs i 0)) v.t) [(o, bs.length)]
    | [] => s
  else if storePlace ≤ p then s.writeStore (p - storePlace) (natOfBytes bs) bs.length
  else s.homeWrite t.cmd.blk p (natOfBytes bs) bs.length

/-- A part that writes all 192 bytes of a LOST line clears LOST before its first push there (16 R386). -/
def State.pushLost (s : State) (moves : List (Nat × Nat)) (d : Nat) : State :=
  if d < storePlace && (s.line (d / 192)).st == .lost &&
      (List.range 192).all (fun i => moves.any fun m => m.1 == d / 192 * 192 + i) then s.clearLost d
  else s

/-- A push has gone: the next one follows. -/
def State.pushed (s : State) (t : Task) (cluster task part : Nat) (p : Part) (n : Nat) : State :=
  let q := { p with moves := p.moves.drop n, data := p.data.drop n }
  (s.modTask cluster task fun t => { t with parts := t.parts.modify part fun _ => q }).nextPush t cluster task part q

/-- STREAMER_PUSH (09 R248): a push reaches its destination and is written; after the last, with J, the part's decrement is
sent from its streamer, and the Juggler learns that the part is done. -/
def execStreamerPush (cluster task part : Nat) (s : State) : Out :=
  match s.task cluster task with
  | none => .next s
  | some t =>
    match t.parts[part]? with
    | none => .next s
    | some p =>
      match p.moves with
      | [] =>
        let s := if t.cmd.j then s.updateJc t (streamerDie p.unit) (senderOf cluster task part) (-1) (t.fault task) else s
        .next (s.send (streamerDie p.unit) (cluster / 64) 1 16 false none (.streamerPartDone cluster task part))
      | (d, _) :: _ =>
        let n := pushLen p.moves
        let s := if 64 ≤ p.unit then s.countCluster (p.unit - 64) 35 n else s
        .next (((s.pushLost p.moves d).writePlaceBytes t d (p.data.take n)).pushed t cluster task part p n)

/-- STREAMER_PART_DONE (09 R248): the part is complete; with the last one the task is. -/
def execStreamerPartDone (cluster task part : Nat) (s : State) : Out :=
  let s := s.modTask cluster task fun t => { t with parts := t.parts.modify part fun p => { p with done := true } }
  match s.task cluster task with
  | none => .next s
  | some t =>
    if t.parts.all (·.done) then
      .next (((s.modTask cluster task fun t => { t with performed := true }).issueTasks cluster).post (.taskComplete cluster task))
    else .next s

end Sys2Proof.Machine
end

