-- ==== Sys2Proof/Machine/Pack.lean ====
section
/-! DEFINITION. Packed integer instructions (07 R172 to R174). -/

namespace Sys2Proof.Machine

open Sys2Proof

/-- PADD (07 Table 7-3), wrapping. -/
def execPadd (l : BitVec 2) (g : Bool) (b : Reg) (h : Bool) (a d : Reg) (s : State) : Out :=
  alu2 4 g b h a d (laneWrap false l (· + ·)) s

/-- PSUB (07 Table 7-3), wrapping. -/
def execPsub (l : BitVec 2) (g : Bool) (b : Reg) (h : Bool) (a d : Reg) (s : State) : Out :=
  alu2 4 g b h a d (laneWrap false l (· - ·)) s

/-- PMUL (07 Table 7-3), wrapping. -/
def execPmul (l : BitVec 2) (g : Bool) (b : Reg) (h : Bool) (a d : Reg) (s : State) : Out :=
  alu2 4 g b h a d (laneWrap false l (· * ·)) s

/-- PADDS (07 Table 7-3), saturating. -/
def execPadds (z : Bool) (l : BitVec 2) (g : Bool) (b : Reg) (h : Bool) (a d : Reg) (s : State) : Out :=
  alu2 4 g b h a d (laneSat z l (· + ·)) s

/-- PSUBS (07 Table 7-3), saturating. -/
def execPsubs (z : Bool) (l : BitVec 2) (g : Bool) (b : Reg) (h : Bool) (a d : Reg) (s : State) : Out :=
  alu2 4 g b h a d (laneSat z l (· - ·)) s

/-- PMULH: bits [2w-1:w] of each product. -/
def execPmulh (z : Bool) (l : BitVec 2) (g : Bool) (b : Reg) (h : Bool) (a d : Reg) (s : State) : Out :=
  alu2 4 g b h a d (laneWrap z l fun x y => x * y / (2 ^ laneW l : Nat)) s

/-- PDOT. -/
def execPdot (z : Bool) (l : BitVec 2) (g : Bool) (b : Reg) (h : Bool) (a d : Reg) (s : State) : Out :=
  alu2 4 g b h a d (pdotVal z l) s

/-- PAVG: (x + y + 1) div 2, exact. -/
def execPavg (z : Bool) (l : BitVec 2) (g : Bool) (b : Reg) (h : Bool) (a d : Reg) (s : State) : Out :=
  alu2 4 g b h a d (laneWrap z l fun x y => (x + y + 1) / 2) s

/-- PMIN. -/
def execPmin (z : Bool) (l : BitVec 2) (g : Bool) (b : Reg) (h : Bool) (a d : Reg) (s : State) : Out :=
  alu2 4 g b h a d (laneWrap z l fun x y => min x y) s

/-- PMAX. -/
def execPmax (z : Bool) (l : BitVec 2) (g : Bool) (b : Reg) (h : Bool) (a d : Reg) (s : State) : Out :=
  alu2 4 g b h a d (laneWrap z l fun x y => max x y) s

/-- PABS: saturating. -/
def execPabs (l : BitVec 2) (h : Bool) (a d : Reg) (s : State) : Out :=
  alu1 4 h a d (fun x => laneSat false l (fun x _ => x.natAbs) x 0) s

/-- PSAD. -/
def execPsad (z : Bool) (l : BitVec 2) (g : Bool) (b : Reg) (h : Bool) (a d : Reg) (s : State) : Out :=
  alu2 4 g b h a d (psadVal z l) s

/-- PCLIP. -/
def execPclip (z : Bool) (l : BitVec 2) (g : Bool) (b : Reg) (h : Bool) (a d : Reg) (s : State) : Out :=
  alu2 4 g b h a d (pclipVal z l) s

/-- PSHL (03 R76): one amount for every lane. -/
def execPshl (l : BitVec 2) (g : Bool) (b : Reg) (h : Bool) (a d : Reg) (s : State) : Out :=
  alu2 4 g b h a d (laneShift false l shlN) s

/-- PSHR (03 R76): one amount for every lane. -/
def execPshr (l : BitVec 2) (g : Bool) (b : Reg) (h : Bool) (a d : Reg) (s : State) : Out :=
  alu2 4 g b h a d (laneShift false l shrN) s

/-- PSAR (03 R76): one amount for every lane. -/
def execPsar (l : BitVec 2) (g : Bool) (b : Reg) (h : Bool) (a d : Reg) (s : State) : Out :=
  alu2 4 g b h a d (laneShift false l sarN) s

/-- PVSHL (03 R76): an amount per lane. -/
def execPvshl (l : BitVec 2) (g : Bool) (b : Reg) (h : Bool) (a d : Reg) (s : State) : Out :=
  alu2 4 g b h a d (laneShift true l shlN) s

/-- PVSHR (03 R76): an amount per lane. -/
def execPvshr (l : BitVec 2) (g : Bool) (b : Reg) (h : Bool) (a d : Reg) (s : State) : Out :=
  alu2 4 g b h a d (laneShift true l shrN) s

/-- PVSAR (03 R76): an amount per lane. -/
def execPvsar (l : BitVec 2) (g : Bool) (b : Reg) (h : Bool) (a d : Reg) (s : State) : Out :=
  alu2 4 g b h a d (laneShift true l sarN) s

/-- PCMP (07 R173): mask byte k. -/
def execPcmp (k : BitVec 3) (l : BitVec 2) (g : Bool) (b : Reg) (h : Bool) (a : Reg) (c : BitVec 3) (s : State) : Out :=
  issue { srcs := [(a.toNat, h), (b.toNat, g)] } s fun s =>
    .next (s.putPw (setMaskByte s.th.pw k (pcmpVal c l (s.th.wv a) (s.th.wv b))))

/-- PSEL (07 R173). -/
def execPsel (k : BitVec 3) (l : BitVec 2) (g : Bool) (b : Reg) (h : Bool) (a d : Reg) (s : State) : Out :=
  issue { srcs := [(a.toNat, h), (b.toNat, g)] } s fun s =>
    .next (s.putW d (pselVal (maskByte s.th.pw k) l (s.th.wv a) (s.th.wv b)) 4)

/-- PPERM (07 R174). -/
def execPperm (g : Bool) (b : Reg) (h : Bool) (a d : Reg) (s : State) : Out :=
  alu2 4 g b h a d ppermVal s

/-- PNARROW (07 R174). -/
def execPnarrow (z : Bool) (l : BitVec 2) (g : Bool) (b : Reg) (h : Bool) (a d : Reg) (s : State) : Out :=
  alu2 4 g b h a d (pnarrowVal z l) s

/-- PWIDEN (07 R174). -/
def execPwiden (z : Bool) (l : BitVec 2) (u h : Bool) (a d : Reg) (s : State) : Out :=
  alu1 4 h a d (pwidenVal z l u) s

end Sys2Proof.Machine
end

