-- ==== Sys2Proof/Machine/Perform.lean ====
section
/-! DEFINITION. The perform points of memory accesses (05 R106 to R118): core stores, home directories and their ownership
(16 R380, R381), atomic units (08 R200 to R202), token rounds (05 R116), held releases (R436), and the order that a replay
records or enforces (19 R422, R423). -/

namespace Sys2Proof.Machine

open Sys2Proof

/-! ### Recording and replay (19 R422, R423) -/

/-- The requester that a log names: block and thread index, or the mark of an agent outside every launch. -/
def State.requester (s : State) (ctx : Nat) : Word :=
  match get? s.blocks (s.ctx ctx).blk with
  | some b => BitVec.ofNat 64 (b.index * 65536 + (s.ctx ctx).tindex % 65536)
  | none => 0xFFFF000000000000

/-- The partition whose replay registers govern an operation: its thread's, or the one active on the die. -/
def State.opPart (s : State) (ctx die : Nat) : Nat :=
  if (get? s.blocks (s.ctx ctx).blk).isSome then (s.ctx ctx).part else s.dieActive die

/-- The virtual address of entry `n` of a unit's log. -/
def Partition.logVa (p : Partition) (unit n : Nat) : Nat := p.rplBase.toNat + 16 * 2 ^ bits p.rplCtl.toNat 3 5 * unit + 16 * n

/-- The physical address of entry `n` of a unit's log. -/
def State.logAddr (s : State) (part unit n : Nat) : Option Nat := s.physOf part ((s.part part).logVa unit n)

/-- The die of a logging unit: a cluster's, or a memory die. -/
def unitDie (unit : Nat) : Nat := if unit < 512 then unit / 64 else unit - 504

/-- Logs an operation; a full log stops and counts once. The unit's die sends the entry to its home (01 R20). -/
def State.logOp (s : State) (part unit kind loc : Nat) (req : Word) : State :=
  let p := s.part part
  let n := getD p.rplLog unit 0
  if 2 ^ bits p.rplCtl.toNat 3 5 ≤ n then s.modPart part fun p => { p with rplOvf := addNew p.rplOvf unit }
  else
    let s := s.putRecord (unitDie unit) part 0 (unit * 2 ^ 32 + n) (p.logVa unit n)
      (wordsBytes [BitVec.ofNat 64 (kind * 2 ^ 60 + loc % 2 ^ 57), req]) none
    s.modPart part fun p => { p with rplLog := put p.rplLog unit (n + 1) }

/-- The earliest entry for a location that has not been executed, from entry `n` on: its index, kind and requester. The log
ends at an entry of kind 0, which no operation has; R423 does not say how a replay finds its end (DESIGN CHOICE, log 107). -/
def State.scanLog (s : State) (part unit loc n : Nat) : Nat → Option (Nat × Nat × Word)
  | 0 => none
  | k + 1 =>
    match s.logAddr part unit n with
    | none => none
    | some pa =>
      let w := readNat s.mem pa 8
      if bits w 60 4 = 0 then none
      else if bits w 0 57 = loc && !(s.part part).rplDone.contains (unit * 2 ^ 32 + n) then
        some (n, bits w 60 4, BitVec.ofNat 64 (readNat s.mem (pa + 8) 8))
      else s.scanLog part unit loc (n + 1) k

/-- The entry that a replay expects next for a location; none where it enforces nothing. -/
def State.expected (s : State) (part unit loc : Nat) : Option (Nat × Nat × Word) :=
  let p := s.part part
  if bits p.rplCtl.toNat 0 2 != 2 || p.rplFree.contains unit || p.rplOvf.contains unit then none
  else s.scanLog part unit loc 0 (2 ^ bits p.rplCtl.toNat 3 5)

/-- The kind of an operation in a log (19 Table 19-4). -/
def opKind : Ev → Nat
  | .semVExecute _ _ _ _ => 1
  | .semPExecute _ _ _ _ => 1
  | .ksendAccumulate _ _ _ _ _ => 3
  | _ => 2

/-- Lets the operations held on a location try again that may: where no entry is left all of them, in the order in which they came, and
else the one that the log expects next. The others stay held from the moment at which they were (19 R423). -/
def State.retryHeld (s : State) (part unit loc : Nat) : State :=
  let next := s.expected part unit loc
  let mine (x : Nat × Nat × Word × Nat × Ev) : Bool := x.1 == unit && x.2.1 == loc && match next with
    | none => true
    | some (_, k, r) => x.2.2.1 == r && opKind x.2.2.2.2 == k
  let all := (s.part part).rplHeld.filter mine
  let out := if next.isNone then all else all.take 1
  let s := s.modPart part fun p => { p with rplHeld := p.rplHeld.filter fun x => !out.contains x }
  { s with inbox := out.map (fun x => x.2.2.2.2) ++ s.inbox }

/-- Marks an entry executed. -/
def State.tickEntry (s : State) (part unit n : Nat) : State :=
  s.modPart part fun p => { p with rplDone := p.rplDone ++ [unit * 2 ^ 32 + n] }

/-- A grant to a queued semaphore waiter is an operation of its own in a log, after the one that made it. -/
def State.logGrant (s : State) (part unit loc ctx : Nat) : State :=
  let req := s.requester ctx
  if bits (s.part part).rplCtl.toNat 0 2 = 1 then s.logOp part unit 1 loc req
  else match s.expected part unit loc with
    | some (n, k, r) => if r = req && k = 1 then s.tickEntry part unit n else s
    | none => s

/-- Executes an operation of Table 19-4 at a unit: while recording it is logged, and while replaying it is held until it is
the one its log expects. `grants` names the contexts that it grants a semaphore. -/
def State.arbitrated (s : State) (part unit kind loc ctx : Nat) (ev : Ev) (grants : List Nat) (act : State → State) : State :=
  let p := s.part part
  let req := s.requester ctx
  let granted (s : State) : State := each grants (fun c s => s.logGrant part unit loc c) s
  if bits p.rplCtl.toNat 0 2 = 1 then granted ((act s).logOp part unit kind loc req)
  else match s.expected part unit loc with
    | none => act s
    | some (n, k, r) =>
      if r = req && k = kind && !p.rplStuck.contains (unit, loc) then
        (granted ((act s).tickEntry part unit n)).retryHeld part unit loc
      else s.modPart part fun p => { p with rplHeld := p.rplHeld ++ [(unit, loc, req, s.gtime, ev)] }

/-- A held operation that has waited for its window. -/
def State.overdue (s : State) (x : Nat × Nat × Word × Nat × Ev) (part : Nat) : Bool :=
  let p := s.part part
  let win := if p.rplWin = 0 then 4000 else p.rplWin.toNat
  !p.rplStuck.contains (x.1, x.2.1) && x.2.2.2.1 + win ≤ s.gtime

/-- REPLAY_DIVERGENCE (19 R423, R417, R418): logged at the lowest compute die of the partition; then the unit abandons its
log, or keeps holding every operation on the location. -/
def execReplayDivergence (unit loc : Nat) (s : State) : Out :=
  match s.parts.find? fun (_, p) => p.rplHeld.any fun x => x.1 == unit && x.2.1 == loc with
  | none => .next s
  | some (part, p) =>
    match p.rplHeld.find? fun x => x.1 == unit && x.2.1 == loc with
    | none => .next s
    | some x =>
      let (n, kind, req) := (s.expected part unit loc).getD (0, 0, 0)
      let die := (setDies s.mode (part / 4)).headD 0
      let s := s.debugRecord die 0 0 0 unit kind 3 [BitVec.ofNat 64 n, BitVec.ofNat 64 loc, req, x.2.2.1] (some part)
      let s := s.modPart part fun p => { p with rplDiv := true }
      if bitAt p.rplCtl.toNat 2 then .next (s.modPart part fun p => { p with rplStuck := p.rplStuck ++ [(unit, loc)] })
      else
        let held := (p.rplHeld.filter fun x => x.1 == unit).map fun x => x.2.2.2.2
        let s := s.modPart part fun p =>
          { p with rplFree := p.rplFree ++ [unit], rplHeld := p.rplHeld.filter fun x => x.1 != unit }
        .next { s with inbox := held ++ s.inbox }

/-! ### Homes and directories (16 R380, R381) -/

/-- An acquire has performed: its core's L1 and the one on which its thread next issues are forgotten (04 R90, 05 Table 5-3). -/
def State.acquired (s : State) (r : Req) : State :=
  if r.ordered && 2 ≤ r.scope then (s.acquireL1 r.core).modCtx r.ctx fun c => { c with inval := true } else s

/-- The home of a line is no longer the one to which a request with a version was sent (15 R366). -/
def State.staleAt (s : State) (set line ver : Nat) : Bool := ver != 0 && s.homeDie set (192 * line) + 1 != ver / 16

/-- The home of a request is no longer the one to which it was sent (15 R366). -/
def State.stale (s : State) (r : Req) : Bool := s.staleAt (setOf s.mode (dieOf r.core)) (r.addr / 192) r.ver

/-- The home's NACK (15 R366): the request, unperformed, goes back to the die that sent it. -/
def State.nackTo (s : State) (home die cls : Nat) (tx : Option Nat) (e : Ev) : State :=
  -- a request that executed nothing leaves the duplicate filter, since it comes again under its id
  let s := if tx.isSome then s.modDie home fun d => { d with filter := d.filter.filter fun x => some x.1 != tx } else s
  s.send home die cls 16 false none (.homeNackRetry e)

/-- The same for an access. -/
def State.nack (s : State) (r : Req) (cls : Nat) (e : Ev) : State := s.nackTo (r.ver / 16 - 1) (dieOf r.core) cls r.tx e

/-- A posted request that is sent again is confirmed by a token round that begins after it (16 R376), and a fence that waits for rounds
from this die waits for that one too (15 R366, R370). -/
def State.resentPosted (s : State) (die dst : Nat) (tx : Option Nat) : State :=
  match s.hop die die dst with
  | some n =>
    let l := linkTo die n
    let open_ := (s.die die).roundsOpen.any fun x => x.1 == l
    let no := ((s.die die).begun l + 1) % 65536
    let s := s.modDie die fun d => { d with unconf := d.unconf.map fun x => if some x.2.1 == tx then (x.1, x.2.1, some (l, no)) else x }
    let waits (x : Slot) : Slot := { x with fence := x.fence.map fun f => addNew f (l, no) }
    let join (c : Nat) (k : Core) : Core :=
      if dieOf c = die && k.slots.any (·.fence.isSome) then { k with slots := k.slots.map waits } else k
    let s := { s with cores := mapVals s.cores join }
    let s := { s with held := s.held.map fun h => if dieOf h.core = die && 4 ≤ h.scope then { h with rounds := addNew h.rounds (l, no) } else h }
    if open_ then s else s.beginRound die l
  | none => s

/-- HOME_NACK_RETRY (15 R366): the requester recomputes the home and resends, with the same transaction id. -/
def execHomeNackRetry (msg : Ev) (s : State) : Out :=
  match msg with
  | .ownershipRequest line ⟨k, _⟩ =>
    let home := s.homeDie (setOf s.mode (k / 64)) (192 * line)
    .next (s.send (k / 64) home 0 32 false none (.ownershipRequest line ⟨k, s.verAt (k / 64) home⟩))
  | .restampRequest set line ⟨k, _⟩ =>
    let home := s.homeDie set (192 * line)
    .next (s.sendOnce (k / 64) home 1 32 true fun _ => .restampRequest set line ⟨k, s.verAt (k / 64) home⟩)
  | .watchArm c a e ctx reg tag limit ⟨unit, _⟩ =>
    let home := s.homeDie (setOf s.mode unit) a
    .next (s.send unit home 1 32 false none (.watchArm c a e ctx reg tag limit ⟨unit, s.verAt unit home⟩))
  | _ =>
    let die := match msg with
      | .homeReadRequest r => dieOf r.core
      | .atomicExecute _ _ _ _ r => dieOf r.core
      | .nibbleStoreExecute r => dieOf r.core
      | _ => 20
    let (dst, cls, bytes, posted) := s.route msg
    let s := s.send die dst cls bytes posted (txOf msg) (withVer msg (s.verAt die dst))
    .next (if posted then s.resentPosted die dst (txOf msg) else s)

/-- BANK_NACK_RETRY (15 R369): after 64 cycles the access is tried under the cluster's modes as they then stand. -/
def execBankNackRetry (msg : Ev) (s : State) : Out := .next { s with inbox := msg :: s.inbox }

/-- CACHE banks of a cluster. -/
def State.cacheBanks (s : State) (k : Nat) : List Nat :=
  (List.range 16).filter fun b => nth (s.cluster k).modes b .cache == .cache

/-- A line leaves a cluster cache (04 R88, R89): the dirty sectors of one that the cluster owns are written back to its home. -/
def State.evictLine (s : State) (k line : Nat) : State :=
  let e := s.line line
  let die := k / 64
  let owns := e.cluster == some k && e.owner == some die && (e.st == .m || e.st == .o)
  let s := s.modLine line fun e =>
    { e with sharers := e.sharers.filter (· != k), cluster := if e.cluster == some k then none else e.cluster,
             dirty := if owns then 0 else e.dirty, has := del e.has k }
  if owns then
    s.send die (s.homeDie (setOf s.mode die) (192 * line)) 3 (16 + 48 * popcount e.dirty.toNat 4) false none
      (.writeBackArrival line die (16 + e.dirty.toNat))
  else s

/-- A cluster cache keeps a line in the bank that the line's number names among its CACHE banks, which hold 2,560 lines each; a
full bank gives one up (04 R89: no rule of choice). -/
def State.cacheLine (s : State) (k line : Nat) : State :=
  let n := (s.cacheBanks k).length
  let there := (s.dir.filter fun x => x.1 != line && x.1 % n == line % n && (x.2.sharers.contains k || x.2.cluster == some k)).map (·.1)
  if n = 0 || there.length < 2560 then s
  else match there[Config.cacheVictim s.fresh k % there.length]? with
    | some v => s.evictLine k v
    | none => s

/-- Lines that a memory-side cache holds: 64 MiB (04 R89). -/
def msLines : Nat := 64 * 2 ^ 20 / 192

/-- The memory-side cache of a home takes sectors of a line (04 R88, R89). -/
def State.msFill (s : State) (home line : Nat) (sectors : BitVec 4) : State :=
  s.modDie home fun d =>
    if d.msCache.contains line then { d with msHas := put d.msHas line (getD d.msHas line 0 ||| sectors) }
    else
      let out := if d.msCache.length < msLines then none
        else d.msCache[Config.cacheVictim s.fresh (512 + home) % d.msCache.length]?
      { d with msCache := d.msCache.filter (some · != out) ++ [line]
               msHas := put (d.msHas.filter fun x => some x.1 != out) line sectors }

/-- The sectors of a line that a read's first byte and last byte lie in. -/
def sectorMask (r : Req) : BitVec 4 := regBit 4 (r.addr / 48 % 4) ||| regBit 4 ((r.addr + r.size - 1) / 48 % 4)

/-- The CACHE bank that would hold a line is draining (15 R369). -/
def State.bankDraining (s : State) (k line : Nat) : Bool :=
  let b := s.cacheBanks k
  match b[line % b.length]? with
  | some x => (s.cluster k).drains.any fun d => d.bank == x
  | none => false

/-- A die holds a line. -/
def DirEntry.heldBy (e : DirEntry) (die : Nat) : Bool := e.dies.getLsbD die || e.owner == some die

/-- The cluster whose slice of a die's directory serves a line (16 R380). -/
def dirSlice (die line : Nat) : Nat := 64 * die + line % 64

/-- A die directory's sharer vector of a line: the clusters of the die whose caches hold it (16 R380). -/
def DirEntry.vector (e : DirEntry) (die : Nat) : BitVec 64 :=
  BitVec.ofNat 64 (((List.range 64).map fun i => if e.sharers.contains (64 * die + i) || e.cluster == some (64 * die + i) then 2 ^ i else 0).sum)

/-- A die directory's state of a line in a cluster cache (16 R380): the die's own state for the one that holds it with ownership, S for
one that shares it. -/
def DirEntry.stateIn (e : DirEntry) (k : Nat) : Moesi :=
  if e.cluster == some k then e.st
  else if e.sharers.contains k then (if e.st == .e && e.vector (k / 64) == regBit 64 (k % 64) then .e else .s) else .i

/-- A cluster cache of a die holds every sector that a read names, so that the die serves it (16 R380, 04 R88, R89). -/
def DirEntry.serves (e : DirEntry) (die : Nat) (sectors : BitVec 4) : Bool :=
  e.has.any fun x => x.1 / 64 == die && (e.vector die).getLsbD (x.1 % 64) && x.2 &&& sectors == sectors

/-- A read by a die, as Table 16-3 has it; the reading cluster is added, with the sectors it fills. -/
def DirEntry.readBy (e : DirEntry) (die k : Nat) (cached : Bool) (sectors : BitVec 4) : DirEntry :=
  let sh := if cached then addNew e.sharers k else e.sharers
  let dies := e.dies ||| regBit 8 die
  let e := if cached && e.st != .lost then { e with has := put e.has k (getD e.has k 0 ||| sectors) } else e
  match e.st with
  | .i => { e with st := .e, dies := dies, sharers := sh }
  | .s => { e with dies := dies, sharers := sh }
  | .e => if e.dies == dies then { e with sharers := sh } else { e with st := .s, dies := dies, sharers := sh }
  | .m => if e.owner == some die then { e with sharers := sh } else { e with st := .o, dies := dies, sharers := sh }
  | .o => { e with dies := dies, sharers := sh }
  | .lost => e

/-- The bytes of a read, in one or two runs, with their poison (08 R196, 07 R184). -/
def State.bytesOf (s : State) (inCore : Bool) (r : Req) : Nat × Bool :=
  let m := if inCore then s.cstore else s.mem
  let bad (a n : Nat) : Bool := if inCore then s.markedAt (storePlace + a) n else s.poisoned a n
  match r.kind with
  | .stream _ _ first =>
    let n := min first r.size
    (readNat m r.addr n + 256 ^ n * readNat m r.data (r.size - n), bad r.addr n || (n < r.size && bad r.data (r.size - n)))
  | _ => (readNat m r.addr r.size, bad r.addr r.size)

/-- The sectors that a read's bytes lie in. -/
def readSectors (r : Req) : List Nat :=
  match r.kind with
  | .stream _ _ first =>
    ((List.range r.size).map fun i => (if i < first then r.addr + i else r.data + (i - first)) / 48).eraseDups
  | _ => [r.addr / 48, (r.addr + r.size - 1) / 48].eraseDups

/-- A die serves a read from the caches of its clusters (16 R380): poison of the copy there answers in place of its data (17 R392). -/
def State.copyPoisoned (s : State) (die : Nat) (r : Req) : Bool :=
  (s.line (r.addr / 192)).has.any fun x => x.1 / 64 == die && s.markedAt (cachePlace x.1 + r.addr) r.size

/-- A global load takes its value at its read point, fills the L1, and answers (05 R107, 04 R90). Where its thread has moved on to
another core meanwhile, that core's L1 gives the sectors up, so that no later load of the thread reads an older value there (05 R109;
11 R293). -/
def State.readPoint (s : State) (src : Nat) (r : Req) : State :=
  let (v, bad) := s.bytesOf false r
  let bad := bad || (src < 8 && s.copyPoisoned src r)
  let near := (s.ctx r.ctx).lastCore == some r.core
  -- a sector with a poisoned word is given up again at once, so that no L1 holds a copy without its poison (17 R392)
  let s := if (r.ordered && 2 ≤ r.scope) || 17 < r.reg then s
    else each (readSectors r) (fun x s => if bad || s.poisoned (48 * x) 48 then s else s.fillL1 r.core x) s
  let s := match (s.ctx r.ctx).lastCore with
    | some c => if c = r.core || 17 ≤ r.reg then s
        else s.modCore c fun y => { y with l1 := y.l1.filter fun x => !(readSectors r).contains x.1 }
    | none => s
  let s := if r.reg = 16 && near && !bad then
      s.modCore r.core fun c => { c with l1held := addNew c.l1held (r.ctx, r.addr / 192) }
    else s
  if 17 ≤ r.reg then s else (s.acquired r).reply src (if r.ordered then 1 else 0) r v bad

/-- What a cluster cache holds of a line is the visible copy from now on, with the poison of its words (17 R392). -/
def State.ownCopy (s : State) (k line : Nat) : State :=
  let base := (cachePlace k + 192 * line) / 8
  let mine := s.poison.filter fun w => base ≤ w && w < base + 24
  if mine.isEmpty then s
  else { s with poison := mine.foldl (fun l w => addNew l (w - cachePlace k / 8)) (s.poison.filter fun w => !mine.contains w) }

/-- A cluster cache fills sectors of a line anew, which are poisoned there no longer. -/
def State.fillCopy (s : State) (k line : Nat) (sectors : BitVec 4) : State :=
  let old := getD (s.line line).has k 0
  each (List.range 4) (fun i s =>
    if sectors.getLsbD i && !old.getLsbD i then s.unmark (cachePlace k + 192 * line + 48 * i) 48 else s) s

/-- A die reads a line for a cluster, whose cache then holds it if it has a CACHE bank. -/
def State.readLine (s : State) (die k line : Nat) (sectors : BitVec 4) : State :=
  let cached := !(s.cacheBanks k).isEmpty
  let s := s.fillCopy k line sectors
  let s := s.modLine line fun e => e.readBy die k cached sectors
  if cached then s.cacheLine k line else s

/-- HOME_READ_REQUEST (16 R380). A request that has not left its cluster is served by the die if the die holds the line; at
the home it is served by the line's state, unless the home is no longer its own. A prefetch into the memory-side cache goes no
further than the home (08 R199). -/
def execHomeReadRequest (r : Req) (s : State) : Out :=
  let die := dieOf r.core
  let k := clusterOf r.core
  let line := r.addr / 192
  let e := s.line line
  if r.ver = 0 then
    if s.bankDraining k line then .next { s with inbox := .bankNackRetry (.homeReadRequest r) :: s.inbox }
    else
      let s := if getD e.has k 0 &&& sectorMask r == sectorMask r then s else s.countCluster k 36 1
      if e.serves die (sectorMask r) && r.reg != 19 then .next ((s.readLine die k line (sectorMask r)).readPoint die r)
      else .next (s.launchEv die (.homeReadRequest r))
  else if s.stale r then .next (s.nack r (if r.ordered then 1 else 0) (.homeReadRequest r))
  else
    let home := r.ver / 16 - 1
    let s := s.msFill home line (sectorMask r)
    .next (if r.reg = 19 then s else (s.readLine die k line (sectorMask r)).readPoint home r)

/-- STORE_VISIBLE (05 R107): the store takes effect in a line that its cluster owns. Until then it asks for ownership, and
for a new stamp where the generation has moved on (10 R267); an owned line passes between the clusters of a die without
the home (16 R381). A cluster without a CACHE bank keeps nothing. -/
def execStoreVisible (r : Req) (s : State) : Out :=
  let die := dieOf r.core
  let k := clusterOf r.core
  let line := r.addr / 192
  let e := s.line line
  let set := setOf s.mode die
  let home := s.homeDie set r.addr
  let wait (s : State) : State := { s with inbox := .storeVisible r :: s.inbox }
  if s.bankDraining k line then .next { s with inbox := .bankNackRetry (.storeVisible r) :: s.inbox }
  else if e.st == .lost && s.repairing (s.ctx r.ctx).blk then
    -- the first write of a repair run to a LOST line zeroes it (10 R277), and is then granted and stamped as any other (R267)
    .next (wait (s.clearLost r.addr))
  else if e.st == .lost then
    let s := s.writePhys (s.ctx r.ctx).blk r.addr r.data r.size
    .next (if r.kind = .storeTs then s.send home die 0 16 false none (.registerFill r.ctx r.reg r.tag 0 false r.info (.core r.core) 16) else s)
  else if (e.st == .m && e.owner == some die && !e.await.contains die) || (e.st == .e && e.dies == regBit 8 die) then
    -- within the die the line passes from one cluster to the other with its dirty sectors (16 R381)
    let s := s.modLine line fun e =>
      { e with cluster := some k, sharers := [k], has := e.has.filter fun x => x.1 == k }
    let s := s.ownCopy k line
    if e.st == .e || (line / 64 < 2 ^ 26 && e.gen != s.unitGen set (64 + k)) then
      let s := s.modLine line fun e => { e with req := some k }
      .next (wait (s.sendOnce die home 1 32 true fun _ => .restampRequest set line ⟨k, s.verAt die home⟩))
    else
      let s := s.modLine line fun e => { e with dirty := e.dirty ||| sectorMask r }
      let s := (s.writePhys (s.ctx r.ctx).blk r.addr r.data r.size).refreshL1 r.core r.addr r.data r.size
      let s := if (s.cacheBanks k).isEmpty then
          s.modLine line fun e => { ({} : DirEntry) with await := e.await, req := e.req }
        else s
      .next (if r.kind = .storeTs then s.post (.registerFill r.ctx r.reg r.tag 0 false r.info (.core r.core) 16) else s)
  else
    let s := s.modLine line fun e => { e with req := some k }
    .next (wait (s.send die home 0 32 false none (.ownershipRequest line ⟨k, s.verAt die home⟩)))

/-- OWNERSHIP_REQUEST (16 Table 16-3): other dies are recalled or invalidated; with none to wait for, the line is granted. A
LOST line is not. A request that came to a home which is the line's no longer is refused (15 R366). -/
def execOwnershipRequest (line : Nat) (from_ : Sender) (s : State) : Out :=
  let cluster := from_.unit
  let ver := from_.ver
  let die := cluster / 64
  let e := s.line line
  let home := s.homeDie (setOf s.mode die) (192 * line)
  let others := (List.range 8).filter fun d => d != die && e.heldBy d
  if s.staleAt (setOf s.mode die) line ver then .next (s.nackTo (ver / 16 - 1) die 0 none (.ownershipRequest line from_))
  else if e.st == .lost then .next (s.modLine line fun e => { e with req := none })
  else if others.isEmpty then .next (s.sendOnce home die 0 16 true fun _ => .ownershipGrant line cluster)
  else
    let s := s.modLine line fun e => { e with await := others }
    .next (each others (fun d s => s.send home d 0 16 false none (.dieRecall line d false)) s)

/-- DIE_RECALL (16 R380, R381): the die's caches give up their copies, or with `keep` only the ownership of one, and it answers with
its dirty sectors. The home holds the die for the owner until they have arrived (R386). -/
def execDieRecall (line die : Nat) (keep : Bool) (s : State) : Out :=
  let e := s.line line
  let dirty := e.owner == some die && (e.st == .m || e.st == .o)
  let home := s.homeDie (setOf s.mode die) (192 * line)
  let s := s.modLine line fun e =>
    { e with cluster := if e.owner == some die then none else e.cluster,
             sharers := if keep then e.sharers else e.sharers.filter fun k => k / 64 != die,
             has := if keep then e.has else e.has.filter fun x => x.1 / 64 != die }
  let mask := if dirty then e.dirty.toNat else 0
  .next (s.send die home 0 (if mask = 0 then 16 else 16 + 48 * popcount mask 4) false none (.writeBackArrival line die mask))

/-- A die that was recalled no longer holds a line at its home; one whose caches still share it has lost its ownership alone. -/
def DirEntry.recalled (e : DirEntry) (die : Nat) : DirEntry :=
  let dirty := e.owner == some die && (e.st == .m || e.st == .o)
  let kept := e.sharers.any fun k => k / 64 == die
  let dies := if kept then e.dies ||| regBit 8 die else e.dies &&& ~~~regBit 8 die
  let owner := if e.owner == some die then none else e.owner
  { e with dies := dies, owner := owner, dirty := if dirty then 0 else e.dirty,
           st := if e.st == .lost then .lost else if dies == 0 && owner == none then .i else if dirty then .s else e.st }

/-- A line's owner has written its dirty sectors back unasked, and no cluster of its die owns it again: the die gives it up. -/
def DirEntry.returned (e : DirEntry) (die : Nat) : DirEntry :=
  if e.owner == some die && e.cluster == none then
    let kept := e.sharers.any fun k => k / 64 == die
    let dies := if kept then e.dies ||| regBit 8 die else e.dies &&& ~~~regBit 8 die
    { e with owner := none, dies := dies, st := if e.st == .lost then .lost else if dies == 0 then .i else .s }
  else e

/-- The write sequence numbers of the sectors that a write-back brings advance (17 R393). -/
def State.writtenBack (s : State) (line mask : Nat) : State :=
  each (List.range 4) (fun i s => if bitAt mask i then s.advanceSeqs (192 * line + 48 * i) 48 else s) s

/-- WRITE_BACK_ARRIVAL (16 R381): the home merges the dirty sectors that the mask names, which are the line's visible bytes already,
into its memory-side cache (04 R88), and counts the answer to a recall; with the last, the line is granted. Bit 4 marks a write-back
that no recall asked for. -/
def execWriteBackArrival (line die mask : Nat) (s : State) : Out :=
  let s := if mask % 16 = 0 then s
    else (s.msFill (s.homeDie (setOf s.mode die) (192 * line)) line (BitVec.ofNat 4 mask)).writtenBack line mask
  if bitAt mask 4 then .next (s.modLine line fun e => e.returned die)
  else
  let s := s.modLine line fun e => { (e.recalled die) with await := e.await.filter (· != die) }
  let e := s.line line
  match e.req with
  | some k =>
    if e.await.isEmpty && e.st != .m then
      .next (s.sendOnce (s.homeDie (setOf s.mode (k / 64)) (192 * line)) (k / 64) 0 16 true fun _ => .ownershipGrant line k)
    else .next s
  | none => .next s

/-- OWNERSHIP_GRANT (16 R381): the line is the cluster's, dirty; its patch is stamped (10 R267) and its watches wake (08 R210). -/
def execOwnershipGrant (line cluster : Nat) (s : State) : Out :=
  let set := setOf s.mode (cluster / 64)
  if (s.line line).st == .lost then .next (s.modLine line fun e => { e with req := none })
  else
    let g := s.unitGen set (s.homeDie set (192 * line))
    -- a die that owned the line keeps its dirty sectors (04 R88), and the cluster what it has filled
    let s := s.modLine line fun e =>
      { st := .m, dies := regBit 8 (cluster / 64), owner := some (cluster / 64), cluster := some cluster, sharers := [cluster], gen := g
        dirty := if e.owner == some (cluster / 64) then e.dirty else 0, has := e.has.filter fun x => x.1 == cluster }
    let s := if (s.cacheBanks cluster).isEmpty then s else s.cacheLine cluster line
    .next (((s.ownCopy cluster line).stamp line).wakeLine line)

/-! ### Atomic units and store controllers -/

/-- The new value of an atomic (08 R200), or none where a `cas` fails. -/
def atomNew (op : AtomOp) (n old cmp x : Nat) : Option Nat :=
  let w := 8 * n
  let m := 2 ^ w
  match op with
  | .add => some ((old + x) % m)
  | .and => some (old &&& x % m)
  | .or => some (old ||| x % m)
  | .xor => some (old ^^^ x % m)
  | .minS => some (if signed w old ≤ signed w x then old else x % m)
  | .maxS => some (if signed w x ≤ signed w old then old else x % m)
  | .minZ => some (min old (x % m))
  | .maxZ => some (max old (x % m))
  | .swp => some (x % m)
  | .cas => if old = cmp % m then some (x % m) else none
  | .fadd =>
    let f := if n = 4 then fp32 else fp64
    some (f.round 0 false false 0 (fAdd false (f.value old) (f.value (x % m))))

/-- The unit of an operation's log: the cluster of a core store, or 512 + the memory die (19 R422). -/
def State.atomUnit (s : State) (inCore : Bool) (r : Req) : Nat :=
  if inCore then clusterOf (locCore r.addr) else 512 + (s.homeDie (setOf s.mode (dieOf r.core)) r.addr - 8)

/-- ATOMIC_EXECUTE (08 R200 to R202): one indivisible step at the home's atomic unit or the owner's store controller. One
that would read poison changes nothing, and answers with it (R196). -/
def execAtomicExecute (op : AtomOp) (posted inCore : Bool) (cmp : Word) (r : Req) (s : State) : Out :=
  let ev : Ev := .atomicExecute op posted inCore cmp r
  let die := if inCore then dieOf (locCore r.addr) else s.homeDie (setOf s.mode (dieOf r.core)) r.addr
  if !inCore && s.stale r then .next (s.nack r 1 ev)
  else .next (s.arbitrated (s.opPart r.ctx die) (s.atomUnit inCore r) 2 r.addr r.ctx ev [] fun s =>
    let s := if posted then s else s.acquired r
    let s := if inCore then s else s.dropSector r.core r.addr
    -- only an operation that writes repairs a LOST line (10 R277): a cas that zeros would fail does not
    let s := if !inCore && (s.line (r.addr / 192)).st == .lost && (atomNew op r.size 0 cmp.toNat r.data).isSome then
        s.repair (s.ctx r.ctx).blk r.addr
      else s
    if (if inCore then s.markedAt (storePlace + r.addr) r.size else s.poisoned r.addr r.size) then
      let s := if !inCore && (s.line (r.addr / 192)).st == .lost then s.reportLost r.addr else s
      if posted then s else s.reply die 1 r 0 true
    else
      let old := readNat (if inCore then s.cstore else s.mem) r.addr r.size
      let s := match atomNew op r.size old cmp.toNat r.data with
        | some v => if inCore then s.writeStore r.addr v r.size else s.homeWrite (s.ctx r.ctx).blk r.addr v r.size
        | none => s
      if posted then s else s.reply die 1 r old false)

/-- A nibble written into a byte (04 R102, R103). -/
def nibbleOf (hi : Bool) (old v : Nat) : Nat := if hi then old % 16 + 16 * (v % 16) else old / 16 * 16 + v % 16

/-- NIBBLE_STORE_EXECUTE (04 R103): a masked update of one byte, after every cached copy is recalled. -/
def execNibbleStoreExecute (r : Req) (s : State) : Out :=
  let ev : Ev := .nibbleStoreExecute r
  let die := s.homeDie (setOf s.mode (dieOf r.core)) r.addr
  if s.stale r then .next (s.nack r 1 ev)
  else .next (s.arbitrated (s.opPart r.ctx die) (s.atomUnit false r) 2 r.addr r.ctx ev [] fun s =>
    let hi := match r.kind with | .nibStore h => h | _ => false
    let s := s.dropSector r.core r.addr
    let s := if (s.line (r.addr / 192)).st == .lost then s.repair (s.ctx r.ctx).blk r.addr else s
    s.homeWrite (s.ctx r.ctx).blk r.addr (nibbleOf hi (readNat s.mem r.addr 1) r.data) 1)

/-- CORE_STORE_ACCESS (04 R94, R102): the owner's store controller executes one message, which has come over the mesh, as its answer
goes. -/
def execCoreStoreAccess (r : Req) (s : State) : Out :=
  let die := dieOf (locCore r.addr)
  let s := s.meshed r
  match r.kind with
  | .store => .next (s.writeStore r.addr r.data r.size)
  | .nibStore hi =>
    let ev : Ev := .coreStoreAccess r
    .next (s.arbitrated (s.opPart r.ctx die) (clusterOf (locCore r.addr)) 2 r.addr r.ctx ev [] fun s =>
      s.writeStore r.addr (nibbleOf hi (readNat s.cstore r.addr 1) r.data) 1)
  | .storeTs =>
    let s := s.writeStore r.addr r.data r.size
    .next (s.respond die (dieOf r.core) 1 32 r.tx (.registerFill r.ctx r.reg r.tag 0 false r.info (.core r.core) 16))
  | _ =>
    let (v, bad) := s.bytesOf true r
    .next ((s.acquired r).reply die 1 r v bad)

/-! ### Token rounds and held releases (05 R115, R116, R436) -/

/-- Joins, on a link, the round that begins next: at once, or when the one in flight has ended. -/
def State.joinRound (s : State) (die link : Nat) : Nat × State :=
  if (s.die die).roundsOpen.any fun x => x.1 == link then
    (((s.die die).begun link + 1) % 65536, s.modLink die link fun x => { x with posted := true })
  else
    let s := s.beginRound die link
    ((s.die die).begun link, s)

/-- Sends an echo back over the link on which its token came. -/
def State.echo (s : State) (die link round : Nat) : State :=
  match linkPeer die link with
  | some p => s.send die p 1 16 false none (.fenceEchoArrival p (linkTo p die) round)
  | none => s

/-- FENCE_TOKEN_ARRIVAL (05 R116): the die echoes, once what came ahead of the token has performed; for what it forwarded
onward it first sends tokens on those links and waits for their echoes. -/
def execFenceTokenArrival (die link round : Nat) (s : State) : Out :=
  let d := s.die die
  match d.tokens.find? fun x => x.1 == link && x.2.1 == round with
  | some _ =>
    .next ((s.modDie die fun d => { d with tokens := d.tokens.filter fun x => !(x.1 == link && x.2.1 == round) }).echo die link round)
  | none =>
    let onward := (d.fwd.filter fun x => x.1 == link).map (·.2)
    if onward.isEmpty then .next (s.echo die link round)
    else
      let s := s.modDie die fun d => { d with fwd := d.fwd.filter fun x => x.1 != link }
      let (rounds, s) := onward.foldl (fun (acc, s) l =>
        let (n, s) := s.joinRound die l
        (acc ++ [(l, n)], s)) (([] : List (Nat × Nat)), s)
      .next ((s.modDie die fun d => { d with tokens := d.tokens ++ [(link, round, rounds)] }).post (.fenceTokenArrival die link round))

/-- FENCE_ECHO_ARRIVAL (05 R116, 16 R376, R377): the round is complete, and the posted requests it covered are confirmed; an
echo already counted is ignored. The next round begins if anything waits for one. -/
def execFenceEchoArrival (die link round : Nat) (s : State) : Out :=
  if !(s.die die).roundsOpen.contains (link, round) then .next s
  else
    let s := s.modDie die fun d =>
      -- rounds are numbered modulo 65,536
      let before (x : Nat × Nat × Option (Nat × Nat)) : Bool := match x.2.2 with
        | some (l, n) => l == link && (round + 65536 - n) % 65536 < 32768
        | none => false
      { d with roundsOpen := d.roundsOpen.filter (· != (link, round)), unconf := d.unconf.filter fun x => !before x }
    .next (if (s.link die link).posted then s.beginRound die link else s)

/-- POSTED_TOKEN_ROUND (16 R376): a link with unconfirmed posted requests begins a round at least every microsecond. -/
def execPostedTokenRound (die link : Nat) (s : State) : Out :=
  if (s.link die link).posted && !((s.die die).roundsOpen.any fun x => x.1 == link) then .next (s.beginRound die link)
  else .next s

/-- A request that finds no way to a core store: a load or a returning operation is answered with poison, a posted one is discarded (16
R385, R387). -/
def State.unreachable (s : State) (die : Nat) (e : Ev) : State :=
  match e with
  | .coreStoreAccess r => if writes r.kind then s else s.reply die 1 { r with tx := none } 0 true
  | .atomicExecute _ false true _ r => s.reply die 1 { r with tx := none } 0 true
  | _ => s

/-- HELD_RELEASE_SEND (05 R436): a held operation whose condition holds is sent. -/
def execHeldReleaseSend (idx : Nat) (s : State) : Out :=
  match s.held[idx]? with
  | none => .next s
  | some h =>
    let s := { s with held := s.held.eraseIdx idx }
    match h.ev with
    | .storeVisible _ => .next (s.post h.ev)
    | .homeReadRequest _ => .next (s.post h.ev)
    | e =>
      if s.cutOff (dieOf h.core) (s.route e).1 then .next (s.unreachable (dieOf h.core) e) else .next (s.launchEv (dieOf h.core) e)

end Sys2Proof.Machine
end

