-- ==== Sys2Proof/Machine/Launch.lean ====
section
/-! DEFINITION. Launches and relaunches (02 R47 to R58; 10 R257 to R277): acceptance, starting blocks, spawning, records
of traced blocks, generations, selection and completion. -/

namespace Sys2Proof.Machine

open Sys2Proof

/-! ### Memory that the package reads and writes by virtual address -/

/-- Bytes at a virtual address of a partition; an unmapped byte reads as 0. -/
def State.readVirt (s : State) (part va n : Nat) : List Byte :=
  (List.range n).map fun i => match s.physOf part (va + i) with
    | some pa => readByte s.mem pa
    | none => 0
/-- A little-endian value at a virtual address. -/
def State.numVirt (s : State) (part va n : Nat) : Nat := natOfBytes (s.readVirt part va n)

/-- The walk of an address and the leaf it ends in. -/
def State.leafOf (s : State) (part va : Nat) : Option TlbEntry :=
  if regionAt va = .global then (s.walk [] part (bitAt va 56) (va % 2 ^ 56)).leaf else none

/-- Whether a virtual address may be accessed at a privilege. -/
def State.mayAccess (s : State) (part priv va : Nat) (a : Acc) : Bool :=
  match s.leafOf part va with
  | some e => !(priv == 0 && bitAt va 56) && e.permits a priv
  | none => false

/-- Writes bytes at a virtual address of a partition, as the homes do; what is not mapped is not written. The bytes lie in
one patch. -/
def State.writeVirt (s : State) (part va : Nat) (bs : List Byte) : State :=
  match s.physOf part va with
  | some pa => s.homeWrite 0 pa (natOfBytes bs) bs.length
  | none => s

/-- A 4-byte or 8-byte field, as bytes. -/
def field (v n : Nat) : List Byte := bytesOfNat v n
/-- Zero bytes. -/
def zeros (n : Nat) : List Byte := List.replicate n 0

/-- Answers a submission: the destination of the thread that made it, or the result word that a host named (20 R428). -/
def noCtx : Nat := 2 ^ 64
/-- Fills the submitter's register, or writes the result word. -/
def State.answer (s : State) (part ctx reg : Nat) (tag : Bool) (res v : Word) : State :=
  if ctx = noCtx then s.writeVirt part res.toNat (field v.toNat 8)
  else s.tell 20 ctx 2 32 fun h => .registerFill ctx reg tag v false 0 h 0

/-! ### Descriptors (02 R47, R48; 10 R257) -/

/-- The partition's SCRATCH banks of a cluster (15 R362). -/
def State.scratch (s : State) (cluster part : Nat) : List Nat :=
  let k := s.cluster cluster
  (List.range 16).filter fun b => nth k.modes b .cache == .scratch && nth k.owner b none == some (part % 4)

/-- The clusters that a placement allows, in the order in which they are tried (02 R49): across the dies for SPREAD, by
die and number for PACK and RECT. -/
def State.eligible (s : State) (l : Launch) : List Nat :=
  let dies := setDies s.mode (l.part / 4)
  match l.place with
  | 0 => (List.range (64 * dies.length)).map fun i => 64 * nth dies (i % dies.length) 0 + i / dies.length
  | 1 => setClusters s.mode (l.part / 4)
  | _ =>
    let (x, y, w, h) := l.rect
    ((List.range 64).filter fun k => x ≤ k % 8 && k % 8 < x + w && y ≤ k / 8 && k / 8 < y + h).map (64 * l.rectDie + ·)

/-- A launch from the 128 bytes of its descriptor; the completion record's address is given apart (10 R271). -/
def launchOf (d : Nat) (part id comp : Nat) : Launch :=
  let f (off n : Nat) : Nat := bits d (8 * off) (8 * n)
  let traced := bitAt (f 0x10 4) 0
  { id, part, entry := BitVec.ofNat 64 (f 0x00 8), blocks := f 0x08 4, threads := f 0x0C 2, tiles := f 0x0E 1, place := f 0x0F 1,
    flags := f 0x10 4, anchorPos := f 0x14 1, seed := BitVec.ofNat 64 (f 0x18 8), args := BitVec.ofNat 64 (f 0x20 8),
    comp := BitVec.ofNat 64 comp, pool := f 0x30 2, rectDie := f 0x32 1, rect := (f 0x33 1, f 0x34 1, f 0x35 1, f 0x36 1),
    region := if traced then f 0x40 8 else 0, summary := if traced then f 0x48 8 else 0, cap := if traced then f 0x50 4 else 0,
    toStart := List.range (f 0x08 4), livePkg := f 0x08 4 }

/-- The lowest reason of 02 Table 2-7 for which a descriptor is refused. The limits of Table 2-5 hold for every placement. A
completion-record address in a core store is judged not writable (reason 1): no rule says how one is judged (DESIGN CHOICE, log
92). Of a trace region and a summary the first page is judged: no rule says whether every page is (DESIGN CHOICE, log 104). -/
def State.refusal (s : State) (d : Nat) (l : Launch) (priv : Nat) : Option Nat :=
  let f (off n : Nat) : Nat := bits d (8 * off) (8 * n)
  let fl := l.flags
  let traced := bitAt fl 0
  let (x, y, w, h) := l.rect
  let limit :=
    l.entry.toNat % 2 != 0 || l.blocks == 0 || 2 ^ 31 < l.blocks || l.threads == 0 || 1024 < l.threads ||
      (bitAt fl 3 && 256 < l.threads) || 14 < l.tiles || 2 < l.place || (priv == 0 && bits fl 4 2 == 0) ||
      l.comp.toNat % 64 != 0 || !s.mayAccess l.part priv l.comp.toNat .store || 4095 < l.pool ||
      !(setDies s.mode (l.part / 4)).contains l.rectDie || 8 < x + w || 8 < y + h ||
      (bitAt fl 1 && !traced) ||
      (traced && (l.region == 0 || l.region % 1024 != 0 || !s.mayAccess l.part priv l.region .store || l.summary % 64 != 0 ||
        (l.summary != 0 && !s.mayAccess l.part priv l.summary .store)))
  let reserved :=
    bits fl 6 26 != 0 || bits l.anchorPos 4 4 != 0 || f 0x15 3 != 0 || f 0x37 9 != 0 || (!traced && f 0x40 64 != 0) || f 0x54 44 != 0
  if limit then some 1
  else if reserved then some 2
  else if bitAt fl 2 && 8 < l.threads then some 3
  else if (s.eligible l).all fun k => (s.scratch k l.part).length < l.tiles then some 4
  else if !s.mayAccess l.part 0 l.entry.toNat .fetch then some 5
  else none

/-! ### Completion records (02 Table 2-7) -/

/-- Writes a completion record; the status word, first in the record, is a release at system scope. -/
def State.record (s : State) (part : Nat) (comp : Word) (status reason completed lost killed id : Nat) : State :=
  s.writeVirt part comp.toNat (field status 4 ++ field reason 4 ++ field completed 4 ++ field lost 4 ++ field killed 4 ++ zeros 4 ++
    field (s.dieTime 20) 8 ++ field id 8 ++ zeros 24)

/-- Refuses a launch: no context, status 3 with its reason, and the submitter receives 0. A record that cannot be written is
not. The record's counts and its launch id are written as 0: Table 2-7 gives a refused launch none (DESIGN CHOICE, log 92). -/
def State.refuse (s : State) (part : Nat) (comp : Word) (priv reason ctx reg : Nat) (tag : Bool) (res : Word) : State :=
  let s := if comp.toNat % 64 = 0 && s.mayAccess part priv comp.toNat .store then s.record part comp 3 reason 0 0 0 0 else s
  s.answer part ctx reg tag res 0

/-! ### Generations (10 R267 to R269) -/

/-- The units that an advance must reach: the set's memory dies, and its clusters as 64 + number; a failed die has none. -/
def State.genUnits (s : State) (set : Nat) : List Nat :=
  setMems s.mode set ++ ((setClusters s.mode set).filter fun k => !s.diefail.getLsbD (k / 64)).map (64 + ·)

/-- Begins an advance: GFULL rises by 1 and every home directory and cluster cache of the partition is told. -/
def State.advanceGen (s : State) (set : Nat) (waits : List (Nat × Nat × Bool)) (launch : Option Nat) : State :=
  let units := s.genUnits set
  let n := ((s.set set).gfull + 1) % 2 ^ 32
  let s := s.modSet set fun d => { d with gfull := n, advances := d.advances ++ [⟨units, waits, launch, n⟩] }
  each units (fun u s =>
    s.send 20 (if u < 64 then u else (u - 64) / 64) 1 16 false none (.generationBroadcast set u (n % 256))) s

/-- GENERATION_BROADCAST (10 R268): a home directory or a cluster cache takes the new generation and acknowledges. -/
def execGenerationBroadcast (set unit gen : Nat) (s : State) : Out :=
  let s := if unit < 64 then s else s.modCluster (unit - 64) fun k => { k with gen := gen }
  let hit (a : Advance) : Bool := a.gfull % 256 == gen && a.await.contains unit
  let s := s.modSet set fun d =>
    match d.advances.findIdx? hit with
    | some i => { d with advances := d.advances.modify i fun a => { a with await := a.await.filter (· != unit) } }
    | none => d
  .next (if (s.set set).advances.any fun a => a.gfull % 256 == gen && a.await.isEmpty then s.post (.generationAdvanceDone set) else s)

/-- RESTAMP_REQUEST (10 R267): the home stamps the patch and the line's grant takes its generation; a line that its die held in E is
owned from then on (16 R381), and its watches wake (08 R210). A home that is the line's no longer refuses (15 R366). -/
def execRestampRequest (set line : Nat) (from_ : Sender) (s : State) : Out :=
  let cluster := from_.unit
  let ver := from_.ver
  if s.staleAt set line ver then .next (s.nackTo (ver / 16 - 1) (cluster / 64) 1 none (.restampRequest set line from_))
  else
    let s := s.stamp line
    let set := setOfPatch s.mode (line / 64)
    let die := cluster / 64
    let gains := (s.line line).st == .e && (s.line line).dies == regBit 8 die
    let s := s.modLine line fun e =>
      let e := { e with gen := s.unitGen set (s.homeDie set (192 * line)), req := none }
      if gains then { e with st := .m, owner := some die, cluster := some cluster } else e
    .next (if gains then s.wakeLine line else s)

/-- The stamp of a patch (10 R266). -/
def State.stampOf (s : State) (patch : Nat) : Nat := getD s.stamps patch (s.set (setOfPatch s.mode patch)).stampBase
/-- A stamp is newer than a recorded generation (10 R270). -/
def newer (stamp g : Nat) : Bool :=
  let k := (stamp + 256 - g % 256) % 256
  1 ≤ k && k ≤ 127

/-! ### Trace records (10 R258, R259) -/

/-- A range word. -/
def rangeWord (r : Nat × Nat) : Nat := r.1 + 2 ^ 40 * r.2
/-- A range from its word. -/
def rangeOf (w : Nat) : Nat × Nat := (bits w 0 40, bits w 40 24)

/-- Enters a patch in a list of ranges (10 R262); none when the list is full. A run longer than the 24 bits of its count can say goes on
growing here: the rule does not say what becomes of it (DESIGN CHOICE, log 102). -/
def enterPatch (rs : List (Nat × Nat)) (p : Nat) : Option (List (Nat × Nat)) :=
  if rs.any fun r => r.1 ≤ p && p < r.1 + r.2 then some rs
  else
    let below := rs.find? fun r => r.1 + r.2 == p
    let above := rs.find? fun r => r.1 == p + 1
    let rest := rs.filter fun r => some r != below && some r != above
    let new := ((below.map (·.1)).getD p, (below.map (·.2)).getD 0 + 1 + (above.map (·.2)).getD 0)
    if below.isNone && above.isNone && 60 ≤ rs.length then none
    else some (rest.filter (fun r => r.1 < new.1) ++ [new] ++ rest.filter (fun r => new.1 < r.1))

/-- FLAGS of a live record, VALID clear (10 Table 10-3). -/
def TraceRec.flags (t : TraceRec) : Nat :=
  (if t.rdovf then 2 else 0) + (if t.wrovf then 4 else 0) + (if t.impure then 8 else 0) + (if t.rerun then 16 else 0)

/-- TRACE_REPORT (10 R261 to R263). -/
def execTraceReport (blk patch : Nat) (wr : Bool) (icause pc : Nat) (s : State) : Out :=
  let s := match get? s.blocks blk with
    | some b => s.countCluster b.cluster 38 1
    | none => s
  .next (s.modBlock blk fun b =>
    { b with trace := b.trace.map fun t =>
        let t := if icause = 0 || t.impure then t else { t with impure := true, icause := icause, ipc := pc }
        if patch = noPatch then t
        else if wr then (match enterPatch t.wr patch with | some l => { t with wr := l } | none => { t with wrovf := true })
        else match enterPatch t.rd patch with | some l => { t with rd := l } | none => { t with rdovf := true } })

/-- The bytes of a list of ranges in a record of 60 entries. -/
def rangeBytes (rs : List (Nat × Nat)) : List Byte :=
  ((rs.take 60).map fun r => field (rangeWord r) 8).flatten ++ zeros (8 * (60 - min 60 rs.length))

/-- The maximal runs of the patches of some ranges that lie in none of some others (10 R273). -/
def orphaned (old new : List (Nat × Nat)) : List (Nat × Nat) :=
  let gone := ((old.map fun r => (List.range r.2).map (r.1 + ·)).flatten).filter fun p =>
    !new.any fun r => r.1 ≤ p && p < r.1 + r.2
  gone.foldl (fun l p =>
    match l.getLast? with
    | some r => if r.1 + r.2 = p then l.dropLast ++ [(r.1, r.2 + 1)] else l ++ [(p, 1)]
    | none => [(p, 1)]) []

/-- A traced block whose record cannot be written any more, its trace unit having been lost (10 R264): it counts as ended. -/
def State.recordLost (s : State) (blk : Nat) : State :=
  match get? s.blocks blk with
  | none => s
  | some b =>
    let s := s.modLaunch b.launch fun l => { (l.charge b.anchor false).unrecorded b.index with completed := l.completed + 1 }
    { s with blocks := del s.blocks blk }.post (.launchCompletion b.launch)

/-- BLOCK_RECORD_WRITE (10 R264, R273): the record is written, and only then does the anchor's count fall. -/
def execBlockRecordWrite (blk : Nat) (s : State) : Out :=
  match get? s.blocks blk with
  | none => .next s
  | some b =>
    match b.trace, get? s.launches b.launch with
    | some t, some l =>
      let flags := t.flags + (if b.spoiled then 0 else 1)
      let bytes := field b.index 4 ++ field flags 1 ++ field t.rd.length 1 ++ field t.wr.length 1 ++ field t.icause 1 ++
        field t.ipc 8 ++ field t.gfull 4 ++ zeros 4 ++ field l.id 8 ++ zeros 32 ++ rangeBytes t.rd ++ rangeBytes t.wr
      let s := s.writeVirt l.part (l.region + 1024 * (b.index + 1)) bytes
      let s := s.modLaunch b.launch fun l =>
        let l := l.charge b.anchor false
        { l with
          completed := l.completed + 1
          relaunch := l.relaunch.map fun r =>
            match r.old.find? fun x => x.1 == b.index with
            | some (_, some old) => { r with orphans := r.orphans ++ (orphaned old t.wr).map fun x =>
                (BitVec.ofNat 64 (rangeWord x), b.index, 0) }
            | some (_, none) => { r with orphans := r.orphans ++ [(0, b.index, 1)] }
            | none => r }
      let s := { s with blocks := del s.blocks blk }
      .next (s.post (.launchCompletion b.launch))
    | _, _ => .next s

/-- Writes the fields of a region header that a run changes (10 Table 10-2). -/
def State.headerState (s : State) (part region state : Nat) : State := s.writeVirt part (region + 4) (field state 4)

/-- The whole header at the acceptance of a TRACE launch (10 R260). -/
def State.writeHeader (s : State) (l : Launch) (desc : List Byte) (gfull : Nat) : State :=
  s.writeVirt l.part l.region
    (field 1 4 ++ field 1 4 ++ field (s.set (l.part / 4)).inst 4 ++ field gfull 4 ++ field l.blocks 4 ++ zeros 4 ++ field l.id 8 ++
      zeros 96 ++ desc ++ zeros 768)

/-- LAUNCH_ACCEPT (02 R48; 10 R257, R260; 08 R221; 20 R428): the descriptor is read and validated; an accepted launch has
its id returned and its blocks started, a traced one once the advance of the generation is complete (10 R268, R291). `desc` is
the descriptor's place. -/
def execLaunchAccept (part : Nat) (desc : Word) (ctx reg : Nat) (tag : Bool) (priv : Nat) (res : Word) (s : State) : Out :=
  let p := desc.toNat
  let bytes := if 2 ^ 62 ≤ p then readList s.cstore (p - 2 ^ 62) 128 else readList s.mem p 128
  let d := natOfBytes bytes
  let id := s.launchIds + 1
  let l := launchOf d part id (bits d 0x140 64)
  match s.refusal d l priv with
  | some r => .next (s.refuse part l.comp priv r ctx reg tag res)
  | none =>
    let set := part / 4
    let g := (s.set set).gfull
    let traced := bitAt l.flags 0
    let l := { l with gfull := g, submit := if traced then some (ctx, reg, tag, res) else none }
    let s := { s with launchIds := id, launches := put s.launches id l }
    .next (if traced then (s.writeHeader l bytes g).advanceGen set [] (some id)
      else (s.answer part ctx reg tag res (BitVec.ofNat 64 id)).post (.blockStart id))

/-! ### Starting blocks (02 R49 to R51) -/

/-- The pages of the context window that the tables map, from a node down: offset, physical address, size. -/
def ctxPages (mem : Memory) (mode set node base : Nat) : Nat → List (Nat × Nat × Nat)
  | 0 => []
  | k + 1 =>
    let size := 12288 * pagePatches (k + 1)
    let table := mem.filter fun x => x.1 / 12288 == node
    ((List.range 1536).map fun i =>
      let e := readNat table (node * 12288 + 8 * i) 8
      let o := base + i * size
      if 2 ^ 48 ≤ o || !pteOk mode set (k + 1) e true then []
      else if bitAt e 1 then [(o, ptePpn e * 12288, size)]
      else ctxPages mem mode set (ptePpn e) o k).flatten

/-- A message or a step that will change a context's line, or answer it. -/
def concerns (pa : Nat) (e : Ev) : Bool :=
  match e with
  | .registerFill x _ _ _ _ _ _ _ => x == pa
  | .wakeupApply x _ _ _ _ => x == pa
  | .cmdsDecrement x _ _ => x == pa
  | .messageReturn x _ => x == pa
  | .commandAccept c => c.ctx == pa
  | .commandReply x _ _ _ _ _ => x == pa
  | .semPResend x => x == pa
  | .jcWaitRepoll x => x == pa
  | .chunkRequest _ _ x _ _ _ => x == pa
  | .spawnPoolRequest _ x _ _ _ _ _ _ => x == pa
  | .tallocServe _ x _ _ _ _ _ => x == pa
  | .launchAccept _ _ x _ _ _ _ => x == pa
  | .relaunchAccept _ _ _ x _ _ _ _ _ => x == pa
  | .watchArm _ _ _ x _ _ _ _ => x == pa
  | .errand (.line _ l _ _ x _ _ _) => l == pa || x == pa
  | .errand (.fetch x _) => x == pa
  | .errand (.bank _ _ _ x _ _ _ _) => x == pa
  | .errand (.answer x _ _ _) => x == pa
  | .errand (.waits x _ _ _ _ _) => x == pa
  | .errand (.join _ _ x _ _) => x == pa
  | .watchCancel x => x == pa
  | .contextLineArrival x _ => x == pa
  | .contextTransferAck x => x == pa
  | .contextClaim _ x => x == pa
  | .ringPost x => x == pa
  | .bankNackRetry m => concerns pa m
  | .homeNackRetry m => concerns pa m
  | e => match touchOf e with | some t => t.ctx == pa | none => false

/-- Something that the package still has to do for a context: a message, a held access, a task, a walk, an answer. -/
def State.owed (s : State) (pa : Nat) : Bool :=
  s.flying.any (concerns pa) || s.held.any (fun h => h.ctx == pa || concerns pa h.ev) ||
    s.clusters.any (fun x => x.2.inq.any (·.cmd.ctx == pa) || x.2.tasks.any (·.2.cmd.ctx == pa)) ||
    s.dies.any (fun x => (x.2.walks ++ x.2.walkQ ++ x.2.walkHeld).any fun w => w.waiters.any (·.ctx == pa)) ||
    s.sets.any (fun x => x.2.advances.any fun a => a.waits.any (·.1 == pa)) ||
    s.launches.any fun x => x.2.submit.any (·.1 == pa)

/-- A line that a new context may take: it is mapped, holds no live context and no handler, and nothing is owed to it. -/
def State.lineFree (s : State) (pa : Nat) : Bool :=
  let c := s.ctx pa
  (c.isFree || (c.kind == 11 && c.handler == 0)) && (s.centry pa).holder == .memory && (s.centry pa).transfer == none && !s.owed pa

/-- The free lines of a partition's arenas: CVA and physical address. The spec does not say which of them a new context
takes. -/
def State.freeLines (s : State) (part : Nat) : List (Nat × Nat) :=
  let root := (s.part part).ptHi.toNat
  if bitAt root 63 then
    ((ctxPages s.mem s.mode (part / 4) (bits root 0 40) 0 4).map fun (o, pa, size) =>
      ((List.range (size / 128)).map fun i => (2 ^ 56 + o + 128 * i, pa + 128 * i)).filter fun x =>
        s.lineFree x.2).flatten
  else []

/-- Takes free lines one after another, each a free choice among those left. -/
def pickLines (lines : List (Nat × Nat)) (seed : Nat) : Nat → List (Nat × Nat)
  | 0 => []
  | n + 1 =>
    match lines[Config.freeLine seed % lines.length]? with
    | some x => x :: pickLines (lines.erase x) (seed + 1) n
    | none => []

/-- The anchor core of a block homed in a cluster. -/
def Launch.anchorIn (l : Launch) (cluster : Nat) : Nat := coreIn cluster (bits l.anchorPos 0 2) (bits l.anchorPos 2 2)

/-- Core and slot of a context of a PINNED block (02 R50, 17 R396); another has no place of its own. -/
def Launch.placeOf (l : Launch) (cluster t : Nat) (trailing : Bool) : Option Nat :=
  if !bitAt l.flags 3 then none
  else if bitAt l.flags 2 then some (16 * l.anchorIn cluster + t % 8 + (if trailing then 8 else 0))
  else some (16 * coreIn cluster (t % 4) (t / 4 % 4) + t / 16)

/-- A slot that no context holds and that is no PINNED context's own, of a partition: the slots are shared in time by those that are
resident together (14 R348). -/
def State.slotFree (s : State) (part p : Nat) : Bool :=
  let x := nth (s.core (p / 16)).slots (p % 16) {}
  let own (c : Ctx) : Bool := c.part == part && c.pin == some p && c.kind != 11 && c.kind != 12
  x.ctx == none && x.heldFor == none && !(s.ctxs.any fun (_, c) => own c) && !own s.th

/-- The SCRATCH banks of a cluster that no live block holds and that are not draining. -/
def State.freeBanks (s : State) (cluster part : Nat) : List Nat :=
  let used := (s.blocks.filter fun (_, b) => b.cluster == cluster).map fun (_, b) => b.banks
  (s.scratch cluster part).filter fun k => !used.flatten.contains k && !(s.cluster cluster).drains.any fun d => d.bank == k

/-- A cluster that may take the next block of a launch (02 R49, R50; 10 R260; 17 R398). -/
def State.fits (s : State) (l : Launch) (index cluster : Nat) : Bool :=
  let placed := (List.range l.threads).filterMap (l.placeOf cluster · false) ++
    (if bitAt l.flags 2 then (List.range l.threads).filterMap (l.placeOf cluster · true) else [])
  l.tiles ≤ (s.freeBanks cluster l.part).length && placed.all (s.slotFree l.part) &&
    (!bitAt l.flags 2 || !(s.core (l.anchorIn cluster)).rasCore.getLsbD 0) && get? l.avoid index != some (l.anchorIn cluster) &&
    (!bitAt l.flags 0 || (s.blocks.filter fun (_, b) => b.cluster == cluster && b.trace.isSome).length < 16) &&
    !s.diefail.getLsbD (cluster / 64)

/-- The first cluster in a placement's order that fits, with the place after it (02 R49: SPREAD goes round). -/
def State.placeBlock (s : State) (l : Launch) (index : Nat) : Option (Nat × Nat) :=
  let ks := s.eligible l
  let n := ks.length
  let start := if l.place = 0 then l.cursor else 0
  ((List.range n).map fun i => (start + i) % n).findSome? fun i =>
    let k := nth ks i 0
    if s.fits l index k then some (k, (i + 1) % n) else none

/-- A new thread's line (02 R51, Tables 2-1 and 2-3). -/
def newLine (l : Launch) (blk index cva t pair : Nat) (pin : Option Nat) : Ctx :=
  { w := (((Vector.replicate 8 0).set 0 (BitVec.ofNat 64 index)).set 1 (BitVec.ofNat 64 t)).set 2 l.args,
    pc := l.entry.setWidth 57, prio := BitVec.ofNat 2 (bits l.flags 4 2), pair := BitVec.ofNat 2 pair, few := 7, cva, part := l.part,
    blk, tindex := t, pin }

/-- Puts a new context in its line, which memory holds. -/
def State.create (s : State) (id cluster : Nat) (c : Ctx) : State :=
  (s.modEntry id fun _ => { ({} : CtxEntry) with affinity := cluster }).modCtx id fun _ =>
    { c with readyAt := s.gtime, level := c.prio.toNat }

/-- Gives a new context, or a pair by its leading one, its first place: its core under PINNED, else its home cluster's ready ring
(02 R50). -/
def State.enter (s : State) (id : Nat) : State :=
  match (s.ctx id).pin with
  | some p => s.sendUnit id (.core (p / 16))
  | none => s.ring id

/-- Contexts that a block of a launch takes. -/
def Launch.lineCount (l : Launch) : Nat := if bitAt l.flags 2 then 2 * l.threads else l.threads

/-- The next block of a launch has a cluster that can take it, and free lines for its contexts (02 R49, R51). -/
def State.canStart (s : State) (l : Launch) : Bool :=
  match l.toStart with
  | [] => true
  | index :: _ => (s.placeBlock l index).isSome && l.lineCount ≤ (s.freeLines l.part).length

/-- BLOCK_START (02 R49 to R51, R57): the next block of a launch starts in a cluster that can take it. -/
def execBlockStart (launch : Nat) (s : State) : Out :=
  match get? s.launches launch with
  | none => .next s
  | some l =>
    match l.toStart with
    | [] => .next s
    | index :: rest =>
      let n := l.lineCount
      let lines := pickLines (s.freeLines l.part) (65536 * s.fresh) n
      match s.placeBlock l index with
      | none => .next (s.post (.blockStart launch))
      | some (cluster, cursor) =>
        if lines.length < n then .next (s.post (.blockStart launch))
        else
          let blk := l.id * 2 ^ 32 + index + 1
          let anchor := l.anchorIn cluster
          let again := l.relaunch.isSome
          let b : Block := { launch, index, cluster, anchor, banks := (s.freeBanks cluster l.part).take l.tiles,
                             pool := List.range l.pool, live := lines.map (·.2),
                             trace := if bitAt l.flags 0 then some { gfull := l.gfull, rerun := again } else none }
          let s := if bitAt l.flags 0 then s.writeVirt l.part (l.region + 1024 * (index + 1) + 4) (zeros 1) else s
          let s := { s with blocks := put s.blocks blk b }
          let s := s.modLaunch launch fun l => { l with toStart := rest, cursor := cursor }
          let s := each lines (fun _ s => s.modLaunch launch fun l => l.charge anchor true) s
          let s := s.modLaunch launch fun l => { l with livePkg := l.livePkg - 1 }
          let paired := bitAt l.flags 2
          let s := each ((List.range lines.length).zip lines) (fun (i, cva, id) s =>
            let t := if paired then i / 2 else i
            let trailing := paired && i % 2 == 1
            let c := newLine l blk index cva t (if paired then (if trailing then 2 else 1) else 0) (l.placeOf cluster t trailing)
            let peer := if paired then (lines[if trailing then i - 1 else i + 1]?).map (·.2) else none
            s.create id cluster { c with peer := peer }) s
          let s := each (lines.map (·.2)) (fun id s => if s.lead id == id then s.enter id else s) s
          .next (if rest.isEmpty then s else s.post (.blockStart launch))

/-- A spawned child (02 R52, 08 R212): its entry point, its argument in w0, and bits [63:57] of the entry point, which its first
fetch judges. A deferred one waits on its join counter. -/
def Ctx.child (c : Ctx) (entry arg : Word) (jc : Option Nat) : Ctx :=
  let c := { c with w := c.w.set 0 arg, pc := entry.setWidth 57, entryHi := entry.extractLsb' 57 7 }
  match jc with
  | none => c
  | some loc => { c with kind := 3, warg := BitVec.ofNat 60 loc }

/-- SPAWN_POOL_REQUEST (02 R52, R57; 08 R212): the block's anchor charges the child before the reply; with no context in
the pool, or no free line, the reply is 0. In a PAIRED launch the child is a pair (17 R396), and the reply names its leading
context. The deferred form leaves the child waiting on a join counter and names it as its continuation. -/
def execSpawnPoolRequest (blk ctx reg : Nat) (tag : Bool) (entry arg : Word) (jc : Option Nat) (_ : Nat) (s : State) : Out :=
  let reply (s : State) (v : Nat) : State :=
    let src := match get? s.blocks blk with | some b => dieOf b.anchor | none => 0
    s.tell src ctx 2 32 fun h => .registerFill ctx reg tag (BitVec.ofNat 64 v) false 0 h 0
  match get? s.blocks blk with
  | none => .next (reply s 0)
  | some b =>
    match get? s.launches b.launch, b.pool with
    | some l, i :: pool =>
      let n := if bitAt l.flags 2 then 2 else 1
      let lines := pickLines (s.freeLines l.part) (65536 * s.fresh) n
      match lines with
      | (cva, id) :: rest =>
        if lines.length < n then .next (reply s 0)
        else
          let s := s.modBlock blk fun b => { b with pool := pool, live := b.live ++ lines.map (·.2) }
          let s := each lines (fun _ s => s.modLaunch b.launch fun l => l.charge b.anchor true) s
          let child (cva pair : Nat) (peer : Option Nat) : Ctx :=
            { (newLine l blk b.index cva (1024 + i) pair none).child entry arg jc with peer := peer }
          let s := match rest with
            | [] => s.create id b.cluster (child cva 0 none)
            | (cva', id') :: _ =>
              (s.create id b.cluster (child cva 1 (some id'))).create id' b.cluster (child cva' 2 (some id))
          let s := match jc with
            | none => s.enter id
            | some loc => s.writeStore (loc + 8) cva 8
          .next (reply s cva)
      | [] => .next (reply s 0)
    | _, _ => .next (reply s 0)

/-! ### Relaunch (10 R271 to R274) -/

/-- RELAUNCH_ACCEPT (10 R271, R280): a region that is not complete, or whose descriptor copy R48 refuses, is refused; else
the region is marked, the generation advances, and the selection and the answer follow the advance: what is written after the
answer is stamped with the new generation (05 R129, 11 R293). A region that cannot be read here any more, which the issuing thread could
read, is answered 0 without a completion record: no rule says what follows (DESIGN CHOICE, log 101). -/
def execRelaunchAccept (part : Nat) (region comp : Word) (ctx reg : Nat) (tag : Bool) (priv : Nat) (repair : Bool) (res : Word)
    (s : State) : Out :=
  let r := region.toNat
  if !s.mayAccess part priv r .load then .next (s.answer part ctx reg tag res 0)
  else
    let bytes := s.readVirt part (r + 0x80) 128
    let d := natOfBytes bytes
    let id := s.launchIds + 1
    let l := launchOf d part id comp.toNat
    if s.numVirt part r 4 != 1 || s.numVirt part (r + 4) 4 != 2 then .next (s.refuse part comp priv 6 ctx reg tag res)
    else match s.refusal d l priv with
      | some x => .next (s.refuse part comp priv x ctx reg tag res)
      | none =>
        let set := part / 4
        let n := (s.set set).gfull
        let s := s.headerState part r 1
        let l := { l with region := r, gfull := n, toStart := [], livePkg := 0, submit := some (ctx, reg, tag, res),
                          relaunch := some { region := r, n := n, full := 0, selected := 0, skipped := 0, old := [], repair := repair } }
        let s := { s with launchIds := id, launches := put s.launches id l }
        .next (s.advanceGen set [] (some id))

/-- The ranges of a block record. -/
def State.recordRanges (s : State) (part rec off n : Nat) : List (Nat × Nat) :=
  (List.range n).map fun i => rangeOf (s.numVirt part (rec + off + 8 * i) 8)

/-- Selects the blocks of a relaunch once its advance is complete (10 R271, R277), and starts them. -/
def State.selectBlocks (s : State) (launch : Nat) : State :=
  match get? s.launches launch with
  | none => s
  | some l =>
    match l.relaunch with
    | none => s
    | some r =>
      let set := l.part / 4
      let num (off n : Nat) : Nat := s.numVirt l.part (r.region + off) n
      let g := num 0x0C 4
      let current := num 0x08 4 == (s.set set).inst
      let inDate := current && (r.n + 2 ^ 32 - g) % 2 ^ 32 ≤ 127
      let pure_ := bitAt l.flags 1
      let full := if !current then 2 else if !inDate then 1 else if !pure_ then 3 else 0
      let rec_ (b : Nat) : Nat := r.region + 1024 * (b + 1)
      let flags (b : Nat) : Nat := s.numVirt l.part (rec_ b + 4) 1
      let patches (rs : List (Nat × Nat)) : List Nat := (rs.map fun x => (List.range x.2).map (x.1 + ·)).flatten
      let rd (b : Nat) : List (Nat × Nat) := s.recordRanges l.part (rec_ b) 0x40 (s.numVirt l.part (rec_ b + 5) 1)
      let wr (b : Nat) : List (Nat × Nat) := s.recordRanges l.part (rec_ b) 0x220 (s.numVirt l.part (rec_ b + 6) 1)
      let rerun (b : Nat) : Bool :=
        full != 0 || !bitAt (flags b) 0 || bitAt (flags b) 1 || bitAt (flags b) 2 || bitAt (flags b) 3 ||
          (patches (rd b)).any (fun p => newer (s.stampOf p) g) || (r.repair && (patches (wr b)).any fun p => s.lost.contains p)
      let sel := (List.range l.blocks).filter rerun
      let skip := (List.range l.blocks).filter fun b => !rerun b
      let old := sel.map fun b => (b, if bitAt (flags b) 2 || !bitAt (flags b) 0 then none else some (wr b))
      let s := each skip (fun b s => s.writeVirt l.part (rec_ b + 4) (field (flags b % 16) 1)) s
      let s := s.modLaunch launch fun l =>
        { l with toStart := sel, livePkg := sel.length,
                 relaunch := some { r with full := full, selected := sel.length, skipped := skip.length, old := old } }
      s.post (if sel.isEmpty then .relaunchComplete launch else .blockStart launch)

/-- What the advance of a launch's acceptance held back (10 R268, R271): its submitter learns its id, and its blocks are started
or selected. -/
def State.advanced (s : State) (launch : Nat) : State :=
  match get? s.launches launch with
  | none => s
  | some l =>
    let s := s.modLaunch launch fun l => { l with submit := none }
    let s := match l.submit with
      | some (ctx, reg, tag, res) => s.answer l.part ctx reg tag res (BitVec.ofNat 64 l.id)
      | none => s
    if l.relaunch.isSome then s.selectBlocks launch else s.post (.blockStart launch)

/-- GENERATION_ADVANCE_DONE (10 R268, R279): threads whose `trgen` waits receive GFULL, and a launch or relaunch goes on. -/
def execGenerationAdvanceDone (set : Nat) (s : State) : Out :=
  match (s.set set).advances.find? fun a => a.await.isEmpty with
  | none => .next s
  | some a =>
    let s := s.modSet set fun d => { d with advances := d.advances.eraseP fun a => a.await.isEmpty }
    let s := each a.waits (fun (ctx, reg, tag) s =>
      s.tell 20 ctx 2 32 fun h => .registerFill ctx reg tag (BitVec.ofNat 64 a.gfull) false 0 h 0) s
    .next (match a.launch with | some l => s.advanced l | none => s)

/-- The entries of a summary in their order: ascending block, then start (10 R273). -/
def sortOrphans (l : List (Word × Nat × Nat)) (blocks : Nat) : List (Word × Nat × Nat) :=
  ((List.range blocks).map fun b => l.filter fun x => x.2.1 == b).flatten

/-- Spills every entry of a launch from the PC tables, before its completion record is written (19 R421). -/
def State.spillLaunch (s : State) (l : Launch) : State :=
  each (setClusters s.mode (l.part / 4)) (fun k s => s.pctSpillWhere k fun e => e.launch == l.id % 65536) s

/-- RELAUNCH_COMPLETE (10 R273, R274): summary, header, and last the completion record. -/
def execRelaunchComplete (launch : Nat) (s : State) : Out :=
  match get? s.launches launch with
  | none => .next s
  | some l =>
    match l.relaunch with
    | none => .next s
    | some r =>
      let found := sortOrphans r.orphans l.blocks
      let kept := found.take l.cap
      let head := field kept.length 4 ++ field found.length 4 ++ field r.selected 4 ++ field r.skipped 4 ++ field r.full 1 ++ zeros 7 ++
        field l.id 8 ++ zeros 32
      let s := if l.summary = 0 then s
        else
          let s := s.writeVirt l.part l.summary head
          each ((List.range kept.length).zip kept) (fun (i, w, b, fl) s =>
            s.writeVirt l.part (l.summary + 0x40 + 16 * i) (field w.toNat 8 ++ field b 4 ++ field fl 4)) s
      let s := s.writeVirt l.part (r.region + 8)
        (field (s.set (l.part / 4)).inst 4 ++ field r.n 4 ++ field l.blocks 4 ++ field r.selected 4 ++ field l.id 8)
      let s := s.headerState l.part r.region 2
      let s := s.spillLaunch l
      let s := s.record l.part l.comp (if l.lostCtx = 0 then 1 else 2) 0 r.selected l.lostCtx l.killed l.id
      .next { s with launches := del s.launches launch }

/-- Every write of a launch has performed: none is in flight or held, and no task of its blocks is left (05 R128). The record is
written only then, also where a context was killed with such on its way. -/
def State.launchQuiet (s : State) (launch : Nat) : Bool :=
  let mine (id : Nat) : Bool := (s.ctx id).blk / 2 ^ 32 == launch
  !(s.flying.any fun e => (touchOf e).any fun t => t.write && mine t.ctx) && !(s.held.any fun h => mine h.ctx) &&
    !(s.clusters.any fun x => x.2.inq.any (·.cmd.blk / 2 ^ 32 == launch) || x.2.tasks.any (·.2.cmd.blk / 2 ^ 32 == launch)) &&
    !s.flying.any fun e => match e with
      | .commandAccept c => c.blk / 2 ^ 32 == launch
      -- what a replay log has of its operations is written too (19 R422)
      | .errand (.record _ 0 _ _ _ _) => true
      | _ => false

/-- LAUNCH_COMPLETION (02 R57, R58; 10 R264): when the package counter has reached zero, the record is written, and a traced
region's header after it. -/
def execLaunchCompletion (launch : Nat) (s : State) : Out :=
  match get? s.launches launch with
  | none => .next s
  | some l =>
    if l.livePkg != 0 || !l.toStart.isEmpty then .next s
    else if l.relaunch.isSome then .next (s.post (.relaunchComplete launch))
    else
      let s := s.spillLaunch l
      let s := s.record l.part l.comp (if l.lostCtx = 0 then 1 else 2) 0 l.completed l.lostCtx l.killed l.id
      let s := if bitAt l.flags 0 then
          (s.writeVirt l.part (l.region + 0x14) (field l.blocks 4 ++ field l.id 8)).headerState l.part l.region 2
        else s
      .next { s with launches := del s.launches launch }

end Sys2Proof.Machine
end

