-- ==== Sys2Proof/Machine/Trace.lean ====
section
/-! DEFINITION. The TRACE major (10 R278 to R283). -/

namespace Sys2Proof.Machine

open Sys2Proof

/-- Ends a long instruction whose answer a unit of another die sends: the destination is emptied, and the fill is on its
way. -/
def State.answered (s : State) (src : Nat) (d : Reg) (v : Word) : State :=
  let th := s.th.emptyW d
  ({ s with th := th }.retire 4).send src s.hereDie 2 32 false none
    (.registerFill s.here.ctx d.toNat (th.etag d.toNat) v false 0 (.core s.hereCore) 0)

/-- The die set of the issuing context. -/
def State.hereSet (s : State) : Nat := s.th.part / 4

/-- TRGEN (10 R279). -/
def execTrgen (d : Reg) (s : State) : Out :=
  issue { priv := 1, long := [d.toNat], use := .both, dst := [d.toNat] } s fun s =>
    let s := s.reportImpure 9
    let th := s.th.emptyW d
    let s := { s with th := th }.retire 4
    .next (s.advanceGen s.hereSet [(s.here.ctx, d.toNat, th.etag d.toNat)] none)

/-- Submits a relaunch (10 R280): a release at `.sy` toward it. -/
def relaunchOp (repair : Bool) (g : Bool) (b : Reg) (h : Bool) (a d : Reg) (s : State) : Out :=
  issue { srcs := [(a.toNat, h), (b.toNat, g)], long := [d.toNat], use := .both, dst := [d.toNat] } s fun s =>
    let x := s.th.wv a
    let y := s.th.wv b
    if x.toNat % 1024 != 0 then s.fault 5 x
    else if y.toNat % 64 != 0 then s.fault 5 y
    else withPlace x 8 .load s fun _ s =>
      afterRelease 5 s fun s =>
        let s := s.reportImpure 9
        let th := s.th.emptyW d
        let s := { s with th := th }.retire 4
        .next (s.sendOnce s.hereDie 20 1 32 false fun _ =>
          .relaunchAccept s.th.part x y s.here.ctx d.toNat (th.etag d.toNat) s.th.priv.toNat repair 0)

/-- RELAUNCH. -/
def execRelaunch (g : Bool) (b : Reg) (h : Bool) (a d : Reg) (s : State) : Out := relaunchOp false g b h a d s

/-- RELAUNCH_REPAIR. -/
def execRelaunchRepair (g : Bool) (b : Reg) (h : Bool) (a d : Reg) (s : State) : Out := relaunchOp true g b h a d s

/-- The live trace state of a block (10 R281); 0 for one that is not traced. -/
def State.traceState (s : State) (blk : Nat) : Nat :=
  match (get? s.blocks blk).bind (·.trace) with
  | some t => t.flags + 256 * t.rd.length + 65536 * t.wr.length + 2 ^ 24 * t.icause + 2 ^ 32
  | none => 0

/-- TRSTAT (10 R281): the trace unit of the home cluster answers; a handler has no block, and its core gives 0 (13 R435). -/
def execTrstat (d : Reg) (s : State) : Out :=
  issue { long := [d.toNat], use := .both, dst := [d.toNat] } s fun s =>
    .next (s.answered (if s.th.handler != 0 then s.hereDie else s.homeCluster / 64) d (BitVec.ofNat 64 (s.traceState s.th.blk)))

/-- The stamp word of a patch (10 R282). -/
def State.stampWord (s : State) (set patch : Nat) : Nat :=
  let hbm := patchKind s.mode set patch == .hbm
  (if hbm then s.stampOf patch else 0) + (if hbm && s.lost.contains patch then 256 else 0) + (if hbm then 0 else 512) +
    65536 * ((s.set set).gfull % 256) + 2 ^ 32 * (s.set set).inst

/-- DMREAD (10 R282): a mesh-window address raises MESH_RANGE. -/
def execDmread (h : Bool) (a d : Reg) (s : State) : Out :=
  issue { srcs := [(a.toNat, h)], long := [d.toNat], use := .both, dst := [d.toNat] } s fun s =>
    let x := s.th.wv a
    if regionAt x.toNat == .mesh then s.fault 8 x
    else withPlace x 1 .load s fun p s =>
      match p with
      | .phys pa =>
        let s := s.reportImpure 9
        .next (s.answered (s.homeDie s.hereSet pa) d (BitVec.ofNat 64 (s.stampWord s.hereSet (pa / 12288))))
      | .store _ => s.fault 8 x

/-- Stamps a patch of the partition's HBM, and with `lost` sets its lost bit (10 R283). -/
def State.markPatch (s : State) (lost : Bool) (patch : Nat) : State :=
  if patchKind s.mode s.hereSet patch == .hbm then
    let s := s.stamp (64 * patch)
    if lost then { s with lost := addNew s.lost patch } else s
  else s

/-- Marks the patches that consecutive pages translate to, one at a time (10 R283); an instruction that idles for a translation
keeps what it has marked. -/
def markPages (lost : Bool) (va : Nat) (s : State) : Nat → (State → Out) → Out
  | 0, k => k s
  | n + 1, k =>
    withPlace (BitVec.ofNat 64 va) 1 .load s fun p s =>
      let s := match p with | .phys pa => s.markPatch lost (pa / 12288) | .store _ => s
      markPages lost (va + 12288) { s with th := { s.th with marked := s.th.marked + 1 } } n k

/-- DMMARK (10 R283). -/
def execDmmark (p l : Bool) (g : Bool) (b : Reg) (h : Bool) (a : Reg) (s : State) : Out :=
  issue { priv := if p || l then 1 else 0, srcs := [(a.toNat, h), (b.toNat, g)], use := .meet } s fun s =>
    let x := s.th.wv a
    let y := s.th.wv b
    if y.toNat = 0 || 65536 < y.toNat then s.fault 1 y
    else if p then
      if 2 ^ 40 ≤ x.toNat then s.fault 1 x
      else .next ((each (List.range y.toNat) (fun i s => s.markPatch l (x.toNat + i)) (s.reportImpure 9)).retire 4)
    else if regionAt x.toNat == .mesh then s.fault 8 x
    else markPages l (x.toNat + 12288 * s.th.marked) s (y.toNat - s.th.marked) fun s => .next ((s.reportImpure 9).retire 4)

end Sys2Proof.Machine
end

