-- ==== Sys2Proof/Machine/System.lean ====
section
/-! DEFINITION. The SYS major (13 R319 to R330) and the system registers (13 Table 13-1, 15 Table 15-3, 16 Table 16-4,
17 Table 17-2, 19 Table 19-1, 20 Table 20-5), with the rows that a write of a register causes. -/

namespace Sys2Proof.Machine

open Sys2Proof

/-! ### Calls and returns -/

/-- SYS (13 R320): SYSCALL, with the pc past the instruction (Table 13-3). -/
def execSys (n : BitVec 7) (s : State) : Out :=
  issue {} s fun s => s.raise 0x14 (n.setWidth 64) (s.th.pc + 4)

/-- ERET (13 R323): only a handler of the issuing core may issue it. -/
def execEret (s : State) : Out :=
  issue { ok := s.th.handler != 0, priv := 1, use := .visible } s fun s =>
    .next (s.eretFrom s.hereCore s.here.ctx s.th.handler)

/-- A handler that is dormant is given the oldest trap that waits for its level. -/
def State.pump (s : State) (core level : Nat) : State :=
  match (s.core core).handler level with
  | some h =>
    if (s.core core).mcheck == 0 && !s.serving core level then
      match s.nextTrap core level with
      | some (e, s) => s.deliver core level h (BitVec.ofNat 64 (s.ctx e.ctx).cva) (BitVec.ofNat 64 e.cause) e.info e.tag
      | none => s
    else s
  | none => s

/-! ### Reading the registers -/

/-- Numbers that the tables assign. -/
def sysAssigned (n : Nat) : Bool :=
  n ≤ 0x0A || (0x20 ≤ n && n ≤ 0x27) || (0x30 ≤ n && n ≤ 0x39) || (0x40 ≤ n && n ≤ 0x46) || (0x50 ≤ n && n ≤ 0x65) ||
    (0x70 ≤ n && n ≤ 0x73)

/-- The Write columns: the lowest privilege that may write; none for a register that ignores writes. -/
def sysWrite (n : Nat) : Option Nat :=
  if [0x01, 0x03, 0x08, 0x20, 0x22, 0x25, 0x32].contains n then some 1
  else if [0x02, 0x04, 0x05, 0x07, 0x21, 0x26, 0x38, 0x40, 0x41, 0x44, 0x46, 0x72].contains n then some 3
  else if 0x50 ≤ n && n ≤ 0x64 && !([0x57, 0x5D, 0x61].contains n) then some 1
  else none

/-- A mask with a bit for every slot that a test picks. -/
def Core.slotMask (c : Core) (p : Slot → Bool) : Nat :=
  ((List.range 16).map fun k => if p (nth c.slots k {}) then 2 ^ k else 0).sum

/-- The end of a link that `sys.lnk.sel` names: its die and link (16 R388). -/
def Core.linkSel (c : Core) : Nat × Nat := (bits c.lnkSel.toNat 5 5, bits c.lnkSel.toNat 0 5)

/-- The registers 0x33 to 0x38 of one end of a link; an absent link reads as absent and holds nothing. -/
def State.readLink (s : State) (die link n : Nat) : Nat :=
  let l := s.link die link
  if linkPeer die link == none then (if n = 0x33 then 3 else 0)
  else match n with
    | 0x33 => l.st + (if l.x32 then 4 else 0) + 8 * (l.redundant % 8) + 65536 * (l.retrains % 65536)
    | 0x34 =>
      let oldest := ((l.replay.head?).map (·.seq)).getD l.nextTx
      l.nextTx % 1024 + 65536 * (oldest % 1024) + 2 ^ 32 * (l.expect % 1024)
    | 0x35 => l.replay.length % 256 + 65536 * (l.replays % 2 ^ 32)
    | 0x36 => l.crc
    | 0x37 => l.dup
    | _ => (if l.degrade then 2 else 0) + (if l.inject then 4 else 0)

/-- The counter that `sys.ev.sel` names (19 Table 19-1). -/
def State.readCounter (s : State) (core : Nat) : EvCounter :=
  let i := bits (s.core core).evSel.toNat 0 5
  if i < 8 then nth (s.core core).evs i {} else nth (s.cluster (clusterOf core)).evs (i - 8) {}

/-- The value of a system register, for a core and its partition. -/
def State.readSys (s : State) (core part n : Nat) : Word :=
  let c := s.core core
  let die := dieOf core
  let d := s.die die
  let p := s.part part
  let g := s.set (part / 4)
  let num (v : Nat) : Word := BitVec.ofNat 64 v
  match n with
  | 0x00 => num (core % 8192)
  | 0x01 => c.hcvaS
  | 0x02 => c.hcvaM
  | 0x03 => c.hentryS
  | 0x04 => c.hentryM
  | 0x05 => c.tdeleg
  | 0x06 => num (c.trapQ.length + 65536 * d.overflow.length)
  | 0x07 => c.mcheck
  | 0x08 => c.fdisc
  | 0x09 => num (c.slotMask (·.parked) + 65536 * c.slotMask (·.heldFor != none))
  | 0x0A => num (part / 4 % 8 + 16 * (s.mode % 4) + 64 * (g.active.getD 0 % 4))
  | 0x20 => p.ptLo
  | 0x21 => p.ptHi
  | 0x22 => c.tlbmiss
  | 0x23 => num (d.walks.length + 65536 * d.walkQ.length)
  | 0x24 => num (g.rver % 16 + (match g.mig with | some r => 16 + 256 * (r % 16) | none => 0))
  | 0x25 => c.rgnSel
  | 0x26 => nth g.regions (bits c.rgnSel.toNat 0 4) 0
  | 0x27 => num (nth g.cursors (bits c.rgnSel.toNat 0 4) 0)
  | 0x30 => num ((if d.locked then 1 else 0) + (if d.everLocked then 2 else 0) + 256 * wrap 16 d.theta + 2 ^ 24 * (d.losses % 65536))
  | 0x31 => BitVec.ofInt 64 d.tslew
  | 0x32 => c.lnkSel
  | 0x39 => s.diefail.setWidth 64
  | 0x40 => s.scrub
  | 0x41 => d.rasWatch
  | 0x42 => (d.log.headD (0, 0)).1
  | 0x43 => (d.log.headD (0, 0)).2
  | 0x44 => 0
  | 0x45 => num (d.log.length + 65536 * (d.logDropped % 65536) + 2 ^ 32 * (d.corrected % 2 ^ 32))
  | 0x46 => c.rasCore
  | 0x54 => p.notify
  | 0x55 => d.dlogBase
  | 0x56 => d.dlogCtl
  | 0x57 => num (d.dlogIdx % 2 ^ 32)
  | 0x58 => c.evSel
  | 0x59 => (s.readCounter core).cfg
  | 0x5A => (s.readCounter core).val
  | 0x5B => d.lnkcBase
  | 0x5C => d.lnkcCtl
  | 0x5D => num (d.lnkcDone % 2 ^ 32 + 2 ^ 32 * (d.lnkcSkip % 2 ^ 32))
  | 0x5E => p.pctCtl
  | 0x5F => d.pctBase
  | 0x60 => d.pctSize
  | 0x61 => num (d.pctIdx % 2 ^ 32)
  | 0x62 => p.rplCtl
  | 0x63 => p.rplBase
  | 0x64 => p.rplWin
  | 0x65 => num ((if p.rplDiv then 1 else 0) + 65536 * (p.rplOvf.length % 65536))
  | 0x70 => num (s.bootStep % 16 + 16 * (s.bootFail % 16) + 256 * (s.bootReason % 256))
  | 0x71 => num (256 - p.port.length + 65536 * (p.refused % 2 ^ 32))
  | 0x72 => d.pwrCap
  | 0x73 => num (d.mhz % 1024 + 65536 * (if d.on then Config.sensor die s.gtime % 1024 else 0))
  | n =>
    if 0x50 ≤ n && n ≤ 0x53 then nth p.bps (n - 0x50) 0
    else if 0x33 ≤ n && n ≤ 0x38 then num (s.readLink c.linkSel.1 c.linkSel.2 n)
    else 0

/-- SRD (13 R321). A read of a ring's index is an acquire at `.sy` (19 R414). -/
def execSrd (n : BitVec 7) (d : Reg) (s : State) : Out :=
  issue { ok := sysAssigned n.toNat, priv := 1, long := [d.toNat], use := .both, dst := [d.toNat] } s fun s =>
    let v := s.readSys s.hereCore s.th.part n.toNat
    let s := if [0x57, 0x5D, 0x61].contains n.toNat then s.acquire s.hereCore 5 else s
    .next (s.answered s.hereDie d v)

/-! ### Writing the registers -/

/-- Values that a register takes; any other leaves it unchanged (19 R413, 20 R431). -/
def sysInRange (n : Nat) (v : Word) : Bool :=
  let x := v.toNat
  let global (align : Nat) : Bool := x % align == 0 && regionAt x == .global
  match n with
  | 0x40 => bits x 1 4 ≤ 10
  | 0x41 => global 8
  | 0x54 => global 8
  | 0x55 => global 64
  | 0x56 => bits x 0 5 ≤ 20
  | 0x58 => bits x 0 5 ≤ 23
  | 0x5B => global 12288
  | 0x5C => 10 ≤ bits x 1 5 && bits x 1 5 ≤ 30 && bits x 8 4 ≤ 8
  | 0x5E => 4 ≤ bits x 1 5 && bits x 1 5 ≤ 20
  | 0x5F => global 16
  | 0x60 => bits x 0 5 ≤ 24
  | 0x62 => bits x 0 2 ≤ 2 && 8 ≤ bits x 3 5 && bits x 3 5 ≤ 24
  | 0x63 => global 192
  | 0x72 => 100 ≤ bits x 0 10 && bits x 0 10 ≤ 250
  | _ => true

/-- The bits that a register keeps of what is written; the others are reserved (00 R3). Bit 10 of `sys.pct.ctl`, the mask bit of the
reserved reason 3, reads back as written: 19 R421 says only that it is ignored (DESIGN CHOICE, log 99). -/
def sysMask (n : Nat) : Word :=
  match n with
  | 0x05 => 0x3FFFFE
  | 0x20 => 0x800000FFFFFFFFFF
  | 0x21 => 0x800000FFFFFFFFFF
  | 0x25 => 0xF
  | 0x26 => 0xFFFD
  | 0x32 => 0x3FF
  | 0x40 => 0x1F
  | 0x46 => 1
  | 0x50 => 0x81FFFFFFFFFFFFFF
  | 0x51 => 0x81FFFFFFFFFFFFFF
  | 0x52 => 0x81FFFFFFFFFFFFFF
  | 0x53 => 0x81FFFFFFFFFFFFFF
  | 0x56 => 0x1F
  | 0x58 => 0x1F
  | 0x5C => 0xF3F
  | 0x5E => 0x7F3F
  | 0x60 => 0x1F
  | 0x62 => 0xFF
  | 0x64 => 0xFFFFFFFF
  | 0x72 => 0x3FF
  | _ => BitVec.allOnes 64

/-- What a counter's configuration keeps: a source of the wrong kind is stored as 0 (19 R419); SLOTS is for a core's
counters. -/
def counterCfg (ofCore : Bool) (v : Word) : Word :=
  let x := v.toNat
  let src := bits x 0 8
  let okSrc := if ofCore then 1 ≤ src && src ≤ 10 else 32 ≤ src && src ≤ 40
  BitVec.ofNat 64 ((if okSrc then src else 0) + 256 * bits x 8 1 + (if ofCore then 65536 * bits x 16 16 else 0))

/-- Changes the counter that `sys.ev.sel` names. -/
def State.writeCounter (s : State) (core : Nat) (f : Bool → EvCounter → EvCounter) : State :=
  let i := bits (s.core core).evSel.toNat 0 5
  if i < 8 then s.modCore core fun c => { c with evs := c.evs.modify i (f true) }
  else s.modCluster (clusterOf core) fun c => { c with evs := c.evs.modify (i - 8) (f false) }

/-- No launch of a partition is live. -/
def State.quiet (s : State) (part : Nat) : Bool := !(s.launches.any fun x => x.2.part == part)

/-- Writes a register that has no behaviour row of its own. -/
def State.writeSys (s : State) (core part n : Nat) (v : Word) : State :=
  let die := dieOf core
  match n with
  | 0x03 => s.modCore core fun c => { c with hentryS := v }
  | 0x04 => s.modCore core fun c => { c with hentryM := v }
  | 0x05 => s.modCore core fun c => { c with tdeleg := v }
  | 0x08 => s.modCore core fun c => { c with fdisc := v }
  | 0x20 => s.modPart part fun p => { p with ptLo := v }
  | 0x21 => s.modPart part fun p => { p with ptHi := v }
  | 0x22 => s.modCore core fun c => { c with tlbmiss := v }
  | 0x25 => s.modCore core fun c => { c with rgnSel := v }
  | 0x32 => s.modCore core fun c => { c with lnkSel := v }
  | 0x40 => { s with scrub := v }
  | 0x41 => s.modDie die fun d => { d with rasWatch := v }
  | 0x46 => s.modCore core fun c => { c with rasCore := c.rasCore &&& ~~~v }
  | 0x54 => s.modPart part fun p => { p with notify := v }
  | 0x56 => s.modDie die fun d => { d with dlogCtl := v }
  | 0x58 => s.modCore core fun c => { c with evSel := v }
  | 0x59 => s.writeCounter core fun k c => { c with cfg := counterCfg k v }
  | 0x5A => s.writeCounter core fun _ c => { c with val := v }
  | 0x5B => s.modDie die fun d => { d with lnkcBase := v }
  | 0x5C => s.modDie die fun d => { d with lnkcCtl := v, lnkcAt := s.dieTime die / 2 ^ bits v.toNat 1 5 }
  | 0x5E => s.modPart part fun p => { p with pctCtl := v }
  | 0x5F => s.modDie die fun d => { d with pctBase := v }
  | 0x60 => s.modDie die fun d => { d with pctSize := v }
  | 0x63 => s.modPart part fun p => { p with rplBase := v }
  | 0x64 => s.modPart part fun p => { p with rplWin := v }
  | n => if 0x50 ≤ n && n ≤ 0x53 then s.modPart part fun p => { p with bps := p.bps.set (n - 0x50) v } else s

/-- The row that a write of a register makes due: it takes effect before anything else happens. -/
def State.sysRow (s : State) (core part n : Nat) (v : Word) : List Ev :=
  let die := dieOf core
  match n with
  | 0x01 => [.handlerInstall core false v]
  | 0x02 => [.handlerInstall core true v]
  | 0x07 => [.mcheckClear core v]
  | 0x26 => [.regionMigrationStart (part / 4) (bits (s.core core).rgnSel.toNat 0 4) v]
  | 0x38 =>
    let (d, l) := (s.core core).linkSel
    (if v.getLsbD 0 then [.lnkRetrainForce d l] else []) ++ (if v.getLsbD 2 then [.lnkInject d l] else [])
  | 0x44 => [.rasPop die]
  | 0x55 => [.dlogBaseWrite die v]
  | 0x5E => if v.getLsbD 0 then [] else [.pctDisableSpill part]
  | 0x62 => if s.quiet part then [.rplCtlWrite part v] else []
  | 0x72 => [.pwrCapWrite die v]
  | _ => []

/-- DEGRADE and INJECT of a link's end as they are written (16 R388). -/
def State.writeLinkCtl (s : State) (core n : Nat) (v : Word) : State :=
  let (d, l) := (s.core core).linkSel
  if n = 0x38 && linkPeer d l != none then
    s.modLink d l fun x => { x with degrade := v.getLsbD 1, inject := x.inject && v.getLsbD 2 }
  else s

/-- What a write of `sys.hcva` needs of its value (13 R309): no fault, or the cause; `none` of the second says that the
line is on its way between two units. -/
def State.handlerFault (s : State) (part : Nat) (v : Word) : Option Nat :=
  if v = 0 then none
  else if v.toNat % 128 != 0 then some 5
  else if regionAt v.toNat != .context then some 7
  else match s.physOf part v.toNat with
    | none => some 6
    | some id => if (s.ctx id).isFree || (s.ctx id).kind == 11 then none else some 1

/-- SWR (13 R321, R308). A write of a read-only register is ignored; one of a value that the register does not take leaves
it as it is. -/
def execSwr (n : BitVec 7) (h : Bool) (a : Reg) (s : State) : Out :=
  let k := n.toNat
  issue { ok := sysAssigned k, priv := (sysWrite k).getD 0, srcs := [(a.toNat, h)], use := .visible } s fun s =>
    let x := s.th.wv a
    let v := x &&& sysMask k
    let core := s.hereCore
    let part := s.th.part
    if sysWrite k == none || !sysInRange k x then .next (s.retire 4)
    else match (if k = 1 || k = 2 then s.handlerFault part x else none) with
      | some c => s.fault c x
      | none =>
        let rows := s.sysRow core part k v
        let s := ((s.writeSys core part k v).writeLinkCtl core k v).retire 4
        .next { s with inbox := s.inbox ++ rows }

/-! ### Rows that a write causes -/

/-- Installs a handler (13 R309): the one named before stops being a handler, at once if it is dormant and at its `eret`
if it serves; the new line is claimed, written and left dormant. -/
def State.installHandler (s : State) (core level : Nat) (cva : Word) (line : Option Nat) : State :=
  let s := match (s.core core).handler level with
    | some o => if (s.ctx o).kind == 11 && line != some o then s.retireHandler core o else s
    | none => s
  let s := s.modCore core fun c =>
    if level = 1 then { c with hcvaS := cva, hctxS := line } else { c with hcvaM := cva, hctxM := line }
  match line with
  | none => s
  | some id =>
    let s := (s.dropLine id).modCore core fun c => { c with resident := addNew c.resident id }
    let s := s.modEntry id fun e => { e with holder := .core core, transfer := none, affinity := clusterOf core }
    s.modCtx id fun _ =>
      { few := 0xFF, fee := 0xF, pc := (s.core core).hentry level, kind := 11, priv := BitVec.ofNat 2 level,
        handler := level, cva := cva.toNat, part := s.dieActive (dieOf core), lastCore := some core }

/-- HANDLER_INSTALL (13 R309). -/
def execHandlerInstall (core : Nat) (lvlM : Bool) (cva : Word) (s : State) : Out :=
  let level := if lvlM then 3 else 1
  if cva = 0 then .next (s.installHandler core level 0 none)
  else match s.physOf (s.dieActive (dieOf core)) cva.toNat with
    | some id => .next ((s.installHandler core level cva (some id)).pump core level)
    | none => .next s

/-- MCHECK_CLEAR (13 R311): W1C; once it reads 0, queued traps are delivered again. -/
def execMcheckClear (core : Nat) (val : Word) (s : State) : Out :=
  let s := s.modCore core fun c => { c with mcheck := c.mcheck &&& ~~~val }
  .next (if (s.core core).mcheck == 0 then (s.pump core 3).pump core 1 else s)

/-- RAS_POP (17 R400). -/
def execRasPop (die : Nat) (s : State) : Out := .next (s.modDie die fun d => { d with log := d.log.drop 1 })

/-- LNK_INJECT (16 R388): the CRC of the next flit that this end sends is corrupted. -/
def execLnkInject (die link : Nat) (s : State) : Out :=
  .next (if linkPeer die link == none then s else s.modLink die link fun l => { l with inject := true })

/-- DLOG_BASE_WRITE (19 R413): the count of records starts again. -/
def execDlogBaseWrite (die : Nat) (val : Word) (s : State) : Out :=
  .next (s.modDie die fun d => { d with dlogBase := val, dlogIdx := 0 })

/-- PCT_DISABLE_SPILL (19 R421). -/
def execPctDisableSpill (part : Nat) (s : State) : Out :=
  .next (each (setClusters s.mode (part / 4)) (fun k s => s.pctSpillWhere k fun _ => true) s)

/-- RPL_CTL_WRITE (19 R413, R423): the mode is set, the divergence bit cleared, every unit starts its log again, and what was
held is let go. A recording begins without overflows; a replay keeps those of its recording. -/
def execRplCtlWrite (part : Nat) (val : Word) (s : State) : Out :=
  let held := (s.part part).rplHeld.map fun x => x.2.2.2.2
  let s := s.modPart part fun p =>
    { p with rplCtl := val, rplDiv := false, rplLog := [], rplDone := [], rplFree := [], rplHeld := [], rplStuck := []
             rplOvf := if bits val.toNat 0 2 = 1 then [] else p.rplOvf }
  .next { s with inbox := held ++ s.inbox }

/-- PWR_CAP_WRITE (20 R431): it takes effect with the die's next change of operating point. -/
def execPwrCapWrite (die : Nat) (val : Word) (s : State) : Out :=
  .next (if sysInRange 0x72 val then s.modDie die fun d => { d with pwrCap := val &&& 0x3FF } else s)

/-! ### Context instructions (13 R317 to R329) -/

/-- The line that a `ctx` instruction names: a value out of line raises ALIGN, one outside the window PAGE_PERMISSION, and a target of
PRIV M is for M alone (R307, R319). -/
def withLine (v : Word) (s : State) (k : Nat → State → Out) : Out :=
  if v.toNat % 128 != 0 then s.fault 5 v
  else if regionAt v.toNat != .context then s.fault 7 v
  else match s.look s.hereCore s.here.ctx v.toNat .line with
    | .ok id s => if (s.ctx id).priv == 3 && s.th.priv != 3 then s.fault 3 s.ienc else k id s
    | .fault c s => s.fault c v
    | .wait s => s.idle 0

/-- Sends a `ctx` instruction to the home of its line, which forwards it to the unit that holds the line (14 R333); W[d] is filled with
the answer. -/
def State.sendCtxOp (s : State) (op : CtxOp) (id : Nat) (d : Reg) : State :=
  let th := s.th.emptyW d
  let e : Ev := .errand (.line op id s.fresh s.th.priv.toNat s.here.ctx d.toNat (th.etag d.toNat) .memory)
  (({ s with th := th }.retire 4).sendNamed s.hereDie (s.ctxHome id) 2 (lineBytes e) (.messageReturn id e))

/-- A `ctx` instruction. -/
def ctxOp (srcs : List (Nat × Bool)) (ok : Bool) (a d : Reg) (s : State) (op : State → CtxOp) : Out :=
  issue { ok := ok, priv := 1, srcs := srcs, long := [d.toNat], use := .both, dst := [d.toNat] } s fun s =>
    withLine (s.th.wv a) s fun id s => .next (s.sendCtxOp (op s) id d)

/-- The line holds no context that the instruction could act on: it is free, or of kind 11 or 12 (13 R325). -/
def State.noCtx (s : State) (id : Nat) : Bool :=
  (s.ctx id).isFree || (s.ctx id).kind == 11 || (s.ctx id).kind == 12

/-- A halted context (13 R317). -/
def Ctx.halted (c : Ctx) : Bool := c.kind == 8 || c.kind == 9

/-- CTX_LD (13 R322). -/
def execCtxLd (i : BitVec 4) (h : Bool) (a d : Reg) (s : State) : Out :=
  ctxOp [(a.toNat, h)] true a d s fun _ => .ld i.toNat

/-- Writes doubleword `i` of a halted line (13 R317, R324): of sw only the RW fields of 02 Table 2-3 change, and the reserved
bits [4:0] of PFXVAL (06 R147) are ignored (00 R3). An EXTNEED of 3, which Table 2-3 reserves, and a CAUSE beyond the codes of 13
Table 13-3 are kept as 0: a reserved encoding reads as zero (00 R3; DEDUCED, log 99). -/
def Ctx.storeWord (c : Ctx) (i : Nat) (v : Word) : Ctx :=
  if h : i < 8 then c.setW (BitVec.ofNatLT i h) v
  else match i with
    | 8 => { c with pc := v.setWidth 57 &&& ~~~1#57 }
    | 9 => { c with pw := v }
    | 15 =>
      let cause := v.extractLsb' 40 8
      let ext := v.extractLsb' 38 2
      { c with epoch := v.extractLsb' 48 8, cause := if cause.toNat ≤ 0x15 then cause else 0, extneed := if ext = 3 then 0 else ext,
               prio := v.extractLsb' 34 2, priv := v.extractLsb' 32 2, pfxval := v.extractLsb' 13 13 &&& 0x1FE0,
               pfx := v.getLsbD 12, fee := v.extractLsb' 8 4, few := v.extractLsb' 0 8 }
    | i => if i < 10 || 13 < i then c else c.setE (i - 10) v

/-- The status of a `ctx.st` (13 Table 13-4): PRIV may change only to a level below the issuer's (R306). -/
def stStatus (issuer : Nat) (c : Ctx) (i : Nat) (v : Word) : Nat :=
  let p := (v.extractLsb' 32 2).toNat
  if c.isFree || c.kind == 11 || c.kind == 12 then 4
  else if !c.halted then 1
  else if i = 15 && p != c.priv.toNat && (issuer ≤ p || p = 2) then 3
  else 0

/-- CTX_ST (13 R324): the wait tag cannot be written. -/
def execCtxSt (i : BitVec 4) (g : Bool) (b : Reg) (h : Bool) (a d : Reg) (s : State) : Out :=
  ctxOp [(a.toNat, h), (b.toNat, g)] (i != 14) a d s fun s => .st i.toNat (s.th.wv b)

/-- Makes a halted context ready (13 R325): a stopped one returns to the slot kept for it (R329), from wherever its line is; a trap or
a stop held for it comes first, and then the slot is kept no longer. -/
def State.readyHalted (s : State) (id : Nat) : State :=
  let c := s.ctx id
  match c.stopSlot with
  | some p =>
    if c.heldTraps.isEmpty && c.heldStop.isEmpty then
      let s := s.modCtx id fun c => { c with kind := 0, warg := 0, readyAt := s.gtime, level := c.prio.toNat }
      match (s.centry id).holder with
      | .core k => s.returnSlot k id
      | .shadow _ => s
      | _ => s.sendLine id (.core (p / 16))
    else (s.unhold id).resume id
  | none => s.resume id

/-- CTX_READY (13 R325). -/
def execCtxReady (h : Bool) (a d : Reg) (s : State) : Out := ctxOp [(a.toNat, h)] true a d s fun _ => .ready

/-- Moves a context, and the other of a pair with it (17 R396), out of its context L1. -/
def State.evict (s : State) (id : Nat) (toMem : Bool) : State :=
  match (s.centry id).holder with
  | .core k => s.moveLine id (if toMem then .memory else .l2 (clusterOf k))
  | .l2 _ =>
    -- a ready one is posted again from where it arrives (18 R402)
    if toMem then (s.modEntry id fun e => { e with postDue := true }).moveLine id .memory else s
  | _ => s

/-- CTX_EVICT (13 R325). -/
def execCtxEvict (l : Bool) (h : Bool) (a d : Reg) (s : State) : Out := ctxOp [(a.toNat, h)] true a d s fun _ => .evict l

/-- A kind that only `ctx.park.kill` changes (02 Table 2-2). -/
def Ctx.reservedKind (c : Ctx) : Bool := 13 ≤ c.kind.toNat

/-- Holds a park (1) or a stop (2) of a context, unless it is held already. -/
def State.holdStop (s : State) (id how : Nat) : State := s.modCtx id fun c => { c with heldStop := addNew c.heldStop how }

/-- CTX_PARK (13 R325). -/
def execCtxPark (h : Bool) (a d : Reg) (s : State) : Out := ctxOp [(a.toNat, h)] true a d s fun _ => .park

/-- CTX_PARK_KILL (13 R325, 02 R57). -/
def execCtxParkKill (h : Bool) (a d : Reg) (s : State) : Out := ctxOp [(a.toNat, h)] true a d s fun _ => .kill

/-- DSTOP (13 R329). -/
def execDstop (h : Bool) (a d : Reg) (s : State) : Out := ctxOp [(a.toNat, h)] true a d s fun _ => .stop

/-- What a `ctx` instruction that reaches a line answers (13 Table 13-4; R322, R324, R325, R329): the value of W[d]. -/
def State.ctxAnswer (s : State) (op : CtxOp) (id priv : Nat) : Word :=
  let c := s.ctx id
  let some_ (n : Nat) : Word := if s.noCtx id then 4 else BitVec.ofNat 64 n
  match op with
  | .ld i => c.word i
  | .st i v => BitVec.ofNat 64 (stStatus priv c i v)
  | .ready => some_ (if c.halted then 0 else 1)
  | .evict _ => some_ (if s.pinned id || c.handler != 0 then 1 else 0)
  | .park => some_ (if c.halted || c.reservedKind then 1 else if c.byReply then 2 else 0)
  | .kill => some_ 0
  | .stop => some_ (if c.kind == 9 then 0 else if c.reservedKind then 1 else if c.kind == 8 || c.byReply then 2 else 0)

/-- What it does to the line, where its answer is 0 or 2. -/
def State.ctxDo (s : State) (op : CtxOp) (id : Nat) (answer : Word) : State :=
  match op with
  | .ld _ => s
  | .st i v => if answer = 0 then s.modCtx id fun c => c.storeWord i v else s
  | .ready => if answer = 0 then s.readyHalted id else s
  | .evict l => if answer = 0 then s.evict id l else s
  | .park => if answer = 0 then s.stopNow id 1 else if answer = 2 then s.holdStop id 1 else s
  | .kill => if answer = 0 then s.endCtx id .killed 0 else s
  | .stop => if answer = 0 then (if (s.ctx id).kind == 9 then s else s.stopNow id 2) else if answer = 2 then s.holdStop id 2 else s

/-- A `ctx` instruction may take effect on a line now: the context has no command on its way (09 R232); a write of an extension register
waits for its fill (13 R317); a context leaves its core once its stores have performed (05 R110), and a pair is stopped, parked or moved
once its trailing context has caught up (17 R396). -/
def State.ctxMay (s : State) (op : CtxOp) (id priv : Nat) : Bool :=
  !s.commanding id && match op with
    | .st i v => !(stStatus priv (s.ctx id) i v == 0 && 10 ≤ i && i ≤ 13 && (s.ctx id).epend.getLsbD (i - 10))
    | .evict _ => s.ctxAnswer op id priv != 0 ||
        (s.unitDrained id && s.caughtUp id && !(s.unit id).any fun x => (s.centry x).transfer != none)
    | .park => s.ctxAnswer op id priv != 0 || s.pairStands id
    | .stop => s.ctxAnswer op id priv != 0 || s.pairStands id
    | _ => true

/-! ### Translation, banks and slots -/

/-- What a `tlbi` names (13 R326): a run of base pages of a half, the lower half, or all. -/
structure Names where
  part : Nat
  kind : Nat
  hi : Bool
  page : Nat
  count : Nat

/-- A translation of `n` base pages from `page` on is named. -/
def Names.hit (x : Names) (part : Nat) (hi : Bool) (page n : Nat) : Bool :=
  part == x.part &&
    match x.kind with
    | 2 => !hi
    | 3 => true
    | _ => hi == x.hi && page < x.page + x.count && x.page < page + n

/-- A leaf is named. -/
def Names.leaf (x : Names) (e : TlbEntry) : Bool := x.hit e.part e.hi e.page (pagePatches e.level)

/-- Removes what is named from a die's walk pool, whose queued misses then begin, and from the TLBs of some of its clusters and cores. -/
def State.invalidate (s : State) (x : Names) (die : Nat) (cluster core : Nat → Bool) : State :=
  let walk (w : Walk) : Bool := x.hit w.part w.hi w.page 1
  let coreOf (k : Nat) (c : Core) : Core :=
    if dieOf k == die && core k then { c with tlb := c.tlb.filter fun e => !x.leaf e } else c
  let clusterOf (k : Nat) (c : Cluster) : Cluster :=
    if k / 64 == die && cluster k then
      { c with tlb := c.tlb.filter fun e => !x.leaf e, xlat := c.xlat.filter fun a => a.2.2.any fun e => !x.leaf e }
    else c
  let s := { s with cores := mapVals s.cores coreOf, clusters := mapVals s.clusters clusterOf }
  let s := s.modDie die fun d =>
    { d with walkCache := d.walkCache.filter fun e => !x.hit e.part e.hi e.page (pagePatches e.level)
             walks := d.walks.filter fun w => !walk w
             walkQ := d.walkQ.filter fun w => !walk w
             walkHeld := d.walkHeld.filter fun w => !walk w }
  s.startQueued die

/-- TLBI (13 R326): a release at its scope, then the removal; the other dies of a wider instance are told by messages, and the slot
idles until each has acknowledged. Of a core's or a cluster's scope the cluster's TLB and the die's walk pool lose the named entries
too, so that the next access translates afresh. -/
def execTlbi (k : BitVec 2) (sc : BitVec 3) (g : Bool) (b : Reg) (h : Bool) (a : Reg) (s : State) : Out :=
  issue { ok := sc != 0 && sc.toNat < 6, priv := 1, srcs := [(a.toNat, h), (b.toNat, g)], use := .visible } s fun s =>
    let va := (s.th.wv a).toNat
    let n := (s.th.wv b).toNat
    if k == 1 && (n = 0 || 1048576 < n) then s.fault 1 (s.th.wv b)
    else
      let x : Names := ⟨s.th.part, k.toNat, bitAt va 56, va % 2 ^ 56 / 12288, if k == 1 then n else 1⟩
      let here := s.hereCore
      let others := if sc.toNat < 4 then [] else (setDies s.mode (s.th.part / 4)).filter fun d => d != s.hereDie && !s.cutOff s.hereDie d
      let cl (k : Nat) : Bool := 2 < sc.toNat || k == clusterOf here
      let co (k : Nat) : Bool := match sc.toNat with
        | 1 => k == here
        | 2 => clusterOf k == clusterOf here
        | _ => true
      let ask (s : State) : Out := asking others.length (fun id s =>
        each others (fun d s => s.send s.hereDie d 1 32 false none
          (.errand (.invalidate d x.part x.kind x.hi x.page x.count s.here.ctx id))) (s.invalidate x s.hereDie cl co)) s
        fun _ s => .next ((if others.isEmpty then s.invalidate x s.hereDie cl co else s).retire 4)
      if s.th.quest == none then afterRelease sc.toNat s ask else ask s

/-- A mode's code (13 R327). -/
def bankModeOf (n : Nat) : BankMode :=
  match n with | 0 => .cache | 1 => .scratch | 2 => .fifo | _ => .context

/-- The modes in which a bank works or will work once the change under way on it is made; that of a bank about to change is given. -/
def Cluster.modesOf (k : Cluster) (bank : Nat) (mode : BankMode) (b : Nat) : List BankMode :=
  if b = bank then [mode]
  else nth k.modes b .cache :: ((k.drains.find? fun d => d.bank == b).map (·.mode)).toList

/-- What a change of a bank answers at once (13 R327, 15 R369), or none where the bank must first drain: 1 for a bank of
another partition's share or a change that 04 R95 forbids, 2 for a bank of a live block's allotment. R95 holds whichever of the changes
under way on other banks is made first. -/
def State.judgeBank (s : State) (cluster bank part : Nat) (mode : BankMode) : Option Nat :=
  let k := s.cluster cluster
  let count (p : List BankMode → Bool) : Nat := ((List.range 16).filter fun b => p (k.modesOf bank mode b)).length
  let own := nth k.owner bank none
  if own != none && own != some (part % 4) then some 1
  else if nth k.modes bank .cache == mode then some 0
  else if count (fun l => l.all (· == .context)) < 2 || 14 < count (fun l => l.contains .scratch) then some 1
  else if s.blocks.any fun x => x.2.cluster == cluster && x.2.banks.contains bank then some 2
  else none

/-- A bank begins to drain (15 R369, steps 1 and 3): a CONTEXT bank sends its lines back to memory. -/
def State.beginDrain (s : State) (cluster bank : Nat) : State :=
  let k := s.cluster cluster
  let lines := if nth k.modes bank .cache = .context then (k.l2bank.filter fun x => x.2 == bank).map (·.1) else []
  (each lines (fun x s => s.sendLine x .memory) s).post (.bankDrainDone cluster bank)

/-- A change of a bank reaches its cluster (13 R327): it is answered, or begins, or waits for an earlier change of the bank. -/
def State.bankAsked (s : State) (cluster bank : Nat) (d : Drain) : State :=
  let busy := (s.cluster cluster).drains.any fun q => q.bank == bank
  match (if busy then none else s.judgeBank cluster bank d.part d.mode) with
  | some st => s.tell (cluster / 64) d.ctx 2 32 fun h => .registerFill d.ctx d.reg d.tag (BitVec.ofNat 64 st) false 0 h 0
  | none =>
    let s := s.modCluster cluster fun k => { k with drains := k.drains ++ [d] }
    if busy then s else s.beginDrain cluster bank

/-- BMODE (13 R327): the change travels to its cluster; W[d] is filled when the bank works in its new mode. -/
def execBmode (g : Bool) (b : Reg) (h : Bool) (a d : Reg) (s : State) : Out :=
  issue { priv := 1, srcs := [(a.toNat, h), (b.toNat, g)], long := [d.toNat], use := .both, dst := [d.toNat] } s fun s =>
    let x := (s.th.wv a).toNat
    let y := (s.th.wv b).toNat
    let die := bits x 6 3
    let cluster := 64 * die + bits x 0 6
    if 2 ^ 13 ≤ x then s.fault 1 (s.th.wv a)
    else if 4 ≤ y then s.fault 1 (s.th.wv b)
    else if s.outside s.th.part die then s.fault 8 (s.th.wv a)
    else
      let th := s.th.emptyW d
      let s := { s with th := th }.retire 4
      .next (s.send s.hereDie die 1 32 false none
        (.errand (.bank cluster (bits x 9 4) y s.here.ctx d.toNat (th.etag d.toNat) s.hereCore s.th.part)))

/-- A slot is no longer parked: a trap held for its context is taken (13 R328), unless it waits for a reply or for `ctx.ready`
(R314). -/
def State.freed (s : State) (core slot : Nat) : State :=
  match (s.slotAt core slot).ctx with
  | some id =>
    let c := s.ctx id
    if c.heldTraps.isEmpty || c.halted || c.byReply || s.trapBarred core id || s.commanding id || !s.caughtUp id then s.dispatch core
    else s.takeHeld core id
  | none => s.dispatch core

/-- A slot is parked, or issues again. -/
def State.setParked (s : State) (core slot : Nat) (park : Bool) : State :=
  let s := s.modCore core fun c => c.modSlot slot fun q => { q with parked := park }
  if park then s else s.freed core slot

/-- A core and slot in W[a] (13 R328): one of another die is told by a message, and the instruction idles until it acknowledges. -/
def slotOp (park : Bool) (h : Bool) (a : Reg) (s : State) : Out :=
  issue { priv := 1, srcs := [(a.toNat, h)], use := .visible } s fun s =>
    let x := (s.th.wv a).toNat
    let core := bits x 0 13
    let slot := bits x 16 4
    let die := dieOf core
    if 2 ^ 20 ≤ x || bits x 13 3 != 0 then s.fault 1 (s.th.wv a)
    else if s.outside s.th.part die then s.fault 8 (s.th.wv a)
    else if die = s.hereDie then .next ((s.retire 4).setParked core slot park)
    else asking (if s.cutOff s.hereDie die then 0 else 1) (fun id s =>
      s.send s.hereDie die 1 16 false none (.errand (.slot core slot park s.here.ctx id))) s fun _ s => .next (s.retire 4)

/-- SLOT_PARK (13 R328). -/
def execSlotPark (h : Bool) (a : Reg) (s : State) : Out := slotOp true h a s

/-- SLOT_FREE (13 R328). -/
def execSlotFree (h : Bool) (a : Reg) (s : State) : Out := slotOp false h a s

/-- HALT (13 R330): once every store of the thread is visible, no slot of the core issues again. -/
def execHalt (s : State) : Out :=
  issue { priv := 3, use := .visible } s fun s =>
    if s.drained s.here.ctx then .next ((s.modCore s.hereCore fun c => { c with halted := true }).retire 4)
    else s.idle 0

end Sys2Proof.Machine
end

