-- ==== Sys2Proof/Machine/Sched.lean ====
section
/-! DEFINITION. Context movement and scheduling (02 R44, R45; 14 R336 to R349), page walks (15 R358), region migration
(R365 to R367) and bank-mode changes (R369), as steps that fall due. -/

namespace Sys2Proof.Machine

open Sys2Proof

/-! ### The Carousel (14 R336 to R338, R345) -/

/-- Ticks in a millisecond. -/
def ms : Nat := 1000 * us

/-- A pre-emption has reached a die and is still to be carried out there: its partition's clocks have stopped (14 R345, 20 R433). -/
def State.stopping (s : State) (die : Nat) : Bool :=
  !(s.die die).preempted && s.inbox.any fun e => match e with | .preemptRequest d _ => d == die | _ => false

/-- A core whose slots issue: released from reset, not halted, its partition not pre-empted on the die. -/
def State.issuing (s : State) (core : Nat) : Bool :=
  let d := s.die (dieOf core)
  d.on && !d.preempted && !(s.core core).halted && (s.set (setOf s.mode (dieOf core))).active != none

/-- The unit in a slot, by its leading context, that the Carousel may take out at this boundary: not PINNED, not parked with a
slot, and at rest (02 R44, R45; 17 R396). -/
def State.movable (s : State) (core slot : Nat) : Option Nat :=
  let parked (x : Nat) : Bool := match (s.core core).slotOf x with
    | some k => (s.slotAt core k).parked
    | none => false
  match (s.slotAt core slot).ctx with
  | some id => if s.lead id == id && (s.ctx id).pin == none && s.issuing core && !(s.unit id).any parked && s.atRest id then some id else none
  | none => none

/-- Gives the slots of a unit to another from slot `k` on; it waits with its tag, or joins the tail of its queue (02 R44, R45). -/
def State.swapIn (s : State) (core id k new : Nat) : State := ((s.vacate core id false).seat core k new).dispatch core

/-- A handler serves in the slot of a PINNED context that waits for it to end its service (02 R50). -/
def State.inPinned (s : State) (core slot id : Nat) : Bool :=
  (s.ctx id).handler != 0 && (s.core core).waiting.any fun x => (s.ctx x).pin == some (16 * core + slot)

/-- The unit in a slot that has not issued for 8 rotations, and the ready one that follows it with its first slot (02 R44). A handler
that has displaced a PINNED context keeps the slot (R50). -/
def State.idleNext (s : State) (core slot : Nat) : Option (Nat × Nat × Nat) :=
  (s.movable core slot).bind fun id =>
    if !s.inPinned core slot id && (s.unit id).all fun x => (s.ctx x).lastIssue + 128 ≤ (s.die (dieOf core)).cyc then
      (s.successor core slot (s.unit id).contains (s.core core).waiting).map fun x => (id, x)
    else none

/-- A slot of a core whose bank has been rewritten (17 R395). -/
def State.blankOver (s : State) (core : Nat) (x : Slot) : Bool := x.blank.any (· ≤ (s.die (dieOf core)).cyc)
/-- The core's slots whose banks have been rewritten issue again. -/
def State.rewritten (s : State) (core : Nat) : State :=
  if (s.core core).slots.any (s.blankOver core) then
    s.modCore core fun c => { c with slots := c.slots.map fun x => if s.blankOver core x then { x with blank := none } else x }
  else s

/-- IDLE_CONTEXT_REPLACE (02 R44); where no context is idle, a displacement that waited for its boundary takes place (02 R45, R50;
09 R232; 17 R396). -/
def execIdleContextReplace (core slot : Nat) (s : State) : Out :=
  let s := s.rewritten core
  match s.idleNext core slot with
  | some (id, new, k) => .next (s.swapIn core id k new)
  | none => .next (s.dispatch core)

/-- The unit in a slot whose quantum of 64 us has ended, and the first ready one of its priority that can take its slot (02 R45).
No PINNED context waits for another's slot (R50). A handler, which stands above every priority level (13 R312), is not rotated out:
R45 does not say (DESIGN CHOICE, log 79). -/
def State.quantumNext (s : State) (core slot : Nat) : Option (Nat × Nat × Nat) :=
  (s.movable core slot).bind fun id =>
    let c := s.ctx id
    if c.handler == 0 && !s.stopping (dieOf core) && (s.unit id).all fun x => (s.ctx x).runAt + 64 * us ≤ s.gtime then
      let waiting : List Nat := nth (s.core core).ready c.level []
      (s.successor core slot (s.unit id).contains (waiting.filter fun x => (s.ctx x).pin == none)).map fun x => (id, x)
    else none

/-- QUANTUM_EXPIRY (02 R45). -/
def execQuantumExpiry (core slot : Nat) (s : State) : Out :=
  match s.quantumNext core slot with
  | some (id, new, k) => .next (s.swapIn core id k new)
  | none => .next s

/-- A context that has waited ready for 1 ms at its level (02 R45, 14 R345). -/
def Ctx.aged (c : Ctx) (now : Nat) : Bool :=
  c.kind == 0 && 0 < c.level && c.readyAt + ms * (c.prio.toNat - c.level + 1) ≤ now

/-- AGING_PROMOTION (14 R345): one level up, to the tail of the higher queue of its core, or of its ring. -/
def execAgingPromotion (ctx : Nat) (s : State) : Out :=
  let c := s.ctx ctx
  if !c.aged s.gtime then .next s
  else
    let s := s.modCtx ctx fun c => { c with level := c.level - 1 }
    match (s.centry ctx).holder with
    | .core k =>
      if (s.core k).ready.any (·.contains ctx) then .next ((s.modCore k fun x => x.enq (c.level - 1) ctx).dispatch k) else .next s
    | _ =>
      .next (s.modCluster (s.centry ctx).affinity fun k =>
        let r := getD k.rings c.part []
        match r.find? fun e => e.ctx == ctx with
        | some e => { k with rings := put k.rings c.part (r.erase e ++ [{ e with prio := c.level - 1 }]) }
        | none => k)

/-- Lines of a core's context L1 that are not reserved for its handlers, with those its claims will bring (14 Table 14-1). -/
def State.l1Lines (s : State) (core : Nat) : Nat :=
  s.l1Used core + ((s.core core).claims.flatMap fun id => (s.unit id).filter fun x => !(s.core core).resident.contains x).length

/-- Makes a core's context L1 ready for some more lines: a full one gives up victims whose stores have performed (14 R338). -/
def State.makeRoom (s : State) (core n : Nat) : Nat → Option State
  | 0 => if s.l1Lines core + n ≤ 254 then some s else none
  | f + 1 =>
    if s.l1Lines core + n ≤ 254 then some s
    else match s.victim core with
      | some v => if s.unitDrained v then (s.sendUnit v (.l2 (clusterOf core))).makeRoom core n f else none
      | none => none

/-- A core may run a unit of a pair: not a SUSPECT one (17 R396), nor that on which its block mismatched (R398). -/
def State.runsPair (s : State) (core id : Nat) : Bool :=
  !s.suspect core && match get? s.blocks (s.ctx id).blk with
    | some b => match get? s.launches b.launch with
      | some l => get? l.avoid b.index != some core
      | none => true
    | none => true

/-- A core may take a ring entry (02 R56; 17 R396, R398); one that it has claimed it does not claim again. -/
def State.mayTake (s : State) (core : Nat) (e : RingEntry) : Bool :=
  (isWide core || e.extneed == 0) && ((s.mate e.ctx).isNone || s.runsPair core e.ctx) && !(s.core core).claims.contains e.ctx &&
    !((s.core core).copy.any fun x => x.ctx == e.ctx)

/-- The first entry, in priority order and oldest first, of a list of ring entries that a core may take (14 R337). -/
def takeable (may : RingEntry → Bool) (r : List RingEntry) : Option RingEntry :=
  (List.range 4).findSome? fun p => r.find? fun e => e.prio == p && may e

/-- The ring entry that a core may take from its cluster's ring for the active partition. -/
def State.ringEntry (s : State) (core : Nat) : Option RingEntry :=
  takeable (s.mayTake core) (getD (s.cluster (clusterOf core)).rings (s.dieActive (dieOf core)) [])

/-- The ring entry that a Carousel which is short of work claims, with the state in which its context L1 has room (14 R337): the one
that it has copied, or the next of the ring. -/
def State.claimable (s : State) (core : Nat) : Option (RingEntry × State) :=
  let c := s.core core
  if s.issuing core && c.ready.flatten.length < 2 && c.claims.length < 4 then
    (c.copy.or (s.ringEntry core)).bind fun e => (s.makeRoom core (s.unit e.ctx).length 2).map fun s => (e, s)
  else none

/-- The ring entry that a Carousel which is short of work copies while it has four claims outstanding (18 R401). -/
def State.copyable (s : State) (core : Nat) : Option RingEntry :=
  let c := s.core core
  if s.issuing core && c.ready.flatten.length < 2 && 4 ≤ c.claims.length && c.copy == none then s.ringEntry core else none

/-- CAROUSEL_RING_CLAIM (14 R337, R338; 18 R401): an entry is copied, and its line is claimed; a full context L1 gives up a victim. The
entry stays on its ring until the home answers. -/
def execCarouselRingClaim (core : Nat) (s : State) : Out :=
  match s.claimable core with
  | none => .next (match s.copyable core with
    | some e => s.modCore core fun c => { c with copy := some e }
    | none => s)
  | some (e, s) =>
    let s := s.modCore core fun c => { c with claims := c.claims ++ [e.ctx], copied := c.copied ++ [e], copy := none }
    .next (s.send (dieOf core) (s.ctxHome e.ctx) 2 16 false none (.contextClaim core e.ctx))

/-- A claim is granted (14 R343): the lines of the unit are in memory or a context L2 and not in transfer, and it is ready, or
waits for the extension that the core has, or holds a trap for a core to take (13 R314). No core that lacks the extension of
its EXTNEED takes it (02 R56). -/
def State.grantable (s : State) (core id : Nat) : Bool :=
  let us := s.unit id
  let here (x : Nat) : Bool :=
    let e := s.centry x
    e.transfer == none && (match e.holder with | .memory => true | .l2 _ => true | _ => false) && !(s.ctx x).isFree &&
      ((s.ctx x).extneed == 0 || isWide core)
  let fit (x : Nat) : Bool := (s.ctx x).kind == 0 || ((s.ctx x).kind == 10 && isWide core)
  us.all here && (us.all fit || (us.any s.trapDue && us.all fun x => (s.ctx x).kind.toNat < 8))

/-- A lasting error in a context's registers or line removes it (17 R395); its slot is parked for 64 cycles. In a handler it is a machine
check (13 R311), and in one of a pair a mismatch (R398). The die of a context that has never run is given as 0: R395 names the die on
which it ran (DESIGN CHOICE, log 106). -/
def State.loseContext (s : State) (id : Nat) : State :=
  let c := s.ctx id
  let ran := c.lastCore.getD 0
  let s := match (s.core ran).slotOf id with
    | some i => s.modCore ran fun k => k.modSlot i fun x => { x with blank := some ((s.die (dieOf ran)).cyc + 64) }
    | none => s
  if c.handler != 0 then (s.parkTrapped ran id c.cause.toNat 0 c.pc).machineCheck ran 0 0 c.cva
  else
    let s := match (s.centry id).holder with
      | .core k => s.logError (dieOf k) 0 (dieOf k) (siteOf k) (if (s.core k).slotOf id == none then 5 else 6) 5 c.cva
      | .l2 k => s.logError (k / 64) 0 (k / 64) (k % 64 * 16) 2 5 c.cva
      | .shadow d => s.logError d 0 d 0 0 5 c.cva
      | .memory => s.logError ((setDies s.mode (c.part / 4)).headD 0) (s.hbmUnit id) (s.ctxHome id) 0 0 5 c.cva
    match c.peer with
    | some p => if c.pair == 1 then s.mismatch id p 5 else s.mismatch p id 5
    | none => s.endCtx id .lost (dieOf ran)

/-- The home answers a core's claim: the entry from whose copy it was made leaves its ring, wherever Ringmaster has moved it (18
R401); one that was promoted meanwhile is the same entry. -/
def State.answerClaim (s : State) (core ctx : Nat) : State :=
  let mine := (s.core core).copied.filter fun e => e.ctx == ctx
  let same (x : RingEntry) : Bool := mine.any fun e => x.ctx == e.ctx && x.extneed == e.extneed && x.at_ == e.at_
  let s := s.modCore core fun c => { c with copied := c.copied.filter fun e => e.ctx != ctx }
  if mine.isEmpty then s
  else { s with clusters := mapVals s.clusters fun _ k => { k with rings := mapVals k.rings fun _ r => r.filter fun x => !same x } }

/-- CONTEXT_CLAIM (14 R343): granted, or refused with a NACK, which names a line that does not come. The claim of a line with a
lasting error ends its context (17 R395). -/
def execContextClaim (core ctx : Nat) (s : State) : Out :=
  let s := s.answerClaim core ctx
  let refused (s : State) : State := s.send (s.ctxHome ctx) (dieOf core) 2 16 false none (.contextLineArrival ctx (.core core))
  if s.grantable core ctx then
    match (s.unit ctx).find? fun x => (s.centry x).spoiled with
    | some x => .next (refused ((s.modEntry x fun e => { e with spoiled := false }).loseContext x))
    | none => .next (each (s.unit ctx) (fun x s => s.giveLine x (.core core)) s)
  else .next ((refused s).countCluster (clusterOf core) 40 1)

/-! ### Ready rings (14 R340 to R344) -/

/-- RING_POST (14 R341): the affinity cluster's ring takes the entry, or refuses it. -/
def execRingPost (ctx : Nat) (s : State) : Out :=
  let c := s.ctx ctx
  match (s.centry ctx).holder with
  | .l2 _ => .next (s.ring ctx)
  | .memory => .next (if c.isFree || c.kind == 11 || c.kind == 12 then s else s.ring ctx)
  | _ => .next s

/-- RING_POST_RETRY (14 R342): every microsecond the home repeats a refused post. -/
def execRingPostRetry (ctx : Nat) (s : State) : Out :=
  if !(s.centry ctx).postPending then .next s
  else
    let s := s.modEntry ctx fun e => { e with postPending := false }
    let h := s.ctxHome ctx
    .next (s.send h ((s.centry ctx).affinity / 64) 2 16 false none (.ringPost ctx))

/-- Some core of a cluster holds a ready context of a partition, or the cluster's ring for it has entries (14 R344). -/
def State.clusterBusy (s : State) (cluster part : Nat) : Bool :=
  !(getD (s.cluster cluster).rings part []).isEmpty ||
    (coresOf cluster).any fun c => (s.core c).resident.any fun id => (s.ctx id).part == part && (s.ctx id).kind == 0

/-- The longest ring of a partition on a die, if it has an entry (14 R344); the lowest cluster among equals. -/
def State.longest (s : State) (die part : Nat) : Option Nat :=
  (List.range 64).foldl (fun best i =>
    let n := (getD (s.cluster (64 * die + i)).rings part []).length
    match best with
    | some b => if (getD (s.cluster b).rings part []).length < n then some (64 * die + i) else best
    | none => if n = 0 then none else some (64 * die + i)) none

/-- A cluster has been idle for 20 us and some ring of its partition has an entry (14 R344). -/
def State.stealDue (s : State) (cluster part : Nat) : Option Nat :=
  let die := cluster / 64
  if s.active part die && !s.clusterBusy cluster part && getD (s.cluster cluster).idleSince part 0 + 20 * us ≤ s.gtime then
    match s.longest die part with
    | some k => some k
    | none => ((setDies s.mode (part / 4)).filter (· != die)).findSome? fun d => s.longest d part
  else none

/-- Up to `n` entries, highest priority first and oldest first within one. -/
def bestEntries (r : List RingEntry) (n : Nat) : List RingEntry :=
  (((List.range 4).map fun p => r.filter fun e => e.prio == p).flatten).take n

/-- RINGMASTER_STEAL (14 R344): up to 16 entries move, with their priority and age, and the contexts' affinity with them. -/
def execRingmasterSteal (cluster part : Nat) (s : State) : Out :=
  match s.stealDue cluster part with
  | none => .next s
  | some k =>
    let out := bestEntries (getD (s.cluster k).rings part []) 16
    let s := s.modCluster k fun x => { x with rings := put x.rings part ((getD x.rings part []).filter fun e => !out.contains e) }
    let s := s.modCluster cluster fun x => { x with rings := put x.rings part (getD x.rings part [] ++ out) }
    .next (each out (fun e s => s.modEntry e.ctx fun x => { x with affinity := cluster }) s)

/-! ### Pre-emption and swaps (14 R345 to R349) -/

/-- Cores of a die that were ever changed; the others hold nothing. -/
def State.usedCores (s : State) (die : Nat) : List Nat := (s.cores.map (·.1)).filter fun c => dieOf c == die
/-- Clusters of a die that were ever changed. -/
def State.usedClusters (s : State) (die : Nat) : List Nat := (s.clusters.map (·.1)).filter fun k => k / 64 == die

/-- Every running context of a core goes back to its queue, at the head in slot order, and stays in the context L1 with its wait
tag as it stands; parked slots keep theirs (14 R346, R347). A held trap, or else a stop, takes effect first (13 R316, steps 4 to
6). -/
def State.emptySlots (s : State) (core : Nat) : State :=
  let s := each (List.range 16) (fun k s =>
    match (s.slotAt core k).ctx with
    | some id =>
      let c := s.ctx id
      if (s.slotAt core k).parked || c.kind != 0 then s
      else if !c.heldTraps.isEmpty && !s.trapBarred core id then s.takeHeld core id
      else match c.heldStop with
        | how :: _ => s.stopNow id how
        | [] => s
    | none => s) s
  let s := s.modCore core fun c => { c with preSlots := c.slots.map (·.ctx) }
  each (List.range 16).reverse (fun k s =>
    match (s.slotAt core k).ctx with
    | some id =>
      if (s.slotAt core k).parked then s
      else
        let s := s.modCore core fun c => c.leave id
        if s.lead id == id then s.requeue core id true else s
    | none => s) s


/-- A die carries out a pre-emption once no context of it waits for a Juggler's answer (13 R316, step 6), and its pairs stand. -/
def State.quietSlots (s : State) (die : Nat) : Bool :=
  (s.usedCores die).all fun c => (s.core c).slots.all fun x => match x.ctx with
    | some id => !s.commanding id && (x.parked || s.pairStands id)
    | none => true

/-- The controller writes the result of a served command at RES, a physical address, with a release at system scope (20
R432). -/
def State.mailResult (s : State) (res : Word) (status value : Nat) : State :=
  s.homeWrite 0 res.toNat (status % 256 + 256 * value) 8

/-- The die on which the clocks of a context's waiting run (14 R345): that of the core or the image which holds it, else that
of its ring. -/
def State.clockDie (s : State) (id : Nat) : Nat :=
  match (s.centry id).holder with
  | .core k => dieOf k
  | .shadow d => d
  | _ => (s.centry id).affinity / 64

/-- A clock that was started at an instant and stopped at another goes on now; one started during the stop starts now (14 R345). -/
def resumed (now stop start : Nat) : Nat := start + (now - max stop start)

/-- The clocks of a partition on a pre-empted die go on (14 R345): waiting, quanta, the ages of ring entries, and barrier phases. -/
def State.restartClocks (s : State) (die part : Nat) : State :=
  let at_ (t : Nat) : Nat := resumed s.gtime (s.die die).preAt t
  if !(s.die die).preempted then s
  else
    let ids := (s.ctxs.map (·.1)).filter fun id => (s.ctx id).part == part && s.clockDie id == die
    let s := each ids (fun id s => s.modCtx id fun c => { c with readyAt := at_ c.readyAt, runAt := at_ c.runAt }) s
    let entry (e : RingEntry) : RingEntry := { e with at_ := at_ e.at_ }
    let s := each (s.usedCores die) (fun k s =>
      s.modCore k fun c => { c with bars := c.bars.map fun b => { b with firstAt := b.firstAt.map at_ }
                                    copied := c.copied.map entry, copy := c.copy.map entry }) s
    each (s.usedClusters die) (fun k s =>
      let r := getD (s.cluster k).rings part []
      if r.isEmpty then s
      else s.modCluster k fun x => { x with rings := put x.rings part (r.map entry) }) s

/-- A context returns to the slot that it held, with what is left of its quantum (14 R345, R347, R348). -/
def State.reseat (s : State) (core slot id : Nat) : State :=
  let t := (s.ctx id).runAt
  (s.seatOne core slot id).modCtx id fun c => { c with runAt := t }

/-- Contexts return to the slots that they held when their partition was pre-empted, those that wait too, where a test picks
them: the slot is open, and they were neither parked nor ended. -/
def State.reseatAll (s : State) (core : Nat) (p : Ctx → Bool) : State :=
  each (List.range 16) (fun k s =>
    match nth (s.core core).preSlots k none with
    | some id =>
      if p (s.ctx id) && (s.ctx id).kind.toNat < 8 && (s.slotAt core k).isOpen && (s.core core).resident.contains id &&
          (s.core core).slotOf id == none then s.reseat core k id
      else s
    | none => s) s

/-- Stopped contexts that were made ready meanwhile return to the slots kept for them (13 R329). -/
def State.returnHeld (s : State) (core : Nat) : State :=
  each ((s.core core).slots.filterMap (·.heldFor)) (fun id s =>
    if (s.ctx id).kind == 0 && (s.centry id).holder == .core core && (s.centry id).transfer == none then s.returnSlot core id else s) s

/-- A core's slots are filled again (14 R347): each PINNED context returns to its own, then the ready queues fill the others, and
what held a slot before goes on with its quantum (R345). -/
def State.refill (s : State) (core : Nat) : State :=
  let was := (s.core core).preSlots.filterMap id
  let left := was.map fun id => (id, (s.ctx id).runAt)
  let s := (s.reseatAll core fun c => c.pin != none).dispatch core
  let s := each left (fun (id, t) s => if (s.core core).slotOf id == none then s else s.modCtx id fun c => { c with runAt := t }) s
  let s := s.returnHeld core
  s.modCore core fun c => { c with preSlots := [] }

/-- Starts the service of a core's M handler with cause 0 (13 R310). -/
def State.startService (s : State) (core : Nat) : State :=
  match (s.core core).hctxM with
  | some h => s.deliver core 3 h 0 0 ((get? s.flash 2).elim 0 (·.bootArg)) 0
  | none => s

/-- The partition of a set goes on issuing on every die (14 R345, R347, R348): its clocks go on, its slots are filled again, its
engines work again, and handlers whose first service is due begin it (20 R432). -/
def State.goOn (s : State) (set : Nat) : State :=
  let dies := setDies s.mode set
  let part := 4 * set + ((s.set set).active.getD 0)
  let s := each dies (fun d s => s.restartClocks d part) s
  let s := each dies (fun d s => s.modDie d fun x => { x with preempted := false }) s
  let cores := (dies.map s.usedCores).flatten
  let clusters := (dies.map s.usedClusters).flatten
  let start := (s.part part).startDue
  let s := s.modPart part fun p => { p with startDue := false }
  let s := each cores (fun c s => s.refill c) s
  let s := if start then each cores (fun c s => s.startService c) s else s
  each clusters (fun k s => s.issueTasks k) s

/-- The controller's request goes to every die of a set, as a class-1 message (20 R433). -/
def State.control (s : State) (set what into : Nat) (res : Option Word) (ev : Nat → Ev) : State :=
  let dies := (setDies s.mode set).filter fun d => !s.diefail.getLsbD d
  let s := s.modSet set fun d => { d with ctl := some { what, into, res, await := dies } }
  each dies (fun d s => s.send 20 d 1 16 false none (ev d)) s

/-- A die has carried out the request under way. After the last, a pre-emption for a swap is followed by the swap, a swap
takes effect for the whole set, and the command's result is written (20 R432, R433). -/
def State.carriedOut (s : State) (set die : Nat) : State :=
  match (s.set set).ctl with
  | none => s
  | some c =>
    let left := c.await.filter (· != die)
    if !left.isEmpty then s.modSet set fun d => { d with ctl := some { c with await := left } }
    else
      let done (s : State) : State :=
        let s := s.modSet set fun d => { d with ctl := none }
        match c.res with
        | some r => s.mailResult r 0 0
        | none => s
      match c.what with
      | 0 => done (s.modSet set fun d => { d with halted := true })
      | 1 => s.control set 2 c.into c.res fun d => .partitionSwap d ((s.set set).active.elim 32 fun i => 4 * set + i) (4 * set + c.into)
      | 2 => done ((s.modSet set fun d => { d with active := some c.into, halted := false, sliceAt := s.gtime }).goOn set)
      | _ => done ((s.modSet set fun d => { d with halted := false }).goOn set)

/-- PREEMPT_REQUEST (14 R346): every slot of the partition halts, and so do its engines and streamers, whose next fragments
and parts are not started while the die is pre-empted. Its clocks have stopped when the request arrived (R345). -/
def execPreemptRequest (die part : Nat) (s : State) : Out :=
  let s := if (s.die die).preempted then s
    else each (s.usedCores die) (fun c s => s.emptySlots c) (s.modDie die fun d => { d with preempted := true })
  .next (s.carriedOut (part / 4) die)

/-- PREEMPT_RESUME (14 R347): the partition goes on once every die of the set has been told. -/
def execPreemptResume (die part : Nat) (s : State) : Out := .next (s.carriedOut (part / 4) die)

/-- The order in which a core's lines go to the image (14 R348, step 2). -/
def State.imageClass (s : State) (held : List Nat) (id : Nat) : Nat :=
  let c := s.ctx id
  if held.contains id then 0
  else if c.handler != 0 then 1
  else if c.pin != none then 2
  else if c.kind == 8 || c.kind == 9 then 3
  else if c.kind == 0 then 4 + c.prio.toNat
  else 8

/-- A core's lines in that order, the most recently issued first within a class. -/
def State.imageOrder (s : State) (held : List Nat) (ids : List Nat) : List Nat :=
  (ids.foldl (fun (l : List Nat) id =>
    let before (a : Nat) : Bool :=
      let x := s.imageClass held a
      let y := s.imageClass held id
      x < y || (x == y && (s.ctx id).issuedAt ≤ (s.ctx a).issuedAt)
    l.takeWhile before ++ id :: l.dropWhile before) [])

/-- What belongs to a core and to no partition: its caches and waiter list, its halt, and the cycle of its last issue. -/
def Core.own (c own : Core) : Core :=
  { c with l1 := own.l1, l1held := [], acqAt := own.acqAt, waiters := own.waiters, tlb := own.tlb, halted := own.halted, lastCyc := own.lastCyc }

/-- The lines of an order that go to the image: the first 56, but of a pair both or neither (14 R348, 17 R396). -/
def State.imageLines (s : State) (order : List Nat) : List Nat :=
  (order.take 56).filter fun id => (s.unit id).all (order.take 56).contains

/-- Takes a core's part of the outgoing partition: at most 56 lines to the image, the rest to the context L2 (14 R348, Table
14-3). -/
def State.coreOut (s : State) (old core : Nat) : State :=
  let c := s.core core
  let die := dieOf core
  let order := s.imageOrder (c.preSlots.filterMap id) c.resident
  let keep := s.imageLines order
  let out := order.filter fun id => !keep.contains id
  let s := each out (fun x s =>
    let s := s.modCore core fun y => y.forget x
    let s := (s.modCtx x fun c => { c.rest with bpExempt := false }).modEntry x fun e => { e with holder := .l2 (clusterOf core), postDue := true }
    s.enterL2 (clusterOf core) x) s
  let s := each out (fun x s => s.postReady x) s
  let s := each keep (fun x s => (s.modCtx x fun c => { c with bpExempt := false }).modEntry x fun e => { e with holder := .shadow die }) s
  let img := { ((s.core core).own {}) with resident := keep, claims := [], copied := [], copy := none }
  let s := s.modPart old fun p => { p with image := put p.image core img }
  s.modCore core fun y => ({} : Core).own y

/-- Loads a core's part of the incoming partition (14 R348, step 5; R349): contexts that held a slot return to it, lines made
ready meanwhile join their queues, and a trap held for a core is taken. -/
def State.coreIn (s : State) (new core : Nat) : State :=
  match get? (s.part new).image core with
  | none => s
  | some img =>
    let s := s.modCore core fun y => img.own y
    let s := s.modPart new fun p => { p with image := del p.image core }
    let s := each img.resident (fun x s => s.modEntry x fun e => { e with holder := .core core }) s
    let s := s.reseatAll core fun _ => true
    each img.resident (fun x s =>
      let there := (s.core core).slotOf x != none || (s.core core).waiting.contains x || (s.core core).heldSlot x != none
      if s.trapDue x then (if s.trapBarred core x then s else s.takeHeld core x)
      else if s.lead x != x || there || !s.unitReady x then s
      else if (s.ctx x).handler != 0 then s.modCore core fun y => { y with readyH := y.readyH ++ [x] }
      else s.modCore core fun y => y.enq (s.ctx x).level x) s

/-- A line of the partition that a die runs is on its way to one of the die's cores. -/
def State.lineComes (s : State) (die : Nat) : Bool :=
  s.cdir.any fun (id, e) => match e.transfer with
    | some (.core k) => dieOf k == die && (s.ctx id).part == s.dieActive die
    | _ => false

/-- A die may swap: it is pre-empted, every context of its cores has performed its stores (05 R110), no line of them is claimed or in
transfer, and none is on its way to them. -/
def State.swapReady (s : State) (die : Nat) : Bool :=
  (s.die die).preempted && !s.lineComes die &&
    (s.usedCores die).all fun k => (s.core k).claims.isEmpty &&
      (s.core k).resident.all fun x => s.drained x && (s.centry x).transfer == none

/-- PARTITION_SWAP (14 R348): the outgoing partition's image is made and the incoming one's is loaded. `old` is 32 where no
partition was active. -/
def execPartitionSwap (die old new : Nat) (s : State) : Out :=
  let cores := s.usedCores die
  let clusters := s.usedClusters die
  let s := if old = 32 then s
    else
      let s := each cores (fun c s => s.coreOut old c) s
      s.modPart old fun p =>
        { p with imageOvf := put p.imageOvf die (s.die die).overflow, imageAt := put p.imageAt die (s.die die).preAt
                 imageChunks := clusters.foldl (fun m k => put m k (s.cluster k).chunks) p.imageChunks }
  let p := s.part new
  let s := s.modDie die fun d => { d with overflow := getD p.imageOvf die [], preempted := true, preAt := getD p.imageAt die s.gtime }
  let s := each (clusters ++ (p.imageChunks.map (·.1)).filter fun k => k / 64 == die && !clusters.contains k) (fun k s =>
    s.modCluster k fun x => { x with chunks := getD p.imageChunks k (List.replicate 16 {}) }) s
  let s := each ((p.image.map (·.1)).filter fun c => dieOf c == die) (fun c s => s.coreIn new c) s
  .next (s.carriedOut (new / 4) die)

/-! ### Page walks (15 R357, R358) -/

/-- Adds entries to a die's walk cache of 1,024; a full one gives up an entry, and any entry may go at any time (15 R357). -/
def cacheWalk (c : List WalkEntry) (pick : Nat) (new : List WalkEntry) : List WalkEntry :=
  new.foldl (fun c e =>
    if c.contains e then c
    else
      let c := if c.length < 1024 then c else c.eraseIdx (pick / 2 % c.length)
      (if pick % 2 = 1 then c.eraseIdx (pick / 2 ^ 16 % c.length) else c) ++ [e]) c

/-- What a finished walk gives one of the accesses merged into it: an entry in its cluster's TLB, and from there in its core's, or
the fault of its address, which the access takes when its slot issues it again. A Juggler's translation is given the answer (15 R359). -/
def State.walkAnswer (s : State) (key : Nat) (leaf : Option TlbEntry) (w : WalkWaiter) : State :=
  if 8192 ≤ w.core then
    let k := w.core - 8192
    let s := s.modCluster k fun c => { c with xlat := c.xlat ++ [(w.ctx, key, leaf)] }
    match leaf with
    | some e => s.tlbCluster k e
    | none => s
  else match leaf with
    | some e => (s.tlbCluster (clusterOf w.core) e).tlbCore w.core e
    | none =>
      if (s.core w.core).slotOf w.ctx != none && (s.ctx w.ctx).stall != none then
        s.modCtx w.ctx fun c => { c with badVa := some w.info.toNat }
      else s

/-- An entry that a walk reads from HBM fills its home's memory-side cache (15 R355). -/
def State.walkFill (s : State) (part pa : Nat) : State :=
  let home := s.homeDie (part / 4) pa
  if 8 ≤ home && home < 20 then s.msFill home (pa / 192) (regBit 4 (pa / 48 % 4)) else s

/-- WALK_COMPLETE (15 R355, R356, R358): the walk from the root with which it began fills the walk cache and the TLBs, or every merged
access faults; the next queued miss starts its walk, from the root as it stands then. -/
def execWalkComplete (die : Nat) (page : Nat) (s : State) : Out :=
  let d := s.die die
  match d.walks.find? fun w => walkKey w == page with
  | none => .next s
  | some w =>
    let r := s.walkRoot d.walkCache w.part w.hi w.root.toNat (12288 * w.page)
    let s := s.modDie die fun d =>
      { d with walks := d.walks.filter fun x => walkKey x != page
               walkCache := if r.leaf.isSome then cacheWalk d.walkCache (Config.tlbVictim s.fresh (16384 + die)) r.nodes else d.walkCache }
    let s := each r.reads (fun pa s => s.walkFill w.part pa) s
    .next ((each w.waiters (fun x s => s.walkAnswer page r.leaf x) s).startQueued die)

/-- WALK_QUEUE_RETRY (15 R358): a miss that its cluster holds is tried again. -/
def execWalkQueueRetry (die : Nat) (s : State) : Out :=
  match (s.die die).walkHeld with
  | w :: r => .next ((s.modDie die fun d => { d with walkHeld := r }).beginWalk die { w with root := (s.part w.part).root w.hi })
  | [] => .next s

/-! ### Region migration (15 R365 to R367) -/

/-- The spare of a memory die serves a drop of another unit somewhere in the package, or still holds lines of one whose migration has
not ended (15 R367). -/
def State.spareTaken (s : State) (sub die unit : Nat) : Bool :=
  s.sets.any fun x => ((if x.2.mig.isSome then [x.2.oldEntry] else []) ++ x.2.regions).any fun e =>
    let v := e.toNat
    bitAt v 0 && bits v 12 4 == sub && !(bits v 2 4 == die && bits v 6 6 == unit)

/-- REGION_MIGRATION_START (15 R367, step 1). -/
def execRegionMigrationStart (set region : Nat) (entry : Word) (s : State) : Out :=
  let v := entry.toNat
  let new := entry &&& 0xFFFD
  let die := bits v 2 4
  let unit := bits v 6 6
  let sub := bits v 12 4
  let d := s.set set
  let mine (m : Nat) : Bool := (setMems s.mode set).contains (8 + m)
  if d.mig.isSome || !mine die || !mine sub || die == sub || 42 < unit || s.spareTaken sub die unit ||
      new == nth d.regions region 0 then .next s
  else .next (s.modSet set fun d =>
    { d with mig := some region, oldEntry := nth d.regions region 0, regions := d.regions.set region new,
             cursors := d.cursors.set region 0, rver := (d.rver + 1) % 16 })

/-- The line at the cursor of a die set's migration. -/
def State.movingLine (s : State) (set : Nat) : Option Nat :=
  (s.set set).mig.map fun r => 64 * setBase s.mode set + regionLines s.mode * r + nth (s.set set).cursors r 0

/-- MIGRATION_LINE_MOVE (15 R367, steps 2 to 4): a line whose home differs between the versions is taken from every cache by its
old home, which sends it with its poison to the new one through the X-die (01 R20); once it is there, the cursor passes it. -/
def execMigrationLineMove (set : Nat) (s : State) : Out :=
  let d := s.set set
  match d.mig, s.movingLine set with
  | some r, some line =>
    let old := homeUnder s.mode set line d.oldEntry
    let new := homeUnder s.mode set line (nth d.regions r 0)
    if old != new && !d.moving then
      let s := (s.ownHome line).modSet set fun d => { d with moving := true }
      .next (s.send old new 3 208 false none (.migrationLineMove set))
    else
      let s := if d.moving then s.advanceSeqs (192 * line) 192 else s
      let cur := nth d.cursors r 0 + 1
      .next (s.modSet set fun d =>
        { d with moving := false, cursors := d.cursors.set r cur, mig := if cur < regionLines s.mode then some r else none })
  | _, _ => .next s

/-! ### Bank modes (15 R369) -/

/-- A cluster's caches write back their dirty sectors and give up all their lines (15 R369). -/
def State.flushCluster (s : State) (k : Nat) : State :=
  each ((s.dir.filter fun x => x.2.sharers.contains k || x.2.cluster == some k).map (·.1)) (fun l s => s.evictLine k l) s

/-- What a bank held has left it, so that it may take its new mode (15 R369, steps 2 and 3): the lines of a CONTEXT bank have been
reached memory, and what a FIFO bank held has been consumed. -/
def State.drainReady (s : State) (cluster bank : Nat) : Bool :=
  let k := s.cluster cluster
  match nth k.modes bank .cache with
  | .fifo => k.rings.all (fun (p, r) => r.length ≤ s.ringRoom cluster p) && k.inq.length ≤ 256 + 2048 * k.fifoBanks.length
  | .context => !(k.l2bank.any fun x => x.2 == bank) &&
      !s.cdir.any fun x => x.2.holder == .l2 cluster && x.2.transfer == some .memory
  | _ => true

/-- Answers the changes of a bank that need no drain, and begins the first that does (15 R369: one at a time, in order). -/
def State.nextDrain (s : State) (cluster bank : Nat) : Nat → State
  | 0 => s
  | n + 1 =>
    match (s.cluster cluster).drains.find? fun q => q.bank == bank with
    | none => s
    | some q =>
      match s.judgeBank cluster bank q.part q.mode with
      | none => s.beginDrain cluster bank
      | some st =>
        let s := s.modCluster cluster fun k => { k with drains := k.drains.erase q }
        (s.tell (cluster / 64) q.ctx 2 32 fun h => .registerFill q.ctx q.reg q.tag (BitVec.ofNat 64 st) false 0 h 0).nextDrain
          cluster bank n

/-- BANK_DRAIN_DONE (15 R369, steps 3 and 4): a change in the number of CACHE banks has the cluster's caches give up their lines,
the bank takes its mode, and W[d] is filled. -/
def execBankDrainDone (cluster bank : Nat) (s : State) : Out :=
  match (s.cluster cluster).drains.find? fun q => q.bank == bank with
  | none => .next s
  | some q =>
    let old := nth (s.cluster cluster).modes bank .cache
    let s := if old = .cache || q.mode = .cache then s.flushCluster cluster else s
    let s := s.modCluster cluster fun k =>
      { k with modes := k.modes.set bank q.mode, owner := k.owner.set bank (if q.mode = .cache then none else some (q.part % 4))
               drains := k.drains.erase q }
    let s := s.tell (cluster / 64) q.ctx 2 32 fun h => .registerFill q.ctx q.reg q.tag 0 false 0 h 0
    .next (s.nextDrain cluster bank (s.cluster cluster).drains.length)

end Sys2Proof.Machine
end

