-- ==== Sys2Proof/Machine/Links.lean ====
section
/-! DEFINITION. Die links (16 R373 to R379, R434; 18 R408), the Calliope time service (R382 to R384), the failure of a
compute die (R385 to R387), and errors in storage (17 R390 to R395). -/

namespace Sys2Proof.Machine

open Sys2Proof

/-! ### Sending (16 R373, R378, R379) -/

/-- A fence token. -/
def isToken : Ev → Bool
  | .fenceTokenArrival _ _ _ => true
  | _ => false

/-- The messages of a class at the head of a queue that one flit carries: in their order, up to 236 bytes; a token only when
nothing queued ahead of it is left (16 R379). The second list stays queued. -/
def packFlit (cls : Nat) : List LinkMsg → Nat → Bool → List LinkMsg × List LinkMsg
  | [], _, _ => ([], [])
  | m :: r, room, first =>
    if m.cls = cls then
      if m.bytes ≤ room && (first || !isToken m.ev) then
        let (a, b) := packFlit cls r (room - m.bytes) first
        (m :: a, b)
      else ([], m :: r)
    else
      let (a, b) := packFlit cls r room false
      (a, m :: b)

/-- A class has a flit ready. -/
def LinkEnd.has (l : LinkEnd) (cls : Nat) : Bool := !(packFlit cls l.queue 236 true).1.isEmpty

/-- The class that the arbiter sends next (16 R378). -/
def LinkEnd.choose (l : LinkEnd) : Option Nat :=
  let ready := (List.range 4).filter l.has
  let old := ready.filter l.aged.contains
  if ready.contains 1 && (7 ≤ l.since1 || !old.isEmpty) then some 1
  else if !old.isEmpty then old.head?
  else ready.head?

/-- An acknowledgement or a NAK has to be sent (16 R373). -/
def LinkEnd.owes (l : LinkEnd) : Bool := l.nakDue || 0 < l.ackDue

/-- The class of the new flit that a link may send: its replay buffer has room. -/
def LinkEnd.fresh (l : LinkEnd) : Option Nat := if l.replay.length < 128 then l.choose else none

/-- A link may send a flit: it is up, and has messages for it, or an acknowledgement or NAK. -/
def LinkEnd.maySend (l : LinkEnd) : Bool := l.st == 2 && (l.fresh.isSome || l.owes)

/-- Puts flits on the wire: each carries the acknowledgement of what this end has accepted, and the first a NAK that is due (18 R408);
INJECT corrupts the first (16 R388). -/
def LinkEnd.emit (l : LinkEnd) (fs : List Flit) : LinkEnd :=
  match fs.map fun f => { f with ack := some l.expect, nak := none } with
  | f :: r =>
    { l with wire := l.wire ++ { f with bad := l.inject, nak := if l.nakDue then some l.expect else none } :: r
             inject := false, nakDue := false, ackDue := 0 }
  | [] => l

/-- FLIT_SEND (16 R373, R378; 18 R408): a flit of the messages of a class, or one of acknowledgements alone, which takes no number and is
not kept. -/
def execFlitSend (die link : Nat) (s : State) : Out :=
  let l := s.link die link
  if !l.maySend then .next s
  else match l.fresh with
  | none => .next (s.modLink die link fun l => l.emit [{ seq := l.nextTx, no := l.total, msgs := [], plain := true }])
  | some c =>
    let (out, rest) := packFlit c l.queue 236 true
    let f : Flit := { seq := l.nextTx, no := l.total, msgs := out }
    let l := { l with queue := rest, nextTx := (l.nextTx + 1) % 1024, total := l.total + 1, replay := l.replay ++ [f],
                      sent := l.sent.modify c fun n => (n + 1) % 2 ^ 32, since1 := if c = 1 then 0 else l.since1 + 1,
                      aged := l.aged.filter (· != c), sentAt := if l.replay.isEmpty then s.gtime else l.sentAt }
    .next (s.modLink die link fun _ => l.emit [f])

/-- An acknowledgement must be sent now: it is owed for 16 flits, or for 100 ns (16 R373). -/
def LinkEnd.ackForced (l : LinkEnd) (now : Nat) : Bool := l.st == 2 && (16 ≤ l.ackDue || (0 < l.ackDue && l.ackAt + 280 ≤ now))

/-- A class of a link has a flit that has waited 10 us. -/
def LinkEnd.ageDue (l : LinkEnd) (cls now : Nat) : Bool :=
  2 ≤ cls && !l.aged.contains cls && l.queue.any fun m => m.cls == cls && m.since + 10 * us ≤ now

/-- CLASS_AGE_PROMOTION (16 R378). -/
def execClassAgePromotion (die link cls : Nat) (s : State) : Out :=
  .next (if (s.link die link).ageDue cls s.gtime then s.modLink die link fun l => { l with aged := l.aged ++ [cls] } else s)

/-! ### Receiving (16 R373, R376, R377) -/

/-- The duplicate filter of a die: the last 4,096 ids of each source (16 R376). -/
def addFilter (f : List (Nat × Option Ev)) (tx : Nat) : List (Nat × Option Ev) :=
  let same (x : Nat × Option Ev) : Bool := x.1 / 2 ^ 27 == tx / 2 ^ 27
  (if 4096 ≤ (f.filter same).length then f.eraseP same else f) ++ [(tx, none)]

/-- A message that a link has delivered is due, and is remembered until it has performed (05 R116, step 4). -/
def State.deliverMsg (s : State) (die link : Nat) (e : Ev) : State :=
  -- the partition's clocks on a die stop when the request for its pre-emption arrives (14 R345, 20 R433)
  let s := match e with
    | .preemptRequest d _ => if (s.die d).preempted then s else s.modDie d fun x => { x with preAt := s.gtime }
    | _ => s
  let s := { s with inlink := (s.inlink.filter fun (x : Nat × Ev) => s.inbox.contains x.2 || s.replayHeld.contains x.2) ++ [(32 * die + link, e)] }
  s.post e

/-- A message that has reached its destination: a non-idempotent request whose id the filter holds is not executed, and a
returning one is answered again as before; a response confirms the die's own request; the step that any other message causes is
due. -/
def State.accept (s : State) (die link : Nat) (m : LinkMsg) : State :=
  if m.again then s
  else match m.tx with
    | none => s.deliverMsg die link m.ev
    | some t =>
      if t / 2 ^ 27 = die then (s.modDie die fun d => d.confirm m.src t).deliverMsg die link m.ev
      else
      match (s.die die).filter.find? fun x => x.1 == t with
      | some (_, r) =>
        let s := s.modLink die link fun l => { l with dup := (l.dup + 1) % 2 ^ 64 }
        match r with
        | some e =>
          if m.src = die then s
          else s.enqueue die { src := die, dst := m.src, cls := m.cls, bytes := 32, posted := false, tx := none, ev := e,
                               since := s.gtime, again := true }
        | none => s
      | none => (s.modDie die fun d => { d with filter := addFilter d.filter t }).deliverMsg die link m.ev

/-- Flits of a replay buffer numbered before a number. -/
def LinkEnd.ackTo (l : LinkEnd) (seq : Nat) : List Flit := l.replay.dropWhile fun f =>
  0 < (seq + 1024 - f.seq) % 1024 && (seq + 1024 - f.seq) % 1024 ≤ 512

/-- What a message does that a retrain has sent again (16 R375 to R377). A request with an id meets the duplicate filter, at whichever die
is its target; an idempotent one executes a second time, and a load's requester uses the first response. The repeat of any other is of
no effect: its requester has completed the transaction, or its unit has applied it (14 R334). -/
def LinkMsg.repeated (m : LinkMsg) : Option LinkMsg :=
  if m.tx.any fun t => t / 2 ^ 27 == m.src then some m
  else match m.ev with
    | .homeReadRequest r => some { m with ev := .homeReadRequest { r with reg := 20 } }
    | .coreStoreAccess r => if writes r.kind then none else some { m with ev := .coreStoreAccess { r with reg := 20 } }
    | .ownershipRequest _ _ => some m
    | .dieRecall _ _ _ => some m
    | .fenceTokenArrival _ _ _ => some m
    | _ => none

/-- The acknowledgement and the NAK of an intact flit reach the transmitter of the end that receives it. -/
def State.takeAcks (s : State) (die link : Nat) (f : Flit) : State :=
  let l := s.link die link
  let s := match f.nak, f.ack with
    | none, some a => if (l.ackTo a).length < l.replay.length then s.post (.linkAck die link a) else s
    | _, _ => s
  match f.nak with
  | some n => s.post (.linkNak die link n)
  | none => s

/-- LINK_ACK (16 R373): a cumulative acknowledgement frees the flits before the number it names. -/
def execLinkAck (die link seq : Nat) (s : State) : Out :=
  .next (s.modLink die link fun l =>
    let rest := l.ackTo seq
    if rest.length < l.replay.length then { l with replay := rest, sentAt := s.gtime, fails := 0, nakSeq := none } else l)

/-- The compute die that logs an event of a die (17 R399). -/
def State.logsFor (s : State) (die : Nat) : Nat :=
  if die < 8 then die else if s.mode = 1 && die < 20 then (setDies 1 ((die - 8) / 6)).headD 0 else 0

/-- A flit fails its CRC at an end of a link: it is counted, and logged as an error that its retry does not find again (17 R390, R391,
R399; DEDUCED, log 109). -/
def State.badFlit (s : State) (die link : Nat) : State :=
  (s.modLink die link fun l => { l with crc := (l.crc + 1) % 2 ^ 64 }).logError (s.logsFor die) 0 die link 7 1 0

/-! ### Retry and retraining (16 R373 to R375) -/

/-- Begins a retrain at both ends of a link: nothing is on the wire until it ends, and numbers restart after it. -/
def State.beginRetrain (s : State) (die link : Nat) : State :=
  match linkPeer die link with
  | none => s
  | some p =>
    let back := linkTo p die
    let l := s.link die link
    if l.st != 2 then s
    else
      let quiet (e : Ev) : Bool := match e with
        | .linkNak d k _ => (d == die && k == link) || (d == p && k == back)
        | .linkAck d k _ => (d == die && k == link) || (d == p && k == back)
        | _ => false
      let stop (l : LinkEnd) : LinkEnd :=
        { l with st := 1, wire := [], naked := false, fails := 0, nakSeq := none, sentAt := s.gtime, nakDue := false, ackDue := 0 }
      let s := { s with inbox := s.inbox.filter fun e => !quiet e }
      ((s.modLink die link stop).modLink p back stop).post (.linkRetrainDone die link)

/-- Sends every buffered flit from a number on again. -/
def State.replayFrom (s : State) (die link : Nat) : State :=
  s.modLink die link fun l =>
    if l.replay.isEmpty then l
    else { (l.emit (l.replay.map fun f => { f with bad := false })) with replays := (l.replays + 1) % 2 ^ 32, sentAt := s.gtime }

/-- LINK_NAK (16 R373, R374): the flits from the named one on are sent again; a flit that has failed on three successive
replays makes the link retrain. -/
def execLinkNak (die link seq : Nat) (s : State) : Out :=
  let s := s.modLink die link fun l =>
    { l with replay := l.ackTo seq, nakSeq := some seq, fails := if l.nakSeq == some seq then l.fails + 1 else 0 }
  if 3 ≤ (s.link die link).fails then .next (s.beginRetrain die link) else .next (s.replayFrom die link)

/-- No acknowledgement has come for 1 us. -/
def LinkEnd.timedOut (l : LinkEnd) (now : Nat) : Bool := l.st == 2 && !l.replay.isEmpty && l.sentAt + us ≤ now

/-- REPLAY_TIMEOUT (16 R373). -/
def execReplayTimeout (die link : Nat) (s : State) : Out :=
  .next (if (s.link die link).timedOut s.gtime then s.replayFrom die link else s)

/-- LANE_FAULT_REPORT (16 R374): the PHY of an end reports faulty lanes of the two halves of the link's module, and the link retrains. It
does so when it receives the first flit that they damaged, which fails its CRC, or with no flit in flight. -/
def execLaneFaultReport (die link lower upper : Nat) (s : State) : Out :=
  match linkPeer die link with
  | none => .next s
  | some p =>
    let lose (l : LinkEnd) : LinkEnd := { l with badLow := min 32 (l.badLow + lower), badHigh := min 32 (l.badHigh + upper) }
    let hit := (s.link die link).st == 2 && !(s.link p (linkTo p die)).wire.isEmpty
    let s := if hit then s.badFlit die link else s
    .next (((s.modLink die link lose).modLink p (linkTo p die) lose).beginRetrain die link)

/-- LNK_RETRAIN_FORCE (16 R388). -/
def execLnkRetrainForce (die link : Nat) (s : State) : Out := .next (s.beginRetrain die link)

/-- The width at which a link comes back (16 R374): x64 with up to 4 redundant lanes, or with DEGRADE at both ends x32 on a
half that they make whole; where they make either whole, no rule says which, and `upper` chooses. The answer is the redundant
lanes in use, and whether the link is at x32. The module's lanes are the link's: both ends hold the same faults. -/
def linkWidth (a b : LinkEnd) (upper : Bool) : Option (Nat × Bool) :=
  let low := a.badLow ≤ 4
  let high := a.badHigh ≤ 4
  if !a.x32 && a.badLow + a.badHigh ≤ 4 then some (a.badLow + a.badHigh, false)
  else if !(a.degrade && b.degrade) then none
  else if low && !(high && upper) then some (a.badLow, true)
  else if high then some (a.badHigh, true)
  else none

/-- One end of a link after a retrain (16 R375): numbers restart at 0, and every flit still buffered is sent again, which counts as a
replay (18 Table 18-9). -/
def LinkEnd.restart (l : LinkEnd) (spare : Nat) (x32 : Bool) (now : Nat) : LinkEnd :=
  let fs := (List.range l.replay.length).filterMap fun i => (l.replay[i]?).map fun f => { f with seq := i, bad := false }
  { l with st := 2, x32, redundant := spare, retrains := (l.retrains + 1) % 65536, nextTx := fs.length % 1024, expect := 0,
           replays := if fs.isEmpty then l.replays else (l.replays + 1) % 2 ^ 32, replay := fs, sentAt := now }.emit fs

/-! ### The failure of a compute die (16 R385 to R387) -/

/-- The die at which a part begins, or at which its source is read (09 R248). -/
def State.partSite (s : State) (cluster task part : Nat) : Nat :=
  match (s.task cluster task).bind fun t => (t.parts[part]?).map fun p => (t, p) with
  | some (t, p) => match p.asked % 2, p.moves.drop p.data.length with
    | 1, (_, x) :: _ => s.placeDie t.part x
    | _, _ => streamerDie p.unit
  | none => match s.task cluster task with
    | some t => match t.asked % 2, (placesOf t.src).drop t.list.length with
      | 1, x :: _ => s.placeDie t.part x
      | _, _ => cluster / 64
    | none => cluster / 64

/-- The die that a part's next push goes to. -/
def State.pushSite (s : State) (cluster task part : Nat) : Nat :=
  match (s.task cluster task).bind fun t => (t.parts[part]?).map fun p => (t, p) with
  | some (t, p) => match p.moves with
    | (d, _) :: _ => s.placeDie t.part d
    | [] => streamerDie p.unit
  | none => cluster / 64

/-- The die at which a step that is due takes place, where it is a message's. -/
def State.siteDie (s : State) (e : Ev) : Option Nat :=
  let line (ctx : Nat) (h : Holder) : Option Nat := some (holderDie (s.ctxHome ctx) h)
  let home (r : Req) : Nat := if r.ver = 0 then dieOf r.core else r.ver / 16 - 1
  let place (inCore : Bool) (r : Req) : Option Nat := if inCore then some (dieOf (locCore r.addr)) else some (home r)
  match e with
  | .registerFill c _ _ _ _ _ h _ => line c h
  | .wakeupApply c _ _ _ h => line c h
  | .cmdsDecrement c _ h => line c h
  | .semVExecute l _ _ _ => some (dieOf (locCore l))
  | .semPExecute l _ _ _ => some (dieOf (locCore l))
  | .jcUpdate l _ _ _ _ => some (dieOf (locCore l))
  | .ksendAccumulate l _ _ _ _ => some (dieOf (locCore l))
  | .launchAccept _ _ _ _ _ _ _ => some 20
  | .relaunchAccept _ _ _ _ _ _ _ _ _ => some 20
  | .chunkInitRequest k _ _ _ _ _ => some (k / 64)
  | .chunkRequest k _ _ _ _ _ => some (k / 64)
  | .tallocServe k _ _ _ _ _ _ => some (k / 64)
  | .coreStoreAccess r => place true r
  | .storeVisible r => some (dieOf r.core)
  | .nibbleStoreExecute r => place false r
  | .atomicExecute _ _ c _ r => place c r
  | .homeReadRequest r => some (home r)
  | .fenceTokenArrival d _ _ => some d
  | .fenceEchoArrival d _ _ => some d
  | .barrierSignal c _ _ => some (dieOf c)
  | .barrierRelease c _ => some (dieOf c)
  | .barrierAbort c _ _ => some (dieOf c)
  | .commandAccept c => some (c.cluster / 64)
  | .commandReply c _ _ _ _ _ => ((s.ctx c).lastCore).map dieOf
  | .commandRetry c => ((s.ctx c).lastCore).map dieOf
  | .streamerPartStart k n i => some (s.partSite k n i)
  | .streamerPush k n i => some (s.pushSite k n i)
  | .streamerPartDone k _ _ => some (k / 64)
  | .blockRecordWrite b => (get? s.blocks b).map fun x => x.cluster / 64
  | .traceReport b _ _ _ _ => (get? s.blocks b).map fun x => x.cluster / 64
  | .watchArm c a _ _ _ _ _ _ => if c then some (dieOf (locCore a)) else none
  | .contextLineArrival c h => line c h
  | .ringPost c => some ((s.centry c).affinity / 64)
  | .preemptRequest d _ => some d
  | .preemptResume d _ => some d
  | .partitionSwap d _ _ => some d
  | .walkComplete d _ => some d
  | .walkQueueRetry d => some d
  | .bankDrainDone k _ => some (k / 64)
  | .bankNackRetry m => match m with
    | .homeReadRequest r => some (dieOf r.core)
    | .storeVisible r => some (dieOf r.core)
    | _ => none
  | .homeNackRetry m => match m with
    | .homeReadRequest r => some (dieOf r.core)
    | .atomicExecute _ _ _ _ r => some (dieOf r.core)
    | .nibbleStoreExecute r => some (dieOf r.core)
    | .ownershipRequest _ ⟨k, _⟩ => some (k / 64)
    | .restampRequest _ _ ⟨k, _⟩ => some (k / 64)
    | .watchArm _ _ _ _ _ _ _ ⟨u, _⟩ => some u
    | _ => none
  | .errand (.line _ l _ _ _ _ _ h) => line l h
  | .errand (.fetch l _) => line l (s.centry l).holder
  | .errand (.bank k _ _ _ _ _ _ _) => some (k / 64)
  | .errand (.invalidate d _ _ _ _ _ _ _) => some d
  | .errand (.slot c _ _ _ _) => some (dieOf c)
  | .errand (.look k _ _ _ _) => some (k / 64)
  | .errand (.join l _ _ _ _) => some (dieOf (locCore l))
  | .errand (.answer c _ _ h) => line c h
  | .errand (.waits c _ _ _ _ h) => line c h
  | .ownershipGrant _ k => some (k / 64)
  | .dieRecall _ d _ => some d
  | .calliopeResult d _ _ _ _ => some d
  | _ => none

/-- The list of a gather or scatter, where a failed die held what is to be read of it next: those bytes are poison (16 R387). -/
def State.listLost (s : State) (cluster task : Nat) (t : Task) : State :=
  let rest := (placesOf t.src).drop t.list.length
  (s.modTask cluster task fun t => { t with list := t.list ++ List.replicate (readLen rest) none, asked := t.asked + 1 }).post
    (.streamerPartStart cluster task 0)

/-- A part of a stream that a failed die had to serve, to supply or to take (16 R387): data that it held is poison (09 R248), a push
to it is discarded, and a part of its own streamers is over. -/
def State.partLost (s : State) (failed cluster task part : Nat) (push : Bool) : State :=
  match (s.task cluster task).bind fun t => (t.parts[part]?).map fun p => (t, p) with
  | none => match s.task cluster task with
    | some t => if t.parts.isEmpty && cluster / 64 != failed then s.listLost cluster task t else s
    | none => s
  | some (t, p) =>
    if cluster / 64 = failed then s
    else if streamerDie p.unit = failed then
      let s := s.modTask cluster task fun t => { t with flt := if t.flt.isNone then some 0x10 else t.flt }
      let s := if t.cmd.j then s.updateJc t (cluster / 64) (senderOf cluster task part) (-1) (t.fault task) else s
      s.post (.streamerPartDone cluster task part)
    else if push then s.pushed t cluster task part p (pushLen p.moves)
    else
      let q := { p with begun := true, moves := [], data := [] }
      let s := s.modTask cluster task fun t =>
        { t with parts := t.parts.modify part fun _ => q, flt := if t.flt.isNone then some 0x10 else t.flt }
      s.nextPush t cluster task part q

/-- A load or a returning operation that a failed die will never answer is answered with poison (16 R387), and a record of its trace
units stays unwritten (10 R264); posted ones are discarded. An instruction that idles for the failed die's part of it goes on; a `ctx`
instruction goes back to its line's home, which answers it once it has processed the failure (R386). -/
def State.unanswered (s : State) (failed : Nat) (e : Ev) : State :=
  let poison (r : Req) (s : State) : State := if dieOf r.core = failed then s else s.reply (dieOf r.core) 1 { r with tx := none } 0 true
  let back (ctx id data : Nat) : State := s.post (.errand (.answer ctx id data (s.centry ctx).holder))
  match e with
  | .errand (.line op l n p c r t h) => s.post (.messageReturn l (.errand (.line op l n p c r t h)))
  | .errand (.bank _ _ _ ctx reg tag _ _) => s.post (.registerFill ctx reg tag 0 true 0 (s.centry ctx).holder 0)
  | .errand (.invalidate _ _ _ _ _ _ ctx id) => back ctx id 0
  | .errand (.slot _ _ _ ctx id) => back ctx id 0
  | .errand (.look _ _ _ ctx id) => back ctx id noAnswer
  | .errand (.join _ _ ctx id first) => if first then back ctx id noAnswer else s
  | .coreStoreAccess r => if writes r.kind then s else poison r s
  | .atomicExecute _ false true _ r => poison r s
  | .streamerPartStart k n i => s.partLost failed k n i false
  | .streamerPush k n i => s.partLost failed k n i true
  | .blockRecordWrite b => s.recordLost b
  | _ => s

/-- What was due on a die is gone with it. -/
def State.clearSite (s : State) (die : Nat) : State :=
  let dead := s.inbox.filter fun e => s.siteDie e == some die
  let s := { s with inbox := s.inbox.filter fun e => !(s.siteDie e == some die) }
  each dead (fun e s => s.unanswered die e) s

/-- A message of an accepted flit: for this die, or forwarded onward (01 R20, 05 R116); one from a die that has failed is
discarded, and one that has no route left is as one to the failed die (16 R385, R387). -/
def State.takeMsg (s : State) (die link : Nat) (m : LinkMsg) : State :=
  if (s.die die).knows.contains m.src then s
  else if m.dst = die then s.accept die link m
  else match s.hop die m.src m.dst with
    | some n => (s.modDie die fun d => { d with fwd := addNew d.fwd (link, linkTo die n) }).enqueue die { m with since := s.gtime }
    | none => s.unanswered m.dst m.ev

/-- FLIT_RECEIVE (16 R373): the oldest flit on the wire from the other end. The first flit that is not the expected one, intact, makes
this end owe a NAK, and so does each replay of the expected one that fails (R374); until that one comes intact nothing else is accepted.
A flit that a retrain has sent again is accepted in the new numbering, as its receiver cannot tell that it has accepted it before
(R375); what its messages then do is `LinkMsg.repeated`. -/
def execFlitReceive (die link : Nat) (s : State) : Out :=
  match linkPeer die link with
  | none => .next s
  | some p =>
    let back := linkTo p die
    match (s.link p back).wire with
    | [] => .next s
    | f :: r =>
      let s := s.modLink p back fun l => { l with wire := r }
      let l := s.link die link
      let expected := !f.plain && f.seq == l.expect
      if f.bad || (!f.plain && !expected) then
        let s := if f.bad then s.badFlit die link else s
        if l.naked && !expected then .next s
        else .next (s.modLink die link fun l => { l with naked := true, nakDue := true })
      else if f.plain then .next (if l.naked then s else s.takeAcks die link f)
      else
        let fresh := l.got ≤ f.no
        let s := s.modLink die link fun l =>
          { l with expect := (l.expect + 1) % 1024, naked := false, nakDue := false, got := max l.got (f.no + 1)
                   ackDue := l.ackDue + 1, ackAt := if l.ackDue = 0 then s.gtime else l.ackAt }
        let s := s.takeAcks die link f
        .next (each (if fresh then f.msgs else f.msgs.filterMap LinkMsg.repeated) (fun m s => s.takeMsg die link m) s)

/-- Takes the messages of a link's queue and replay buffer out of it. -/
def State.drainLink (s : State) (die link : Nat) : List LinkMsg × State :=
  let l := s.link die link
  let out := ((l.replay.filter (s.unaccepted (32 * die + link))).map (·.msgs)).flatten ++ l.queue
  (out, s.modLink die link fun l => { l with queue := [], replay := [], wire := [] })

/-- A die learns of a failure (16 R385): its token rounds on links to the failed die are complete, and messages queued there take the
other way, or are discarded. -/
def State.learnFailure (s : State) (die failed : Nat) : State :=
  let s := s.modDie die fun d => { d with knows := addNew d.knows failed, unconf := d.unconf.filter fun x => x.1 != failed }
  let links := (List.range 32).filter fun l => linkPeer die l == some failed
  let s := each links (fun l s =>
    let s := s.modDie die fun d =>
      { d with roundsOpen := d.roundsOpen.filter fun x => x.1 != l, rounds := put d.rounds l ((d.begun l + 2) % 65536) }
    let s := s.modLink die l fun x => { x with posted := false }
    let (ms, s) := s.drainLink die l
    each ms (fun m s =>
      if m.dst = failed || isToken m.ev then s.unanswered failed m.ev else s.enqueue die { m with since := s.gtime }) s) s
  -- what other links hold for it finds no way on
  let s := each ((s.links.filter fun x => x.1 / 32 == die).map (·.1)) (fun k s =>
    let gone := (s.link die (k % 32)).queue.filter fun m => m.dst == failed
    let s := s.modLink die (k % 32) fun l => { l with queue := l.queue.filter fun m => m.dst != failed }
    each gone (fun m s => s.unanswered failed m.ev) s) s
  s

/-- DIE_FAILURE_BROADCAST (16 R385): a die learns of a failure, and a memory die's home directories process it (R386). -/
def execDieFailureBroadcast (die failed : Nat) (s : State) : Out :=
  let s := s.learnFailure die failed
  .next (if 8 ≤ die && die < 20 then s.post (.homeFailureProcess die failed) else s)

/-- What a failed die held for others is gone with it: what its links had still to send, its cores' waiter lists and its barriers (16
R387). -/
def State.silence (s : State) (failed : Nat) : State :=
  let mute (k : Nat) (l : LinkEnd) : LinkEnd := if k / 32 = failed then { l with queue := [], replay := [], wire := [], posted := false } else l
  let bare (k : Nat) (c : Core) : Core := if dieOf k = failed then { c with waiters := [], bars := List.replicate 4 {} } else c
  { s with links := mapVals s.links mute, cores := mapVals s.cores bare }

/-- An advance no longer waits for the clusters of a failed die (10 R268). -/
def State.advanceWithout (s : State) (failed set : Nat) : State :=
  let was := (s.set set).advances
  let now := was.map fun a => { a with await := a.await.filter fun u => !(64 ≤ u && (u - 64) / 64 == failed) }
  let done := (was.zip now).filter fun x => !x.1.await.isEmpty && x.2.await.isEmpty
  if was.isEmpty then s else each done (fun _ s => s.post (.generationAdvanceDone set)) (s.modSet set fun d => { d with advances := now })

/-- The X-die declares a compute die failed and tells every other die, in class 0 (16 R385). -/
def State.declareFailed (s : State) (failed : Nat) : State :=
  if 8 ≤ failed || s.diefail.getLsbD failed then s
  else
    let s := { s with diefail := s.diefail ||| regBit 22 failed }
    let s := s.modDie failed fun d => { d with on := false }
    let s := (s.silence failed).learnFailure 20 failed
    let s := { s with clusters := mapVals s.clusters fun k x => if k / 64 = failed then { x with inq := [], tasks := [] } else x }
    let s := s.clearSite failed
    let s := each ((List.range 20).filter fun d => !s.diefail.toNat.testBit d) (fun d s =>
      s.send 20 d 0 16 false none (.dieFailureBroadcast d failed)) s
    -- a request under way on the dies of its set no longer waits for it, nor does an advance
    each (List.range (setCount s.mode)) (fun g s => (s.advanceWithout failed g).carriedOut g failed) s

/-- HEARTBEAT_TIMEOUT (16 R385). -/
def execHeartbeatTimeout (die : Nat) (s : State) : Out := .next (s.declareFailed die)

/-- UNRECOVERABLE_FAULT_REPORT (16 R385). -/
def execUnrecoverableFaultReport (die : Nat) (s : State) : Out := .next (s.declareFailed die)

/-- LINK_RETRAIN_DONE (16 R374, R375): the link comes back at x64 or x32, or is down; a link that is down fails a compute die. One between
two dies none of which is a compute die fails none: R385 names no consequence of a link between a memory die and the X-die (DESIGN
CHOICE, log 58), nor of that between the X-die and the host die (DESIGN CHOICE, log 105). -/
def execLinkRetrainDone (die link : Nat) (s : State) : Out :=
  match linkPeer die link with
  | none => .next s
  | some p =>
    let back := linkTo p die
    let a := s.link die link
    let b := s.link p back
    if a.st != 1 then .next s
    else match linkWidth a b ((Config.freeWord s.fresh 5).getLsbD 0) with
      | some (spare, x32) =>
        .next ((s.modLink die link fun l => l.restart spare x32 s.gtime).modLink p back fun l => l.restart spare x32 s.gtime)
      | none =>
        let s := (s.modLink die link fun l => { l with st := 0 }).modLink p back fun l => { l with st := 0 }
        .next (if die < 8 && p < 8 then s.declareFailed (max die p) else if die < 8 then s.declareFailed die
          else if p < 8 then s.declareFailed p else s)

/-- What a home does with a line when a die has failed (16 R386, steps 1 and 2). -/
def DirEntry.without (e : DirEntry) (failed : Nat) : DirEntry :=
  let owned := e.owner == some failed && (e.st == .m || e.st == .o)
  let dies := e.dies &&& ~~~regBit 8 failed
  let e := { e with await := e.await.filter (· != failed), req := if e.req.any (· / 64 == failed) then none else e.req }
  if owned then { ({} : DirEntry) with st := .lost }
  else
    { e with dies := dies, sharers := e.sharers.filter fun k => k / 64 != failed,
             st := if e.st != .lost && dies == 0 && e.owner == none then .i else e.st }

/-- A context that a die's failure takes: its line is held by the die, or its block's home cluster lay on it (16 R386). -/
def State.lostWith (s : State) (id failed : Nat) : Bool :=
  let held := match (s.centry id).holder with
    | .core k => dieOf k == failed
    | .l2 k => k / 64 == failed
    | .shadow d => d == failed
    | .memory => false
  let home := match get? s.blocks (s.ctx id).blk with
    | some b => b.cluster / 64 == failed
    | none => false
  (held || home) && (s.ctx id).kind != 12 && !((s.ctx id).kind == 11 && !held)

/-- HOME_FAILURE_PROCESS (16 R386): the lines and contexts of one memory die. -/
def execHomeFailureProcess (mdie failed : Nat) (s : State) : Out :=
  let mine (l : Nat) : Bool := s.homeDie (setOfPatch s.mode (l / 64)) (192 * l) == mdie
  let lines := (s.dir.filter fun x => mine x.1).map (·.1)
  let s := each lines (fun l s =>
    let e := s.line l
    let n := e.without failed
    let s := s.modLine l fun _ => n
    let s := if n.st == .lost && e.st != .lost then { (s.stamp l) with lost := addNew s.lost (l / 64) } else s
    match n.req with
    | some k =>
      if e.await.contains failed && n.await.isEmpty && n.st != .m then
        s.sendOnce mdie (k / 64) 0 16 true fun _ => .ownershipGrant l k
      else s
    | none => s) s
  let ids := ((s.ctxs.map (·.1)).filter fun id => s.ctxHome id == mdie && s.lostWith id failed)
  .next (each ids (fun id s => (s.endCtx id .lost failed).modEntry id fun e => { e with queue := [] }) s)

/-! ### Calliope (16 R382 to R384) -/

/-- Sets a die's rate correction; what the old rate has gained is kept. -/
def Die.setRate (d : Die) (now : Nat) (rate : Int) : Die :=
  { d with ahead := d.offset now, frac := d.slewed now % 1000000000, slewAt := now, tslew := rate }

/-- A die loses lock (16 R383). -/
def Die.loseLock (d : Die) : Die := { d with locked := false, good := 0, losses := (d.losses + 1) % 65536 }

/-- A die that has lost lock reports it to the partition controller on the X-die (16 R383). -/
def State.lockChanged (s : State) (die : Nat) (f : Die → Die) : State :=
  let t := s.modDie die f
  if (s.die die).locked && !(t.die die).locked then { t with lockReports := t.lockReports ++ [die] } else t

/-- The exchange of a die is due (16 R382). -/
def State.exchangeDue (s : State) (die : Nat) : Bool :=
  let d := s.die die
  die < 20 && d.on && !s.diefail.getLsbD die && 3 ≤ s.bootStep && d.exAt + us ≤ s.gtime

/-- CALLIOPE_EXCHANGE (16 R382): the four timestamps of an exchange. How long each way takes, and the die's reply, is not
stated; the asymmetry is at most 2 ticks, so that the residual error of the offset is at most 1. -/
def execCalliopeExchange (die : Nat) (s : State) : Out :=
  let w := (Config.freeWord s.fresh 1).toNat
  let t1 := s.gtime
  let t2 := s.dieTime die + w % 4096
  let t3 := t2 + w / 4096 % 4096
  let back : Int := (w % 4096 : Nat) + ((w / 2 ^ 24 % 5 : Nat) : Int) - 2
  let t4 := ((t3 : Int) - (s.die die).offset s.gtime + back).toNat
  .next ((s.modDie die fun d => { d with exAt := s.gtime }).post (.calliopeResult die t1 t2 t3 t4))

/-- CALLIOPE_RESULT (16 R382, R383): offset, path delay, lock and servo. The rate is not stated: within 100 parts per million, and
against the offset. -/
def execCalliopeResult (die : Nat) (t1 t2 t3 t4 : Nat) (s : State) : Out :=
  let theta : Int := (((t2 : Int) - t1) - ((t4 : Int) - t3)) / 2
  let size := theta.natAbs
  let free := (Config.freeWord s.fresh 2).toNat
  let rate : Int := if theta = 0 then ((free % 200001 : Nat) : Int) - 100000
    else if 0 < theta then -((free % 100001 : Nat) : Int) else ((free % 100001 : Nat) : Int)
  let delta : Int := (((t2 : Int) - t1) + ((t4 : Int) - t3)) / 2
  .next (s.lockChanged die fun d =>
    let d := { d with theta := theta, delay := delta, missing := 0 }
    if d.locked then
      if 12 < size then d.loseLock else d.setRate s.gtime rate
    else
      let good := if size ≤ 8 then d.good + 1 else 0
      let d := if theta < -4000 then { (d.setRate s.gtime 0) with ahead := d.offset s.gtime - theta } else d.setRate s.gtime rate
      if 16 ≤ good then { d with good := 16, locked := true, everLocked := true } else { d with good := good })

/-- EXCHANGE_MISSING (16 R383, 17 R390): an exchange that did not come, or whose CRC failed, which is logged (17 R399, log 109); the third
in succession loses lock. -/
def execExchangeMissing (die : Nat) (s : State) : Out :=
  let s := s.lockChanged die fun d =>
    let d := { d with missing := min 3 (d.missing + 1), good := 0 }
    if d.missing = 3 && d.locked then d.loseLock else d
  .next (s.logError (s.logsFor die) 0 die 0 8 1 0)

/-- The grandmaster learns how far it is ahead of the external time, or behind it, and follows it by slewing alone (16 R384): at which
rate is not stated, within 100 parts per million and against the offset (log 17). -/
def State.follow (s : State) (ahead : Bool) (ticks : Nat) : State :=
  let free : Int := ((Config.freeWord s.fresh 3).toNat % 100001 : Nat)
  { s with external := if ahead then ticks else -(ticks : Int), ptpRate := if ticks = 0 then 0 else if ahead then -free else free }

/-- PTP_EVENT_MESSAGE (16 R384): a one-step message, or the follow-up that a two-step one waits for, tells the grandmaster of the
external time. -/
def execPtpEventMessage (msg : PtpMessage) (ticks : Nat) (s : State) : Out :=
  .next (match msg with
    | .oneStep ahead => s.follow ahead ticks
    | .twoStep => { s with ptpWaits := true }
    | .followUp ahead => if s.ptpWaits then { (s.follow ahead ticks) with ptpWaits := false } else s)

/-! ### Errors in storage (17 R391 to R395) -/

/-- What a unit does that has found an error in a storage cell and read it once more (17 R391): 1 a correctable error that the second
read does not find, 2 one that it does, 3 an uncorrectable one that it does not find, 4 one that it does, which poisons what is stored
at the places given. -/
def State.classified (s : State) (at_ unit die site struct err addr : Nat) (poison : List Nat) : State :=
  let note (kind : Nat) (s : State) : State := s.logError at_ unit die site struct kind addr
  let fix (s : State) : State := s.modDie at_ fun d => { d with corrected := (d.corrected + 1) % 2 ^ 32 }
  match err with
  | 1 => fix (note 1 s)
  | 2 => fix (note 2 s)
  | 3 => note 1 s
  | 4 => note 3 { s with poison := poison.foldl addNew s.poison }
  | _ => s

/-- A cluster cache of a line's owning die holds a sector's newest bytes, which storage at the home does not (16 R380, 04 R88). -/
def State.sectorAway (s : State) (pa : Nat) : Bool :=
  let e := s.line (pa / 192)
  e.owner.isSome && (e.st == .m || e.st == .o) && e.dirty.getLsbD (pa / 48 % 4)

/-- An access of a unit finds an error in the word that it reads (17 R390, R391): in HBM (0) or a memory-side cache (1) at a physical
address, in a cluster's SRAM (2) as a copy of a physical word or in a tile, in a core store (3), in a core's L1 (4), in a context L1 (5)
or a register bank (6) of a core. An error enters the model where an access finds it, and not where a bit changes: no rule lets anything
see it before (DEDUCED, log 109). The high part of the place is the cluster or the core, where one holds a copy. -/
def State.cellError (s : State) (struct place err : Nat) : State :=
  let a := place % 2 ^ 64
  let u := place / 2 ^ 64
  let home := s.homeDie (setOfPatch s.mode (a / 12288)) a
  match struct with
  | 0 => s.classified (s.logDie a) (s.hbmUnit a) home 0 0 err a (if s.sectorAway a then [] else [a / 8])
  | 1 => s.classified (s.logDie a) 0 home 0 1 err a (if s.sectorAway a then [] else [a / 8])
  | 2 =>
    let k := u % 512
    if tilePlace ≤ a then s.classified (k / 64) 0 (k / 64) (k % 64 * 16) 2 err 0 [a / 8]
    else
      let own := (s.line (a / 192)).cluster == some k && s.sectorAway a
      s.classified (k / 64) 0 (k / 64) (k % 64 * 16) 2 err a [if own then a / 8 else (cachePlace k + a) / 8]
  | 3 =>
    let core := locCore a
    s.classified (dieOf core) 0 (dieOf core) (siteOf core) 3 err (meshBase + a % 2 ^ 29) [(storePlace + a % 2 ^ 29) / 8]
  | 4 =>
    let core := u % 8192
    s.classified (dieOf core) 0 (dieOf core) (siteOf core) 4 err a [(l1Place core + a) / 8]
  | _ =>
    -- a lasting uncorrectable error of a context is CONTEXT_LOSS (R395)
    let core := u % 8192
    if 6 < struct || err = 4 then s else s.classified (dieOf core) 0 (dieOf core) (siteOf core) struct err a []

/-- A memory die's scrubber may read a sector now: it has not passed it in this pass, or the pass has lasted its time and another begins
(17 R393, R400). -/
def State.scrubMay (s : State) (mdie sector : Nat) : Bool :=
  let pa := 48 * sector
  let d := s.die mdie
  let pass := 2 ^ bits s.scrub.toNat 1 4 * 3600 * 1000000 * us
  s.scrub.getLsbD 0 && pa / 12288 < 2 ^ 26 && s.homeDie (setOfPatch s.mode (pa / 12288)) pa == mdie &&
    (d.scrubNext ≤ 4 * (homeSlot s.mode (setOfPatch s.mode (pa / 12288)) (pa / 192)).2 + sector % 4 || d.scrubFrom + pass ≤ s.gtime)

/-- The scrubber has read every sector up to one; those of which no read is an event of the model were without error. -/
def State.scrubbed (s : State) (mdie sector : Nat) : State :=
  let n := 4 * (homeSlot s.mode (setOfPatch s.mode (sector / 256)) (sector / 4)).2 + sector % 4
  s.modDie mdie fun d => { d with scrubFrom := if d.scrubNext ≤ n then d.scrubFrom else s.gtime, scrubNext := n + 1 }

/-- SCRUB_READ (17 R391, R393, R394). `err` says what the read of a sector finds: in its low 3 bits 0 no error and else what
`State.classified` has; above them the doubleword of the sector. Poison that it leaves is replaced by the write-back of an owner that
holds newer bytes. -/
def execScrubRead (mdie sector err : Nat) (s : State) : Out :=
  let pa := 48 * sector + 8 * (err / 8 % 6)
  if !s.scrubMay mdie sector then .next s
  else
    let s := (s.scrubbed mdie sector).classified (s.logDie pa) (s.hbmUnit pa) mdie 0 0 (err % 8) pa
      (if s.sectorAway pa then [] else [pa / 8])
    if err % 8 = 1 || err % 8 = 2 then
      .next ((s.modDie mdie fun d => { d with scrubAt := put d.scrubAt sector s.gtime }).post
        (.scrubWrite mdie sector (getD s.seqs sector 0)))
    else .next s

/-- SCRUB_WRITE (17 R394): the corrected sector is written only if its write sequence number has not changed. The bytes
written are those the sector holds, corrected. -/
def execScrubWrite (mdie sector seq : Nat) (s : State) : Out :=
  let s := s.modDie mdie fun d => { d with scrubAt := del d.scrubAt sector }
  if getD s.seqs sector 0 = seq then .next { s with mem := writeList s.mem (48 * sector) (readList s.mem (48 * sector) 48) }
  else .next s

/-- CONTEXT_LOSS (17 R395): a lasting error in a context's registers or line; in a line that a context L2 or memory holds, its next
claim finds it. -/
def execContextLoss (ctx : Nat) (s : State) : Out :=
  let c := s.ctx ctx
  if c.kind == 12 || c.isFree || (c.kind == 11 && c.handler == 0) then .next s
  else
    let waits := match (s.centry ctx).holder with
      | .l2 _ => c.handler == 0
      | .memory => c.handler == 0
      | _ => false
    .next (if waits then s.modEntry ctx fun e => { e with spoiled := true } else s.loseContext ctx)

end Sys2Proof.Machine
end

