-- ==== Sys2Proof/Machine/Debug.lean ====
section
/-! DEFINITION. Breakpoints (19 R415, R416), samples and event counts of an issue cycle (R419, R421), link-counter
snapshots (R420), and encodings that are no instruction (06 R152). -/

namespace Sys2Proof.Machine

open Sys2Proof

/-- The extension that an encoding's major opcode names: 1 for 11100, 2 for 11101 (02 R56). -/
def extOf (enc : BitVec 32) : Option Nat :=
  if enc.extractLsb' 0 2 != 3 then none
  else match (enc.extractLsb' 2 5).toNat with
    | 0b11100 => some 1
    | 0b11101 => some 2
    | _ => none

/-- NON_INSTRUCTION_ENCODING (06 R152, R153): ILLEGAL_INSTR with the encoding as information word; on a core that lacks the
extension of its major opcode the encoding is first treated as 02 R56 has it. -/
def execNonInstructionEncoding (enc : BitVec 32) (s : State) : Out :=
  match extOf enc with
  | some e => extGate e s fun s => s.fault 1 (enc.setWidth 64)
  | none => s.fault 1 (enc.setWidth 64)

/-! ### Breakpoints -/

/-- The lowest-numbered enabled breakpoint that matches the pc of the context about to issue (19 R415, R416). -/
def State.breakHit (s : State) : Option Nat :=
  -- a trailing context goes where the leading one has been compared (17 R396)
  if s.th.handler != 0 || s.th.bpExempt || (s.th.pair == 2 && !s.caughtUp s.here.ctx) then none
  else (List.range 4).find? fun n =>
    let b := nth (s.part s.th.part).bps n 0
    b.getLsbD 0 && b.extractLsb' 1 56 == s.th.pc.extractLsb' 1 56

/-- A match (19 R415): DEBUG_STOP, or a stop as under `dstop`; the record is written, and a stop is notified. The first of a
pair waits for the other, as it does for any trap. -/
def State.breakStop (s : State) (n : Nat) : Out :=
  let u := s.here
  let stop := (nth (s.part s.th.part).bps n 0).getLsbD 63
  -- a stop is notified once its record has performed (19 R417)
  let note (s : State) : State :=
    s.debugRecord (dieOf u.core) s.th.cva s.th.pc.toNat u.slot u.core n 1 [] (if stop then some s.th.part else none)
  if !stop && s.th.pair == 1 then s.fault 0x15 (BitVec.ofNat 64 n)
  else if !s.caughtUp u.ctx then s.idle 0
  else
    let s := { (note s) with th := { s.th with bpExempt := true } }
    let s := match s.th.peer with
      | some p => if stop then s else s.modCtx p fun c => { c with bpExempt := true }
      | none => s
    if stop then .next (s.haltCtx u.ctx 2)
    else s.fault 0x15 (BitVec.ofNat 64 n)

/-! ### Issue cycles -/

/-- The next issue cycle of a slot at or after a cycle count: cycles c with c mod 16 = slot (01 R23). -/
def slotCycle (cyc slot : Nat) : Nat := cyc + (slot + 16 - cyc % 16) % 16

/-- A counter of a core that counts cycles without a context (19 Table 19-2). -/
def EvCounter.countsEmpty (c : EvCounter) : Bool := bits c.cfg.toNat 0 8 == 3 && bitAt c.cfg.toNat 8

/-- The issue cycles of a slot among the cycles before a count. -/
def issueCycles (slot cyc : Nat) : Nat := (cyc + 15 - slot) / 16

/-- Counts the issue cycles, from one cycle of its die to another, of a core's slots that held no context (19 Table 19-2). -/
def Core.countEmpty (c : Core) (from_ into : Nat) : Core :=
  if c.evs.any EvCounter.countsEmpty then
    let empty := (List.range 16).filter fun k => (nth c.slots k {}).ctx == none
    { c with evs := c.evs.map fun x => empty.foldl (fun x k => x.add 3 (some k) (issueCycles k into - issueCycles k from_)) x }
  else c

/-- A context has stopped at a breakpoint of the instruction at a pc, which it has not issued (19 R415, R416). -/
def Ctx.stoppedAt (c : Ctx) (pc : Nat) : Bool := (c.kind == 8 || c.kind == 9) && c.cause == 0x15 && c.pc.toNat == pc

/-- A context has not issued the instruction at a pc on which it stood: it idles on it, waits with it (`jc.wait`, `vfence`, `exit`,
`bar.wait`, a migration), or took a trap on it. -/
def Ctx.notIssued (c : Ctx) (pc : Nat) : Bool :=
  c.stall != none || (c.pc.toNat == pc && [3, 4, 7, 8, 9, 10].contains c.kind.toNat)

/-- What an issue cycle leaves besides its instruction's effect: event counts, and a sample if one falls due (19 R419, R421).
`pc` is the pc at which the slot issued or idled, and `l` the launch under which it stood. A stop at a breakpoint is neither, and its
exemption stays (R416), as does that of a context which has not issued; a fault of the instruction ends it, since the context is then
resumed from the fault and not from the breakpoint. -/
def State.cycleDone (s : State) (u : Cur) (pc l : Nat) : State :=
  let c := s.ctx u.ctx
  if c.stoppedAt pc then s
  else
    let idle := c.notIssued pc
    -- an empty source, and not a fill that a destination waits for (02 R42)
    let empty := match c.stall with
      | some t => t.extractLsb' 60 4 == 1 && !t.getLsbD 4
      | none => false
    let s := if !idle then s.countCore u.core 1 (some u.slot) else if empty then s.countCore u.core 2 (some u.slot) else s
    let s := if !idle then s.modCtx u.ctx fun c =>
        { c with bpExempt := false, lastIssue := (s.die (dieOf u.core)).cyc, issuedAt := s.gtime }
      else if c.kind == 8 then s.modCtx u.ctx fun c => { c with bpExempt := false }
      else s
    if !idle || empty then s.sampleAt u.core c.part (if idle then 2 else 1) pc l else s

/-- PC_SAMPLE (19 R421): the PC table of the cluster counts the sample. -/
def execPcSample (core : Nat) (s : State) : Out :=
  match (s.core core).sample with
  | some (part, reason, pc, l) => .next ((s.modCore core fun k => { k with sample := none }).pcReportAs core part reason pc l)
  | none => .next s

/-! ### Link counters -/

/-- The multiple of 2^K ticks that a die's gtime has last crossed. -/
def State.crossing (s : State) (die : Nat) : Nat := s.dieTime die / 2 ^ bits (s.die die).lnkcCtl.toNat 1 5

/-- A snapshot is due (19 R420). -/
def State.snapshotDue (s : State) (die : Nat) : Bool :=
  (s.die die).lnkcCtl.getLsbD 0 && (s.die die).lnkcAt < s.crossing die

/-- A free count: no rule fixes the traffic of a mesh port beyond its route, or the stalls of a port. -/
def State.freeCount (s : State) (i : Nat) : Nat := (Config.freeWord s.fresh (16 + i)).toNat

/-- Nothing has travelled over a die's mesh: none of its cores has issued, and none of its links has carried a flit. -/
def State.meshQuiet (s : State) (die : Nat) : Bool :=
  (s.cores.all fun x => dieOf x.1 != die || x.2.lastCyc == 0) &&
    (List.range 16).all fun l => (s.link die l).total == 0 && (s.link die l).got == 0

/-- A counter is one of a port that leads off the mesh, or of a link that is absent (19 R420). -/
def offMesh (die i : Nat) : Bool :=
  if 32768 ≤ i then linkPeer die ((i - 32768) / 8) == none
  else
    let core := i / 32
    match i / 8 % 4 with
    | 0 => xOf core == 31
    | 1 => xOf core == 0
    | 2 => yOf core == 31
    | _ => yOf core == 0

/-- The counters of a die's ports as they are captured (19 R420): since the last capture each has risen by a free count, modulo 2^32,
and by none where nothing travels. The stall counts of the links come after those of the mesh ports. -/
def State.portCounts (s : State) (die : Nat) : FMap Nat :=
  let d := s.die die
  (List.range (32768 + 128)).map fun i =>
    (i, if offMesh die i then 0 else (getD d.ports i 0 + if s.meshQuiet die then 0 else s.freeCount i) % 2 ^ 32)

/-- The counters of a core's four mesh ports, 16 doublewords: for each port and class the flits and the stall cycles. -/
def portWords (ports : FMap Nat) (core : Nat) : List Word :=
  (List.range 16).map fun i =>
    let k := 32 * (core % 1024) + 2 * i
    BitVec.ofNat 64 (getD ports k 0 + 2 ^ 32 * getD ports (k + 1) 0)

/-- The counters of a die link, 4 doublewords: flits sent, and a stall count of 16 bits. -/
def State.linkWords (s : State) (die : Nat) (ports : FMap Nat) (l : Nat) : List Word :=
  (List.range 4).map fun c =>
    if linkPeer die l == none then 0
    else BitVec.ofNat 64 (nth (s.link die l).sent c 0 % 2 ^ 32 + 2 ^ 32 * (getD ports (32768 + 8 * l + 2 * c + 1) 0 % 65536))

/-- The doublewords of a snapshot (19 R420): a header of 64 bytes with the gtime of the crossing, the sequence number and the die, then
the ports of each core in ascending order, then the links. -/
def State.snapshotWords (s : State) (die at_ : Nat) (ports : FMap Nat) : List Word :=
  [BitVec.ofNat 64 at_, BitVec.ofNat 64 (s.die die).lnkcDone, BitVec.ofNat 64 die] ++ List.replicate 5 0 ++
    (List.range 1024).flatMap (portWords ports) ++ (List.range 16).flatMap (s.linkWords die ports)

/-- LINK_COUNTER_SNAPSHOT (19 R420): the earliest crossing that was not seen is written as one record, and every later one is skipped, as
is each while the snapshot before it is still being written. Without a base nothing is written. -/
def execLinkCounterSnapshot (die : Nat) (s : State) : Out :=
  if !s.snapshotDue die then .next s
  else
    let d := s.die die
    let n := s.crossing die
    let busy := !(s.recordsOut die 3).isEmpty
    let ports := s.portCounts die
    let s := s.modDie die fun d => { d with lnkcAt := n, ports := ports }
    if d.lnkcBase == 0 then .next s
    else
      let skip := n - d.lnkcAt - (if busy then 0 else 1)
      let s := s.modDie die fun d => { d with lnkcSkip := (d.lnkcSkip + skip) % 2 ^ 32 }
      if busy then .next s
      else
        let va := d.lnkcBase.toNat + 135168 * (d.lnkcDone % 2 ^ bits d.lnkcCtl.toNat 8 4)
        let ws := s.snapshotWords die ((d.lnkcAt + 1) * 2 ^ bits d.lnkcCtl.toNat 1 5) ports
        .next (s.putRecord die (s.dieActive die) 3 d.lnkcDone va (wordsBytes ws) none)

end Sys2Proof.Machine
end

