-- ==== Sys2Proof/Machine/Package.lean ====
section
/-! DEFINITION. Boot and resets (20 R425), the host interface (R427 to R429), power (R430, R431) and the partition controller
(R432, R433). -/

namespace Sys2Proof.Machine

open Sys2Proof

/-! ### Firmware images (20 R425, 13 R310) -/

/-- An image is verified: its signature checks against a key whose hash is fused into the X-die. -/
def Image.verified (i : Image) : Bool :=
  Config.sha512 i.key == Config.fuseHash && Config.verifies i.key i.signature (Config.sha512 i.bytes)

/-- The bytes of a measurement register or a hash. -/
def bytesOf512 (v : BitVec 512) : List Byte := bytesOfNat v.toNat 64

/-- Extends a measurement register with an image. -/
def State.extend (s : State) (m : Nat) (i : Image) : State :=
  { s with meas := s.meas.modify m fun v => Config.sha512 (bytesOf512 v ++ bytesOf512 (Config.sha512 i.bytes)) }

/-- The image of a boot step, if it is present and verified. -/
def State.verifiedImage (s : State) (n : Nat) : Option Image := (get? s.flash n).bind fun i => if i.verified then some i else none

/-- Loads the page tables that the compute-die image supplies for a partition, and its roots. -/
def State.loadTables (s : State) (i : Image) (part : Nat) : State :=
  let s := each' i.tables s
  match i.roots.find? fun r => r.1 == part with
  | some (_, lo, hi) => s.modPart part fun p => { p with ptLo := lo, ptHi := hi }
  | none => s
where
  /-- Stores the tables of the partition, one after another. -/
  each' : List (Nat × Nat × List Byte) → State → State
    | [], s => s
    | (p, pa, bs) :: r, s => each' r (if p = part then { s with mem := writeList s.mem pa bs } else s)

/-- The line that an image names for a core's M handler can be installed (13 R310): a CVA of the context window that its
tables map, and a line that is free; one of kind 11 that is no handler's is taken too, as R309 takes it (DEDUCED, log 100). -/
def State.lineInstallable (s : State) (part cva : Nat) : Bool :=
  cva % 128 == 0 && regionAt cva == .context && match s.physOf part cva with
    | some id => (s.ctx id).isFree || ((s.ctx id).kind == 11 && (s.ctx id).handler == 0)
    | none => false

/-- An image names one M handler for every core of some dies, no CVA twice, and every line can be installed. -/
def State.handlersOk (s : State) (i : Image) (part : Nat) (dies : List Nat) : Bool :=
  let hs := i.handlers.filter fun h => h.1 == part && dies.contains (dieOf h.2.1)
  let s := s.loadTables i part
  (dies.map dieCores).flatten.all (fun c => (hs.filter fun h => h.2.1 == c).length == 1) && (hs.map (·.2.2.1)).Nodup &&
    hs.all fun h => s.lineInstallable part h.2.2.1

/-- Installs one M handler (13 R309, R310), on its core, or in the partition's shadow image while that is not active. -/
def State.placeHandler (s : State) (part core cva : Nat) (entry : Word) (active : Bool) : State :=
  match s.physOf part cva with
  | none => s
  | some id =>
    let place (c : Core) : Core := { c with hcvaM := BitVec.ofNat 64 cva, hctxM := some id, hentryM := entry, resident := addNew c.resident id }
    let s := s.dropLine id
    let s := if active then s.modCore core place else s.modPart part fun p => { p with image := put p.image core (place (getD p.image core {})) }
    let s := s.modEntry id fun _ =>
      { ({} : CtxEntry) with holder := if active then .core core else .shadow (dieOf core), affinity := clusterOf core }
    s.modCtx id fun _ =>
      { few := 0xFF, fee := 0xF, pc := ({ ({} : Core) with hentryM := entry }).hentry 3, kind := 11, priv := 3, handler := 3, cva := cva,
        part := part, lastCore := some core }

/-- Installs the M handlers of a partition on some dies. -/
def State.placeHandlers (s : State) (i : Image) (part : Nat) (dies : List Nat) (active : Bool) : State :=
  go ((i.handlers.filter fun h => h.1 == part && dies.contains (dieOf h.2.1)).map (·.2)) (s.loadTables i part)
where
  /-- One handler after another. -/
  go : List (Nat × Nat × Word) → State → State
    | [], s => s
    | (core, cva, entry) :: r, s => go r (s.placeHandler part core cva entry active)

/-! ### Boot (20 R425) -/

/-- Records a step that failed, and its reason; no later step runs. -/
def State.bootFails (s : State) (step reason : Nat) : State := { s with bootFail := step, bootReason := reason }

/-- A new dirty map for every die set: no lost bit, and a new instance (10 R269). -/
def State.newMaps (s : State) : State :=
  let s := { s with stamps := [], lost := [] }
  each (List.range 8) (fun g s => s.modSet g fun d => { d with inst := (d.inst + 1) % 2 ^ 32, stampBase := d.gfull % 256 }) s

/-- Every one of some dies initialises. -/
def inits (step : Nat) (dies : List Nat) : Bool := dies.all (Config.initOk step)

/-- Releases dies from reset. -/
def State.release (s : State) (dies : List Nat) : State := each dies (fun d s => s.modDie d fun x => { x with on := true }) s

/-- A place lies in a compute die: in a core store, a tile, or a copy in its caches. -/
def inDie (p die : Nat) : Bool :=
  let u := p / 2 ^ 70
  if 8193 ≤ u then (u - 8193) / 64 == die
  else if u != 0 then dieOf (u - 1) == die
  else if tilePlace ≤ p then (p - tilePlace) / 2 ^ 26 / 64 == die
  else storePlace ≤ p && dieOf (locCore (p - storePlace)) == die

/-- What the reset engine of compute dies leaves in them (20 R425, step 3): core stores zero, banks 0 and 1 CONTEXT and the others
CACHE, no ring state, and no context. -/
def State.clearDies (s : State) (dies : List Nat) : State :=
  { s with
    cstore := s.cstore.filter fun x => !dies.contains (dieOf (locCore x.1))
    cores := s.cores.filter fun x => !dies.contains (dieOf x.1)
    clusters := s.clusters.filter fun x => !dies.contains (x.1 / 64)
    tiles := s.tiles.filter fun x => !dies.contains (x.1 / 1024 / 64)
    poison := s.poison.filter fun w => !dies.any (inDie (8 * w)) }

/-- A boot step may end: the fourth only when every die is locked (16 R383). -/
def State.bootReady (s : State) : Bool :=
  s.bootStep < 5 && s.bootFail == 0 &&
    (s.bootStep != 3 || !inits 4 (List.range 20) || (List.range 20).all fun d => (s.die d).locked)

/-- BOOT_STEP_ADVANCE (20 R425, 13 R310). -/
def execBootStepAdvance (s : State) : Out :=
  if !s.bootReady then .next s
  else match s.bootStep with
  | 0 => match s.verifiedImage 0 with
    | some i => .next { (s.extend 0 i) with bootStep := 1 }
    | none => .next (s.bootFails 1 1)
  | 1 => match s.verifiedImage 1 with
    | some i =>
      let s := s.extend 1 i
      if inits 2 ((List.range 12).map (8 + ·)) then
        .next { ((s.release ((List.range 12).map (8 + ·))).newMaps) with bootStep := 2 }
      else .next (s.bootFails 2 2)
    | none => .next (s.bootFails 2 1)
  | 2 => match s.verifiedImage 2 with
    | some i =>
      let s := s.extend 2 i
      let dies := List.range 8
      let s := { s with mode := 0 }
      if !inits 3 dies then .next (s.bootFails 3 2)
      else if !s.handlersOk i 0 dies then .next (s.bootFails 3 3)
      else
        let s := (s.clearDies dies).release dies
        let s := { s with parts := put s.parts 0 { ({} : Partition) with startDue := true } }
        let s := s.modSet 0 fun d => { d with active := some 0, halted := false }
        .next { ((s.placeHandlers i 0 dies true).goOn 0) with bootStep := 3 }
    | none => .next (s.bootFails 3 1)
  | 3 => .next (if inits 4 (List.range 20) then { s with bootStep := 4 } else s.bootFails 4 2)
  | _ => if !inits 5 [21] then .next (s.bootFails 5 2)
    else match s.verifiedImage 3 with
    | some i => .next { (s.extend 3 i) with bootStep := 5 }
    | none => .next (s.bootFails 5 1)

/-- PACKAGE_RESET (20 R425): everything but the flash is as after reset; the next dirty map has a new instance. -/
def execPackageReset (s : State) : Out :=
  .next { State.reset with flash := s.flash, fresh := s.fresh, sets := mapVals s.sets fun _ d => { ({} : DieSet) with inst := d.inst } }

/-- Both ends of an x32 link have been reset since it became so (16 R374). -/
def State.renewLinks (s : State) (die : Nat) : State :=
  each (List.range 32) (fun l s =>
    match linkPeer die l with
    | none => s
    | some p =>
      let s := s.modLink die l fun x => { x with renewed := x.x32 }
      let back := linkTo p die
      let whole (x : LinkEnd) : LinkEnd := { x with x32 := false, renewed := false, redundant := 0, badLow := 0, badHigh := 0 }
      if (s.link die l).renewed && (s.link p back).renewed then (s.modLink die l whole).modLink p back whole else s) s

/-- A die's caches hold a line no longer. -/
def DirEntry.givenUp (e : DirEntry) (die : Nat) : DirEntry :=
  let dies := e.dies &&& ~~~regBit 8 die
  let e := { e with dies := dies, sharers := e.sharers.filter fun k => k / 64 != die, cluster := e.cluster.filter fun k => k / 64 != die }
  let e := if e.owner == some die then { e with owner := none, dirty := 0 } else e
  { e with st := if e.st == .lost then .lost else if e.owner != none then e.st else if dies == 0 then .i
      else if e.st == .m || e.st == .o then .s else e.st }

/-- DIE_RESET (20 R425): boot step 3 for one compute die. The contexts that it held are lost (DESIGN CHOICE: the spec does not
say what becomes of them), and its caches hold nothing. -/
def execDieReset (die : Nat) (s : State) : Out :=
  if 8 ≤ die || s.diefail.getLsbD die || s.bootStep < 3 then .next s
  else
    let part := s.dieActive die
    let ids := (s.ctxs.map (·.1)).filter fun id => s.lostWith id die && (s.ctx id).handler == 0
    let old := (s.ctxs.map (·.1)).filter fun id => (s.ctx id).handler != 0 && ((s.ctx id).lastCore).any fun c => dieOf c == die
    let s := each ids (fun id s => s.endCtx id .lost die) s
    let s := each old (fun id s => (s.modCtx id fun c => { c with kind := 11, handler := 0 }).modEntry id fun _ => {}) s
    let s := s.clearSite die
    let s := { s with dir := mapVals s.dir fun _ e => e.givenUp die }
    let s := (s.clearDies [die]).renewLinks die
    let s := s.modDie die fun d => { d with overflow := [], walks := [], walkQ := [], walkHeld := [], walkCache := [], on := false }
    match s.verifiedImage 2 with
    | none => .next (s.bootFails 3 1)
    | some i =>
      let s := s.extend 2 i
      if !inits 3 [die] then .next (s.bootFails 3 2)
      else if !s.handlersOk i part [die] then .next (s.bootFails 3 3)
      else
        let s := (s.release [die]).placeHandlers i part [die] true
        .next (each (dieCores die) (fun c s => s.startService c) s)

/-! ### The host and the scale-up ports (20 R427 to R429) -/

/-- The home recalls the dirty owner of every line that some bytes lie in (16 R381). -/
def State.recallAll (s : State) (pa n : Nat) : State :=
  each (List.range ((pa % 192 + n + 191) / 192)) (fun i s =>
    let e := s.line (pa / 192 + i)
    if e.st == .m || e.st == .o then s.modLine (pa / 192 + i) fun e =>
        { e with st := .s, dies := match e.owner with | some d => e.dies ||| regBit 8 d | none => e.dies
                 owner := none, cluster := none, dirty := 0 }
      else s) s

/-- A device address: HBM or host memory. -/
def onDevice (addr size : Nat) : Bool := addr + size ≤ (2 ^ 26 + 2 ^ 24) * 12288

/-- A launch-port write is counted as refused (20 R428). -/
def State.refuseWrite (s : State) (part : Nat) : State :=
  if (get? s.parts part).isSome then s.modPart part fun p => { p with refused := (p.refused + 1) % 2 ^ 32 } else s

/-- A field of a command: the doubleword at an offset. -/
def cmdField (data off : Nat) : Word := BitVec.ofNat 64 (data / 2 ^ (8 * off))

/-- The command that 32 bytes written to a launch port give (20 R428, Table 20-3); none for one that the port refuses. -/
def portCommand (part data : Nat) : Option Ev :=
  let arg0 := cmdField data 8
  let arg1 := cmdField data 16
  let res := cmdField data 24
  if res.toNat % 8 != 0 then none
  else match (cmdField data 0).toNat with
    | 1 => if arg1 = 0 then some (.portLaunch part arg0 arg1 res) else none
    | 2 => some (.portRelaunch part arg0 arg1 res)
    | 3 => some (.portRepair part arg0 arg1 res)
    | _ => none

/-- A host write of some bytes at an offset of the block of launch ports (20 R428, R432): a command joins its partition's queue of
256; any other write is refused and counted. -/
def State.portWrite (s : State) (off size data : Nat) : State :=
  let part := off / 32
  let cmd := if size = 32 && off % 32 = 0 && (s.part part).port.length < 256 then portCommand part data else none
  match cmd with
  | some e => if (get? s.parts part).isSome then s.modPart part fun p => { p with port := p.port ++ [e] } else s
  | none => s.post (.launchPortWriteRefused part)

/-- The command that 64 bytes written to the mailbox give (20 R432, Table 20-7). A number that the table does not list is served as a
command whose argument is out of range (DESIGN CHOICE, log 108). -/
def mailCommand (data : Nat) : Ev :=
  let arg (i : Nat) : Word := cmdField data (8 + 8 * i)
  let res := cmdField data 56
  match (cmdField data 0).toNat with
  | 1 => .setmode (arg 0) res
  | 2 => .create (arg 0) (arg 1) res
  | 3 => .destroy (arg 0) (arg 1) res
  | 4 => .swap (arg 0) (arg 1) res
  | 5 => .slice (arg 0) (arg 1) res
  | 6 => .preempt (arg 0) res
  | 7 => .resume (arg 0) res
  | 8 => .attest (arg 0) (arg 1) res
  | _ => .setmode 3 res

/-- A host write to the mailbox (20 R432): a command joins the queue of 16; a narrower write, and one that finds the queue full, is
refused and counted. R432 does not say in which partition's register: any (log 108). -/
def State.mailWrite (s : State) (off size data : Nat) : State :=
  if size = 64 && off = 0 && s.mailbox.length < 16 then { s with mailbox := s.mailbox ++ [mailCommand data] }
  else s.post (.mailboxWriteRefused ((Config.freeWord s.fresh 9).toNat % 32))

/-- Host addresses of the launch ports, and of the mailbox. -/
def inPorts (addr : Nat) : Bool := Config.portBase ≤ addr && addr < Config.portBase + 1024
def inMailbox (addr : Nat) : Bool := Config.mailBase ≤ addr && addr < Config.mailBase + 64

/-- HOST_ACCESS (20 R427, R428, R432): a host load or store of physical bytes takes its place in the visibility order at the home, to
which the X-die passes it on; a store to a launch port or to the mailbox is a command. Before boot step 5 the host link is not
enabled, and nothing passes it (R425). -/
def execHostAccess (wr : Bool) (addr size data : Nat) (s : State) : Out :=
  if s.bootStep < 5 then .next s
  else if inPorts addr then .next (if wr then s.portWrite (addr - Config.portBase) size data else s)
  else if inMailbox addr then .next (if wr then s.mailWrite (addr - Config.mailBase) size data else s)
  else if !onDevice addr size then .next s
  else .next (s.send 21 (s.homeDie (setOfPatch s.mode (addr / 12288)) addr) 1 32 false none (.errand (.host wr addr size data)))

/-- A host access at the home of its bytes: a load finds there what the dirty owner of a line holds (16 R381). -/
def State.hostAccess (s : State) (wr : Bool) (addr size data : Nat) : State :=
  if wr then s.homeWrite 0 addr data size else s.recallAll addr size

/-- A peer's own memory (20 R429). -/
def ofPeer (peer addr size : Nat) : Bool := (2 ^ 27 + peer * 2 ^ 26) * 12288 ≤ addr && addr + size ≤ (2 ^ 27 + (peer + 1) * 2 ^ 26) * 12288

/-- SCALE_UP_ACCESS (20 R429): a peer of the load-store domain reads or writes physical bytes of the device, or what its own memory
holds changes; peers are 0 to 191. -/
def execScaleUpAccess (peer : Nat) (wr : Bool) (addr size data : Nat) (s : State) : Out :=
  if 192 ≤ peer then .next s
  else if ofPeer peer addr size then .next (if wr then { s with mem := writeNat s.mem addr data size } else s)
  else if !onDevice addr size then .next s
  else .next (s.hostAccess wr addr size data)

/-- A command leaves its partition's launch port. -/
def State.portServed (s : State) (part : Nat) (e : Ev) : State :=
  if (get? s.parts part).isSome then s.modPart part fun p => { p with port := p.port.erase e } else s

/-- LAUNCH_PORT_WRITE_REFUSED (20 R428). -/
def execLaunchPortWriteRefused (part : Nat) (s : State) : Out := .next (s.refuseWrite part)

/-- MAILBOX_WRITE_REFUSED (20 R432). -/
def execMailboxWriteRefused (part : Nat) (s : State) : Out := .next (s.refuseWrite part)

/-- PORT_LAUNCH (20 R428): Ringmaster reads the descriptor with the privilege of S; one that it cannot read is refused. -/
def execPortLaunch (part : Nat) (arg0 arg1 res : Word) (s : State) : Out :=
  let s := s.portServed part (.portLaunch part arg0 arg1 res)
  if arg1 != 0 || res.toNat % 8 != 0 then .next (s.refuseWrite part)
  else match s.physOf part arg0.toNat with
    | some pa =>
      if arg0.toNat % 128 = 0 && s.mayAccess part 1 arg0.toNat .load then
        .next (s.post (.launchAccept part (BitVec.ofNat 64 pa) noCtx 0 false 1 res))
      else .next (s.answer part noCtx 0 false res 0)
    | none => .next (s.answer part noCtx 0 false res 0)

/-- A relaunch or repair from the host (20 R428). -/
def State.portRegion (s : State) (part : Nat) (arg0 arg1 res : Word) (repair : Bool) : State :=
  if res.toNat % 8 != 0 then s.refuseWrite part
  else if arg0.toNat % 1024 = 0 && s.mayAccess part 1 arg0.toNat .load then
    s.post (.relaunchAccept part arg0 arg1 Machine.noCtx 0 false 1 repair res)
  else s.answer part Machine.noCtx 0 false res 0

/-- PORT_RELAUNCH (20 R428). -/
def execPortRelaunch (part : Nat) (arg0 arg1 res : Word) (s : State) : Out :=
  .next ((s.portServed part (.portRelaunch part arg0 arg1 res)).portRegion part arg0 arg1 res false)

/-- PORT_REPAIR (20 R428). -/
def execPortRepair (part : Nat) (arg0 arg1 res : Word) (s : State) : Out :=
  .next ((s.portServed part (.portRepair part arg0 arg1 res)).portRegion part arg0 arg1 res true)

/-! ### Power (01 R31; 20 R430, R431) -/

/-- OPERATING_POINT_CHANGE (01 R31): 600 to 800 MHz in steps of 50, at the next rotation boundary; cycle numbering goes on. -/
def execOperatingPointChange (die mhz : Nat) (s : State) : Out :=
  .next (if die < 8 && 600 ≤ mhz && mhz ≤ 800 && mhz % 50 = 0 then s.modDie die fun d => { d with mhzNext := some mhz } else s)

/-! ### The partition controller (20 R432) -/

/-- A command leaves the mailbox. -/
def State.mailServed (s : State) (e : Ev) : State := { s with mailbox := s.mailbox.erase e }

/-- The set exists. -/
def State.setOk (s : State) (set : Word) : Bool := set.toNat < setCount s.mode

/-- The memory after a change of mode: what HBM holds is undefined (15 R361). -/
def freeHbm (seed : Nat) (m : Memory) : Memory :=
  let hbm (a : Nat) : Bool := a < 2 ^ 26 * 12288
  writePlaces (m.filter fun x => !hbm x.1) ((Config.hbmCells seed).filter fun x => hbm x.1)

/-- A core that no partition uses keeps what is its own. -/
def Core.bare (c : Core) : Core := ({} : Core).own c

/-- SETMODE (15 R361, 20 R432). -/
def execSetmode (mode res : Word) (s : State) : Out :=
  let s := s.mailServed (.setmode mode res)
  let m := mode.toNat
  -- no context of the old mode's partitions is left when the lines are installed
  let s' := { s with mode := m, ctxs := [] }
  if 2 < m then .next (s.mailResult res 1 0)
  else if !s.launches.isEmpty then .next (s.mailResult res 2 0)
  else match get? s.flash 2 with
  | none => .next (s.mailResult res 1 0)
  | some i =>
    let sets := List.range (setCount m)
    if !sets.all fun g => s'.handlersOk i (4 * g) (setDies m g) then .next (s.mailResult res 1 0)
    else
      let s := { s with
        mode := m, mem := freeHbm s.fresh s.mem, ctxs := [], cdir := [], parts := [], blocks := [], tiles := [], dir := [], seqs := [], olds := []
        cur := none, th := {}
        poison := s.poison.filter fun w => 2 ^ 26 * 12288 ≤ 8 * w
        cores := mapVals s.cores fun _ c => { c.bare with l1 := [], tlb := [], waiters := [] }
        clusters := mapVals s.clusters fun _ _ => {}
        dies := mapVals s.dies fun _ d =>
          { d with overflow := [], walks := [], walkQ := [], walkHeld := [], walkCache := [], preempted := false, watches := [] }
        sets := mapVals s.sets fun _ d => { ({} : DieSet) with gfull := d.gfull, inst := d.inst } }
      let s := s.newMaps
      let s := each sets (fun g s =>
        let s := { s with parts := put s.parts (4 * g) { ({} : Partition) with startDue := true } }
        let s := s.modSet g fun d => { d with active := some 0, sliceAt := s.gtime }
        (s.placeHandlers i (4 * g) (setDies m g) true).goOn g) s
      .next (s.mailResult res 0 0)

/-- The CACHE banks of a cluster that do not drain, the highest first. -/
def State.spareBanks (s : State) (k : Nat) : List Nat :=
  ((s.cacheBanks k).filter fun b => !(s.cluster k).drains.any fun d => d.bank == b).reverse

/-- Takes the banks of a share from a cluster's CACHE banks. -/
def State.takeBanks (s : State) (k idx : Nat) (share : Nat × Nat × Nat) : State :=
  let (sc, cx, ff) := share
  let new (i : Nat) : BankMode := if i < sc then .scratch else if i < sc + cx then .context else .fifo
  let banks := (s.spareBanks k).take (sc + cx + ff)
  let s := s.flushCluster k
  s.modCluster k fun c =>
    (List.range banks.length).foldl (fun c i =>
      let b := nth banks i 0
      { c with modes := c.modes.set b (new i), owner := c.owner.set b (some idx) }) c

/-- CREATE (20 R432). -/
def execCreate (set share res : Word) (s : State) : Out :=
  let s := s.mailServed (.create set share res)
  let g := set.toNat
  let w := share.toNat
  let sc := bits w 0 4
  let cx := bits w 4 4
  let ff := bits w 8 4
  let clusters := setClusters s.mode g
  if !s.setOk set || 2 ^ 12 ≤ w || cx < 2 || 14 < sc then .next (s.mailResult res 1 0)
  else match (List.range 4).find? fun i => (get? s.parts (4 * g + i)).isNone with
    | none => .next (s.mailResult res 3 0)
    | some idx =>
      let part := 4 * g + idx
      if clusters.any fun k => (s.spareBanks k).length < sc + cx + ff then .next (s.mailResult res 3 0)
      else match get? s.flash 2 with
        | none => .next (s.mailResult res 1 0)
        | some i =>
          if !s.handlersOk i part (setDies s.mode g) then .next (s.mailResult res 1 0)
          else
            let s := each clusters (fun k s => s.takeBanks k idx (sc, cx, ff)) s
            let s := { s with parts := put s.parts part { ({} : Partition) with share := (sc, cx, ff), startDue := true } }
            .next ((s.placeHandlers i part (setDies s.mode g) false).mailResult res 0 idx)

/-- Ends a resident partition (20 R432). -/
def State.destroyPart (s : State) (g idx : Nat) : State :=
  let part := 4 * g + idx
  let s := each (setClusters s.mode g) (fun k s =>
    let c := s.cluster k
    if !(c.owner.contains (some idx)) && (get? c.rings part).isNone then s
    else
      let s := s.flushCluster k
      s.modCluster k fun c =>
        { c with modes := (List.range 16).map fun b => if nth c.owner b none == some idx then .cache else nth c.modes b .cache
                 owner := c.owner.map fun o => if o == some idx then none else o
                 rings := del c.rings part, tlb := c.tlb.filter fun e => e.part != part }) s
  let ids := (s.ctxs.map (·.1)).filter fun id => (s.ctx id).part == part && (s.ctx id).handler != 0
  let s := each ids (fun id s =>
    ((s.dropLine id).modCtx id fun c => { c with kind := 11, warg := 0, handler := 0, stall := none }).modEntry id fun _ => {}) s
  let s := if (s.set g).active = some idx then
      let s := { s with cores := mapVals s.cores fun c x => if (setDies s.mode g).contains (dieOf c) then x.bare else x }
      let s := each (setDies s.mode g) (fun d s => s.modDie d fun x => { x with overflow := [], preempted := false }) s
      s.modSet g fun d => { d with active := none, halted := false }
    else s
  { s with parts := del s.parts part
           cores := mapVals s.cores fun _ x => { x with tlb := x.tlb.filter fun e => e.part != part }
           dies := mapVals s.dies fun _ x => { x with walkCache := x.walkCache.filter fun e => e.part != part } }

/-- DESTROY (20 R432). -/
def execDestroy (set idx res : Word) (s : State) : Out :=
  let s := s.mailServed (.destroy set idx res)
  let part := 4 * set.toNat + idx.toNat
  if !s.setOk set || 3 < idx.toNat || (get? s.parts part).isNone then .next (s.mailResult res 1 0)
  else if s.launches.any fun l => l.2.part == part then .next (s.mailResult res 2 0)
  else .next ((s.destroyPart set.toNat idx.toNat).mailResult res 0 0)

/-- Begins a swap of a die set: the active partition is pre-empted first. -/
def State.beginSwap (s : State) (g into : Nat) (res : Option Word) : State :=
  match (s.set g).active with
  | some a => s.control g 1 into res fun d => .preemptRequest d (4 * g + a)
  | none => s.control g 2 into res fun d => .partitionSwap d 32 (4 * g + into)

/-- SWAP (20 R432): to the active partition it completes at once; one that was pre-empted goes on. -/
def execSwap (set idx res : Word) (s : State) : Out :=
  let s := s.mailServed (.swap set idx res)
  let g := set.toNat
  let into := idx.toNat
  if !s.setOk set || 3 < into || (get? s.parts (4 * g + into)).isNone then .next (s.mailResult res 1 0)
  else
    let s := s.modSet g fun d => { d with sliceAt := s.gtime }
    if (s.set g).active = some into then
      if (s.set g).halted then .next (s.control g 3 into (some res) fun d => .preemptResume d (4 * g + into))
      else .next (s.mailResult res 0 0)
    else .next (s.beginSwap g into (some res))

/-- SLICE (20 R432). -/
def execSlice (set us_ res : Word) (s : State) : Out :=
  let s := s.mailServed (.slice set us_ res)
  let v := us_.toNat
  if !s.setOk set || !(v = 0 || (100 ≤ v && v ≤ 100000)) then .next (s.mailResult res 1 0)
  else .next ((s.modSet set.toNat fun d => { d with slice := v }).mailResult res 0 0)

/-- PREEMPT (20 R432). -/
def execPreempt (set res : Word) (s : State) : Out :=
  let s := s.mailServed (.preempt set res)
  let g := set.toNat
  match (if s.setOk set then (s.set g).active else none) with
  | none => .next (s.mailResult res 1 0)
  | some a =>
    let s := s.modSet g fun d => { d with sliceAt := s.gtime }
    .next (s.control g 0 a (some res) fun d => .preemptRequest d (4 * g + a))

/-- RESUME (20 R432). -/
def execResume (set res : Word) (s : State) : Out :=
  let s := s.mailServed (.resume set res)
  let g := set.toNat
  match (if s.setOk set then (s.set g).active else none) with
  | none => .next (s.mailResult res 1 0)
  | some a =>
    if (s.set g).halted then .next (s.control g 3 a (some res) fun d => .preemptResume d (4 * g + a))
    else .next (s.mailResult res 0 0)

/-- The signed part of an attestation report (20 Table 20-2). -/
def State.report520 (s : State) (nonce : List Byte) : List Byte :=
  nonce ++ (s.meas.map bytesOf512).flatten ++ bytesOfNat Config.serial.toNat 16 ++ field s.mode 2 ++ field s.bootStep 2 ++ zeros 48

/-- ATTEST (20 R426, R432): the report is written before the result. -/
def execAttest (nonce buf res : Word) (s : State) : Out :=
  let s := s.mailServed (.attest nonce buf res)
  let body := s.report520 (readList s.mem nonce.toNat 64)
  let sig := (Config.sign body ++ zeros 132).take 132
  .next ((s.homeWrite 0 buf.toNat (natOfBytes (body ++ sig)) 520).mailResult res 0 0)

/-- A resident partition has a live launch or a context that is not dormant (20 R433). -/
def State.wantsTurn (s : State) (part : Nat) : Bool :=
  (get? s.parts part).isSome && (s.launches.any (fun l => l.2.part == part) ||
    s.ctxs.any fun c => c.2.part == part && c.2.kind != 11 && c.2.kind != 12 && !c.2.isFree)

/-- A die set's time slice has ended (20 R433). -/
def State.sliceDue (s : State) (g : Nat) : Bool :=
  let d := s.set g
  d.slice != 0 && d.active.isSome && !d.halted && d.ctl.isNone && d.sliceAt + d.slice * us ≤ s.gtime &&
    1 < ((List.range 4).filter fun i => (get? s.parts (4 * g + i)).isSome).length

/-- TIME_SLICE_EXPIRY (20 R433): the next partition in ascending order, wrapping, that has something to run. -/
def execTimeSliceExpiry (set : Nat) (s : State) : Out :=
  if !s.sliceDue set then .next s
  else
    let a := (s.set set).active.getD 0
    match ((List.range 3).map fun i => (a + 1 + i) % 4).find? fun i => s.wantsTurn (4 * set + i) with
    | some into => .next (s.beginSwap set into none)
    | none => .next (s.modSet set fun d => { d with sliceAt := s.gtime })

end Sys2Proof.Machine
end

