-- ==== Sys2Proof/Machine/Waits.lean ====
section
/-! DEFINITION. Wait objects where they are served (02 R53 to R55; 08 R208 to R219): semaphores, join counters, chunk counters,
barriers, key-routed sends, watches and deadlines. -/

namespace Sys2Proof.Machine

open Sys2Proof

/-! ### Semaphores (02 R53, 08 R208) -/

/-- Answers a `sem.p` at its context: a wakeup, which is an acquire at the scope it names, or a notice. -/
def State.answerWait (s : State) (src ctx kind : Nat) (arg : Nat) (acq : Bool) (tx : Option Nat) : State :=
  let h := (s.centry ctx).holder
  s.respond src (holderDie (s.ctxHome ctx) h) 1 16 tx (.wakeupApply ctx kind (BitVec.ofNat 60 arg) acq h)

/-- The oldest semaphore waiter of a location whose context has not ended, and the list without it and those before it
that have. -/
def State.nextWaiter (s : State) (loc : Nat) : List Waiter → Option Waiter × List Waiter
  | [] => (none, [])
  | w :: r =>
    if w.kind == 2 && w.loc == loc then
      if w.dead then s.nextWaiter loc r else (some w, r)
    else
      let (x, r) := s.nextWaiter loc r
      (x, w :: r)

/-- SEM_V_EXECUTE (02 R53): the oldest waiter is granted and the value stays, or the value rises, saturating. -/
def execSemVExecute (loc ctx scope : Nat) (tx : Option Nat) (s : State) : Out :=
  let core := locCore loc
  let part := s.opPart ctx (dieOf core)
  let (w, rest) := s.nextWaiter loc (s.core core).waiters
  let grants := (w.map (·.ctx)).toList
  .next (s.arbitrated part (clusterOf core) 1 loc ctx (.semVExecute loc ctx scope tx) grants fun s =>
    let s := s.modCore core fun c => { c with waiters := rest }
    match w with
    | some w => s.answerWait (dieOf core) w.ctx 2 0 (2 ≤ w.scope) none
    | none =>
      let v := readNat s.cstore loc 8
      s.writeStore loc (min (v + 1) (2 ^ 64 - 1)) 8)

/-- SEM_P_EXECUTE (02 R53): the value falls and the context continues; at zero it joins the waiter list, or is told that
the list is full. -/
def execSemPExecute (loc ctx scope : Nat) (tx : Option Nat) (s : State) : Out :=
  let core := locCore loc
  .next (s.arbitrated (s.opPart ctx (dieOf core)) (clusterOf core) 1 loc ctx (.semPExecute loc ctx scope tx) [] fun s =>
    let v := readNat s.cstore loc 8
    if v != 0 then (s.writeStore loc (v - 1) 8).answerWait (dieOf core) ctx 2 0 (2 ≤ scope) tx
    else
      -- a context that has ended meanwhile is skipped when its turn comes (08 R208)
      let (ok, s) := s.queueWaiter core { ctx := ctx, loc := loc, kind := 2, scope := scope, dead := (s.ctx ctx).kind != 2 }
      s.answerWait (dieOf core) ctx 2 (2 ^ 31 * scope + 2 ^ 30 + (if ok then 0 else 2 ^ 29) + loc) false tx)

/-- SEM_P_RESEND (08 R208): an unqueued request is sent again, 1 us after its answer, by the unit that holds the line. -/
def execSemPResend (ctx : Nat) (s : State) : Out :=
  let c := s.ctx ctx
  match c.resend with
  | some scope =>
    if c.kind == 2 then
      let src := holderDie (s.ctxHome ctx) (s.centry ctx).holder
      let s := s.modCtx ctx fun c => { c with resend := none }
      .next (s.launchEv src (.semPExecute (c.warg.setWidth 29).toNat ctx scope none))
    else .next s
  | none => .next s

/-! ### Join counters (02 R54, 08 R209) -/

/-- The context of a partition that a continuation word names, if it waits with kind 3 on the counter. -/
def State.continued (s : State) (part cva loc : Nat) : Option Nat :=
  let hit (c : Ctx) : Bool := c.part == part && c.cva == cva && c.kind == 3 && (c.warg.setWidth 29).toNat == loc
  match s.cur with
  | some u => if hit s.th then some u.ctx else (s.ctxs.find? fun x => x.1 != u.ctx && hit x.2).map (·.1)
  | none => (s.ctxs.find? fun x => hit x.2).map (·.1)

/-- JC_UPDATE (02 R54): the count, the first fault, the continuation when the count leaves the positive numbers, and the
waiters that may now test again. -/
def execJcUpdate (loc : Nat) (addend : Word) (flt ctx : Nat) (_ : Option Nat) (s : State) : Out :=
  let core := locCore loc
  let die := dieOf core
  let old := s.jcCount loc
  let s := s.writeStore loc ((readNat s.cstore loc 8 + addend.toNat) % 2 ^ 64) 8
  let s := if flt != 0 && readNat s.cstore (loc + 16) 8 = 0 then s.writeStore (loc + 16) flt 8 else s
  let new := s.jcCount loc
  let cont := readNat s.cstore (loc + 8) 8
  let s := if 0 < old && new ≤ 0 && cont != 0 then
      let s := s.writeStore (loc + 8) 0 8
      match s.continued (s.opPart ctx die) cont loc with
      | some id => s.answerWait die id 3 (2 ^ 31 + loc) true none
      | none => s
    else s
  let ready (w : Waiter) : Bool := w.kind == 3 && w.loc == loc && new ≤ w.thr
  let woken := (s.core core).waiters.filter fun w => ready w && !w.dead
  let s := s.modCore core fun c => { c with waiters := c.waiters.filter fun w => !ready w }
  .next (each woken (fun w s => s.answerWait die w.ctx 3 (2 ^ 31 + loc) false none) s)

/-- JC_WAIT_REPOLL (02 R53): a waiter that found the list full has its counter tested again by its owner, which then tries to queue it. -/
def execJcWaitRepoll (ctx : Nat) (s : State) : Out :=
  let c := s.ctx ctx
  let loc := (c.warg.setWidth 29).toNat
  let thr := bits c.warg.toNat 29 31
  if c.kind != 3 then .next s
  else
    let src := holderDie (s.ctxHome ctx) (s.centry ctx).holder
    .next (s.send src (dieOf (locCore loc)) 1 32 false none (.errand (.join loc thr ctx 0 false)))

/-! ### Chunk counters (02 R55) -/

/-- CHUNK_INIT_REQUEST. -/
def execChunkInitRequest (cluster c n p m _ : Nat) (s : State) : Out :=
  .next (s.modCluster cluster fun k => { k with chunks := k.chunks.set c ⟨n, n, p, m⟩ })

/-- The size of the next range (02 R55). -/
def Chunk.next (k : Chunk) : Nat := min (max k.least ((k.remaining + 4 * k.parts - 1) / (4 * k.parts))) k.remaining

/-- CHUNK_REQUEST: the start in [31:0] and the count in [63:32]. -/
def execChunkRequest (cluster c ctx reg : Nat) (tag : Bool) (_ : Nat) (s : State) : Out :=
  let k := nth (s.cluster cluster).chunks c {}
  let n := k.next
  let s := s.modCluster cluster fun x => { x with chunks := x.chunks.set c { k with remaining := k.remaining - n } }
  .next (s.tell (cluster / 64) ctx 2 32 fun h =>
    .registerFill ctx reg tag (BitVec.ofNat 64 (n * 2 ^ 32 + (k.total - k.remaining))) false 0 h 0)

/-! ### Key-routed sends (08 R219) -/

/-- KSEND_ACCUMULATE: no thread is woken. -/
def execKsendAccumulate (loc : Nat) (fp : Bool) (val : BitVec 32) (ctx : Nat) (tx : Option Nat) (s : State) : Out :=
  let core := locCore loc
  .next (s.arbitrated (s.opPart ctx (dieOf core)) (clusterOf core) 3 loc ctx (.ksendAccumulate loc fp val ctx tx) [] fun s =>
    let old := readNat s.cstore loc 4
    let v := if fp then fp32.round 0 false false 0 (fAdd false (fp32.value old) (fp32.value val.toNat))
      else (old + val.toNat) % 2 ^ 32
    s.putStore loc v 4)

/-! ### Watches and deadlines (08 R205, R210) -/

/-- WATCH_ARM (08 R210): compares and arms in one step: 2 where the word differs, 3 where no entry is free. -/
def execWatchArm (inCore : Bool) (addr : Nat) (expected : Word) (ctx reg : Nat) (tag : Bool) (timeout : Nat) (from_ : Sender)
    (s : State) : Out :=
  let unit := from_.unit
  let ver := from_.ver
  let home := if inCore then dieOf (locCore addr) else s.homeDie (setOf s.mode unit) addr
  let w : Waiter := { ctx := ctx, loc := addr, kind := 5, reg := reg, tag := tag,
                      deadline := if timeout = 0 then none else some (s.dieTime home + timeout) }
  let word := readNat (if inCore then s.cstore else s.mem) addr 8
  -- the context was ended meanwhile: nothing is armed for it
  if (s.ctx ctx).kind != 5 then .next s
  else if !inCore && s.staleAt (setOf s.mode unit) (addr / 192) ver then
    .next (s.nackTo (ver / 16 - 1) unit 1 none (.watchArm inCore addr expected ctx reg tag timeout from_))
  else if word != expected.toNat then .next (s.wakeWatch home w 2)
  else if inCore then
    let (ok, s) := s.queueWaiter (locCore addr) w
    .next (if ok then s else s.wakeWatch home w 3)
  else if 16384 ≤ (s.die home).watches.length then .next (s.wakeWatch home w 3)
  else
    -- the home takes back what lets a cluster write without asking it
    let s := s.modLine (addr / 192) fun e =>
      match e.st with
      | .m => { e with st := .o }
      | .e => { e with st := .s }
      | _ => e
    .next (s.modDie home fun d => { d with watches := d.watches ++ [w] })

/-- The watch of a context, or those of contexts that have ended on its line, with the die at which it stands; it is taken out of its
list. -/
def State.takeWatch (s : State) (ctx : Nat) (dead : Bool) : Option (Waiter × Nat) × State :=
  let mine (w : Waiter) : Bool := w.kind == 5 && w.ctx == ctx && w.dead == dead
  let w := match s.cores.findSome? fun (k, c) => (c.waiters.find? mine).map fun w => (w, dieOf k) with
    | some x => some x
    | none => s.dies.findSome? fun (d, x) => (x.watches.find? mine).map fun w => (w, d)
  let dropC (_ : Nat) (c : Core) : Core := { c with waiters := c.waiters.filter fun w => !mine w }
  let dropD (_ : Nat) (d : Die) : Die := { d with watches := d.watches.filter fun w => !mine w }
  (w, { s with cores := mapVals s.cores dropC, dies := mapVals s.dies dropD })

/-- WATCH_TIMEOUT (08 R210). -/
def execWatchTimeout (ctx : Nat) (s : State) : Out :=
  let (w, t) := s.takeWatch ctx false
  match w with
  | some (w, die) => .next (t.wakeWatch die w 1)
  | none => .next s

/-- WATCH_CANCEL (08 R210): the watch of a context that has ended. -/
def execWatchCancel (ctx : Nat) (s : State) : Out := .next (s.takeWatch ctx true).2

/-- TIME_DEADLINE (08 R205, 02 Table 2-2). -/
def execTimeDeadline (ctx : Nat) (s : State) : Out := .next (s.wakeFor ctx 6)

/-! ### Barriers (08 R215 to R217) -/

/-- The member cores of a barrier register's rectangle. -/
def Bar.members (b : Bar) (die : Nat) : List Nat :=
  ((List.range b.ht).map fun j => (List.range b.wd).map fun i => coreAt die (b.x0 + i) (b.y0 + j)).flatten

/-- Contexts of a core, of the partition whose barrier registers it holds, that wait with kind 4 on one of them. -/
def State.barWaiters (s : State) (core n : Nat) : List Nat :=
  let hit (id : Nat) : Bool :=
    let c := s.ctx id
    c.kind == 4 && c.lastCore == some core && c.part == s.dieActive (dieOf core) && (c.warg.setWidth 2).toNat == n
  (((s.cur.map (·.ctx)).toList ++ s.ctxs.map (·.1)).eraseDups).filter hit

/-- An abort is on its way to a core's register. -/
def State.abortComes (s : State) (core n : Nat) : Bool :=
  s.inbox.any fun e => match e with | .barrierAbort c m _ => c == core && m == n | _ => false

/-- BARRIER_SIGNAL (08 R215): row done from the west or column done from below, held until the register is configured. One of a
phase that is aborted here and at its sender is void (R214: bar.cfg starts with no arrivals). -/
def execBarrierSignal (core n : Nat) (column : Bool) (s : State) : Out :=
  let sender := if column then coreAt (dieOf core) (xOf core) (yOf core - 1) else coreAt (dieOf core) (xOf core - 1) (yOf core)
  if (s.bar core n).aborted != none && ((s.bar sender n).aborted != none || s.abortComes sender n) then .next s
  else
  let s := s.modBar core n fun b => if column then { b with colIn := true } else { b with rowIn := true }
  .next (s.advanceBar core n)

/-- BARRIER_RELEASE (08 R215, R216): the generation advances, unless the register is aborted here; waiting threads wake, and
arrivals that came too early count toward the next phase: as many as it has room for, where R216 does not say what becomes of the
others, which go on waiting (DESIGN CHOICE, log 85). The release goes on west, and down the east-most column. -/
def execBarrierRelease (core n : Nat) (s : State) : Out :=
  let b := s.bar core n
  let x := xOf core
  let y := yOf core
  let d := dieOf core
  let s := if b.cfg && b.x0 < x then s.post (.barrierRelease (coreAt d (x - 1) y) n) else s
  let s := if b.cfg && x + 1 == b.x0 + b.wd && b.y0 < y then s.post (.barrierRelease (coreAt d x (y - 1)) n) else s
  if b.aborted != none || !b.cfg then .next s
  else
    let gen := b.gen + 1
    let now := b.late.take b.count
    let waiting := (s.barWaiters core n).filter fun id => !(s.ctx id).warg.getLsbD 10
    let s := s.modBar core n fun b =>
      { b with gen := gen, arrived := now.length, rowIn := false, colIn := false, rowOut := false, colOut := false,
               firstAt := if now.isEmpty then none else some s.gtime, late := b.late.drop b.count }
    -- an abort of this phase that has yet to reach the core is discarded there
    let old (e : Ev) : Bool := match e with | .barrierAbort c m _ => c == core && m == n | _ => false
    let s := { s with inbox := s.inbox.filter fun e => !old e }
    let s := each waiting (fun id s => s.wakeFor id 4) s
    let s := each now (fun (id, reg, tag) s =>
      s.post (.registerFill id reg tag (gen.setWidth 64) false 0 (s.centry id).holder 4)) s
    .next (s.advanceBar core n)

/-- The cores of a barrier whose arrival is incomplete, as a mask of columns and rows (08 R217). -/
def State.missingMask (s : State) (b : Bar) (die n : Nat) : Word :=
  let missing := (b.members die).filter fun k => let x := s.bar k n; !(x.cfg && x.arrived == b.count)
  missing.foldl (fun m k => m ||| BitVec.ofNat 64 (2 ^ (xOf k - b.x0)) ||| BitVec.ofNat 64 (2 ^ (32 + yOf k - b.y0))) 0

/-- BARRIER_TIMEOUT (08 R217): an abort goes to every member core; one whose phase has completed, or that an abort of the phase
has reached, would discard it. -/
def execBarrierTimeout (core n : Nat) (s : State) : Out :=
  let b := s.bar core n
  let mask := s.missingMask b (dieOf core) n
  let stands (k : Nat) : Bool := let x := s.bar k n; x.cfg && x.gen == b.gen && x.aborted == none && !s.abortComes k n
  let s := s.modBar core n fun b => { b with firstAt := none }
  .next (each ((b.members (dieOf core)).filter stands) (fun k s => s.post (.barrierAbort k n mask)) s)

/-- BARRIER_ABORT (08 R217): the register is aborted and every thread that waits on it traps; one that waits in `bar.arr`
has its pc on it, and no fill outstanding. -/
def execBarrierAbort (core n : Nat) (mask : Word) (s : State) : Out :=
  let b := s.bar core n
  if b.aborted != none then .next s
  else
    let waiting := s.barWaiters core n
    let s := s.modBar core n fun b => { b with aborted := some mask, late := [], rowIn := false, colIn := false, firstAt := none }
    .next (each waiting (fun id s =>
      let s := if (s.ctx id).warg.getLsbD 10 then
          let mask := match b.late.find? fun x => s.sameThread x.1 id with | some x => ~~~regBit 8 x.2.1 | none => BitVec.allOnes 8
          s.modCtx id fun c => { c with pc := c.pc - 4, pend := c.pend &&& mask, void := c.void &&& mask }
        else s
      s.asyncTrap id 0x0E mask) s)

end Sys2Proof.Machine
end

