-- ==== Sys2Proof/Machine/Agenda.lean ====
section
/-! DEFINITION. What may happen next: which messages may take effect, which timed steps are due, which slots may issue; and
the fetch of an instruction (06 R131, R132). -/

namespace Sys2Proof.Machine

open Sys2Proof

/-! ### Messages that may take effect -/

/-- A register write whose further effect comes before anything else happens (13 R321). -/
def urgent : Ev → Bool
  | .handlerInstall _ _ _ => true
  | .mcheckClear _ _ => true
  | .regionMigrationStart _ _ _ => true
  | .lnkRetrainForce _ _ => true
  | .lnkInject _ _ => true
  | .rasPop _ => true
  | .dlogBaseWrite _ _ => true
  | .pctDisableSpill _ => true
  | .rplCtlWrite _ _ => true
  | .pwrCapWrite _ _ => true
  | .pcSample _ => true
  | _ => false

/-- An access waits for an earlier one (05 R108, R109, R118): of two that go straight to the place where they take effect the
first, and for one that is still in its cluster also any of the latter kind, wherever it is. -/
def State.behind (s : State) (before : List Ev) (e : Ev) : Bool :=
  match touchOf e with
  | none => false
  | some t =>
    let same (x : Ev) : Bool := match touchOf x with
      | some u => s.sameThread u.ctx t.ctx && u.meets t
      | none => false
    let sameCore (x : Ev) : Bool := match touchOf x with
      | some u => isLocal x && u.write && u.core == t.core && u.meets t
      | none => false
    if isLocal e then (before.any fun x => same x || sameCore x) || s.flying.any fun x => !isLocal x && same x
    else before.any fun x => !isLocal x && same x

/-- The die from which a request of a die's cores came. -/
def fromDie : Ev → Option Nat
  | .homeReadRequest r => some (dieOf r.core)
  | .atomicExecute _ _ _ _ r => some (dieOf r.core)
  | .nibbleStoreExecute r => some (dieOf r.core)
  | .ownershipRequest _ ⟨k, _⟩ => some (k / 64)
  | .restampRequest _ _ ⟨k, _⟩ => some (k / 64)
  | .watchArm false _ _ _ _ _ _ ⟨u, _⟩ => some u
  | .writeBackArrival _ d _ => some d
  | _ => none

/-- A command's answer is on its way to a context. -/
def State.replying (s : State) (id : Nat) : Bool :=
  s.flying.any fun e => match e with
    | .commandReply c _ _ _ _ _ => c == id
    | _ => false

/-- Home of the line that a request names. -/
def State.homeOf (s : State) : Ev → Option Nat
  | .ownershipRequest l ⟨k, _⟩ => some (s.homeDie (setOf s.mode (k / 64)) (192 * l))
  | .restampRequest set l _ => some (s.homeDie set (192 * l))
  | .watchArm false a _ _ _ _ _ ⟨u, _⟩ => some (s.homeDie (setOf s.mode u) a)
  | .writeBackArrival l d _ => some (s.homeDie (setOf s.mode d) (192 * l))
  | e => s.siteDie e

/-- A message from a core to a chunk counter: those of one core arrive in the order sent (16 R378). -/
def sameCounter (cluster c core : Nat) : Ev → Bool
  | .chunkInitRequest k x _ _ _ u => k == cluster && x == c && u == core
  | .chunkRequest k x _ _ _ u => k == cluster && x == c && u == core
  | _ => false

/-- Messages whose delivery is all that a token's echo waits for; what they ask for may wait (09 R255; 14 R346). -/
def deliveredOnce : Ev → Bool
  | .streamerPartStart _ _ _ => true
  | .streamerPartDone _ _ _ => true
  | .preemptRequest _ _ => true
  | .partitionSwap _ _ _ => true
  | .blockStart _ => true
  | _ => false

/-- Every message that a link delivered to a die ahead of a token has performed (05 R116, step 4). -/
def State.clearAhead (s : State) (k : Nat) (token : Ev) : Bool :=
  ((s.inlink.filter fun x => x.1 == k).takeWhile fun x => x.2 != token).all fun x =>
    deliveredOnce x.2 || !(s.inbox.contains x.2 || s.replayHeld.contains x.2)

/-- The parts that a cluster streamer's inbound queue holds (04 Table 4-4); its size without FIFO banks is not stated. -/
def State.streamerRoom (s : State) (cluster : Nat) : Nat :=
  max 1 Config.streamerQueue + 1024 * (s.cluster cluster).fifoBanks.length

/-- The streamer of a part, as the message that begins it names it. -/
def State.partUnit (s : State) : Ev → Option Nat
  | .streamerPartStart k n i => (s.task k n).bind fun t => (t.parts[i]?).map (·.unit)
  | _ => none

/-- A part may begin: its task runs, what raises its counter is acknowledged, and its streamer's partition is not pre-empted and its
queue has reached it. One that has begun goes on (14 R346). -/
def State.partMayStart (s : State) (before : List Ev) (cluster task part : Nat) : Bool :=
  match s.task cluster task with
  | none => true
  | some t =>
    !s.updating (senderOf cluster task jugglerPart) && match t.parts[part]? with
      | some p => p.begun || (s.taskMayRun cluster task && (8 ≤ streamerDie p.unit || s.active t.part (streamerDie p.unit)) &&
          (p.unit < 64 || (before.filter fun e => s.partUnit e == some p.unit).length < s.streamerRoom (p.unit - 64)))
      | none => s.taskMayRun cluster task

/-- A streamer of a die works on a part of a partition's task (14 R346). -/
def State.streaming (s : State) (die part : Nat) : Bool :=
  s.clusters.any fun x => x.2.tasks.any fun y =>
    y.2.part == part && y.2.parts.any fun p => p.begun && !p.moves.isEmpty && streamerDie p.unit == die

/-- A request at the home of the line that a migration is moving, where it waits (15 R367, step 3). -/
def State.atMoving (s : State) (e : Ev) : Bool :=
  let moving (set line : Nat) : Bool := (s.set set).moving && s.movingLine set == some line
  let req (r : Req) : Bool := r.ver != 0 && moving (setOf s.mode (dieOf r.core)) (r.addr / 192)
  match e with
  | .homeReadRequest r => req r
  | .nibbleStoreExecute r => req r
  | .atomicExecute _ _ false _ r => req r
  | .ownershipRequest l ⟨k, _⟩ => moving (setOf s.mode (k / 64)) l
  | .restampRequest set l _ => moving set l
  | .watchArm false a _ _ _ _ _ ⟨u, _⟩ => moving (setOf s.mode u) (a / 192)
  | _ => false

/-- The way of a message of the threads, which it shares with those that arrive in the order sent (16 R378): its source, the unit to which
it goes (a core, 2^14 + a cluster, or 2^15 + a home), and its class. -/
def State.laneOf (s : State) (e : Ev) : Option (Nat × Nat × Nat) :=
  let home (r : Req) (cls : Nat) : Option (Nat × Nat × Nat) := if r.ver = 0 then none else some (r.core, 2 ^ 15 + r.ver / 16, cls)
  let store (core loc : Nat) : Option (Nat × Nat × Nat) := some (core, locCore loc, 1)
  let from_ (ctx : Nat) : Nat := ((s.ctx ctx).lastCore).getD (2 ^ 14 + ctx)
  match e with
  | .homeReadRequest r => home r (if r.ordered then 1 else 0)
  | .nibbleStoreExecute r => home r 1
  | .atomicExecute _ _ inCore _ r => if inCore then store r.core r.addr else home r 1
  | .coreStoreAccess r => store r.core r.addr
  | .semVExecute loc ctx _ _ => store (from_ ctx) loc
  | .semPExecute loc ctx _ _ => store (from_ ctx) loc
  | .jcUpdate loc _ _ ctx _ => store (from_ ctx) loc
  | .ksendAccumulate loc _ _ ctx _ => store (from_ ctx) loc
  | .commandAccept c => some (c.core, 2 ^ 14 + c.cluster, 1)
  | _ => none

/-- A message came before this one by its way, and has still to take effect. -/
def State.laneTaken (s : State) (before : List Ev) (e : Ev) : Bool :=
  match s.laneOf e with
  | some l => before.any fun x => s.laneOf x == some l
  | none => false

/-- A die has room for one more unconfirmed request to the die of a task's join counter (16 R376). -/
def State.jcOpen (s : State) (cluster task die : Nat) : Bool :=
  match s.task cluster task with
  | some t => !t.cmd.j || !s.saturated die (dieOf (locCore (t.cmd.e3.toNat - meshBase)))
  | none => true

/-- A `ctx` instruction that has reached the unit which holds its line may take effect: the line may be changed, and none that its issuer
issued before for it is on its way (13 R318). -/
def State.lineMay (s : State) (op : CtxOp) (line no priv ctx : Nat) (unit : Holder) : Bool :=
  let e := s.centry line
  let earlier (x : Ev) : Bool := match x with
    | .errand (.line _ l n _ c _ _ _) => l == line && c == ctx && n < no
    | .messageReturn _ (.errand (.line _ l n _ c _ _ _)) => l == line && c == ctx && n < no
    | _ => false
  !(e.holder == unit && !e.moving) || (s.ctxMay op line priv && !s.flying.any earlier && !e.queue.any earlier)

/-- A message that no row names may take effect. Parts of the records of a die are written in the order of the records (19 R414). -/
def State.errandReady (s : State) (x : Errand) : Bool :=
  match x with
  | .line op line no priv ctx _ _ unit => s.lineMay op line no priv ctx unit
  | .record die kind no _ _ _ => (s.recordsOut die kind).all (no ≤ ·)
  | _ => true

/-- A line on its way to a core may arrive: the core's context L1 has room for it, and its partition runs there (14 R332, R338). -/
def State.mayArrive (s : State) (ctx : Nat) (dst : Holder) : Bool :=
  (s.centry ctx).transfer != some dst || match dst with
    | .core k => s.l1Open k ctx && ((s.ctx ctx).handler != 0 || (s.ctx ctx).part == s.dieActive (dieOf k))
    | _ => true

/-- A due message may take effect now; `before` are those that came before it. -/
def State.ready (s : State) (before : List Ev) (e : Ev) : Bool :=
  !s.behind before e && !s.atMoving e && !s.laneTaken before e && match e with
  | .errand x => s.errandReady x
  | .messageReturn l (.errand _) =>
    -- what a failed die held waits for its home to process the failure (16 R386)
    let d := holderDie (s.ctxHome l) (s.centry l).holder
    !(d < 8 && s.diefail.getLsbD d)
  | .contextClaim _ c =>
    -- the home queues what names a line until its new holder has acknowledged it (14 R334)
    (s.unit c).all fun x => (s.centry x).transfer != some (s.centry x).holder
  | .contextLineArrival c dst => s.mayArrive c dst
  | .ownershipRequest l ⟨k, _⟩ => !s.saturated (s.homeDie (setOf s.mode (k / 64)) (192 * l)) (k / 64)
  | .writeBackArrival l d _ => match (s.line l).req with
    | some k => !s.saturated (s.homeDie (setOf s.mode d) (192 * l)) (k / 64)
    | none => true
  | .homeNackRetry (.restampRequest set l ⟨k, _⟩) => !s.saturated (k / 64) (s.homeDie set (192 * l))
  | .storeVisible r => ((s.line (r.addr / 192)).req == none || (s.line (r.addr / 192)).st == .lost) &&
      !s.saturated (dieOf r.core) (s.homeDie (setOf s.mode (dieOf r.core)) r.addr)
  | .registerFill c _ _ _ _ _ _ _ => !s.replying c
  | .cmdsDecrement c _ _ => !s.replying c
  | .fenceTokenArrival d l n =>
    s.clearAhead (32 * d + l) e && match (s.die d).tokens.find? fun x => x.1 == l && x.2.1 == n with
      | some (_, _, rounds) => s.roundsDone d rounds
      | none => true
  | .fenceEchoArrival d _ _ => !before.any fun x => match x with
    | .homeNackRetry _ => s.siteDie x == some d
    | _ => false
  | .generationBroadcast set u _ => !before.any fun x => match x with
    | .generationBroadcast set' u' _ => set' == set && u' == u
    | _ => false
  | .chunkInitRequest k c _ _ _ u => !before.any (sameCounter k c u)
  | .chunkRequest k c _ _ _ u => !before.any (sameCounter k c u)
  | .tallocServe k _ _ _ _ _ _ => !before.any fun x => match x with
    | .tallocServe k' _ _ _ _ _ _ => k' == k
    | _ => false
  | .traceReport b _ _ _ _ => !before.any fun x => match x with
    | .traceReport b' _ _ _ _ => b' == b
    | _ => false
  | .barrierAbort c n _ => !s.inbox.any fun x => match x with
    | .barrierRelease c' n' => c' == c && n' == n
    | _ => false
  | .semPResend c => (s.ctx c).pollAt ≤ s.gtime
  | .jcWaitRepoll c => (s.ctx c).pollAt ≤ s.gtime
  | .launchCompletion l => s.launchQuiet l
  | .relaunchComplete l => s.launchQuiet l
  | .blockRecordWrite b => !s.reporting b
  | .blockStart l => match get? s.launches l with
    | some x => (s.set (x.part / 4)).active == some (x.part % 4) && s.canStart x
    | none => true
  | .taskAdmit k => (s.cluster k).inq.isEmpty || (s.cluster k).freeTask.isSome
  | .taskComplete k n => match s.task k n with
    | some t => if t.performed then !s.updating (senderOf k n jugglerPart) else s.taskMayRun k n && s.jcOpen k n (k / 64)
    | none => true
  | .mmaFragmentDone k n => (s.task k n).isNone || s.taskMayRun k n
  | .commandAccept c => !s.walksFor c.cluster c.ctx
  | .streamerPartStart k n i => s.partMayStart before k n i && s.jcOpen k n (k / 64) && !s.walksFor k (senderOf k n 0)
  | .streamerPush k n i => match s.task k n with
    | some t => s.jcOpen k n (((t.parts[i]?).map fun p => streamerDie p.unit).getD (k / 64))
    | none => true
  | .streamerPartDone k n p => !s.updating (senderOf k n p)
  | .bankDrainDone k b => s.drainReady k b
  | .preemptRequest d p => s.quietSlots d && !s.streaming d p
  | .partitionSwap d old _ => old == 32 || s.swapReady d
  | .homeFailureProcess m f => !before.any fun x => fromDie x == some f && s.homeOf x == some m
  | _ => true

/-- The places in the inbox of the messages that may take effect. -/
def State.readyEvents (s : State) : List Nat :=
  (List.range s.inbox.length).filter fun i => match s.inbox[i]? with
    | some e => s.ready (s.replayHeld ++ s.inbox.take i) e
    | none => false

/-! ### Steps that fall due -/

/-- Held operations whose condition holds (05 R108, R115, R436): a load that releases nothing waits only for what it follows. -/
def State.dueReleases (s : State) : List Ev :=
  (List.range s.held.length).filterMap fun i => match s.held[i]? with
    | some h =>
      let free := h.scope == 0 || (s.released h.ctx h.core h.scope i && s.roundsDone (dieOf h.core) h.rounds)
      let full := match h.ev with
        | .homeReadRequest _ => false
        | .storeVisible _ => false
        | e => s.saturated (dieOf h.core) (s.route e).1
      if free && !full && !s.heldBehind i h then some (.heldReleaseSend i) else none
    | none => none

/-- The ends of links that are up. -/
def State.linksUp (s : State) : List (Nat × Nat × LinkEnd) :=
  (s.links.filter fun (k, l) => l.st == 2 && !(k / 32 < 22 && s.diefail.getLsbD (k / 32))).map fun (k, l) => (k / 32, k % 32, l)

/-- What the ends of links may do (16 R373, R376). -/
def State.dueLinks (s : State) : List Ev :=
  s.linksUp.flatMap fun (die, link, l) =>
    (if l.maySend then [.flitSend die link] else []) ++
    (match linkPeer die link with
      | some p => if l.wire.isEmpty then [] else [.flitReceive p (linkTo p die)]
      | none => []) ++
    (if l.posted && !((s.die die).roundsOpen.any fun x => x.1 == link) then [.postedTokenRound die link] else [])

/-- A bound of 1 or 2 us after a gtime has come so near that an issue cycle could pass it. -/
def State.bound (s : State) (since micros : Nat) : Bool := since + micros * us ≤ s.gtime + 120

/-- What the clocks of links make due (16 R373, R376, R378). -/
def State.timedLinks (s : State) : List Ev :=
  s.linksUp.flatMap fun (die, link, l) =>
    (if l.ackForced s.gtime then [.flitSend die link] else []) ++
    (if l.timedOut s.gtime then [.replayTimeout die link] else []) ++
    (if l.posted && s.bound l.postedAt 1 && !((s.die die).roundsOpen.any fun x => x.1 == link) then [.postedTokenRound die link] else []) ++
    ([2, 3].filter fun c => l.ageDue c s.gtime).map (.classAgePromotion die link ·)

/-- The clocks of the partition that is active on a die run: they stop when a request for its pre-emption reaches the die (14 R345). -/
def State.clocksRun (s : State) (die : Nat) : Bool := !(s.die die).preempted && !s.stopping die

/-- What a core's Carousel and barrier registers do (02 R44, R45; 14 R337; 08 R217). -/
def State.timedCore (s : State) (c : Nat) : List Ev :=
  (List.range 16).filterMap (fun k => if (s.idleNext c k).isSome then some (.idleContextReplace c k) else none) ++
  (if (s.displacement c).isSome || (s.core c).slots.any (s.blankOver c) then [.idleContextReplace c 0] else []) ++
  (List.range 16).filterMap (fun k => if (s.quantumNext c k).isSome then some (.quantumExpiry c k) else none) ++
  (if (s.claimable c).isSome || (s.copyable c).isSome then [.carouselRingClaim c] else []) ++
  (List.range 4).filterMap fun n =>
    let b := s.bar c n
    match b.firstAt with
    | some t =>
      if b.cfg && b.timeout != 0 && b.aborted == none && s.clocksRun (dieOf c) && t + b.timeout ≤ s.gtime then
        some (.barrierTimeout c n) else none
    | none => none

/-- Contexts whose line is not free. -/
def State.lines (s : State) : List Nat := (s.ctxs.filter fun x => !x.2.isFree).map (·.1)

/-- Watches whose deadline the gtime of their word's home has reached (08 R210). -/
def State.lateWatches (s : State) : List Nat :=
  let late (die : Nat) (ws : List Waiter) : List Nat :=
    (ws.filter fun w => w.kind == 5 && !w.dead && w.deadline.any (· ≤ s.dieTime die)).map (·.ctx)
  (s.cores.map fun x => late (dieOf x.1) x.2.waiters).flatten ++ (s.dies.map fun x => late x.1 x.2.watches).flatten

/-- What contexts' clocks make due (14 R345; 02 Table 2-2; 08 R210; 14 R342). -/
def State.timedContexts (s : State) : List Ev :=
  s.lines.filterMap (fun id =>
    let c := s.ctx id
    let e := s.centry id
    let queued := match e.holder with
      | .core k => (s.core k).ready.any (·.contains id) && s.clocksRun (dieOf k)
      | .shadow _ => false
      | _ => (getD (s.cluster e.affinity).rings c.part []).any (fun r => r.ctx == id) && s.active c.part (e.affinity / 64) && s.clocksRun (e.affinity / 64)
    if c.kind == 6 && e.transfer == none && reached (s.dieTime (holderDie (s.ctxHome id) e.holder)) c.warg.toNat then
      some (.timeDeadline id)
    else if queued && c.aged s.gtime then some (.agingPromotion id)
    else none) ++
  (s.cdir.filter fun x => x.2.postPending && x.2.postAt + us ≤ s.gtime).map (fun x => .ringPostRetry x.1) ++
  s.lateWatches.map .watchTimeout

/-- What the clocks of Ringmasters and of the partition controller make due (14 R344; 20 R433). -/
def State.timedSets (s : State) : List Ev :=
  (List.range (setCount s.mode)).flatMap fun g =>
    let d := s.set g
    let part := 4 * g + d.active.getD 0
    let used := s.clusters.any fun x => !(getD x.2.rings part []).isEmpty
    (if used && d.active.isSome then
      ((setClusters s.mode g).filter fun k => (s.stealDue k part).isSome).map (.ringmasterSteal · part) else []) ++
    (if s.sliceDue g then [.timeSliceExpiry g] else [])

/-- What region migrations and host commands make due (15 R367; 20 R428). -/
def State.dueSets (s : State) : List Ev :=
  (List.range (setCount s.mode)).flatMap fun g =>
    let d := s.set g
    let part := 4 * g + d.active.getD 0
    (if !d.moving && (s.movingLine g).any fun l => (s.line l).req == none then [.migrationLineMove g] else []) ++
    (if d.active.isSome && d.ctl.isNone then ((s.part part).port.head?).toList else [])

/-- What the dies' clocks make due (16 R382; 19 R420). -/
def State.timedDies (s : State) : List Ev :=
  ((List.range 20).filter s.exchangeDue).map (.calliopeExchange ·) ++
  ((List.range 8).filter s.snapshotDue).map (.linkCounterSnapshot ·)

/-- What boot and the mailbox make due (20 R425, R432). What has come during boot is served when its steps have ended (R426). -/
def State.dueDies (s : State) : List Ev :=
  (if s.bootReady then [.bootStepAdvance] else []) ++
  (if (s.bootStep == 5 || s.bootFail != 0) && s.sets.all fun x => x.2.ctl.isNone then s.mailbox.head?.toList else [])

/-- Replayed operations that have waited for their window (19 R423). -/
def State.timedReplay (s : State) : List Ev :=
  (s.parts.map fun (p, x) => (x.rplHeld.filter fun h => s.overdue h p).map fun h => .replayDivergence h.1 h.2.1).flatten

/-- Steps that a clock makes due: they take place before time goes on. -/
def State.timed (s : State) : List Ev :=
  s.timedLinks ++ ((s.cores.map (·.1)).filter s.issuing).flatMap s.timedCore ++ s.timedContexts ++ s.timedSets ++ s.timedDies ++
    s.timedReplay

/-- Every step that is due without a message. -/
def State.dueNow (s : State) : List Ev := s.timed ++ s.dueReleases ++ s.dueLinks ++ s.dueSets ++ s.dueDies

/-- Messages that a clock makes due: a scrub write lands within 1 us of its read (17 R394), and a retrain ends within 2 us of its
beginning (16 R374). -/
def State.timedMsg (s : State) : Ev → Bool
  | .semPResend _ => true
  | .jcWaitRepoll _ => true
  | .calliopeResult _ _ _ _ _ => true
  | .scrubWrite m x _ => s.bound (getD (s.die m).scrubAt x s.gtime) 1
  | .linkRetrainDone d l => s.bound (s.link d l).sentAt 2
  | _ => false

/-! ### Time (01 R31, R33, R34) -/

/-- Parts of a tick in which the model counts: 273, so that a cycle at each operating point is a whole number of them. -/
def tickParts : Nat := 273

/-- Parts of a tick in a cycle at an operating point: a tick is 250 ps. -/
def cycleParts (mhz : Nat) : Nat := 4000 * tickParts / max 1 mhz

/-- The next cycle count of a die that is a multiple of 16 (01 R31). -/
def Die.rotation (d : Die) : Nat := if d.cyc % 16 = 0 && d.phase = 0 then d.cyc else d.cyc / 16 * 16 + 16

/-- A compute die's cycles go on for some parts of a tick. An operating point that was chosen meanwhile takes effect at the next
rotation (01 R31). -/
def Die.advance (d : Die) (n : Nat) : Die :=
  let plain (d : Die) (t : Nat) : Die := { d with cyc := d.cyc + t / cycleParts d.mhz, phase := t % cycleParts d.mhz }
  let left := (d.rotation - d.cyc) * cycleParts d.mhz
  match d.mhzNext with
  | none => plain d (d.phase + n)
  | some m =>
    if d.phase + n < left then plain d (d.phase + n)
    else plain { d with cyc := d.rotation, phase := 0, mhz := m, mhzNext := none } (d.phase + n - left)

/-- Parts of a tick until the beginning of a later cycle of a die. -/
def Die.until (d : Die) (c : Nat) : Nat :=
  let whole (n mhz : Nat) : Nat := n * cycleParts mhz
  match d.mhzNext with
  | none => whole (c - d.cyc) d.mhz - d.phase
  | some m =>
    if c ≤ d.rotation then whole (c - d.cyc) d.mhz - d.phase
    else whole (d.rotation - d.cyc) d.mhz - d.phase + whole (c - d.rotation) m

/-- Clusters of which something was ever changed. -/
def State.knownClusters (s : State) : List Nat := ((s.clusters.map (·.1)) ++ s.cores.map fun x => clusterOf x.1).eraseDups

/-- A cluster that has ready work of the partition which its die runs is not idle for it (14 R344). -/
def State.noteBusy (s : State) : State :=
  each (s.knownClusters.filter fun k => s.clusterBusy k (s.dieActive (k / 64))) (fun k s =>
    s.modCluster k fun x => { x with idleSince := put x.idleSince (s.dieActive (k / 64)) s.gtime }) s

/-- The slots of a core that hold no context count the cycles that have passed (19 Table 19-2). -/
def State.emptyCycles (s t : State) (c : Nat) (k : Core) : Core := k.countEmpty (s.die (dieOf c)).cyc (t.die (dieOf c)).cyc

/-- What the grandmaster gains on nominal time in some ticks, in 10^-9 ticks, while it follows the external time (16 R384). -/
def State.slewing (s : State) (ticks : Nat) : Int := s.ptpFrac + (ticks : Int) * s.ptpRate

/-- The grandmaster slews until it stands at the external time (16 R384). -/
def State.slew (s : State) (ticks : Nat) : State :=
  if s.ptpRate = 0 then { s with gtime := (s.gtime + ticks) % 2 ^ 64 }
  else
    let gain := s.slewing ticks / 1000000000
    let off := s.external + gain
    let there := off = 0 || (off < 0) != (s.external < 0)
    { s with gtime := wrap 64 ((s.gtime + ticks : Nat) + gain), external := if there then 0 else off
             ptpRate := if there then 0 else s.ptpRate, ptpFrac := if there then 0 else s.slewing ticks % 1000000000 }

/-- Time goes on by some parts of a tick, and with it the cycles of every compute die that runs. -/
def State.elapse (s : State) (n : Nat) : State :=
  if n = 0 then s
  else
    let t := { s.slew ((s.sub + n) / tickParts) with
      sub := (s.sub + n) % tickParts, dies := mapVals s.dies fun d x => if d < 8 && x.on then x.advance n else x }
    State.noteBusy (if t.cores.any fun x => x.2.evs.any EvCounter.countsEmpty then { t with cores := mapVals t.cores (s.emptyCycles t) } else t)

/-- Nothing happens: 80 ticks pass. -/
def State.pass (s : State) : State := s.elapse (80 * tickParts)

/-! ### Slots -/

/-- A pre-emption of its die, or a `ctx` instruction that halts or moves it, waits for a pair to stand (14 R346; 17 R396). -/
def State.asked (s : State) (core id : Nat) : Bool :=
  s.stopping (dieOf core) || s.inbox.any fun e => match e with
    | .errand (.line op l _ _ _ _ _ _) => (s.unit id).contains l && match op with
      | .park => true
      | .stop => true
      | .evict _ => true
      | _ => false
    | _ => false

/-- A context of its core waits for the place of a pair (02 R45, R50; 13 R312). -/
def State.outstayed (s : State) (core id : Nat) : Bool :=
  let c := s.ctx id
  (s.core core).waiting.any fun x =>
    c.runAt + 64 * us ≤ s.gtime || (s.ctx x).handler != 0 || (s.ctx x).pin != none || (s.ctx x).level < c.level

/-- A context of a pair does not issue: its leading context while something waits for the trailing one to catch up, and both once it
has, for what then happens to the pair (17 R396). -/
def State.stands (s : State) (core id : Nat) : Bool :=
  (s.mate id).isSome && if s.caughtUp id then s.asked core id else (s.ctx id).pair == 1 && (s.asked core id || s.outstayed core id)

/-- A slot may issue: it holds a ready context that waits for no Juggler's answer, and no pre-emption has halted it (01 R23;
13 R328; 09 R232; 14 R346). -/
def State.runnable (s : State) (core slot : Nat) : Bool :=
  let x := s.slotAt core slot
  match x.ctx with
  | some id => s.issuing core && x.usable && (s.ctx id).kind == 0 && !s.commanding id && (s.centry id).transfer == none && !s.stands core id
  | none => false

/-- The next issue cycle of a slot (01 R23): one that begins now or later, and that its core has not used. -/
def State.issueCycle (s : State) (core slot : Nat) : Nat :=
  let d := s.die (dieOf core)
  slotCycle (max (if d.phase = 0 then d.cyc else d.cyc + 1) ((s.core core).lastCyc + 1)) slot

/-- Parts of a tick until then. -/
def State.issueDelay (s : State) (core slot : Nat) : Nat := (s.die (dieOf core)).until (s.issueCycle core slot)

/-- The slots that may issue. -/
def State.runnables (s : State) : List (Nat × Nat) :=
  (s.cores.map (·.1)).flatMap fun c => ((List.range 16).filter (s.runnable c)).map fun k => (c, k)

/-- The slots whose issue cycle comes first: no slot passes its issue cycle over (01 R23, R24). -/
def State.nextSlots (s : State) : List (Nat × Nat) :=
  let l := s.runnables.map fun x => (x, s.issueDelay x.1 x.2)
  (l.filter fun x => l.all fun y => x.2 ≤ y.2).map (·.1)

/-- One thing that may happen next: a message, a step that is due, or an issue. -/
inductive Due where
  | message (i : Nat)
  | due (e : Ev)
  | issue (core slot : Nat)
deriving DecidableEq, Repr

/-- Something is due that takes place before time goes on. -/
def State.pressing (s : State) : Bool :=
  !s.timed.isEmpty || s.readyEvents.any fun i => match s.inbox[i]? with
    | some e => s.timedMsg e
    | none => false

/-- Everything that may happen next. A register write's further effect comes first. -/
def State.agenda (s : State) : List Due :=
  match s.inbox.findIdx? urgent with
  | some i => [.message i]
  | none =>
    s.readyEvents.map .message ++ s.dueNow.map .due ++
      (if s.pressing then [] else s.nextSlots.map fun x => .issue x.1 x.2)

/-- Time may pass although something may happen: no clock makes it due now, and no slot may issue (05 R106: a message takes any
time). -/
def State.mayWait (s : State) : Bool := !s.inbox.any urgent && !s.pressing && s.runnables.isEmpty

/-- The next thing to happen: of several, no rule fixes which (02 R49, 05 R111), and the choice is free; none where time passes. -/
def State.pick (s : State) : Option Due :=
  match s.agenda, s.mayWait with
  | [], _ => none
  | [d], false => some d
  | ds, w => ds[Config.arb s.fresh % (ds.length + if w then 1 else 0)]?

/-! ### Issue -/

/-- Puts the issuing context's register bank back into its line. -/
def State.unload (s : State) : State :=
  match s.cur with
  | some u => { s with ctxs := put s.ctxs u.ctx s.th, cur := none, th := {} }
  | none => s

/-- A slot's context at its next issue cycle: cycles c with c mod 16 = slot (01 R23, R33). -/
def State.load (s : State) (core slot id : Nat) : State :=
  let c := s.issueCycle core slot
  let s := s.elapse (s.issueDelay core slot)
  let s := s.modCore core fun k => { k with lastCyc := c }
  let s := { s with th := s.ctx id, cur := some ⟨core, slot, id⟩, ipc := (s.ctx id).pc }
  (if s.th.inval then { (s.acquireL1 core) with th := { s.th with inval := false } } else s).unfence

/-! ### Fetch (06 R131, R132) -/

/-- A halfword of code as a core may fetch it: the visible one, or one that a write has replaced since the core's last acquire of
scope `.cl` or wider (06 R133). -/
def State.codeHalf (s : State) (core pa : Nat) : BitVec 16 :=
  let old := (s.olds.filter fun x => x.1 == pa / 2 && (s.core core).acqAt ≤ x.2.2).map (·.2.1)
  let all := halfAt s.mem (pa / 2) :: old
  if old.isEmpty then halfAt s.mem (pa / 2) else nth all (Config.codeChoice s.fresh pa % all.length) 0

/-- Fetches the halfword at an address for the issuing context. -/
def withHalf (va : Nat) (s : State) (k : BitVec 16 → State → Out) : Out :=
  if regionAt va == .mesh || regionAt va == .context then s.fault 7 (BitVec.ofNat 64 va)
  else match s.look s.hereCore s.here.ctx va .fetch with
    | .ok pa s => k (s.codeHalf s.hereCore pa) s
    | .fault c s => s.fault c (BitVec.ofNat 64 va)
    | .wait s => s.idle 0

/-- Fetches the instruction at the pc: each halfword is checked. A spawned context whose entry point had bits above [56:0] takes
the fault of that address at its first fetch (08 R212). -/
def withEnc (s : State) (k : Enc → State → Out) : Out :=
  let pc := s.th.pc.toNat
  if s.th.entryHi != 0 then s.fault 6 (s.th.entryHi ++ s.th.pc)
  else withHalf pc s fun h s =>
    if isLong h then withHalf ((pc + 2) % 2 ^ 57) s fun h' s => k (.word (h' ++ h)) s else k (.half h) s

/-- What comes between fetch and execution: the comparison with the breakpoints (19 R415). -/
def State.fetched (s : State) (e : Enc) (k : State → Out) : Out :=
  let s := { s with ienc := e.toWord }
  match s.breakHit with
  | some n => s.breakStop n
  | none => k s

/-- A slot's issue cycle, up to the instruction that it executes: an asynchronous trap or a stop that is held comes first (13
R314, R316). That of a pair waits until the trailing context has caught up: the leading one idles meanwhile (17 R396). -/
def State.atBoundary (s : State) (core id : Nat) (k : State → Out) : Out :=
  let c := s.ctx id
  if c.heldTraps.isEmpty && c.heldStop.isEmpty then k s
  else if !s.caughtUp id then (if c.pair == 2 then k s else if c.stall.isSome then .next s else s.idle 0)
  else match c.heldTraps, c.heldStop with
    | [], how :: _ => .next (s.stopNow id how)
    | _, _ => .next (s.takeHeld core id)

/-- What a step leaves besides its effect: the number of the free choices advances. -/
def stepped : Out → Out
  | .next s => .next { s with fresh := s.fresh + 1 }
  | o => o

/-- What an issue cycle leaves besides that: event counts and samples, for a context that stood at a pc under a launch. -/
def issued (u : Cur) (pc l : Nat) : Out → Out
  | .next s => .next (s.cycleDone u pc l)
  | o => o

/-- The bytes of an instruction word as the hardware stores them (06 R131). -/
def wordBytes (w : Nat) : List Byte := bytesOfNat w 4

/-- The state in which core d0:(0,0) is about to fetch the instruction whose bits are given, in slot 0, at address 0, with
privilege M and every register full, in mode 0 with partition 0 active and a TLB entry for its page. -/
def State.placed (s : State) (w : Nat) : State :=
  let line := 12288
  let c : Ctx := { few := 0xFF, fee := 0xF, priv := 3, handler := 3, cva := 2 ^ 56, lastCore := some 0 }
  let e : TlbEntry := ⟨0, false, 1, 0, 0, true, true, true, false⟩
  let core : Core := { slots := { ctx := some line } :: List.replicate 15 {}, resident := [line], tlb := [e], hcvaM := BitVec.ofNat 64 (2 ^ 56),
                       hctxM := some line }
  { s with
    th := {}, cur := none, inbox := [], held := [], mailbox := [], links := [], clusters := [], launches := [], blocks := []
    mode := 0, bootStep := 5, bootFail := 0, gtime := 0, sub := 0, inlink := [], olds := []
    mem := writeList s.mem 0 (wordBytes w)
    ctxs := [(line, c)], cdir := [(line, { ({} : CtxEntry) with holder := .core 0 })], cores := [(0, core)]
    dies := [(0, { ({} : Die) with on := true })], parts := [(0, {})], sets := [(0, { ({} : DieSet) with active := some 0 })] }

end Sys2Proof.Machine
end

