-- ==== Sys2Proof/Machine/Dispatch.lean ====
section
/-! DEFINITION. What each instruction does: one arm per constructor of Instr, in the order of spec/opcode_table.json, each a
direct call of the instruction's own meaning. -/

namespace Sys2Proof.Machine

open Sys2Proof

/-- The meaning of an instruction, or of a step that no encoding names. -/
def exec (i : Instr) (s : State) : Host.Outcome State Fault Refusal :=
  match i with
  | .add w g b h a d => Sys2Proof.Machine.execAdd w g b h a d s
  | .sub w g b h a d => Sys2Proof.Machine.execSub w g b h a d s
  | .mul w g b h a d => Sys2Proof.Machine.execMul w g b h a d s
  | .mulh z w g b h a d => Sys2Proof.Machine.execMulh z w g b h a d s
  | .div z w g b h a d => Sys2Proof.Machine.execDiv z w g b h a d s
  | .rem z w g b h a d => Sys2Proof.Machine.execRem z w g b h a d s
  | .and w g b h a d => Sys2Proof.Machine.execAnd w g b h a d s
  | .or w g b h a d => Sys2Proof.Machine.execOr w g b h a d s
  | .xor w g b h a d => Sys2Proof.Machine.execXor w g b h a d s
  | .andn w g b h a d => Sys2Proof.Machine.execAndn w g b h a d s
  | .orn w g b h a d => Sys2Proof.Machine.execOrn w g b h a d s
  | .shl w g b h a d => Sys2Proof.Machine.execShl w g b h a d s
  | .shr w g b h a d => Sys2Proof.Machine.execShr w g b h a d s
  | .sar w g b h a d => Sys2Proof.Machine.execSar w g b h a d s
  | .rol w g b h a d => Sys2Proof.Machine.execRol w g b h a d s
  | .ror w g b h a d => Sys2Proof.Machine.execRor w g b h a d s
  | .clz w h a d => Sys2Proof.Machine.execClz w h a d s
  | .ctz w h a d => Sys2Proof.Machine.execCtz w h a d s
  | .popc w h a d => Sys2Proof.Machine.execPopc w h a d s
  | .bext z w g b h a d => Sys2Proof.Machine.execBext z w g b h a d s
  | .bins w g b h a d => Sys2Proof.Machine.execBins w g b h a d s
  | .sext s0 w h a d => Sys2Proof.Machine.execSext s0 w h a d s
  | .zext s0 w h a d => Sys2Proof.Machine.execZext s0 w h a d s
  | .min z w g b h a d => Sys2Proof.Machine.execMin z w g b h a d s
  | .max z w g b h a d => Sys2Proof.Machine.execMax z w g b h a d s
  | .abs w h a d => Sys2Proof.Machine.execAbs w h a d s
  | .mov w h a d => Sys2Proof.Machine.execMov w h a d s
  | .sel p g b h a d => Sys2Proof.Machine.execSel p g b h a d s
  | .cmp w p g b h a c => Sys2Proof.Machine.execCmp w p g b h a c s
  | .xset h a d => Sys2Proof.Machine.execXset h a d s
  | .xget h a d => Sys2Proof.Machine.execXget h a d s
  | .andi w i0 h a d => Sys2Proof.Machine.execAndi w i0 h a d s
  | .ori w i0 h a d => Sys2Proof.Machine.execOri w i0 h a d s
  | .xori w i0 h a d => Sys2Proof.Machine.execXori w i0 h a d s
  | .shli w i0 h a d => Sys2Proof.Machine.execShli w i0 h a d s
  | .shri w i0 h a d => Sys2Proof.Machine.execShri w i0 h a d s
  | .sari w i0 h a d => Sys2Proof.Machine.execSari w i0 h a d s
  | .roli w i0 h a d => Sys2Proof.Machine.execRoli w i0 h a d s
  | .rori w i0 h a d => Sys2Proof.Machine.execRori w i0 h a d s
  | .muli w i0 h a d => Sys2Proof.Machine.execMuli w i0 h a d s
  | .addi i0 h a d => Sys2Proof.Machine.execAddi i0 h a d s
  | .movi i0 d => Sys2Proof.Machine.execMovi i0 d s
  | .movh i0 h a d => Sys2Proof.Machine.execMovh i0 h a d s
  | .cmpi p i0 h a c => Sys2Proof.Machine.execCmpi p i0 h a c s
  | .padd l g b h a d => Sys2Proof.Machine.execPadd l g b h a d s
  | .psub l g b h a d => Sys2Proof.Machine.execPsub l g b h a d s
  | .padds z l g b h a d => Sys2Proof.Machine.execPadds z l g b h a d s
  | .psubs z l g b h a d => Sys2Proof.Machine.execPsubs z l g b h a d s
  | .pmul l g b h a d => Sys2Proof.Machine.execPmul l g b h a d s
  | .pmulh z l g b h a d => Sys2Proof.Machine.execPmulh z l g b h a d s
  | .pdot z l g b h a d => Sys2Proof.Machine.execPdot z l g b h a d s
  | .pavg z l g b h a d => Sys2Proof.Machine.execPavg z l g b h a d s
  | .pmin z l g b h a d => Sys2Proof.Machine.execPmin z l g b h a d s
  | .pmax z l g b h a d => Sys2Proof.Machine.execPmax z l g b h a d s
  | .pabs l h a d => Sys2Proof.Machine.execPabs l h a d s
  | .psad z l g b h a d => Sys2Proof.Machine.execPsad z l g b h a d s
  | .pclip z l g b h a d => Sys2Proof.Machine.execPclip z l g b h a d s
  | .pshl l g b h a d => Sys2Proof.Machine.execPshl l g b h a d s
  | .pshr l g b h a d => Sys2Proof.Machine.execPshr l g b h a d s
  | .psar l g b h a d => Sys2Proof.Machine.execPsar l g b h a d s
  | .pvshl l g b h a d => Sys2Proof.Machine.execPvshl l g b h a d s
  | .pvshr l g b h a d => Sys2Proof.Machine.execPvshr l g b h a d s
  | .pvsar l g b h a d => Sys2Proof.Machine.execPvsar l g b h a d s
  | .pcmp k l g b h a c => Sys2Proof.Machine.execPcmp k l g b h a c s
  | .psel k l g b h a d => Sys2Proof.Machine.execPsel k l g b h a d s
  | .pperm g b h a d => Sys2Proof.Machine.execPperm g b h a d s
  | .pnarrow z l g b h a d => Sys2Proof.Machine.execPnarrow z l g b h a d s
  | .pwiden z l u h a d => Sys2Proof.Machine.execPwiden z l u h a d s
  | .fadd g b h a d => Sys2Proof.Machine.execFadd g b h a d s
  | .fsub g b h a d => Sys2Proof.Machine.execFsub g b h a d s
  | .fmul g b h a d => Sys2Proof.Machine.execFmul g b h a d s
  | .fma g b h a d => Sys2Proof.Machine.execFma g b h a d s
  | .fdiv g b h a d => Sys2Proof.Machine.execFdiv g b h a d s
  | .fsqrt h a d => Sys2Proof.Machine.execFsqrt h a d s
  | .fmin g b h a d => Sys2Proof.Machine.execFmin g b h a d s
  | .fmax g b h a d => Sys2Proof.Machine.execFmax g b h a d s
  | .fcmp p g b h a c => Sys2Proof.Machine.execFcmp p g b h a c s
  | .fcvt f h a d => Sys2Proof.Machine.execFcvt f h a d s
  | .fclass p g b h a => Sys2Proof.Machine.execFclass p g b h a s
  | .pset n => Sys2Proof.Machine.execPset n s
  | .pclr n => Sys2Proof.Machine.execPclr n s
  | .pnot a d => Sys2Proof.Machine.execPnot a d s
  | .pand b a d => Sys2Proof.Machine.execPand b a d s
  | .por b a d => Sys2Proof.Machine.execPor b a d s
  | .pxor b a d => Sys2Proof.Machine.execPxor b a d s
  | .pwr d => Sys2Proof.Machine.execPwr d s
  | .pww g b h a => Sys2Proof.Machine.execPww g b h a s
  | .pcnt h a d => Sys2Proof.Machine.execPcnt h a d s
  | .ld k s0 z h a t => Sys2Proof.Machine.execLd k s0 z h a t s
  | .st k s0 z f h a t => Sys2Proof.Machine.execSt k s0 z f h a t s
  | .ldAnchorRel x y s0 z h a t => Sys2Proof.Machine.execLdAnchorRel x y s0 z h a t s
  | .stAnchorRel x y s0 z f h a t => Sys2Proof.Machine.execStAnchorRel x y s0 z f h a t s
  | .amoAdd e o s0 g b h a d => Sys2Proof.Machine.execAmoAdd e o s0 g b h a d s
  | .amoAnd e o s0 g b h a d => Sys2Proof.Machine.execAmoAnd e o s0 g b h a d s
  | .amoOr e o s0 g b h a d => Sys2Proof.Machine.execAmoOr e o s0 g b h a d s
  | .amoXor e o s0 g b h a d => Sys2Proof.Machine.execAmoXor e o s0 g b h a d s
  | .amoMinS e o s0 g b h a d => Sys2Proof.Machine.execAmoMinS e o s0 g b h a d s
  | .amoMaxS e o s0 g b h a d => Sys2Proof.Machine.execAmoMaxS e o s0 g b h a d s
  | .amoSwp e o s0 g b h a d => Sys2Proof.Machine.execAmoSwp e o s0 g b h a d s
  | .amoCas e o s0 g b h a d => Sys2Proof.Machine.execAmoCas e o s0 g b h a d s
  | .amoFadd e o s0 g b h a d => Sys2Proof.Machine.execAmoFadd e o s0 g b h a d s
  | .amoMinZ e o s0 g b h a d => Sys2Proof.Machine.execAmoMinZ e o s0 g b h a d s
  | .amoMaxZ e o s0 g b h a d => Sys2Proof.Machine.execAmoMaxZ e o s0 g b h a d s
  | .amoAddPost e o s0 g b h a => Sys2Proof.Machine.execAmoAddPost e o s0 g b h a s
  | .amoAndPost e o s0 g b h a => Sys2Proof.Machine.execAmoAndPost e o s0 g b h a s
  | .amoOrPost e o s0 g b h a => Sys2Proof.Machine.execAmoOrPost e o s0 g b h a s
  | .amoXorPost e o s0 g b h a => Sys2Proof.Machine.execAmoXorPost e o s0 g b h a s
  | .amoMinSPost e o s0 g b h a => Sys2Proof.Machine.execAmoMinSPost e o s0 g b h a s
  | .amoMaxSPost e o s0 g b h a => Sys2Proof.Machine.execAmoMaxSPost e o s0 g b h a s
  | .amoSwpPost e o s0 g b h a => Sys2Proof.Machine.execAmoSwpPost e o s0 g b h a s
  | .amoCasPost e o s0 g b h a => Sys2Proof.Machine.execAmoCasPost e o s0 g b h a s
  | .amoFaddPost e o s0 g b h a => Sys2Proof.Machine.execAmoFaddPost e o s0 g b h a s
  | .amoMinZPost e o s0 g b h a => Sys2Proof.Machine.execAmoMinZPost e o s0 g b h a s
  | .amoMaxZPost e o s0 g b h a => Sys2Proof.Machine.execAmoMaxZPost e o s0 g b h a s
  | .ldN z u h a d => Sys2Proof.Machine.execLdN z u h a d s
  | .stN u g b h a => Sys2Proof.Machine.execStN u g b h a s
  | .pf l h a => Sys2Proof.Machine.execPf l h a s
  | .cflush h a => Sys2Proof.Machine.execCflush h a s
  | .cinval h a => Sys2Proof.Machine.execCinval h a s
  | .cinvalAll => Sys2Proof.Machine.execCinvalAll s
  | .fence k s0 => Sys2Proof.Machine.execFence k s0 s
  | .stv z g b h a d => Sys2Proof.Machine.execStv z g b h a d s
  | .twait h a => Sys2Proof.Machine.execTwait h a s
  | .xld k h a d => Sys2Proof.Machine.execXld k h a d s
  | .semV s0 h a => Sys2Proof.Machine.execSemV s0 h a s
  | .semP s0 h a => Sys2Proof.Machine.execSemP s0 h a s
  | .jcAdd s0 g b h a => Sys2Proof.Machine.execJcAdd s0 g b h a s
  | .jcWait g b h a => Sys2Proof.Machine.execJcWait g b h a s
  | .waitMem t g b h a d => Sys2Proof.Machine.execWaitMem t g b h a d s
  | .yield => Sys2Proof.Machine.execYield s
  | .exit => Sys2Proof.Machine.execExit s
  | .spawn g b h a d => Sys2Proof.Machine.execSpawn g b h a d s
  | .spawnDef g b h a d => Sys2Proof.Machine.execSpawnDef g b h a d s
  | .chunkInit c g b h a => Sys2Proof.Machine.execChunkInit c g b h a s
  | .chunk c d => Sys2Proof.Machine.execChunk c d s
  | .barCfg n g b h a => Sys2Proof.Machine.execBarCfg n g b h a s
  | .barArr n d => Sys2Proof.Machine.execBarArr n d s
  | .barWait n h a => Sys2Proof.Machine.execBarWait n h a s
  | .barTest f n h a d => Sys2Proof.Machine.execBarTest f n h a d s
  | .ksend n g b h a => Sys2Proof.Machine.execKsend n g b h a s
  | .kbinCfg n g b h a => Sys2Proof.Machine.execKbinCfg n g b h a s
  | .idr s0 d => Sys2Proof.Machine.execIdr s0 d s
  | .gtime d => Sys2Proof.Machine.execGtime d s
  | .gtimeLk d => Sys2Proof.Machine.execGtimeLk d s
  | .cyc d => Sys2Proof.Machine.execCyc d s
  | .cycT d => Sys2Proof.Machine.execCycT d s
  | .launch h a d => Sys2Proof.Machine.execLaunch h a d s
  | .talloc h a d => Sys2Proof.Machine.execTalloc h a d s
  | .tfree h a => Sys2Proof.Machine.execTfree h a s
  | .tview g b h a d => Sys2Proof.Machine.execTview g b h a d s
  | .tinfo h a d => Sys2Proof.Machine.execTinfo h a d s
  | .tget h a d => Sys2Proof.Machine.execTget h a d s
  | .tset g b h a => Sys2Proof.Machine.execTset g b h a s
  | .vfence => Sys2Proof.Machine.execVfence s
  | .vbusy d => Sys2Proof.Machine.execVbusy d s
  | .vadd g b h a j f => Sys2Proof.Machine.execVadd g b h a j f s
  | .vsub g b h a j f => Sys2Proof.Machine.execVsub g b h a j f s
  | .vmul g b h a j f => Sys2Proof.Machine.execVmul g b h a j f s
  | .vfma g b h a j f => Sys2Proof.Machine.execVfma g b h a j f s
  | .vmin g b h a j f => Sys2Proof.Machine.execVmin g b h a j f s
  | .vmax g b h a j f => Sys2Proof.Machine.execVmax g b h a j f s
  | .vabs h a j f => Sys2Proof.Machine.execVabs h a j f s
  | .vneg h a j f => Sys2Proof.Machine.execVneg h a j f s
  | .vexp2 h a j f => Sys2Proof.Machine.execVexp2 h a j f s
  | .vlog2 h a j f => Sys2Proof.Machine.execVlog2 h a j f s
  | .vrcp h a j f => Sys2Proof.Machine.execVrcp h a j f s
  | .vrsqrt h a j f => Sys2Proof.Machine.execVrsqrt h a j f s
  | .vtanh h a j f => Sys2Proof.Machine.execVtanh h a j f s
  | .vcvt h a j f => Sys2Proof.Machine.execVcvt h a j f s
  | .vcmp c g b h a j f => Sys2Proof.Machine.execVcmp c g b h a j f s
  | .vsel g b h a j f => Sys2Proof.Machine.execVsel g b h a j f s
  | .vrowred r h a j f => Sys2Proof.Machine.execVrowred r h a j f s
  | .vcolred r h a j f => Sys2Proof.Machine.execVcolred r h a j f s
  | .vbcast w h a j f => Sys2Proof.Machine.execVbcast w h a j f s
  | .vtrans h a j f => Sys2Proof.Machine.execVtrans h a j f s
  | .vscale x h a j f => Sys2Proof.Machine.execVscale x h a j f s
  | .vquant h a j f => Sys2Proof.Machine.execVquant h a j f s
  | .vshl v g b h a j f => Sys2Proof.Machine.execVshl v g b h a j f s
  | .vshr v g b h a j f => Sys2Proof.Machine.execVshr v g b h a j f s
  | .vsar v g b h a j f => Sys2Proof.Machine.execVsar v g b h a j f s
  | .vclamp h a j f => Sys2Proof.Machine.execVclamp h a j f s
  | .vmov h a j f => Sys2Proof.Machine.execVmov h a j f s
  | .vfill h a j f => Sys2Proof.Machine.execVfill h a j f s
  | .vmask t h a j f => Sys2Proof.Machine.execVmask t h a j f s
  | .mma r s0 y x g b h a j f => Sys2Proof.Machine.execMma r s0 y x g b h a j f s
  | .mdrain g b h a j f => Sys2Proof.Machine.execMdrain g b h a j f s
  | .cpyMt g b h a j f => Sys2Proof.Machine.execCpyMt g b h a j f s
  | .cpyTm g b h a j f => Sys2Proof.Machine.execCpyTm g b h a j f s
  | .cpyMm g b h a j f => Sys2Proof.Machine.execCpyMm g b h a j f s
  | .gath g b h a j f => Sys2Proof.Machine.execGath g b h a j f s
  | .scat g b h a j f => Sys2Proof.Machine.execScat g b h a j f s
  | .trgen d => Sys2Proof.Machine.execTrgen d s
  | .relaunch g b h a d => Sys2Proof.Machine.execRelaunch g b h a d s
  | .relaunchRepair g b h a d => Sys2Proof.Machine.execRelaunchRepair g b h a d s
  | .trstat d => Sys2Proof.Machine.execTrstat d s
  | .dmread h a d => Sys2Proof.Machine.execDmread h a d s
  | .dmmark p l g b h a => Sys2Proof.Machine.execDmmark p l g b h a s
  | .sys n => Sys2Proof.Machine.execSys n s
  | .eret => Sys2Proof.Machine.execEret s
  | .srd n d => Sys2Proof.Machine.execSrd n d s
  | .swr n h a => Sys2Proof.Machine.execSwr n h a s
  | .ctxLd i0 h a d => Sys2Proof.Machine.execCtxLd i0 h a d s
  | .ctxSt i0 g b h a d => Sys2Proof.Machine.execCtxSt i0 g b h a d s
  | .ctxReady h a d => Sys2Proof.Machine.execCtxReady h a d s
  | .ctxEvict l h a d => Sys2Proof.Machine.execCtxEvict l h a d s
  | .ctxPark h a d => Sys2Proof.Machine.execCtxPark h a d s
  | .ctxParkKill h a d => Sys2Proof.Machine.execCtxParkKill h a d s
  | .tlbi k s0 g b h a => Sys2Proof.Machine.execTlbi k s0 g b h a s
  | .bmode g b h a d => Sys2Proof.Machine.execBmode g b h a d s
  | .slotPark h a => Sys2Proof.Machine.execSlotPark h a s
  | .slotFree h a => Sys2Proof.Machine.execSlotFree h a s
  | .dstop h a d => Sys2Proof.Machine.execDstop h a d s
  | .halt => Sys2Proof.Machine.execHalt s
  | .jr h a => Sys2Proof.Machine.execJr h a s
  | .jrL h a => Sys2Proof.Machine.execJrL h a s
  | .nop => Sys2Proof.Machine.execNop s
  | .b k => Sys2Proof.Machine.execB k s
  | .bl k => Sys2Proof.Machine.execBl k s
  | .bz k h a => Sys2Proof.Machine.execBz k h a s
  | .bnz k h a => Sys2Proof.Machine.execBnz k h a s
  | .bany k a => Sys2Proof.Machine.execBany k a s
  | .ball k a => Sys2Proof.Machine.execBall k a s
  | .bnone k a => Sys2Proof.Machine.execBnone k a s
  | .loop k h a => Sys2Proof.Machine.execLoop k h a s
  | .bpt k p => Sys2Proof.Machine.execBpt k p s
  | .bpf k p => Sys2Proof.Machine.execBpf k p s
  | .dadd g b h a d => Sys2Proof.Machine.execDadd g b h a d s
  | .dsub g b h a d => Sys2Proof.Machine.execDsub g b h a d s
  | .dmul g b h a d => Sys2Proof.Machine.execDmul g b h a d s
  | .dfma g b h a d => Sys2Proof.Machine.execDfma g b h a d s
  | .ddiv g b h a d => Sys2Proof.Machine.execDdiv g b h a d s
  | .dsqrt h a d => Sys2Proof.Machine.execDsqrt h a d s
  | .dcvtTo f h a d => Sys2Proof.Machine.execDcvtTo f h a d s
  | .dcvtFrom f h a d => Sys2Proof.Machine.execDcvtFrom f h a d s
  | .dcmp p g b h a c => Sys2Proof.Machine.execDcmp p g b h a c s
  | .bsopen g b h a => Sys2Proof.Machine.execBsopen g b h a s
  | .getb g b d => Sys2Proof.Machine.execGetb g b d s
  | .getbImm n d => Sys2Proof.Machine.execGetbImm n d s
  | .peekb g b d => Sys2Proof.Machine.execPeekb g b d s
  | .peekbImm n d => Sys2Proof.Machine.execPeekbImm n d s
  | .skipb g b => Sys2Proof.Machine.execSkipb g b s
  | .skipbImm n => Sys2Proof.Machine.execSkipbImm n s
  | .getue d => Sys2Proof.Machine.execGetue d s
  | .getse d => Sys2Proof.Machine.execGetse d s
  | .bsalign => Sys2Proof.Machine.execBsalign s
  | .crc p c g b h a d => Sys2Proof.Machine.execCrc p c g b h a d s
  | .addiC16 d a i0 => Sys2Proof.Machine.execAddiC16 d a i0 s
  | .andiC16 d a i0 => Sys2Proof.Machine.execAndiC16 d a i0 s
  | .shliC16 d a i0 => Sys2Proof.Machine.execShliC16 d a i0 s
  | .shriC16 d a i0 => Sys2Proof.Machine.execShriC16 d a i0 s
  | .sariC16 d a i0 => Sys2Proof.Machine.execSariC16 d a i0 s
  | .ldDC16 d a i0 => Sys2Proof.Machine.execLdDC16 d a i0 s
  | .stDC16 d a i0 => Sys2Proof.Machine.execStDC16 d a i0 s
  | .moviC16 d i0 => Sys2Proof.Machine.execMoviC16 d i0 s
  | .addC16 d a b => Sys2Proof.Machine.execAddC16 d a b s
  | .subC16 d a b => Sys2Proof.Machine.execSubC16 d a b s
  | .andC16 d a b => Sys2Proof.Machine.execAndC16 d a b s
  | .orC16 d a b => Sys2Proof.Machine.execOrC16 d a b s
  | .xorC16 d a b => Sys2Proof.Machine.execXorC16 d a b s
  | .andnC16 d a b => Sys2Proof.Machine.execAndnC16 d a b s
  | .mulC16 d a b => Sys2Proof.Machine.execMulC16 d a b s
  | .movC16 d a => Sys2Proof.Machine.execMovC16 d a s
  | .shlC16 d a b => Sys2Proof.Machine.execShlC16 d a b s
  | .shrC16 d a b => Sys2Proof.Machine.execShrC16 d a b s
  | .sarC16 d a b => Sys2Proof.Machine.execSarC16 d a b s
  | .ldWC16 d a i0 => Sys2Proof.Machine.execLdWC16 d a i0 s
  | .stWC16 d a i0 => Sys2Proof.Machine.execStWC16 d a i0 s
  | .jrC16 a => Sys2Proof.Machine.execJrC16 a s
  | .exitC16 => Sys2Proof.Machine.execExitC16 s
  | .yieldC16 => Sys2Proof.Machine.execYieldC16 s
  | .nopC16 => Sys2Proof.Machine.execNopC16 s
  | .bzC16 k a k2 => Sys2Proof.Machine.execBzC16 k a k2 s
  | .bnzC16 k a k2 => Sys2Proof.Machine.execBnzC16 k a k2 s
  | .bC16 k => Sys2Proof.Machine.execBC16 k s
  | .bptC16 p k => Sys2Proof.Machine.execBptC16 p k s
  | .bpfC16 p k => Sys2Proof.Machine.execBpfC16 p k s
  | .fmt f r s0 => Sys2Proof.Machine.execFmt f r s0 s
  | .registerFill ctx reg tag val poison info unit wake => Sys2Proof.Machine.execRegisterFill ctx reg tag val poison info unit wake s
  | .idleContextReplace core slot => Sys2Proof.Machine.execIdleContextReplace core slot s
  | .quantumExpiry core slot => Sys2Proof.Machine.execQuantumExpiry core slot s
  | .agingPromotion ctx => Sys2Proof.Machine.execAgingPromotion ctx s
  | .launchAccept part desc ctx reg tag priv res => Sys2Proof.Machine.execLaunchAccept part desc ctx reg tag priv res s
  | .blockStart launch => Sys2Proof.Machine.execBlockStart launch s
  | .launchCompletion launch => Sys2Proof.Machine.execLaunchCompletion launch s
  | .semVExecute loc ctx scope tx => Sys2Proof.Machine.execSemVExecute loc ctx scope tx s
  | .semPExecute loc ctx scope tx => Sys2Proof.Machine.execSemPExecute loc ctx scope tx s
  | .semPResend ctx => Sys2Proof.Machine.execSemPResend ctx s
  | .jcUpdate loc addend flt ctx tx => Sys2Proof.Machine.execJcUpdate loc addend flt ctx tx s
  | .chunkInitRequest cluster c n p m core => Sys2Proof.Machine.execChunkInitRequest cluster c n p m core s
  | .chunkRequest cluster c ctx reg tag core => Sys2Proof.Machine.execChunkRequest cluster c ctx reg tag core s
  | .spawnPoolRequest blk ctx reg tag entry arg jc unit => Sys2Proof.Machine.execSpawnPoolRequest blk ctx reg tag entry arg jc unit s
  | .wakeupApply ctx kind arg acq unit => Sys2Proof.Machine.execWakeupApply ctx kind arg acq unit s
  | .coreStoreAccess r => Sys2Proof.Machine.execCoreStoreAccess r s
  | .storeVisible r => Sys2Proof.Machine.execStoreVisible r s
  | .nibbleStoreExecute r => Sys2Proof.Machine.execNibbleStoreExecute r s
  | .atomicExecute op posted inCore cmp r => Sys2Proof.Machine.execAtomicExecute op posted inCore cmp r s
  | .fenceTokenArrival die link round => Sys2Proof.Machine.execFenceTokenArrival die link round s
  | .fenceEchoArrival die link round => Sys2Proof.Machine.execFenceEchoArrival die link round s
  | .postedTokenRound die link => Sys2Proof.Machine.execPostedTokenRound die link s
  | .heldReleaseSend idx => Sys2Proof.Machine.execHeldReleaseSend idx s
  | .barrierSignal core n column => Sys2Proof.Machine.execBarrierSignal core n column s
  | .barrierRelease core n => Sys2Proof.Machine.execBarrierRelease core n s
  | .barrierTimeout core n => Sys2Proof.Machine.execBarrierTimeout core n s
  | .barrierAbort core n mask => Sys2Proof.Machine.execBarrierAbort core n mask s
  | .ksendAccumulate loc fp val ctx tx => Sys2Proof.Machine.execKsendAccumulate loc fp val ctx tx s
  | .commandAccept c => Sys2Proof.Machine.execCommandAccept c s
  | .commandRetry ctx => Sys2Proof.Machine.execCommandRetry ctx s
  | .commandReply ctx op kind cause info reg => Sys2Proof.Machine.execCommandReply ctx op kind cause info reg s
  | .tallocServe cluster ctx reg tag blk desc unit => Sys2Proof.Machine.execTallocServe cluster ctx reg tag blk desc unit s
  | .taskAdmit cluster => Sys2Proof.Machine.execTaskAdmit cluster s
  | .mmaFragmentDone cluster task => Sys2Proof.Machine.execMmaFragmentDone cluster task s
  | .streamerPartStart cluster task part => Sys2Proof.Machine.execStreamerPartStart cluster task part s
  | .streamerPush cluster task part => Sys2Proof.Machine.execStreamerPush cluster task part s
  | .streamerPartDone cluster task part => Sys2Proof.Machine.execStreamerPartDone cluster task part s
  | .taskComplete cluster task => Sys2Proof.Machine.execTaskComplete cluster task s
  | .cmdsDecrement ctx flt unit => Sys2Proof.Machine.execCmdsDecrement ctx flt unit s
  | .traceReport blk patch wr icause pc => Sys2Proof.Machine.execTraceReport blk patch wr icause pc s
  | .blockRecordWrite blk => Sys2Proof.Machine.execBlockRecordWrite blk s
  | .generationBroadcast set unit gen => Sys2Proof.Machine.execGenerationBroadcast set unit gen s
  | .generationAdvanceDone set => Sys2Proof.Machine.execGenerationAdvanceDone set s
  | .restampRequest set line from_ => Sys2Proof.Machine.execRestampRequest set line from_ s
  | .relaunchAccept part region comp ctx reg tag priv repair res => Sys2Proof.Machine.execRelaunchAccept part region comp ctx reg tag priv repair res s
  | .relaunchComplete launch => Sys2Proof.Machine.execRelaunchComplete launch s
  | .watchArm inCore addr expected ctx reg tag timeout from_ => Sys2Proof.Machine.execWatchArm inCore addr expected ctx reg tag timeout from_ s
  | .watchTimeout ctx => Sys2Proof.Machine.execWatchTimeout ctx s
  | .watchCancel ctx => Sys2Proof.Machine.execWatchCancel ctx s
  | .timeDeadline ctx => Sys2Proof.Machine.execTimeDeadline ctx s
  | .contextClaim core ctx => Sys2Proof.Machine.execContextClaim core ctx s
  | .contextLineArrival ctx dst => Sys2Proof.Machine.execContextLineArrival ctx dst s
  | .contextTransferAck ctx => Sys2Proof.Machine.execContextTransferAck ctx s
  | .messageReturn ctx msg => Sys2Proof.Machine.execMessageReturn ctx msg s
  | .carouselRingClaim core => Sys2Proof.Machine.execCarouselRingClaim core s
  | .ringPost ctx => Sys2Proof.Machine.execRingPost ctx s
  | .ringPostRetry ctx => Sys2Proof.Machine.execRingPostRetry ctx s
  | .ringmasterSteal cluster part => Sys2Proof.Machine.execRingmasterSteal cluster part s
  | .preemptRequest die part => Sys2Proof.Machine.execPreemptRequest die part s
  | .preemptResume die part => Sys2Proof.Machine.execPreemptResume die part s
  | .partitionSwap die old new => Sys2Proof.Machine.execPartitionSwap die old new s
  | .walkComplete die page => Sys2Proof.Machine.execWalkComplete die page s
  | .walkQueueRetry die => Sys2Proof.Machine.execWalkQueueRetry die s
  | .regionMigrationStart set region entry => Sys2Proof.Machine.execRegionMigrationStart set region entry s
  | .migrationLineMove set => Sys2Proof.Machine.execMigrationLineMove set s
  | .homeNackRetry msg => Sys2Proof.Machine.execHomeNackRetry msg s
  | .bankDrainDone cluster bank => Sys2Proof.Machine.execBankDrainDone cluster bank s
  | .bankNackRetry msg => Sys2Proof.Machine.execBankNackRetry msg s
  | .flitReceive die link => Sys2Proof.Machine.execFlitReceive die link s
  | .linkNak die link seq => Sys2Proof.Machine.execLinkNak die link seq s
  | .linkAck die link seq => Sys2Proof.Machine.execLinkAck die link seq s
  | .replayTimeout die link => Sys2Proof.Machine.execReplayTimeout die link s
  | .laneFaultReport die link lower upper => Sys2Proof.Machine.execLaneFaultReport die link lower upper s
  | .linkRetrainDone die link => Sys2Proof.Machine.execLinkRetrainDone die link s
  | .classAgePromotion die link cls => Sys2Proof.Machine.execClassAgePromotion die link cls s
  | .homeReadRequest r => Sys2Proof.Machine.execHomeReadRequest r s
  | .ownershipRequest line from_ => Sys2Proof.Machine.execOwnershipRequest line from_ s
  | .ownershipGrant line cluster => Sys2Proof.Machine.execOwnershipGrant line cluster s
  | .dieRecall line die keep => Sys2Proof.Machine.execDieRecall line die keep s
  | .writeBackArrival line die sectors => Sys2Proof.Machine.execWriteBackArrival line die sectors s
  | .calliopeExchange die => Sys2Proof.Machine.execCalliopeExchange die s
  | .calliopeResult die t1 t2 t3 t4 => Sys2Proof.Machine.execCalliopeResult die t1 t2 t3 t4 s
  | .exchangeMissing die => Sys2Proof.Machine.execExchangeMissing die s
  | .ptpEventMessage msg ticks => Sys2Proof.Machine.execPtpEventMessage msg ticks s
  | .heartbeatTimeout die => Sys2Proof.Machine.execHeartbeatTimeout die s
  | .dieFailureBroadcast die failed => Sys2Proof.Machine.execDieFailureBroadcast die failed s
  | .homeFailureProcess mdie failed => Sys2Proof.Machine.execHomeFailureProcess mdie failed s
  | .scrubRead mdie sector err => Sys2Proof.Machine.execScrubRead mdie sector err s
  | .scrubWrite mdie sector seq => Sys2Proof.Machine.execScrubWrite mdie sector seq s
  | .contextLoss ctx => Sys2Proof.Machine.execContextLoss ctx s
  | .rasPop die => Sys2Proof.Machine.execRasPop die s
  | .mcheckClear core val => Sys2Proof.Machine.execMcheckClear core val s
  | .handlerInstall core lvlM cva => Sys2Proof.Machine.execHandlerInstall core lvlM cva s
  | .lnkRetrainForce die link => Sys2Proof.Machine.execLnkRetrainForce die link s
  | .lnkInject die link => Sys2Proof.Machine.execLnkInject die link s
  | .dlogBaseWrite die val => Sys2Proof.Machine.execDlogBaseWrite die val s
  | .linkCounterSnapshot die => Sys2Proof.Machine.execLinkCounterSnapshot die s
  | .pcSample core => Sys2Proof.Machine.execPcSample core s
  | .pctDisableSpill part => Sys2Proof.Machine.execPctDisableSpill part s
  | .rplCtlWrite part val => Sys2Proof.Machine.execRplCtlWrite part val s
  | .replayDivergence unit loc => Sys2Proof.Machine.execReplayDivergence unit loc s
  | .operatingPointChange die mhz => Sys2Proof.Machine.execOperatingPointChange die mhz s
  | .pwrCapWrite die val => Sys2Proof.Machine.execPwrCapWrite die val s
  | .packageReset => Sys2Proof.Machine.execPackageReset s
  | .bootStepAdvance => Sys2Proof.Machine.execBootStepAdvance s
  | .dieReset die => Sys2Proof.Machine.execDieReset die s
  | .hostAccess wr addr size data => Sys2Proof.Machine.execHostAccess wr addr size data s
  | .scaleUpAccess peer wr addr size data => Sys2Proof.Machine.execScaleUpAccess peer wr addr size data s
  | .portLaunch part arg0 arg1 res => Sys2Proof.Machine.execPortLaunch part arg0 arg1 res s
  | .portRelaunch part arg0 arg1 res => Sys2Proof.Machine.execPortRelaunch part arg0 arg1 res s
  | .portRepair part arg0 arg1 res => Sys2Proof.Machine.execPortRepair part arg0 arg1 res s
  | .setmode mode res => Sys2Proof.Machine.execSetmode mode res s
  | .create set share res => Sys2Proof.Machine.execCreate set share res s
  | .destroy set idx res => Sys2Proof.Machine.execDestroy set idx res s
  | .swap set idx res => Sys2Proof.Machine.execSwap set idx res s
  | .slice set us res => Sys2Proof.Machine.execSlice set us res s
  | .preempt set res => Sys2Proof.Machine.execPreempt set res s
  | .resume set res => Sys2Proof.Machine.execResume set res s
  | .attest nonce buf res => Sys2Proof.Machine.execAttest nonce buf res s
  | .timeSliceExpiry set => Sys2Proof.Machine.execTimeSliceExpiry set s
  | .nonInstructionEncoding enc => Sys2Proof.Machine.execNonInstructionEncoding enc s
  | .jcWaitRepoll ctx => Sys2Proof.Machine.execJcWaitRepoll ctx s
  | .flitSend die link => Sys2Proof.Machine.execFlitSend die link s
  | .unrecoverableFaultReport die => Sys2Proof.Machine.execUnrecoverableFaultReport die s
  | .launchPortWriteRefused part => Sys2Proof.Machine.execLaunchPortWriteRefused part s
  | .mailboxWriteRefused part => Sys2Proof.Machine.execMailboxWriteRefused part s

end Sys2Proof.Machine
end

