-- ==== Sys2Proof/Machine/Errands.lean ====
section
/-! DEFINITION. The parts of an instruction that another unit carries out, and the other messages that no row of the opcode table names
(01 R19, R20): each as one step at the unit that it reaches. -/

namespace Sys2Proof.Machine

open Sys2Proof

/-- Sends an answer to the instruction that a context idles on. -/
def State.sendAnswer (s : State) (src ctx id data : Nat) : State :=
  s.tell src ctx 1 32 fun h => .errand (.answer ctx id data h)

/-- A `ctx` instruction reaches a unit (14 R333, R334): it acts where the unit holds the line, and is returned to the home elsewhere. The
issuer's register is filled with its answer. -/
def State.errandLine (s : State) (op : CtxOp) (line no priv ctx reg : Nat) (tag : Bool) (unit : Holder) : State :=
  let e := s.centry line
  let home := s.ctxHome line
  let here := holderDie home unit
  if e.holder = unit && !e.moving then
    let v := s.ctxAnswer op line priv
    (s.tell here ctx 2 32 fun h => .registerFill ctx reg tag v false 0 h 0).ctxDo op line v
  else
    let m : Ev := .errand (.line op line no priv ctx reg tag unit)
    s.sendNamed here home 2 (lineBytes m) (.messageReturn line m)

/-- The holder of a line sends it where the home has told it to (14 R334, step 2); a line that was lost meanwhile stays. -/
def State.errandFetch (s : State) (line : Nat) (dst : Holder) : State :=
  let e := s.centry line
  if e.transfer = some dst && e.holder != dst then s.shipLine line dst else s

/-- The test of a `jc.wait` at the counter's core (08 R209): the fault word, the count, and then the waiter list. -/
def State.errandJoin (s : State) (loc thr ctx id : Nat) (first : Bool) : State :=
  let core := locCore loc
  let die := dieOf core
  let f := readNat s.cstore (loc + 16) 8
  let met := s.jcCount loc ≤ thr
  if first && f != 0 then s.sendAnswer die ctx id f
  else if met then (if first then s.sendAnswer die ctx id 0 else s.answerWait die ctx 3 (2 ^ 31 + loc) false none)
  else
    -- a context that has ended, or goes on elsewhere, is not queued
    let stands := if first then (s.ctx ctx).quest.any fun q => q.1 == id else (s.ctx ctx).kind == 3
    let (ok, s) := if stands then s.queueWaiter core { ctx := ctx, loc := loc, kind := 3, thr := thr } else (true, s)
    if first || !ok then s.tell die ctx 1 16 fun h => .errand (.waits ctx id loc thr (!ok) h) else s

/-- An answer reaches the instruction that waits for it; one for an instruction that waits no longer is discarded. -/
def State.errandAnswer (s : State) (ctx id data : Nat) : State :=
  s.modCtx ctx fun c =>
    match c.quest with
    | some (k, n, _) => if k = id then { c with quest := some (k, n - 1, data) } else c
    | none => c

/-- The answer that a `jc.wait` waits: it takes kind 3, unless a wakeup has come first, after which it tests again. One that the list had no
room for polls (02 R53). -/
def State.errandWaits (s : State) (ctx id loc thr : Nat) (poll : Bool) : State :=
  let c := s.ctx ctx
  let arg := BitVec.ofNat 60 (thr * 2 ^ 29 + loc)
  let later (s : State) : State := if poll then s.repollLater ctx else s
  match c.quest with
  | some (k, _, woken) =>
    if k != id then s
    else if woken = 1 then s.modCtx ctx fun c => { c with quest := none }
    else later (s.modCtx ctx fun c => { c with quest := none, kind := 3, warg := arg, stall := none })
  | none => if c.kind == 3 && c.warg == arg then later s else s

/-- A part of a record is written at the home of its bytes; with the last one the record has performed (19 R414). -/
def State.errandRecord (s : State) (die kind no pa : Nat) (data : List Byte) (tell : Option Nat) : State :=
  let s := s.homeWrite 0 pa (natOfBytes data) data.length
  if (s.recordsOut die kind).contains no then s else s.recordDone die kind tell

/-- A message that no row names has reached its unit. -/
def execErrand (x : Errand) (s : State) : Out :=
  match x with
  | .line op line no priv ctx reg tag unit => .next (s.errandLine op line no priv ctx reg tag unit)
  | .fetch line dst => .next (s.errandFetch line dst)
  | .bank cluster bank mode ctx reg tag core part =>
    .next (s.bankAsked cluster bank { bank, mode := bankModeOf mode, ctx, reg, tag, core, part })
  | .invalidate die part kind hi page count ctx id =>
    .next ((s.invalidate ⟨part, kind, hi, page, count⟩ die (fun _ => true) fun _ => true).sendAnswer die ctx id 0)
  | .slot core slot park ctx id => .next ((s.setParked core slot park).sendAnswer (dieOf core) ctx id 0)
  | .look cluster blk handle ctx id => .next (s.sendAnswer (cluster / 64) ctx id (s.handleInfo blk handle))
  | .join loc thr ctx id first => .next (s.errandJoin loc thr ctx id first)
  | .answer ctx id data unit => .next (s.addressed ctx unit (.errand x) fun s => s.errandAnswer ctx id data)
  | .waits ctx id loc thr poll unit => .next (s.addressed ctx unit (.errand x) fun s => s.errandWaits ctx id loc thr poll)
  | .record die kind no pa data tell => .next (s.errandRecord die kind no pa data tell)
  | .host wr addr size data => .next (s.hostAccess wr addr size data)
  | .cellError struct place kind => .next (s.cellError struct place kind)

end Sys2Proof.Machine
end

