-- ==== Sys2Proof/Machine/Step.lean ====
section
/-! DEFINITION. One step of the package: one message takes effect, or one step falls due, or one slot issues one instruction, or
time passes. -/

namespace Sys2Proof

/-- The row of the opcode table that a message or a due step runs; none for a part of an instruction (log 110). -/
noncomputable def Ev.toInstr : Ev → Option Instr
  | .errand _ => none
  | .registerFill ctx reg tag val poison info unit wake => some (.registerFill ctx reg tag val poison info unit wake)
  | .idleContextReplace core slot => some (.idleContextReplace core slot)
  | .quantumExpiry core slot => some (.quantumExpiry core slot)
  | .agingPromotion ctx => some (.agingPromotion ctx)
  | .launchAccept part desc ctx reg tag priv res => some (.launchAccept part desc ctx reg tag priv res)
  | .blockStart launch => some (.blockStart launch)
  | .launchCompletion launch => some (.launchCompletion launch)
  | .semVExecute loc ctx scope tx => some (.semVExecute loc ctx scope tx)
  | .semPExecute loc ctx scope tx => some (.semPExecute loc ctx scope tx)
  | .semPResend ctx => some (.semPResend ctx)
  | .jcUpdate loc addend flt ctx tx => some (.jcUpdate loc addend flt ctx tx)
  | .chunkInitRequest cluster c n p m core => some (.chunkInitRequest cluster c n p m core)
  | .chunkRequest cluster c ctx reg tag core => some (.chunkRequest cluster c ctx reg tag core)
  | .spawnPoolRequest blk ctx reg tag entry arg jc unit => some (.spawnPoolRequest blk ctx reg tag entry arg jc unit)
  | .wakeupApply ctx kind arg acq unit => some (.wakeupApply ctx kind arg acq unit)
  | .coreStoreAccess r => some (.coreStoreAccess r)
  | .storeVisible r => some (.storeVisible r)
  | .nibbleStoreExecute r => some (.nibbleStoreExecute r)
  | .atomicExecute op posted inCore cmp r => some (.atomicExecute op posted inCore cmp r)
  | .fenceTokenArrival die link round => some (.fenceTokenArrival die link round)
  | .fenceEchoArrival die link round => some (.fenceEchoArrival die link round)
  | .postedTokenRound die link => some (.postedTokenRound die link)
  | .heldReleaseSend idx => some (.heldReleaseSend idx)
  | .barrierSignal core n column => some (.barrierSignal core n column)
  | .barrierRelease core n => some (.barrierRelease core n)
  | .barrierTimeout core n => some (.barrierTimeout core n)
  | .barrierAbort core n mask => some (.barrierAbort core n mask)
  | .ksendAccumulate loc fp val ctx tx => some (.ksendAccumulate loc fp val ctx tx)
  | .commandAccept c => some (.commandAccept c)
  | .commandRetry ctx => some (.commandRetry ctx)
  | .commandReply ctx op kind cause info reg => some (.commandReply ctx op kind cause info reg)
  | .tallocServe cluster ctx reg tag blk desc unit => some (.tallocServe cluster ctx reg tag blk desc unit)
  | .taskAdmit cluster => some (.taskAdmit cluster)
  | .mmaFragmentDone cluster task => some (.mmaFragmentDone cluster task)
  | .streamerPartStart cluster task part => some (.streamerPartStart cluster task part)
  | .streamerPush cluster task part => some (.streamerPush cluster task part)
  | .streamerPartDone cluster task part => some (.streamerPartDone cluster task part)
  | .taskComplete cluster task => some (.taskComplete cluster task)
  | .cmdsDecrement ctx flt unit => some (.cmdsDecrement ctx flt unit)
  | .traceReport blk patch wr icause pc => some (.traceReport blk patch wr icause pc)
  | .blockRecordWrite blk => some (.blockRecordWrite blk)
  | .generationBroadcast set unit gen => some (.generationBroadcast set unit gen)
  | .generationAdvanceDone set => some (.generationAdvanceDone set)
  | .restampRequest set line from_ => some (.restampRequest set line from_)
  | .relaunchAccept part region comp ctx reg tag priv repair res => some (.relaunchAccept part region comp ctx reg tag priv repair res)
  | .relaunchComplete launch => some (.relaunchComplete launch)
  | .watchArm inCore addr expected ctx reg tag timeout from_ => some (.watchArm inCore addr expected ctx reg tag timeout from_)
  | .watchTimeout ctx => some (.watchTimeout ctx)
  | .watchCancel ctx => some (.watchCancel ctx)
  | .timeDeadline ctx => some (.timeDeadline ctx)
  | .contextClaim core ctx => some (.contextClaim core ctx)
  | .contextLineArrival ctx dst => some (.contextLineArrival ctx dst)
  | .contextTransferAck ctx => some (.contextTransferAck ctx)
  | .messageReturn ctx msg => some (.messageReturn ctx msg)
  | .carouselRingClaim core => some (.carouselRingClaim core)
  | .ringPost ctx => some (.ringPost ctx)
  | .ringPostRetry ctx => some (.ringPostRetry ctx)
  | .ringmasterSteal cluster part => some (.ringmasterSteal cluster part)
  | .preemptRequest die part => some (.preemptRequest die part)
  | .preemptResume die part => some (.preemptResume die part)
  | .partitionSwap die old new => some (.partitionSwap die old new)
  | .walkComplete die page => some (.walkComplete die page)
  | .walkQueueRetry die => some (.walkQueueRetry die)
  | .regionMigrationStart set region entry => some (.regionMigrationStart set region entry)
  | .migrationLineMove set => some (.migrationLineMove set)
  | .homeNackRetry msg => some (.homeNackRetry msg)
  | .bankDrainDone cluster bank => some (.bankDrainDone cluster bank)
  | .bankNackRetry msg => some (.bankNackRetry msg)
  | .flitReceive die link => some (.flitReceive die link)
  | .linkNak die link seq => some (.linkNak die link seq)
  | .linkAck die link seq => some (.linkAck die link seq)
  | .replayTimeout die link => some (.replayTimeout die link)
  | .laneFaultReport die link lower upper => some (.laneFaultReport die link lower upper)
  | .linkRetrainDone die link => some (.linkRetrainDone die link)
  | .classAgePromotion die link cls => some (.classAgePromotion die link cls)
  | .homeReadRequest r => some (.homeReadRequest r)
  | .ownershipRequest line from_ => some (.ownershipRequest line from_)
  | .ownershipGrant line cluster => some (.ownershipGrant line cluster)
  | .dieRecall line die keep => some (.dieRecall line die keep)
  | .writeBackArrival line die sectors => some (.writeBackArrival line die sectors)
  | .calliopeExchange die => some (.calliopeExchange die)
  | .calliopeResult die t1 t2 t3 t4 => some (.calliopeResult die t1 t2 t3 t4)
  | .exchangeMissing die => some (.exchangeMissing die)
  | .ptpEventMessage msg ticks => some (.ptpEventMessage msg ticks)
  | .heartbeatTimeout die => some (.heartbeatTimeout die)
  | .dieFailureBroadcast die failed => some (.dieFailureBroadcast die failed)
  | .homeFailureProcess mdie failed => some (.homeFailureProcess mdie failed)
  | .scrubRead mdie sector err => some (.scrubRead mdie sector err)
  | .scrubWrite mdie sector seq => some (.scrubWrite mdie sector seq)
  | .contextLoss ctx => some (.contextLoss ctx)
  | .rasPop die => some (.rasPop die)
  | .mcheckClear core val => some (.mcheckClear core val)
  | .handlerInstall core lvlM cva => some (.handlerInstall core lvlM cva)
  | .lnkRetrainForce die link => some (.lnkRetrainForce die link)
  | .lnkInject die link => some (.lnkInject die link)
  | .dlogBaseWrite die val => some (.dlogBaseWrite die val)
  | .linkCounterSnapshot die => some (.linkCounterSnapshot die)
  | .pcSample core => some (.pcSample core)
  | .pctDisableSpill part => some (.pctDisableSpill part)
  | .rplCtlWrite part val => some (.rplCtlWrite part val)
  | .replayDivergence unit loc => some (.replayDivergence unit loc)
  | .operatingPointChange die mhz => some (.operatingPointChange die mhz)
  | .pwrCapWrite die val => some (.pwrCapWrite die val)
  | .packageReset => some .packageReset
  | .bootStepAdvance => some .bootStepAdvance
  | .dieReset die => some (.dieReset die)
  | .hostAccess wr addr size data => some (.hostAccess wr addr size data)
  | .scaleUpAccess peer wr addr size data => some (.scaleUpAccess peer wr addr size data)
  | .portLaunch part arg0 arg1 res => some (.portLaunch part arg0 arg1 res)
  | .portRelaunch part arg0 arg1 res => some (.portRelaunch part arg0 arg1 res)
  | .portRepair part arg0 arg1 res => some (.portRepair part arg0 arg1 res)
  | .setmode mode res => some (.setmode mode res)
  | .create set share res => some (.create set share res)
  | .destroy set idx res => some (.destroy set idx res)
  | .swap set idx res => some (.swap set idx res)
  | .slice set us res => some (.slice set us res)
  | .preempt set res => some (.preempt set res)
  | .resume set res => some (.resume set res)
  | .attest nonce buf res => some (.attest nonce buf res)
  | .timeSliceExpiry set => some (.timeSliceExpiry set)
  | .jcWaitRepoll ctx => some (.jcWaitRepoll ctx)
  | .flitSend die link => some (.flitSend die link)
  | .unrecoverableFaultReport die => some (.unrecoverableFaultReport die)
  | .launchPortWriteRefused part => some (.launchPortWriteRefused part)
  | .mailboxWriteRefused part => some (.mailboxWriteRefused part)

end Sys2Proof

namespace Sys2Proof.Machine

open Sys2Proof

/-- Runs one encoding in the issuing slot: an encoding that names no instruction is one too (06 R152). -/
noncomputable def State.runEnc (s : State) (e : Enc) : Out :=
  match decode e with
  | .ok i => exec i s
  | .err _ => exec (.nonInstructionEncoding (e.toWord.setWidth 32)) s

/-- One issue cycle of a slot (01 R23; 06 R131, R132; 13 R314; 19 R415). -/
noncomputable def State.issueSlot (s : State) (core slot : Nat) : Out :=
  if 8192 ≤ core then .fault .absentCore
  else match (nth (s.core core).slots slot {}).ctx with
    | none => .next s
    | some id =>
      let s := s.load core slot id
      s.atBoundary core id fun s =>
        issued ⟨core, slot, id⟩ s.th.pc.toNat (s.launchBits id) (withEnc s fun e s => s.fetched e fun s => s.runEnc e)

/-- Runs a message or a due step: the row that names it, or the part of an instruction that a unit carries out for it. -/
noncomputable def State.runEv (s : State) (e : Ev) : Out :=
  match e, e.toInstr with
  | .errand x, _ => execErrand x s
  | _, some i => exec i s
  | _, none => .next s

/-- What the step does with its choice. -/
noncomputable def State.run (s : State) : Option Due → Out
  | none => .next s.pass
  | some (.message i) => match s.inbox[i]? with
    | some e => ({ s with inbox := s.inbox.eraseIdx i } : State).runEv e
    | none => .next s
  | some (.due e) => s.runEv e
  | some (.issue core slot) => s.issueSlot core slot

/-- One step. -/
noncomputable def step (s : State) : Host.Outcome State Fault Refusal := stepped (s.unload.run s.unload.pick)

/-- The state in which the next step fetches the word `w` and runs it; an event row has no word, so nothing of `nbits` is needed. -/
def State.withFetchWord (s : State) (nbits w : Nat) : State :=
  let _ := nbits
  s.placed w

end Sys2Proof.Machine
end

