-- ==== Sys2Proof/Safety.lean ====
section
/-! DEFINITION. What a safe run is: each of its steps answers a next state, and every memory it holds is in canonical form. -/

namespace Sys2Proof.Machine

open Sys2Proof

/-- Both byte memories, the visible bytes of physical memory and the core stores, are in canonical form. -/
def State.canonical (s : State) : Bool := s.mem.wf && s.cstore.wf

/-- A state reaches another by steps that answer next states. -/
inductive Reaches : State → State → Prop where
  | refl (s : State) : Reaches s s
  | step {s t u : State} : Reaches s t → Sys2Proof.Machine.step t = .next u → Reaches s u

/-- The step from a state answers no next state. -/
def State.stuck (s : State) : Prop := ∀ t, step s ≠ .next t

/-- A state from which no run gets stuck and no run leaves the canonical form. -/
def State.safe (s : State) : Prop := ∀ t, Reaches s t → ¬ t.stuck ∧ t.canonical = true

end Sys2Proof.Machine
end

