-- ==== Sys2Proof/Certificates/Slice0/Obligations.lean ====
section
/-! DEFINITION. The statements about this machine: first the vocabulary in which they are stated, then the statements. -/

/-! ### The vocabulary of the statements -/

namespace Sys2Proof.Claims

open Sys2Proof.Machine

/-- No prefix is pending in the issuing context. -/
def NoPrefix (s : State) : Prop := s.th.pfx = false

/-- The issuing context is none of a pair. -/
def Unpaired (s : State) : Prop := s.th.pair = 0

/-- The registers of a list are full (0 to 7 for w, 8 to 11 for e). -/
def Full (s : State) (rs : List Nat) : Prop := ∀ r ∈ rs, s.th.full r = true

/-- No fill is outstanding for the general registers of a list. -/
def NoPend (s : State) (rs : List Reg) : Prop := ∀ r ∈ rs, s.th.pend.getLsbD r.toNat = false

/-- A pending prefix, if there is one, gives a rounding mode and nothing else (R150): no format, no saturation, no SR. -/
def RoundingOnly (s : State) : Prop :=
  s.th.pfx = true → pfxFmt s.th.pfxval = 0 ∧ pfxSat s.th.pfxval = false ∧ pfxMode s.th.pfxval < 5

/-- The state in which the pc is n bytes on, a prefix is used up and an idle spell is over; nothing else has changed. -/
def passed (s : State) (n : Nat) : State :=
  { s with th := { s.th with pc := s.th.pc + BitVec.ofNat 57 n, pfx := false, stall := none, badVa := none, marked := 0, quest := none, seen := [] } }

/-- The state in which the instruction of n bytes has passed and register wd holds v, full, its EPOCH bit toggled;
a fill that was on its way to it is void (R42). -/
def wrote (s : State) (d : Reg) (v : Word) (n : Nat) : State :=
  { passed s n with th := { (passed s n).th with
      w := s.th.w.set d.toNat v d.isLt
      few := s.th.few ||| (1#8 <<< d.toNat)
      epoch := s.th.epoch ^^^ (1#8 <<< d.toNat)
      void := s.th.void ||| (s.th.pend &&& (1#8 <<< d.toNat)) } }

/-- The state in which the instruction of 4 bytes has passed and the predicate word is v. -/
def wrotePW (s : State) (v : Word) : State := { passed s 4 with th := { (passed s 4).th with pw := v } }

/-- The state in which the instruction has passed, wd is empty with its EPOCH bit toggled and its PEND bit set, and the
fill that brings v is on its way with that epoch (R40, R42). -/
def wroteLong (s : State) (d : Reg) (v : Word) : State :=
  { passed s 4 with
    th := { (passed s 4).th with
      few := s.th.few &&& ~~~(1#8 <<< d.toNat)
      epoch := s.th.epoch ^^^ (1#8 <<< d.toNat)
      pend := s.th.pend ||| (1#8 <<< d.toNat)
      void := s.th.void &&& ~~~(1#8 <<< d.toNat) }
    inbox := s.inbox ++ [.registerFill s.here.ctx d.toNat (!s.th.epoch.getLsbD d.toNat) v false 0 (.core s.hereCore) 0] }

/-- The state in which the pc is t, a prefix is used up and an idle spell is over. -/
def jumped (s : State) (t : BitVec 57) : State :=
  { s with th := { s.th with pc := t, pfx := false, stall := none, badVa := none, marked := 0, quest := none, seen := [] } }

/-- What an instruction does that each context of a pair executes on its own registers (17 R397): outside a pair it leaves t; the leading
context of a pair then counts one more that it is ahead; the trailing one executes what its peer has retired, and waits for it while it
has retired nothing more. -/
def Does (s : State) (o : Out) (t : State) : Prop :=
  (s.th.pair = 0 ∨ s.th.peer = none → o = .next t) ∧
  ∀ p, s.th.pair ≠ 0 → s.th.peer = some p →
    (s.th.pair = 1 → s.th.kind = 0 → o = .next { t with th := { t.th with ahead := t.th.ahead + 1 } }) ∧
    (s.th.pair ≠ 1 →
      ((s.ctx p).ahead ≠ 0 → s.th.kind = 0 → o = .next (t.modCtx p fun c => { c with ahead := c.ahead - 1 })) ∧
      ((s.ctx p).ahead = 0 → (s.ctx p).comparator = [] → o = .next { s with th := { s.th with stall := some 0 } }))

/-- Bits of an integer operation. -/
def size (w : Bool) : Nat := if w then 32 else 64
/-- The operand's low bits as a number. -/
def uns (w : Bool) (x : Word) : Nat := x.toNat % 2 ^ size w
/-- The operand's low bits as a two's complement number. -/
def sgn (w : Bool) (x : Word) : Int := if 2 * uns w x < 2 ^ size w then (uns w x : Int) else (uns w x : Int) - (2 ^ size w : Nat)
/-- The operand as Z says. -/
def val (z w : Bool) (x : Word) : Int := if z then (uns w x : Int) else sgn w x
/-- An exact result at the size, zero-extended to 64 bits (R162). -/
def res (w : Bool) (v : Int) : Word := BitVec.ofNat 64 (v % (2 ^ size w : Nat)).toNat
/-- Bits of a value above the size read as the sign, or as 0 for an unsigned field. -/
def bitX (z w : Bool) (x : Word) (i : Nat) : Bool := if i < size w then x.getLsbD i else !z && x.getLsbD (size w - 1)
/-- The number whose bit i is f i, for i below n. -/
def ofBits (f : Nat → Bool) : Nat → Nat
  | 0 => 0
  | n + 1 => ofBits f n + (if f n then 2 ^ n else 0)
/-- The word whose bit i is f i below the size, and 0 above it. -/
def bitwise (w : Bool) (f : Nat → Bool) : Word := BitVec.ofNat 64 (ofBits f (size w))

/-- The predicate word with one bit written. -/
def withBit (pw : Word) (p : BitVec 6) (b : Bool) : Word :=
  if b then pw ||| (1#64 <<< p.toNat) else pw &&& ~~~(1#64 <<< p.toNat)
/-- The conditions of Table 6-4, on operands read as unsigned (u, v) and as signed (x, y). -/
def condition (c : BitVec 3) (u v : Nat) (x y : Int) : Bool :=
  match c.toNat with
  | 0 => u == v
  | 1 => u != v
  | 2 => x < y
  | 3 => y ≤ x
  | 4 => u < v
  | _ => v ≤ u
/-- A condition on two operands of a size. -/
def holds (c : BitVec 3) (w : Bool) (x y : Word) : Bool := condition c (uns w x) (uns w y) (sgn w x) (sgn w y)

/-- Bits of a lane. -/
def lsize (l : BitVec 2) : Nat := 8 * 2 ^ l.toNat
/-- Lane i of a register, by its lane code. -/
def laneAt (w : Nat) (x : Word) (i : Nat) : Nat := x.toNat / 2 ^ (w * i) % 2 ^ w
/-- Lane i as Z says. -/
def laneInt (z : Bool) (w : Nat) (x : Word) (i : Nat) : Int :=
  if z || 2 * laneAt w x i < 2 ^ w then (laneAt w x i : Int) else (laneAt w x i : Int) - (2 ^ w : Nat)
/-- The number whose n lanes of w bits hold f 0, f 1 and so on, each modulo 2^w. -/
def ofLaneInts (w : Nat) (f : Nat → Int) : Nat → Nat
  | 0 => 0
  | n + 1 => ofLaneInts w f n + (f n % (2 ^ w : Nat)).toNat * 2 ^ (w * n)
/-- The word whose lanes of w bits hold f 0, f 1 and so on. -/
def lanewise (w : Nat) (f : Nat → Int) : Word := BitVec.ofNat 64 (ofLaneInts w f (64 / w))
/-- A value clamped to the range of a lane (R79). -/
def sat (z : Bool) (w : Nat) (v : Int) : Int :=
  let lo : Int := if z then 0 else -(2 ^ (w - 1) : Nat)
  let hi : Int := if z then (2 ^ w : Nat) - 1 else (2 ^ (w - 1) : Nat) - 1
  min (max v lo) hi


/-- The rounding mode of the pending prefix; RNE without one (R69). -/
def modeNow (s : State) : Nat := if s.th.pfx then pfxMode s.th.pfxval else 0
/-- The value that a register holds in a floating format, in its low bits. -/
def valueIn (f : FFmt) (x : Word) : FVal := f.value (x.toNat % 2 ^ f.width)
/-- An exact value rounded once to a format, neither saturating nor flushing, as a register holds it (R62, R162). -/
def rounded (f : FFmt) (mode : Nat) (v : FVal) : Word := BitVec.ofNat 64 (f.round mode false false 0 v)
/-- x below y, with -0 below +0 (R62). -/
def below (x y : FVal) : Bool := fLt x y || (!fLt y x && fSign x && !fSign y)
/-- What `fmin` (or, under `top`, `fmax`) gives: the operand that is no NaN, the lesser or the greater one, or the canonical NaN. -/
def extreme (f : FFmt) (top : Bool) (x y : Word) : Word :=
  let low := fun v : Word => BitVec.ofNat 64 (v.toNat % 2 ^ f.width)
  if valueIn f x = .nan then (if valueIn f y = .nan then BitVec.ofNat 64 f.nanEnc else low y)
  else if valueIn f y = .nan then low x
  else if (if top then below (valueIn f x) (valueIn f y) else below (valueIn f y) (valueIn f x)) then low y else low x
/-- The conditions of Table 7-5. -/
def fcondition (c : BitVec 3) (x y : FVal) : Bool :=
  let un := decide (x = .nan ∨ y = .nan)
  match c.toNat with
  | 0 => !un && !fLt x y && !fLt y x
  | 1 => un || fLt x y || fLt y x
  | 2 => !un && fLt x y
  | 3 => !un && !fLt y x
  | _ => un
/-- A converted element as a register holds it (R177): sign-extended from the signed integer formats. -/
def asRegister (f : Fmt) (v : Nat) : Word :=
  match f with
  | .int true w => if 2 * v < 2 ^ w then BitVec.ofNat 64 v else BitVec.ofInt 64 ((v : Int) - (2 ^ w : Nat))
  | _ => BitVec.ofNat 64 v


/-! ### Accesses to memory -/

/-- The outcome is a next state of which p holds. -/
def Runs (o : Out) (p : State → Prop) : Prop := ∃ t, o = .next t ∧ p t

/-- A memory in canonical form after n bytes of v have been written at a: those bytes, little-endian, and every other byte as
before. -/
def Stored (m m' : Memory) (a v n : Nat) : Prop :=
  m.wf = true → ∀ q, readByte m' q = if a ≤ q ∧ q < a + n then BitVec.ofNat 8 (v / 256 ^ (q - a)) else readByte m q

/-- No partition has its PC table enabled: a PC-table entry that is displaced is a write of the hardware's own (19 R421). -/
def NoProfile (s : State) : Prop := ∀ x ∈ s.parts, bitAt x.2.pctCtl.toNat 0 = false

/-- The special registers of a core, its trap queue, its waiter list and its barriers. -/
def special (s : State) (c : Nat) : Core :=
  let k := s.core c
  { hcvaS := k.hcvaS, hcvaM := k.hcvaM, hctxS := k.hctxS, hctxM := k.hctxM, hentryS := k.hentryS, hentryM := k.hentryM,
    tdeleg := k.tdeleg, trapQ := k.trapQ, mcheck := k.mcheck, fdisc := k.fdisc, rgnSel := k.rgnSel, lnkSel := k.lnkSel,
    rasCore := k.rasCore, evSel := k.evSel, halted := k.halted, bars := k.bars, waiters := k.waiters }

/-- What an access leaves alone: the bytes of memory and of the core stores, every other context, the tiles, the partitions and
die sets, and the special registers of every core. -/
def Kept (s t : State) : Prop :=
  t.mem = s.mem ∧ t.cstore = s.cstore ∧ t.ctxs = s.ctxs ∧ t.tiles = s.tiles ∧ t.parts = s.parts ∧ t.sets = s.sets ∧
    ∀ c, special t c = special s c

/-- The issuing core's die knows of no failed die. -/
def NoFailure (s : State) : Prop := (s.die s.hereDie).knows = []

/-- A message, but for the region version and the transaction id that its sending adds, is on its way: in the inbox, on a link or
held at the core. -/
def Sent (t : State) (e : Ev) : Prop := ∃ m ∈ t.flying ++ t.held.map (·.ev), withTx (withVer m 0) none = e

/-- Bytes of a size code (Table 6-2). -/
def bytesOfCode (z : BitVec 3) : Nat :=
  match z.toNat with
  | 0 => 1
  | 1 => 2
  | 2 => 4
  | 3 => 8
  | 4 => 1
  | 5 => 2
  | 6 => 4
  | _ => 16

/-- A loaded value as a register holds it (R193). -/
def extended (z : BitVec 3) (v : Nat) : Word :=
  match z.toNat with
  | 4 => (BitVec.ofNat 8 v).signExtend 64
  | 5 => (BitVec.ofNat 16 v).signExtend 64
  | 6 => (BitVec.ofNat 32 v).signExtend 64
  | _ => BitVec.ofNat 64 v

/-- The state in which a load of n bytes' length has passed with the value v of the size code z in wt, or in wt and the next. -/
def loaded (s : State) (z : BitVec 3) (t : Reg) (v n : Nat) : State :=
  if z = 7 then wrote (wrote s t (BitVec.ofNat 64 v) 0) (t + 1) (BitVec.ofNat 64 (v / 2 ^ 64)) n else wrote s t (extended z v) n

/-- The registers of a size code: t, or t and the next. -/
def regsOf (z : BitVec 3) (t : Reg) : List Reg := if z = 7 then [t, t + 1] else [t]

/-- The thread after a long load has passed: its destinations are empty, their EPOCH bits toggled and their PEND bits set. -/
def emptied (s : State) (rs : List Reg) (n : Nat) : Ctx :=
  rs.foldl (fun c r => { c with
    few := c.few &&& ~~~(1#8 <<< r.toNat)
    epoch := c.epoch ^^^ (1#8 <<< r.toNat)
    pend := c.pend ||| (1#8 <<< r.toNat)
    void := c.void &&& ~~~(1#8 <<< r.toNat) }) (passed s n).th

/-- The address is aligned to n bytes and names byte loc of the mesh window, on a die of the partition (R92, R195). -/
def InMesh (s : State) (ea : Word) (n loc : Nat) : Prop :=
  ea.toNat = meshBase + loc ∧ loc < 2 ^ 29 ∧ loc % n = 0 ∧ (setDies s.mode (s.th.part / 4)).contains (loc / 2 ^ 26) = true

/-- Nothing in flight or held keeps the issuing thread's access to a spot in its slot (05 Table 5-3, R109, R436). -/
def Free (s : State) (spot : Spot) : Prop := s.mustWait s.here.ctx s.hereCore spot = false

/-- The same, and none of the thread's own accesses to its core's store is in flight. -/
def OwnFree (s : State) : Prop :=
  Free s (.store s.hereCore) ∧ ((s.touches s.here.ctx).any fun x => x.on (.store s.hereCore)) = false

/-- p holds of the byte of the mesh window that an address names, aligned to n bytes. -/
def AtStore (s : State) (ea : Word) (n : Nat) (p : Nat → Prop) : Prop := ∀ loc, InMesh s ea n loc → p loc

/-- p holds of the physical address to which an address aligned to n bytes is translated with the right to an access, and of the
state that the look-up leaves (15 R351 to R358). -/
def AtPage (s : State) (ea : Word) (n : Nat) (a : Acc) (p : Nat → State → Prop) : Prop :=
  regionAt ea.toNat ≠ .mesh → ea.toNat % n = 0 → ∀ pa u, s.look s.hereCore s.here.ctx ea.toNat a = .ok pa u → p pa u

/-- An address outside the mesh window is translated by the issuing core's own TLB, with the right to load: the look-up changes nothing
(15 R357). -/
def Hits (s : State) (ea : Word) : Prop :=
  regionAt ea.toNat ≠ .mesh ∧ ∃ pa, s.look s.hereCore s.here.ctx ea.toNat .load = .ok pa s

/-- The anchor-relative address of R93. -/
def anchored (s : State) (dx dy : BitVec 5) (off : Word) : Option Word :=
  let c := (((get? s.blocks s.th.blk).map fun b => b.anchor).getD 0)
  let x : Int := (c % 32 : Nat) + dx.toInt
  let y : Int := (c / 32 % 32 : Nat) + dy.toInt
  if 0 ≤ x ∧ x ≤ 31 ∧ 0 ≤ y ∧ y ≤ 31 ∧ off.toNat ≤ 0xFFFF then
    some (BitVec.ofNat 64 (meshBase + (c / 1024 % 8 * 2 ^ 26 + y.toNat * 2 ^ 21 + x.toNat * 2 ^ 16 + off.toNat)))
  else none

/-- The state in which the core has performed an acquire of cluster scope or wider: it has forgotten its L1, and fetches the code that is
visible now (R90, R133). -/
def acquired (s : State) : State :=
  s.modCore s.hereCore fun k => { k with l1 := [], l1held := [], acqAt := s.fresh + 1 }

/-- The instruction waits in its slot: the thread and all else are as before. -/
def Waits (s : State) (o : Out) : Prop := o = .next { s with th := { s.th with stall := some 0 } }

/-- No word that n bytes at a place touch is poisoned: a core's store, or its L1's copy of physical bytes (17 R391, R392). -/
def Clean (s : State) (place n : Nat) : Prop := s.markedAt place n = false

/-- The request of a load of the issuing thread, but for the address and the tags that it carries. -/
def loadReq (s : State) (ea : Word) (sc : Nat) (z : BitVec 3) (t : Reg) : Req :=
  { ctx := s.here.ctx, core := s.hereCore, kind := .load, addr := 0, size := bytesOfCode z, reg := t.toNat, signed := sizeSigned z,
    info := ea, scope := sc, ordered := sc != 0 }

/-- The request of a nibble load. -/
def nibReq (s : State) (ea : Word) (z' u : Bool) (t : Reg) : Req :=
  { ctx := s.here.ctx, core := s.hereCore, kind := .nibLoad u, addr := 0, size := 1, reg := t.toNat, signed := !z', info := ea }

/-- A request at an address, with the EPOCH bits of its destinations in the thread that it leaves (02 R42). -/
def askedAt (r : Req) (addr : Nat) (c : Ctx) : Req :=
  { r with addr := addr, tag := c.epoch.getLsbD r.reg, tag2 := c.etag (r.reg + 1) }

/-- A poisoned answer to a load is on its way to its first destination (08 R196, 17 R392). -/
def Poisoned (s q : State) (r : Req) : Prop :=
  ∃ v w, Sent q (.registerFill s.here.ctx r.reg (q.th.epoch.getLsbD r.reg) v true r.info (.core s.hereCore) w)

/-- A load of a core store (R193), of the registers rs and n bytes' length, whose short form leaves what `got` says. It waits while an
acquire of the thread, or a read that the thread made from another core, is to perform first, and in its own core's store while an access
of the thread to that store is on its way or held (05 Table 5-3, R109). The own store answers at once; another core's, and a poisoned word,
by a message, with the destinations empty. An acquire of cluster scope or wider empties the L1. -/
def StoreLoad (s : State) (o : Out) (ea : Word) (sc n : Nat) (r : Req) (rs : List Reg) (got : State → Nat → State) : Prop :=
  AtStore s ea r.size fun loc =>
    let own := loc / 65536 = s.hereCore
    let free := s.mustHold s.here.ctx s.hereCore (.store (loc / 65536)) = false
    let after := if 2 ≤ sc then acquired s else s
    (¬ free → Waits s o) ∧
    (free → own → s.heldAt s.here.ctx s.hereCore (.store s.hereCore) = true ∨ ((s.touches s.here.ctx).any fun x => x.on (.store s.hereCore)) = true →
      Waits s o) ∧
    (OwnFree s → own → Clean s (storePlace + loc) r.size → o = .next (got after loc)) ∧
    (OwnFree s → own → ¬ Clean s (storePlace + loc) r.size → NoPend s rs → NoFailure s → Runs o fun q =>
      q.th = emptied s rs n ∧ Kept s q ∧ Poisoned s q r) ∧
    (free → ¬ own → NoPend s rs → NoFailure s → NoProfile s → Runs o fun q =>
      q.th = emptied s rs n ∧ Kept s q ∧ Sent q (.coreStoreAccess (askedAt r loc q.th)))

/-- A global load (R193): short on a hit of the L1, which an acquire of cluster scope or wider never reads; else long, with its
request on its way. A poisoned word of the L1's copy answers by a message. -/
def PageLoad (s : State) (o : Out) (ea : Word) (sc n : Nat) (r : Req) (rs : List Reg) (got : State → Nat → State) : Prop :=
  AtPage s ea r.size .load fun pa u =>
    let free := u.mustHold u.here.ctx u.hereCore (.sector (pa / 48)) = false
    let near := sc < 2 ∧ u.l1Clear (.sector (pa / 48)) = true
    let held := (u.core u.hereCore).cached pa r.size
    (¬ free → Waits u o) ∧
    (free → near → Clean u (l1Place u.hereCore + pa) r.size → ∀ v, held = some v →
      Runs o fun q => q.th = (got u v).th ∧ (NoProfile s → NoFailure s → Kept s q)) ∧
    (free → near → ¬ Clean u (l1Place u.hereCore + pa) r.size → NoPend s rs → NoProfile s → NoFailure s → ∀ v, held = some v →
      Runs o fun q => q.th = emptied s rs n ∧ Kept s q ∧ Poisoned s q r) ∧
    (free → ¬ near ∨ held = none → NoPend s rs → Runs o fun q =>
      q.th = emptied s rs n ∧ (NoProfile s → NoFailure s → Kept s q) ∧ Sent q (.homeReadRequest (askedAt r pa q.th)))

/-- A load of a core store into wt, or into wt and the next for the 16-byte size (z = 7). -/
def OwnLoad (s : State) (o : Out) (ea : Word) (sc n : Nat) (z : BitVec 3) (t : Reg) : Prop :=
  StoreLoad s o ea sc n (loadReq s ea sc z t) (regsOf z t) fun u loc => loaded u z t (readNat s.cstore loc (bytesOfCode z)) n

/-- A global load into wt, or into wt and the next for the 16-byte size (z = 7). -/
def GlobalLoad (s : State) (o : Out) (ea : Word) (sc n : Nat) (z : BitVec 3) (t : Reg) : Prop :=
  PageLoad s o ea sc n (loadReq s ea sc z t) (regsOf z t) fun u v => loaded u z t v n

/-- The nibble of a byte that a nibble load keeps, in wt (08 R198). -/
def nibbled (s : State) (z' u : Bool) (t : Reg) (b : Nat) : State :=
  let half := BitVec.ofNat 4 (if u then b / 16 else b)
  wrote s t (if z' then half.setWidth 64 else half.signExtend 64) 4

/-- The data of a store: W[t], or {W[t+1], W[t]}. -/
def dataOf (s : State) (z : BitVec 3) (t : Reg) : Nat :=
  if z = 7 then (s.th.wv t).toNat + 2 ^ 64 * (s.th.wv (t + 1)).toNat else (s.th.wv t).toNat % 2 ^ (8 * bytesOfCode z)

/-- k bytes of a core's store have been written at loc, and no others; a poisoned doubleword that they do not replace whole stays as it is
(17 R392). -/
def Wrote (s q : State) (loc k data : Nat) : Prop :=
  (Clean s (storePlace + loc) k → Stored s.cstore q.cstore loc data k) ∧
  (s.cstore.wf = true → ∀ b : Nat, readByte q.cstore b =
    if loc ≤ b ∧ b < loc + k ∧ (s.markedAt (storePlace + b) 1 = false ∨ loc ≤ b / 8 * 8 ∧ b / 8 * 8 + 8 ≤ loc + k) then
      BitVec.ofNat 8 (data / 256 ^ (b - loc))
    else readByte s.cstore b)

/-- A plain store to the thread's own core store, with no earlier fence still open (08 R193). -/
def OwnStore (s : State) (o : Out) (ea : Word) (n k data : Nat) : Prop :=
  AtStore s ea k fun loc => loc / 65536 = s.hereCore → OwnFree s → s.th.fenced = 0 →
    Runs o fun q => q.th = (passed s n).th ∧ q.mem = s.mem ∧ Wrote s q loc k data

/-- The request of a store of the issuing thread, but for the address that it carries. -/
def storeReq (s : State) (ea : Word) (sc k data : Nat) : Req :=
  { ctx := s.here.ctx, core := s.hereCore, kind := .store, addr := 0, size := k, data := data, info := ea, scope := sc, ordered := sc != 0 }

/-- A store to another core's store, a releasing one, or one that follows a fence whose earlier stores are under way: nothing is written yet, the request is on its way, or held at the core until
what it releases has performed (R115, R436). -/
def SentAway (s : State) (o : Out) (ea : Word) (sc n k data : Nat) : Prop :=
  AtStore s ea k fun loc => Free s (.store (loc / 65536)) → (loc / 65536 ≠ s.hereCore ∨ sc ≠ 0 ∨ s.th.fenced ≠ 0) → NoFailure s →
    Runs o fun q => q.th = (passed s n).th ∧ Kept s q ∧ Sent q (.coreStoreAccess { storeReq s ea sc k data with addr := loc })

/-- The same, and a store to global memory. -/
def SentStore (s : State) (o : Out) (ea : Word) (sc n k data : Nat) : Prop :=
  SentAway s o ea sc n k data ∧
  (AtPage s ea k .store fun pa u => Free u (.sector (pa / 48)) → NoFailure s →
    Runs o fun q => q.th = (passed s n).th ∧ Kept s q ∧ Sent q (.storeVisible { storeReq s ea sc k data with addr := pa }))

/-- An atomic (R200, R115): its destination is empty, and its operation with the data and the comparand read at issue is on its way
to the store controller or to the home, or held where it releases. -/
def Atomic (s : State) (o : Out) (op : AtomOp) (post e : Bool) (ord sc : BitVec 3) (a b d : Reg) : Prop :=
  let n := if e then 8 else 4
  let x := s.th.wv a
  let c := if post then (passed s 4).th else emptied s [d] 4
  let r : Req := { ctx := s.here.ctx, core := s.hereCore, kind := .store, addr := 0, size := n, data := (s.th.wv b).toNat % 2 ^ (8 * n),
                   reg := d.toNat, tag := c.epoch.getLsbD d.toNat, info := x, scope := sc.toNat,
                   ordered := ord == 1 || ord == 3 || ord == 4 }
  (AtStore s x n fun loc => Free s (.store (loc / 65536)) → NoFailure s →
    Runs o fun q => q.th = c ∧ Kept s q ∧ Sent q (.atomicExecute op post true (s.th.ev 0) { r with addr := loc })) ∧
  (AtPage s x n .atomic fun pa u => Free u (.sector (pa / 48)) → u.mustFollow s.here.ctx s.hereCore pa = false → NoFailure s →
    Runs o fun q => q.th = c ∧ Kept s q ∧ Sent q (.atomicExecute op post false (s.th.ev 0) { r with addr := pa }))

/-- The thread with extension register k holding v, full. -/
def putE (c : Ctx) (k : Nat) (v : Nat) : Ctx :=
  { c with e := c.e.setIfInBounds k (BitVec.ofNat 64 v), fee := c.fee ||| (1#4 <<< k) }

/-- The state in which an instruction of 4 bytes has passed and extension register k holds v. -/
def wroteE (s : State) (k v : Nat) : State := { passed s 4 with th := putE (passed s 4).th k v }

/-- Bit q of a stream of bytes: bit 7 - k of byte q div 8 (R183). -/
def streamAt (byte : Nat → Byte) (q : Nat) : Bool := (byte (q / 8)).getLsbD (7 - q % 8)

/-- The n bits from q on as a number, the first the most significant. -/
def streamNat (byte : Nat → Byte) (q : Nat) : Nat → Nat
  | 0 => 0
  | n + 1 => 2 * streamNat byte q n + (if streamAt byte (q + n) then 1 else 0)

/-- The byte of a core store that a mesh-window address names. -/
def storeByte (s : State) (addr : Nat) : Byte := readByte s.cstore (addr - meshBase)

/-- The bytes that hold the bits p to q - 1. -/
def bytesFor (p q : Nat) : List Nat := (List.range ((q - 1) / 8 - p / 8 + 1)).map (p / 8 + ·)

/-- The bits p to q - 1 of the stream lie in pages that the issuing core's TLB maps for loads, byte by byte at the physical addresses that f
gives, and no access of the thread is in the way (05 R109). -/
def PageBits (s : State) (f : Nat → Nat) (p q : Nat) : Prop :=
  ∀ b ∈ bytesFor p q, regionAt b ≠ .mesh ∧ s.look s.hereCore s.here.ctx b .load = .ok (f b) s ∧
    s.mustHold s.here.ctx s.hereCore (.sector (f b / 48)) = false ∧ s.heldAt s.here.ctx s.hereCore (.sector (f b / 48)) = false

/-- They lie in the stores of other cores of the partition, and nothing keeps the thread's read of them in its slot. -/
def AwayBits (s : State) (p q : Nat) : Prop :=
  ∀ b ∈ bytesFor p q, regionAt b = .mesh ∧ b < 2 ^ 57 ∧ (b - meshBase) / 65536 ≠ s.hereCore ∧ (b - meshBase) / 2 ^ 26 < 8 ∧
    (setDies s.mode (s.th.part / 4)).contains ((b - meshBase) / 2 ^ 26) = true ∧
    s.mustHold s.here.ctx s.hereCore (.store ((b - meshBase) / 65536)) = false ∧
    s.heldAt s.here.ctx s.hereCore (.store ((b - meshBase) / 65536)) = false

/-- The core's L1 gives the byte v at a physical address. -/
def L1Byte (s : State) (pa : Nat) (v : Byte) : Prop :=
  s.l1Clear (.sector (pa / 48)) = true ∧ Clean s (l1Place s.hereCore + pa) 1 ∧ (s.core s.hereCore).cached pa 1 = some v.toNat

/-- The bits p to q - 1 of the stream lie in the issuing core's own store. -/
def OwnBits (s : State) (p q : Nat) : Prop :=
  meshBase + 65536 * s.hereCore ≤ p / 8 ∧ (q - 1) / 8 < meshBase + 65536 * (s.hereCore + 1) ∧ s.hereCore < 8192 ∧
    (setDies s.mode (s.th.part / 4)).contains (s.hereCore / 1024) = true ∧
    ∀ b ∈ bytesFor p q, Clean s (storePlace + (b - meshBase)) 1

/-! ### Threads, wait objects and events -/

/-- Nothing of the issuing thread's own is on its way to a spot, and nothing keeps its access to it in its slot. -/
def Clear (s : State) (spot : Spot) : Prop :=
  Free s spot ∧ ((s.touches s.here.ctx).any fun x => x.on spot) = false

/-- The bytes of memory and of the core stores are as before. -/
def SameBytes (s t : State) : Prop := t.mem = s.mem ∧ t.cstore = s.cstore

/-- What a thread's program sees of its own: its registers, its predicate word and its pc. -/
def registers (c : Ctx) : Vector Word 8 × Vector Word 4 × Word × BitVec 57 := (c.w, c.e, c.pw, c.pc)

/-- A slot is issuing the context, which waits for nothing and is none of a pair (01 R23, 02 R37, 17 R396). -/
def Running (s : State) : Prop := s.cur.isSome = true ∧ s.th.kind = 0 ∧ s.th.peer = none

/-- R56: on a core that lacks the extension of an instruction, 1 EXT-F64 and 2 EXT-BITS, nothing is executed. The thread moves to a wide
core with its pc and prefix kept, once its stores have performed; a PINNED one, and a handler, raises EXT_MISSING. -/
def Moves (s : State) (o : Out) (ext : Nat) : Prop :=
  isWide s.hereCore = false → Unpaired s →
    (s.pinned s.here.ctx = true ∨ s.th.handler ≠ 0 → o = .next (s.trapAt 2 s.ienc s.th.pc)) ∧
    (Running s → s.pinned s.here.ctx = false → s.th.handler = 0 →
      (s.drained s.here.ctx = false → o = .next { s with th := { s.th with stall := some 0 } }) ∧
      (s.drained s.here.ctx = true → Runs o fun q =>
        SameBytes s q ∧ registers (q.ctx s.here.ctx) = registers s.th ∧ (q.ctx s.here.ctx).pfx = s.th.pfx ∧ (q.ctx s.here.ctx).kind = 10 ∧
        (q.ctx s.here.ctx).extneed.toNat = ext ∧ (q.centry s.here.ctx).transfer = some (.l2 (clusterOf s.hereCore))))

/-- The thread has passed n bytes' worth of instruction and given its slot away: it stands at the tail of its queue, and the core then
gives its free slots to the queues (08 R211, 14 R336). No register of it and no byte changes. -/
def GaveWay (s : State) (n : Nat) (o : Out) : Prop :=
  let v := (passed s n).vacate s.hereCore s.here.ctx false
  registers (v.ctx s.here.ctx) = registers (passed s n).th ∧ (v.core s.hereCore).slotOf s.here.ctx = none ∧
    (nth (v.core s.hereCore).ready s.th.prio.toNat []).getLast? = some s.here.ctx ∧
    o = .next (v.dispatch s.hereCore) ∧ SameBytes s (v.dispatch s.hereCore)

/-- The thread has ended (02 R37, R57; 08 R211): its line is at its home with kind 11, no fill is outstanding for it, its block counts
it no more, and no byte has changed. -/
def Ended (s q : State) : Prop :=
  (q.ctx s.here.ctx).kind = 11 ∧ (q.ctx s.here.ctx).pend = 0 ∧ (q.ctx s.here.ctx).epend = 0 ∧ (q.centry s.here.ctx).holder = .memory ∧
    (∀ k ∈ get? q.blocks s.th.blk, s.here.ctx ∉ k.live) ∧ SameBytes s q

/-- The command that the issuing thread of an unpaired context sends, of an operation code and mod bits, with the words of the
registers that it reads (09 R231). -/
def commandOf (s : State) (op mods : Nat) (j f : Bool) (x y : Word) : Cmd :=
  { ctx := s.here.ctx, core := s.hereCore, blk := s.th.blk, op := op, mods := mods, j := j, f := f, wa := x, wb := y,
    cluster := if op = 0x28 ∧ mods = 2 then clusterOf s.hereCore else match get? s.blocks s.th.blk with | some k => k.cluster | none => 0
    e0 := s.th.ev 0, e1 := s.th.ev 1, e2 := s.th.ev 2, e3 := s.th.ev 3, pfx := none, priv := s.th.priv.toNat,
    enc := s.ienc.setWidth 32, pc := s.th.pc.toNat }

/-- No command of the issuing thread is on its way to a Juggler, and none waits to be repeated. -/
def NoCommand (s : State) : Prop := s.commanding s.here.ctx = false ∧ s.retrying s.here.ctx = false

/-- A command is sent (09 R232): the thread stays on the instruction until the reply, and the command is held at the core until the
thread's earlier accesses have performed (05 R121). -/
def Commanded (s : State) (o : Out) (c : Cmd) : Prop :=
  NoCommand s → Runs o fun q => q.th = { s.th with stall := some 0 } ∧ Kept s q ∧
    (q.held.getLast?.map (·.ev)) = some (.commandAccept c)

/-- A TASK instruction reads its registers and the e words of a list (and e3 under J, which then names a join counter, R141) and
sends its command while CMDS is below 63 (09 R231, R232). -/
def TaskSent (s : State) (o : Out) (op mods : Nat) (es : List Nat) (b : Reg) (a : Reg) (j f : Bool) : Prop :=
  Full s ([a.toNat, b.toNat] ++ es ++ (if j then [11] else [])) → s.th.cmds ≠ 63 →
    (j = true → InMesh s (s.th.ev 3) 32 ((s.th.ev 3).toNat - meshBase)) →
    Commanded s o (commandOf s op mods j f (s.th.wv a) (s.th.wv b))

/-- A long instruction has passed, and the fill that brings its answer v is on its way to wd (R40, R42). -/
def Answered (s : State) (d : Reg) (v : Word) (q : State) : Prop :=
  q.th = emptied s [d] 4 ∧
    Sent q (.registerFill s.here.ctx d.toNat (!s.th.epoch.getLsbD d.toNat) v false 0 (.core s.hereCore) 0)

/-- An address names a context line that the issuing thread may act on, and that is not on its way between two units (13 R317 to R319). -/
def Names (s : State) (x : Word) (id : Nat) : Prop :=
  x.toNat % 128 = 0 ∧ regionAt x.toNat = .context ∧ s.physOf s.th.part x.toNat = some id ∧
    ((s.ctx id).priv ≠ 3 ∨ s.th.priv = 3) ∧ (s.centry id).transfer = none ∧ s.commanding id = false

/-- Every context but one is as before. -/
def OthersKept (s t : State) (id : Nat) : Prop := ∀ x ∈ s.ctxs, x.1 ≠ id → x.1 ≠ s.here.ctx → registers (t.ctx x.1) = registers (s.ctx x.1)

/-- Nothing is left for a release of the issuing thread to wait for: the token rounds that it joined are complete, and nothing is on its
way or held (05 R115, R116). -/
def Settled (s : State) : Prop :=
  (∃ r ∈ (nth (s.core s.hereCore).slots s.here.slot {}).fence, s.roundsDone s.hereDie r = true) ∧ s.flying = [] ∧ s.held = []

/-- A translation that a `tlbi` of a kind names (13 R326): of pages of the issuing partition that meet n base pages from an address
on, of its lower half, or of all of it. -/
def Invalidated (s : State) (k : BitVec 2) (va : Word) (n : Nat) (e : TlbEntry) : Prop :=
  e.part = s.th.part ∧
    match k.toNat with
    | 2 => e.hi = false
    | 3 => True
    | _ => let p := va.toNat % 2 ^ 56 / 12288
           e.hi = va.getLsbD 56 ∧ e.page < p + (if k = 1 then n else 1) ∧ p < e.page + 1536 ^ (e.level - 1)

/-- The registers of 13 Table 13-1, 15 Table 15-3, 16 Table 16-4, 17 Table 17-2, 19 Table 19-1 and 20 Table 20-5 that hold what is
written, with the mask of their bits. -/
def storing : List (Nat × Word) :=
  [(0x03, ~~~0), (0x04, ~~~0), (0x05, 0x3FFFFE), (0x08, ~~~0), (0x20, 0x800000FFFFFFFFFF), (0x21, 0x800000FFFFFFFFFF), (0x22, ~~~0),
   (0x25, 0xF), (0x32, 0x3FF), (0x50, 0x81FFFFFFFFFFFFFF), (0x51, 0x81FFFFFFFFFFFFFF), (0x52, 0x81FFFFFFFFFFFFFF),
   (0x53, 0x81FFFFFFFFFFFFFF), (0x5A, ~~~0), (0x64, 0xFFFFFFFF)]

/-- A unit holds a context line, and the line is on no way to another (14 R334). -/
def HeldBy (s : State) (ctx : Nat) (unit : Holder) : Prop := (s.centry ctx).holder = unit ∧ (s.centry ctx).transfer = none

/-- No partition records or replays the order of its operations (19 R422, R423). -/
def NoReplay (s : State) : Prop := ∀ x ∈ s.parts, x.2.rplCtl.toNat % 4 = 0

/-- Nothing has been held for a context while it waited: no trap and no stop (13 R314, R316). -/
def Plain (c : Ctx) : Prop := c.heldTraps = [] ∧ c.heldStop = [] ∧ c.peer = none

/-- The wakeup of a wait, as it is sent to the unit that holds the context's line. -/
def Wakeup (s : State) (ctx kind arg : Nat) (acq : Bool) : Ev :=
  .wakeupApply ctx kind (BitVec.ofNat 60 arg) acq (s.centry ctx).holder

/-- A fill, as it is sent to the unit that holds the context's line. -/
def Fill (s : State) (ctx reg : Nat) (tag : Bool) (v : Word) (wake : Nat) : Ev :=
  .registerFill ctx reg tag v false 0 (s.centry ctx).holder wake

/-- A message can be sent from one die to another: they are one, or the sender knows of no failed die (01 R20, 16 R385). -/
def Reach (s : State) (src dst : Nat) : Prop := src = dst ∨ (s.die src).knows = [] ∧ src < 21 ∧ dst < 21

/-- The new value that an atomic of n bytes gives a location (08 R200): none where a `cas` finds another value than its comparand. -/
def atomicValue (op : AtomOp) (n old cmp x : Nat) : Option Nat :=
  let m := 2 ^ (8 * n)
  let s := fun v : Nat => if 2 * v < m then (v : Int) else (v : Int) - m
  match op with
  | .add => some ((old + x) % m)
  | .and => some (old &&& x)
  | .or => some (old ||| x)
  | .xor => some (old ^^^ x)
  | .minS => some (if s x < s old then x else old)
  | .maxS => some (if s old < s x then x else old)
  | .minZ => some (if x < old then x else old)
  | .maxZ => some (if old < x then x else old)
  | .swp => some x
  | .cas => if old = cmp % m then some x else none
  | .fadd =>
    let f := if n = 4 then fp32 else fp64
    some (f.round 0 false false 0 (fAdd false (f.value old) (f.value x)))

/-- A line may be written through to its bytes: none of them is poisoned, the line is not LOST, and the requester's block repairs nothing
(10 R277, 17 R392). -/
def Sound (s : State) (ctx a n : Nat) : Prop :=
  (s.line (a / 192)).st ≠ .lost ∧ (s.poison.any fun w => a < 8 * w + 8 && 8 * w < a + n) = false ∧ s.repairing (s.ctx ctx).blk = false

/-- The fill by which a load or an atomic answers (08 R193, R200): the value, extended as the request says. -/
def Reply (r : Req) (v : Nat) : Ev :=
  .registerFill r.ctx r.reg r.tag
    (if r.signed ∧ 2 ^ (8 * r.size - 1) ≤ v then BitVec.ofInt 64 ((v : Int) - (2 ^ (8 * r.size) : Nat)) else BitVec.ofNat 64 v)
    false r.info (.core r.core) 0

/-- A memory after a location of n bytes has received a value, or none. -/
def Updated (m m' : Memory) (a n : Nat) : Option Nat → Prop
  | some v => Stored m m' a v n
  | none => m' = m

/-- What follows from a Juggler's judgement of a command (09 Table 9-4): a cause and an information word, or a task. -/
def Judged (r : Except (Nat × Word) Task) (bad : Nat → Word → Prop) (good : Task → Prop) : Prop :=
  match r with
  | .error x => bad x.1 x.2
  | .ok x => good x

/-! ### Elements of tiles (09 R237 to R247) -/

/-- The rounding mode of a command: its prefix's, RNE without one. -/
def vMode (c : Cmd) : Nat := (c.pfx.map pfxMode).getD 0
/-- A command's results saturate. -/
def vSat (c : Cmd) : Bool := (c.pfx.map pfxSat).getD false
/-- The value of an element of a format, under the command's flush bit (03 R63). -/
def num (c : Cmd) (f e : Nat) : FVal := (fmtOf f).input c.f e
/-- An element of an integer format as an integer (03 R60). -/
def intOf (f e : Nat) : Int :=
  match fmtOf f with
  | .int sg w => if !sg || 2 * (e % 2 ^ w) < 2 ^ w then (e % 2 ^ w : Nat) else ((e % 2 ^ w : Nat) : Int) - (2 ^ w : Nat)
  | _ => 0
/-- An exact integer result as an element: its low bits, or clamped under the saturate bit (03 R79). -/
def intEl (c : Cmd) (f : Nat) (v : Int) : Nat :=
  match fmtOf f with
  | .int sg w =>
    let lo : Int := if sg then -(2 ^ (w - 1) : Nat) else 0
    let hi : Int := if sg then (2 ^ (w - 1) : Nat) - 1 else (2 ^ w : Nat) - 1
    ((if vSat c then min (max v lo) hi else v) % (2 ^ w : Nat)).toNat
  | _ => 0
/-- An exact value rounded once to a format, under the command's prefix; `rnd` are the random bits of SR (03 R70, R73). -/
def floatEl (c : Cmd) (f rnd : Nat) (v : FVal) : Nat :=
  match fmtOf f with
  | .flt g => g.round (vMode c) (vSat c) c.f rnd v
  | .mk8 => mk8Round v
  | .int sg w => toInt (vMode c) rnd sg w v
/-- The lesser, or under `top` the greater, of two elements of a format: a NaN gives way to the other, and -0 lies below +0 (03 R62). -/
def leastEl (c : Cmd) (f : Nat) (top : Bool) (x y : Nat) : Nat :=
  let first := fun u v : FVal => if u = .nan then v else if v = .nan then u else if (if top then below u v else below v u) then v else u
  match fmtOf f with
  | .int _ _ => if (if top then intOf f x < intOf f y else intOf f y < intOf f x) then y else x
  | .mk8 => if first (mk8Value x) (mk8Value y) = mk8Value x then x else y
  | .flt g => g.round 0 false c.f 0 (first (num c f x) (num c f y))
/-- The conditions of `vcmp` (09 R240): Table 6-4 for integers, each with its own signedness, and Table 7-5 for the rest. -/
def elCondition (c : Cmd) (f x y : Nat) : Bool :=
  let w := (fmtOf f).width
  let sg := fun e : Nat => if 2 * (e % 2 ^ w) < 2 ^ w then ((e % 2 ^ w : Nat) : Int) else ((e % 2 ^ w : Nat) : Int) - (2 ^ w : Nat)
  if isI f then condition (BitVec.ofNat 3 c.mods) (x % 2 ^ w) (y % 2 ^ w) (sg x) (sg y) else fcondition (BitVec.ofNat 3 c.mods) (num c f x) (num c f y)
/-- The special operands of Table 9-7. -/
def tableValue (op : Nat) (x : FVal) : Option FVal :=
  let one := FVal.fin false 1 1 0
  let zero := fun s : Bool => FVal.fin s 0 1 0
  match x with
  | .nan => some .nan
  | .inf s => match op with
    | 8 => some (if s then zero false else .inf false)
    | 9 => if s then some .nan else some (.inf false)
    | 10 => some (zero s)
    | 11 => if s then some .nan else some (zero false)
    | _ => some (.fin s 1 1 0)
  | .fin s n _ _ => match op with
    | 8 => if n = 0 then some one else if !fLt x (.fin false 128 1 0) then some (.inf false) else if fLt x (.fin true 150 1 0) then some (zero false) else none
    | 9 => if n = 0 then some (.inf true) else if s then some .nan else if !fLt x one && !fLt one x then some (zero false) else none
    | 10 => if n = 0 then some (.inf s) else none
    | 11 => if n = 0 then some (.inf s) else if s then some .nan else none
    | _ => if n = 0 then some x else if fLt (.fin true 19 1 (-1)) x && fLt x (.fin false 19 1 (-1)) then none else some (.fin s 1 1 0)
/-- A reduction of the elements of a row or a column (09 R241): sum, max, min, amax. -/
def reducedEl (c : Cmd) (src dst : Nat) : List Nat → Nat
  | [] => 0
  | v :: r =>
    let into := fun f x : Nat => roundTo (fmtOf f) (fmtOf dst) (vMode c) (vSat c) c.f 0 x
    let mag := fun x : Nat => x % 2 ^ ((fmtOf src).width - 1)
    let fp := fun x : FVal => fp32.round 0 false c.f 0 x
    if isI src then
      let xs := (v :: r).map (intOf src)
      intEl c dst (match c.mods with
        | 0 => xs.sum
        | 1 => xs.foldl max (intOf src v)
        | 2 => xs.foldl min (intOf src v)
        | _ => (xs.map fun x => (x.natAbs : Int)).foldl max 0)
    else match c.mods with
      | 0 => into 6 (r.foldl (fun acc x => fp (fAdd false (num c 6 acc) (num c src x))) (fp (num c src v)))
      | 3 => into src ((r.map mag).foldl (leastEl c src true) (leastEl c src true (mag v) (mag v)))
      | _ => into src (r.foldl (leastEl c src (c.mods == 1)) (leastEl c src (c.mods == 1) v v))
/-- The scale byte of a block of 32 values that `vquant` writes (09 R244). -/
def scaleEl (f : Nat) (xs : List FVal) : Nat :=
  let emax : Int := match f with | 9 => 8 | 10 => 15 | 11 => 2 | 12 => 4 | _ => 2
  if xs.any fun x => x = .nan || x = .inf false || x = .inf true then 0xFF
  else
    let es := xs.filterMap fun x => match x with | .fin _ n d e => if n = 0 then none else some (log2Ratio n d + e) | _ => none
    let x : Int := match es with | [] => 0 | e :: r => r.foldl max e - emax
    (min (max x (-127)) 127 + 127).toNat
/-- The values of the block of an MX destination in which its element (r, k) lies. -/
def blockEl (c : Cmd) (d a : View) (r k : Nat) : List FVal :=
  (List.range 32).map fun i => num c a.fmt (if d.axis = 1 then a.elem r (k / 32 * 32 + i) else a.elem ((d.row0 + r) / 32 * 32 - d.row0 + i) k)
/-- An element of `mdrain` (09 R247). -/
def drainEl (c : Cmd) (d a b m : View) (draw r k : Nat) : Nat :=
  let s16 := fun v : Nat => if v % 65536 < 32768 then ((v % 65536 : Nat) : Int) else ((v % 65536 : Nat) : Int) - 65536
  let e1 := c.e1.toNat
  let v : FVal := if a.fmt = 4 then
      fMul (ofInt (intOf 4 (a.elem r k) * intOf 4 (b.elem 0 k))) (pow2 (-(31 + min (max (intOf 0 (m.elem 0 k)) (-31)) 31)))
    else fMul (num c 6 (a.elem r k)) (num c 6 (b.elem 0 k))
  match fmtOf d.fmt with
  | .int sg w =>
    let lower := max (min (s16 (e1 / 2 ^ 16)) (s16 (e1 / 2 ^ 32))) (if sg then -(2 ^ (w - 1) : Nat) else 0)
    let upper := min (s16 (e1 / 2 ^ 32)) (if sg then (2 ^ (w - 1) : Nat) - 1 else (2 ^ w : Nat) - 1)
    let x : Int := match v with
      | .nan => min (max (s16 e1) lower) upper
      | .inf s => if s then min lower upper else upper
      | v => min (max ((roundInt (vMode c) draw v).getD 0 + s16 e1) lower) upper
    (x % (2 ^ w : Nat)).toNat
  | _ => floatEl c d.fmt draw v

/-- The element (r, k) of D that a vector command or `mdrain` leaves (09 Tables 9-6 and 9-7, R239 to R244, R247), by views of its operands
before it; none where the spec gives a special function an error and no value. -/
def elementOf (c : Cmd) (seed : Word) (d a b m : View) (scale : Tile) (r k : Nat) : Option Nat :=
  let f := d.fmt
  let x := a.elem r k
  let y := b.elem r k
  let e1 := c.e1.toNat
  let w := (fmtOf f).width
  let v := num c f
  let down := vMode c == 3
  -- random bits under SR, by the element's index in D's logical tile (03 R72)
  let draw := if vMode c = 5 then mixBits seed (c.e0.toNat / 2 ^ 16 % 2 ^ 32) ((d.row0 + r) * d.cols + k) (c.e0.toNat % 2 ^ 16) else 0
  let amount := (if c.mods % 2 = 1 then y else e1) % 256
  match c.op with
  | 0x00 => some (if isI f then intEl c f (intOf f x + intOf f y) else floatEl c f 0 (fAdd down (v x) (v y)))
  | 0x01 => some (if isI f then intEl c f (intOf f x - intOf f y) else floatEl c f 0 (fAdd down (v x) (fNeg (v y))))
  | 0x02 => some (if isI f then intEl c f (intOf f x * intOf f y) else floatEl c f 0 (fMul (v x) (v y)))
  | 0x03 => some (leastEl c f false x y)
  | 0x04 => some (leastEl c f true x y)
  | 0x05 => some (floatEl c f 0 (fAdd down (fMul (v x) (v y)) (v (m.elem r k))))
  | 0x06 => match fmtOf f with
    | .int _ _ => some (intEl c f (intOf f x).natAbs)
    | .mk8 => some (if x = 0x80 then 0x80 else x % 128)
    | .flt g => some (g.round 0 (vSat c) c.f 0 (match v x with | .fin _ n d e => .fin false n d e | .inf _ => .inf false | .nan => .nan))
  | 0x07 => match fmtOf f with
    | .int _ _ => some (intEl c f (-(intOf f x)))
    | .mk8 => some (if x = 0x80 ∨ x = 0 then x else (x + 128) % 256)
    | .flt g => some (g.round 0 (vSat c) c.f 0 (fNeg (v x)))
  | 0x0D => some (roundTo (fmtOf a.fmt) (fmtOf f) (vMode c) (vSat c) c.f draw x)
  | 0x0E => some (if elCondition c a.fmt x y then 1 else 0)
  | 0x0F => some (if m.elem r k = 0 then y else x)
  | 0x10 => some (reducedEl c a.fmt f ((List.range a.cols).map fun j => a.elem r j))
  | 0x11 => some (reducedEl c a.fmt f ((List.range a.rows).map fun j => a.elem j k))
  | 0x12 => some (if c.mods % 2 = 1 then a.elem 0 k else a.elem r 0)
  | 0x13 => some (a.elem k r)
  | 0x14 =>
    if c.mods % 2 = 1 then
      let s := if a.axis = 1 then scale.elem (a.row0 + r) (k / 32) else scale.elem ((a.row0 + r) / 32) k
      some (floatEl c f 0 (if s = 0xFF then .nan else fMul (num c a.fmt x) (pow2 ((s : Int) - 127))))
    else some (floatEl c f 0 (fMul (v x) (num c 6 (e1 % 2 ^ 32))))
  | 0x15 =>
    let s := scaleEl f (blockEl c d a r k)
    match fmtOf f with
    | .flt g => some (if s = 0xFF then 0 else g.round (vMode c) true c.f draw (fMul (num c a.fmt x) (pow2 (127 - (s : Int)))))
    | _ => none
  | 0x16 => if isI f then some (if vSat c then intEl c f (intOf f x * (2 ^ amount : Nat)) else x * 2 ^ amount % 2 ^ w) else none
  | 0x17 => if isI f then some (x / 2 ^ amount) else none
  | 0x18 => if isI f then some ((if 2 * x < 2 ^ w then (x : Int) else (x : Int) - (2 ^ w : Nat)) / (2 ^ amount : Nat) % (2 ^ w : Nat)).toNat else none
  | 0x19 =>
    let lo := e1 % 2 ^ w
    let hi := e1 / 2 ^ 32 % 2 ^ w
    if isI f then some ((min (max (intOf f x) (intOf f lo)) (intOf f hi)) % (2 ^ w : Nat)).toNat
    else if v x = .nan then some (floatEl c f 0 .nan) else some (leastEl c f false (leastEl c f true x lo) hi)
  | 0x1A => some x
  | 0x1B => some (e1 % 2 ^ w)
  | 0x1C =>
    let tri : Int := if e1 / 2 ^ 36 % 2 ^ 12 < 2048 then (e1 / 2 ^ 36 % 2 ^ 12 : Nat) else ((e1 / 2 ^ 36 % 2 ^ 12 : Nat) : Int) - 4096
    some (if e1 % 256 ≤ r ∧ r < e1 / 256 % 256 ∧ e1 / 2 ^ 16 % 1024 ≤ k ∧ k < e1 / 2 ^ 26 % 1024 ∧ (c.mods % 2 = 1 → (k : Int) ≤ r + tri) then 1 else 0)
  | 0x21 => some (drainEl c d a b m draw r k)
  | op => if 8 ≤ op ∧ op ≤ 12 ∧ c.pfx = none then (tableValue op (v x)).map (floatEl c f 0) else none

/-- One element of an `mma` of whole K (03 R82), from the accumulator's element: the groups in ascending order. -/
def mmaEl (c : Cmd) (a b : View) (sa sb : Tile) (whole : Bool) (m n acc : Nat) : Nat :=
  let byte := fun (z : Bool) (v : Nat) => if z || v % 256 < 128 then ((v % 256 : Nat) : Int) else ((v % 256 : Nat) : Int) - 256
  let s32 := fun v : Int => if v % (2 ^ 32 : Nat) < 2 ^ 31 then v % (2 ^ 32 : Nat) else v % (2 ^ 32 : Nat) - 2 ^ 32
  let g := if whole ∨ isMx a.fmt = true then 32 else 4
  let groups := List.range (a.cols / g)
  if whole then
    ((groups.foldl (fun acc j =>
      let s := ((List.range 32).map fun i => byte (bitAt c.mods 0) (a.elem m (32 * j + i)) * byte (bitAt c.mods 1) (b.elem n (32 * j + i))).sum
      if bitAt c.mods 2 then min (max (acc + s) (-(2 ^ 31 : Nat))) ((2 ^ 31 : Nat) - 1) else s32 (acc + s)) (s32 (acc : Int))) % (2 ^ 32 : Nat)).toNat
  else
    let fp := fun x : FVal => fp32.round 0 false c.f 0 x
    let scale := fun (v : View) (t : Tile) (r j : Nat) => if v.axis = 1 then t.elem (v.row0 + r) j else 0x7F
    groups.foldl (fun acc j =>
      let s := groupSum (if g = 32 then 73 else 60) ((List.range g).map fun i => fMul (num c a.fmt (a.elem m (g * j + i))) (num c b.fmt (b.elem n (g * j + i))))
      let x := scale a sa m j
      let y := scale b sb n j
      let s := if isMx a.fmt then (if x = 0xFF ∨ y = 0xFF then .nan else fMul s (pow2 ((x : Int) + y - 254))) else s
      fp (fAdd false (num c 6 acc) (num c 6 (fp s)))) acc

/-- A tile operand whose tile is the one that its command named, with no poisoned word, and whose view lies in it (04 R98, R101). -/
def Present (s : State) (x : TRef) : Prop :=
  (get? s.tiles x.key).map (fun t => (t.seed, t.desc, t.scale)) = some (x.seed, x.desc, x.scale) ∧ Clean s (tilePlace + x.key * 2 ^ 16) (2 ^ 16) ∧
    x.row0 + x.rows ≤ halfRows x.desc x.scale

/-- The same for the scale tile of an MX operand (04 R99). -/
def ScalePresent (s : State) (x : TRef) : Prop :=
  (get? s.tiles (x.key + 1)).map (fun t => (t.seed, t.desc, t.scale)) = some (x.seed + 1, x.desc, true) ∧
    Clean s (tilePlace + (x.key + 1) * 2 ^ 16) (2 ^ 16)

/-- The stamp that the home of a line gives the line's patch (10 R267): its copy of the generation; one that another home of the patch has
given from a newer copy stays while advances are under way (log entry 82). -/
def stampedBy (s : State) (line : Nat) : Nat :=
  let set := setOfPatch s.mode (line / 64)
  let new := s.unitGen set (s.homeDie set (192 * line))
  let ahead := (s.stampOf (line / 64) + 256 - new) % 256
  if 1 ≤ ahead ∧ ahead ≤ (s.set set).advances.length then s.stampOf (line / 64) else new

/-- The line of a physical address is not LOST and no byte of the n from it on is poisoned (10 R277, 17 R392). -/
def Whole (s : State) (pa n : Nat) : Prop :=
  (s.line (pa / 192)).st ≠ .lost ∧ (s.poison.any fun w => pa < 8 * w + 8 && 8 * w < pa + n) = false

/-- After a record has been written at a virtual address of a partition, its n bytes from an offset on hold v; where no page maps the
address, nothing is written. -/
def Field (s q : State) (part va off v n : Nat) : Prop :=
  s.mem.wf = true → ∀ pa ∈ s.physOf part va, Whole s (pa + off) n → readNat q.mem (pa + off) n = v % 256 ^ n

/-- No cluster's PC table holds an entry (19 R421). -/
def NoSamples (s : State) : Prop := ∀ x ∈ s.clusters, x.2.pct = []

/-- A patch is in one of some ranges (10 R258). -/
def InRanges (l : List (Nat × Nat)) (p : Nat) : Prop := ∃ r ∈ l, r.1 ≤ p ∧ p < r.1 + r.2

/-- No byte of memory or of a core store and no register, predicate word or pc of a context has changed. -/
def SameRegisters (s t : State) : Prop := SameBytes s t ∧ registers t.th = registers s.th ∧ ∀ x ∈ s.ctxs, registers (t.ctx x.1) = registers (s.ctx x.1)

/-- A context stands in a queue of a core's, or has a slot there. -/
def QueuedOrSeated (t : State) (core ctx : Nat) : Prop :=
  (t.core core).ready.any (·.contains ctx) = true ∨ ((t.core core).slotOf ctx).isSome = true

/-- A core has its 16 slots and its 4 queues (01 R23, 02 R44). -/
def Shaped (s : State) (core : Nat) : Prop := (s.core core).slots.length = 16 ∧ (s.core core).ready.length = 4

/-- A message for a context line: a fill, a wakeup or the end of a command (16 Table 16-2). -/
def ForLine : Ev → Prop
  | .registerFill _ _ _ _ _ _ _ _ => True
  | .wakeupApply _ _ _ _ _ => True
  | .cmdsDecrement _ _ _ => True
  | _ => False

/-- The ready ring of a partition at a cluster. -/
def ringOf (s : State) (cluster part : Nat) : List RingEntry := getD (s.cluster cluster).rings part []

/-- No context has a trap held. -/
def NoHeldTrap (s : State) : Prop := ∀ x ∈ s.here.ctx :: s.ctxs.map (·.1), (s.ctx x).heldTraps = []

/-- A flit lies before a number, in the numbering modulo 1,024 (16 R373). -/
def Before (f : Flit) (seq : Nat) : Prop := 0 < (seq + 1024 - f.seq) % 1024 ∧ (seq + 1024 - f.seq) % 1024 ≤ 512

/-- A replay buffer after the flits before a number have been freed: the rest, in order (16 R373). -/
def Freed (old new : List Flit) (seq : Nat) : Prop :=
  new <:+ old ∧ (∀ f ∈ old.take (old.length - new.length), Before f seq) ∧ ∀ f ∈ new.head?, ¬ Before f seq

/-- The four timestamps of an exchange of a die, as the result that follows carries them: the first is the grandmaster's time, and the
third is not before the second (16 R382). -/
def Exchanged (s : State) (die : Nat) : Option Ev → Prop
  | some (.calliopeResult d t1 t2 t3 _) => d = die ∧ t1 = s.gtime ∧ t2 ≤ t3
  | _ => False

/-- A served command's result at a physical address (20 R432): its status in the low byte, its value above. -/
def Result (s q : State) (res : Word) (status value : Nat) : Prop :=
  s.mem.wf = true → Whole s res.toNat 8 → readNat q.mem res.toNat 8 = status + 256 * value

/-- The state in which a boot step has failed for a reason, and no other has run (20 R425). -/
def bootFailed (s : State) (step reason : Nat) : State := { s with bootFail := step, bootReason := reason }

/-- The controller's request is on its way to every die of a set that has not failed, and the set waits for them (20 R433). -/
def Asked (s q : State) (set what into : Nat) (e : Nat → Ev) : Prop :=
  (∃ c ∈ (q.set set).ctl, c.what = what ∧ c.into = into ∧ c.await = (setDies s.mode set).filter fun d => !s.diefail.getLsbD d) ∧
    ((s.die 20).knows = [] → ∀ d ∈ setDies s.mode set, d < 8 → s.diefail.getLsbD d = false → Sent q (e d))

end Sys2Proof.Claims

open Sys2Proof Sys2Proof.Claims Sys2Proof.Machine

/-! ### The statements -/

/-- R131, R132, 01 R23: where the next thing to happen is the issue cycle of a slot whose context has no trap and no stop held,
the step fetches the halfword at the pc, a second one where bits [1:0] of the first are 0b11, and answers what exec answers for
the instruction that they decode to; an encoding that names no instruction runs as the row NON_INSTRUCTION_ENCODING (R152). Around
exec the step adds the issue cycle itself (Machine.State.load), the slot's event counts and samples (issued) and the count of free
choices (stepped). Where the next thing is a message or a step of another unit that is due, the step answers what exec answers for
its row, and where nothing may happen, time passes. A part of an instruction that a message carries to another unit, which no row
names, is carried out there (log entry 110). A slot issues on cycles of its own number modulo 16. The fetch takes the visible
halfwords where no write has replaced them since the core's last acquire (R133; log entry 94 for the others), and a spawned
context's bits [63:57] are 0 (08 R212). Choices and readings of the model's own on which it rests: log entries 8, 27, 62, 69, 71,
94, 110. -/
def Obligations.StepRuns : Prop :=
  ∀ s : State,
    let v := s.unload
    (∀ core slot id : Nat, v.pick = some (.issue core slot) → core < 8192 → (nth (v.core core).slots slot {}).ctx = some id →
      let t := v.load core slot id
      let pc := t.th.pc.toNat
      let finish := fun o : Out => stepped (issued ⟨core, slot, id⟩ pc (t.launchBits id) o)
      let instr := fun e : Enc => match decode e with
        | .ok i => i
        | .err _ => .nonInstructionEncoding (e.toWord.setWidth 32)
      let half := fun (m : Memory) (pa : Nat) => readByte m (pa / 2 * 2 + 1) ++ readByte m (pa / 2 * 2)
      let fresh := fun (x : State) (pa : Nat) => (x.olds.any fun y => y.1 == pa / 2 && (x.core x.hereCore).acqAt ≤ y.2.2) = false
      (slot < 16 → (t.core core).lastCyc % 16 = slot ∧ (v.core core).lastCyc < (t.core core).lastCyc) ∧
      ((t.ctx id).heldTraps = [] → (t.ctx id).heldStop = [] → t.th.entryHi = 0 → regionAt pc ≠ .mesh → regionAt pc ≠ .context →
      ∀ pa u, t.look t.hereCore t.here.ctx pc .fetch = .ok pa u → fresh u pa →
        let h := half u.mem pa
        (h.extractLsb' 0 2 ≠ 3 →
          let r := { u with ienc := (Enc.half h).toWord }
          r.breakHit = none → step s = finish (exec (instr (.half h)) r)) ∧
        (h.extractLsb' 0 2 = 3 →
          let next := (pc + 2) % 2 ^ 57
          regionAt next ≠ .mesh → regionAt next ≠ .context →
          ∀ pa' u', u.look u.hereCore u.here.ctx next .fetch = .ok pa' u' → fresh u' pa' →
            let w := half u'.mem pa' ++ h
            let r := { u' with ienc := (Enc.word w).toWord }
            r.breakHit = none → step s = finish (exec (instr (.word w)) r)))) ∧
    (∀ i e, v.pick = some (.message i) → v.inbox[i]? = some e →
      let r := { v with inbox := v.inbox.eraseIdx i }
      (∀ row, e.toInstr = some row → step s = stepped (exec row r)) ∧ (∀ x, e = .errand x → step s = stepped (execErrand x r))) ∧
    (∀ e row, v.pick = some (.due e) → e.toInstr = some row → step s = stepped (exec row v)) ∧
    (v.pick = none → step s = .next { v.pass with fresh := v.fresh + 1 } ∧ (v.sub < 273 → v.pass.gtime = (v.gtime + 80) % 2 ^ 64))

/-- 06 Tables 6-1, 6-5 to 6-7 and 6-10, 08 R208: encodings written out from the tables stand for their instructions. -/
def Obligations.DecodeWords : Prop :=
  -- padds.h.z w3, w6, w2: PACK, fn 0x02, md Z and the lane code of .h
  decode (.word (0b0000101#7 ++ 0b0000010#7 ++ 0#1 ++ 2#3 ++ 0#1 ++ 6#3 ++ 3#3 ++ 6#5 ++ 3#2)) = .ok (.padds true 1 false 2 false 6 3) ∧
  -- sub.w w1, w2!, w3: INT, fn 0x01
  decode (.word (0b0000001#7 ++ 0b0000001#7 ++ 0#1 ++ 3#3 ++ 1#1 ++ 2#3 ++ 1#3 ++ 0#5 ++ 3#2)) = .ok (.sub true false 3 true 2 1) ∧
  -- addi w1, w2, -1
  decode (.word (0b111111111111111111#18 ++ 0#1 ++ 2#3 ++ 1#3 ++ 1#5 ++ 3#2)) = .ok (.addi (-1) false 2 1) ∧
  -- muli.w w1, w2, 5: INTI, op 8
  decode (.word (1#1 ++ 8#5 ++ 5#12 ++ 0#1 ++ 2#3 ++ 1#3 ++ 5#5 ++ 3#2)) = .ok (.muli true 5 false 2 1) ∧
  -- fma w4, w5, w6: FP, fn 0x03
  decode (.word (0#7 ++ 3#7 ++ 0#1 ++ 6#3 ++ 0#1 ++ 5#3 ++ 4#3 ++ 7#5 ++ 3#2)) = .ok (.fma false 6 false 5 4) ∧
  -- pxor p4, p5, p6: PRED, fn 0x05
  decode (.word (0#7 ++ 5#7 ++ 0#1 ++ 6#3 ++ 0#1 ++ 5#3 ++ 4#3 ++ 8#5 ++ 3#2)) = .ok (.pxor 6 5 4) ∧
  -- sem.p.sy [w2]: SYNC, fn 0x01
  decode (.word (5#7 ++ 1#7 ++ 0#1 ++ 0#3 ++ 0#1 ++ 2#3 ++ 0#3 ++ 14#5 ++ 3#2)) = .ok (.semP 5 false 2) ∧
  -- yield: SYNC, fn 0x05
  decode (.word (0#7 ++ 5#7 ++ 0#1 ++ 0#3 ++ 0#1 ++ 0#3 ++ 0#3 ++ 14#5 ++ 3#2)) = .ok .yield ∧
  -- halfword 0x0000 and major 31 name no instruction (Table 6-10)
  decode (.half 0) = .err .zeroHalfword

/-- 06 R131 to R152: decoding and encoding agree. An instruction whose fields hold no reserved value has at most one encoding, which
decodes to it with every operand; and an encoding that stands for an instruction is the encoding of that instruction, so no bit of it
is dropped and no two instructions share one. -/
def Obligations.DecodeEncode : Prop :=
  ∀ (i : Instr) (e : Enc),
    (i.wellFormed = true → encode i = some e → decode e = .ok i) ∧
    (decode e = .ok i → (match e with | .half _ => True | .word w => w.extractLsb' 0 2 = 3) → encode i = some e ∧ i.wellFormed = true)

/-- Every step keeps both byte memories, the visible bytes of physical memory and the core stores, in canonical form: addresses
strictly rising and no listed byte equal to what an unlisted address reads as. Choices and readings of the model's own on which it
rests: log entry 1. -/
def Obligations.StepKeepsCanonical : Prop :=
  ∀ s t : State, s.canonical = true → step s = .next t → t.canonical = true

/-- The byte memories are in canonical form at reset. Choices and readings of the model's own on which it rests: log entry 1. -/
def Obligations.ResetCanonical : Prop := State.reset.canonical = true

/-- 13 Table 13-1, 15 Table 15-3, 16 Table 16-4, 17 Table 17-2, 19 Table 19-1, 20 Table 20-5: after package reset the system registers of
every core hold the values of the Reset columns; the links' control registers permit x32. Core stores read as zero (04 R92), and no boot
step has run (20 R425). -/
def Obligations.ResetValues : Prop :=
  ∀ core part n : Nat, core < 8192 →
    State.reset.readSys core part 0x00 = BitVec.ofNat 64 core ∧
    State.reset.readSys core part 0x40 = 0x9 ∧
    State.reset.readSys core part 0x71 = 256 ∧
    State.reset.readSys core part 0x72 = 250 ∧
    (State.reset.readSys core part 0x73).toNat % 1024 = 800 ∧
    State.reset.readSys core part 0x38 = 2 ∧
    ((n ∈ [0x01, 0x02, 0x03, 0x04, 0x05, 0x06, 0x07, 0x08, 0x09, 0x20, 0x21, 0x22, 0x23, 0x24, 0x25, 0x26, 0x27, 0x30, 0x31, 0x32,
        0x34, 0x35, 0x36, 0x37, 0x39, 0x41, 0x42, 0x43, 0x45, 0x46] ∨ 0x50 ≤ n ∧ n ≤ 0x65 ∨ n = 0x70) →
      State.reset.readSys core part n = 0) ∧
    readByte State.reset.cstore n = 0 ∧
    State.reset.meas = [0, 0, 0, 0]

/-- No instruction and no step of another unit ends a run: exec answers a next state for every instruction and every state. A step
stops in one case only, the issue cycle of a core that the package does not have (01 R15). Choices and readings of the model's own
on which it rests: log entries 69, 72. -/
def Obligations.StepTotal : Prop :=
  (∀ (i : Instr) (s : State), ∃ t, exec i s = .next t) ∧
  ∀ s : State, (∃ t, step s = .next t) ∨ (step s = .fault .absentCore ∧ ∃ core slot, 8192 ≤ core ∧ s.unload.pick = some (.issue core slot))

/-- R153, 02 R41, R42, 17 R396 to R398: the order in which an instruction's conditions are met, and what the two contexts of a
pair do with one. An illegal one, or one that does not accept the pending prefix, raises ILLEGAL_INSTR with the encoding; then a
privileged one below its privilege PRIV; then one with an empty source of policy 1 EMPTY_SOURCE with the lowest such register;
then it waits on the lowest empty source, and on an outstanding fill of a register that it writes, a general one that a long
operation empties or an extension register: while it waits nothing of the thread changes. Otherwise it acts. Of a pair the leading
context executes first: it hands on the values that come from outside, and shows what is visible outside. The trailing one follows
it, takes those values for its own registers, and performs what is visible once it presents the same; a difference is a mismatch.
That the pair has registers of its own, and counts how far the leading context is ahead, is log entry 66. Choices and readings of
the model's own on which it rests: log entries 66, 67, 106. -/
def Obligations.IssueOrder : Prop :=
  ∀ (s : State) (q : Issue) (act : State → Out) (t : State) (p kind : Nat),
    let bad := q.ok = false ∨ s.th.pfx = true ∧ q.pfx.accepts s.th.pfxval = false
    let empty := fun (p : Bool) (r : Nat) => (r, p) ∈ q.srcs ∧ s.th.full r = false
    let least := fun (f : Nat → Prop) (r : Nat) => f r ∧ ∀ k, f k → r ≤ k
    let out := issue q s act
    let idles := fun tag : Word => out = .next { s with th := { s.th with stall := some tag } }
    (Unpaired s →
      (bad → out = .next (s.trapAt 1 s.ienc s.th.pc)) ∧
      (¬bad → s.th.priv.toNat < q.priv → out = .next (s.trapAt 3 s.ienc s.th.pc)) ∧
      (¬bad → q.priv ≤ s.th.priv.toNat →
        (∀ r, least (empty true) r → out = .next (s.trapAt 4 (BitVec.ofNat 64 r) s.th.pc)) ∧
        ((∀ k, ¬empty true k) →
          (∀ r, r < 12 → least (empty false) r → idles (BitVec.ofNat 64 (2 ^ 60 + r))) ∧
          ((∀ k, ¬empty false k) →
            (∀ r, r < 8 → least (fun k => k ∈ q.long ∧ s.th.pend.getLsbD k = true) r → idles (BitVec.ofNat 64 (2 ^ 60 + 16 + r))) ∧
            ((∀ k ∈ q.long, s.th.pend.getLsbD k = false) →
              (∀ r, r < 4 → least (fun k => k ∈ q.eout ∧ s.th.epend.getLsbD k = true) r → idles (BitVec.ofNat 64 (2 ^ 60 + 8 + r))) ∧
              ((∀ k ∈ q.eout, s.th.epend.getLsbD k = false) → out = act s)))))) ∧
    (s.th.peer = some p → s.th.pair ≠ 0 →
      let lead := s.ctx p
      let key := q.key s.th s.ienc
      let trap := trapKey 1 s.ienc s.th.pc
      -- past the instruction: the context neither idles nor waits there, and has not trapped or ended
      let gone := t.th.stall = none ∧ (t.th.kind = 0 ∨ t.th.pc ≠ s.th.pc) ∧ t.th.kind ≠ 11
      let further := fun u : State => { u with th := { u.th with ahead := u.th.ahead + 1 } }
      let caught := fun u : State => u.modCtx p fun c => { c with ahead := c.ahead - 1 }
      let differs := fun k : Nat => out = .next (s.mismatch p s.here.ctx k)
      -- a trap is taken only with the peer's, at the same instruction
      (bad →
        (s.th.pair = 1 → s.th.comparator.getLast? ≠ some trap →
          out = .next { s with th := { s.th with comparator := s.th.comparator ++ [trap], stall := some 0 } }) ∧
        (s.th.pair ≠ 1 → lead.ahead = 0 → lead.comparator = [] → idles 0) ∧
        (s.th.pair ≠ 1 → lead.ahead = 0 → lead.comparator.head? = some trap →
          out = .next ((s.trap s.hereCore p 1 s.ienc s.th.pc).trapAt 1 s.ienc s.th.pc)) ∧
        (s.th.pair ≠ 1 → lead.ahead ≠ 0 → differs 4)) ∧
      (¬bad → q.priv ≤ s.th.priv.toNat → (∀ x ∈ q.srcs, s.th.full x.1 = true) → (∀ k ∈ q.long, s.th.pend.getLsbD k = false) →
        (∀ k ∈ q.eout, s.th.epend.getLsbD k = false) →
        -- the leading context
        (s.th.pair = 1 → act s = .next t →
          (q.use = .own → out = .next (if gone then further t else t)) ∧
          (q.use = .value ∨ q.use = .load → 64 < s.th.lvq.length + q.dst.length ∨ q.use = .load ∧ s.th.comparator ≠ [] → idles 0) ∧
          (q.use = .value ∨ q.use = .load → s.th.lvq.length + q.dst.length ≤ 64 → q.use = .value ∨ s.th.comparator = [] →
            (¬gone → out = .next t) ∧
            (gone → out = .next { t with th := { t.th with ahead := t.th.ahead + 1, lvq := t.th.lvq ++ q.dst.map fun r =>
              { reg := r, val := if t.th.full r then some (t.th.reg r) else none } } })) ∧
          (q.use = .visible ∨ q.use = .both ∨ q.use = .meet → 32 ≤ s.th.comparator.length → idles 0) ∧
          (q.use = .visible → s.th.comparator.length < 32 → t.th.showsTrap = false → q.mem = none ∨ t.th.stall = none → s.th.kind = 0 →
            out = .next (further { passed s q.len with th := { (passed s q.len).th with comparator := s.th.comparator ++ [key] } })) ∧
          (q.use = .meet → s.th.comparator.length < 32 → t.th.showsTrap = false → s.th.comparator.getLast? ≠ some key →
            out = .next { s with th := { s.th with comparator := s.th.comparator ++ [key], stall := some 0 } })) ∧
        -- the trailing context: it waits for the leading one, which has retired nothing more
        (s.th.pair ≠ 1 → lead.ahead = 0 → lead.comparator = [] → idles 0) ∧
        (s.th.pair ≠ 1 → lead.ahead = 0 → ∀ k ∈ lead.comparator.head?, k.head? ≠ some (BitVec.allOnes 64) →
          (k ≠ key → differs (mismatchKind k key)) ∧ (k = key → q.use ≠ .meet → idles 0)) ∧
        -- a trap that only the leading one meets
        (s.th.pair ≠ 1 → lead.ahead = 0 → act s = .next t → ∀ k ∈ lead.comparator.head?, k.head? = some (BitVec.allOnes 64) →
          if t.th.kind = 0 ∧ t.th.stall = none then differs 4 else out = .next t) ∧
        -- it follows the leading one, with the values that that one took and in its order
        (s.th.pair ≠ 1 → lead.ahead ≠ 0 →
          (q.use = .own → act s = .next t → out = .next (if gone then caught t else t)) ∧
          (q.use = .value ∨ q.use = .load →
            ((lead.lvq.filter fun e => e.claim == none).length < q.dst.length → idles 0) ∧
            (∀ e ∈ lead.lvq.head?, ∀ v ∈ e.val, lead.lvq.tail = [] → e.claim = none → s.here.ctx ≠ p → s.th.kind = 0 → ∀ r < 8, q.dst = [r] →
              Runs out fun u => u.th.pc = s.th.pc + BitVec.ofNat 57 q.len ∧ u.th.full r = true ∧ u.th.reg r = v ∧ (u.ctx p).lvq = [] ∧
                (u.ctx p).ahead = lead.ahead - 1 ∧ (u.ctx p).w = lead.w)) ∧
          (q.use = .visible ∨ q.use = .both ∨ q.use = .meet →
            (lead.comparator.headD [] ≠ key → differs (mismatchKind (lead.comparator.headD []) key)) ∧
            (lead.comparator.headD [] = key → act s = .next t →
              out = .next (if gone then caught (t.modCtx p fun c => { c with comparator := c.comparator.drop 1 }) else t))))) ∧
      -- kinds of a difference: address or size, data, and the fields of a command
      (∀ n ea data n' ea' data', mismatchKind (s.ienc :: 0 :: 1 :: n :: ea :: data) (s.ienc :: 0 :: 1 :: n' :: ea' :: data') =
        (if n ≠ n' ∨ ea ≠ ea' then 1 else if data ≠ data' then 2 else 3)) ∧
      (∀ a b, mismatchKind (s.ienc :: 0 :: 2 :: a) b = 3) ∧
      -- a mismatch of a launch that is not traced and PURE: the leading context is parked, and the trailing one traps
      (∀ b ∈ get? s.blocks s.th.blk, ∀ l ∈ get? s.launches b.launch, bitAt l.flags 0 = false ∨ bitAt l.flags 1 = false →
        s.th.pair ≠ 1 → p ≠ s.here.ctx → kind < 16 → s.cur ≠ none → s.th.lastCore = some s.hereCore → get? l.avoid b.index = none →
        (s.core s.hereCore).hctxM ≠ some p → (s.core s.hereCore).hctxS ≠ some p → (s.core s.hereCore).hctxM ≠ some s.here.ctx →
        (s.core s.hereCore).hctxS ≠ some s.here.ctx → b.live = [p, s.here.ctx] →
        let u := s.mismatch p s.here.ctx kind
        (u.ctx p).kind = 8 ∧ (u.ctx p).warg = 0 ∧ (u.ctx p).pc = lead.pc ∧ (u.ctx p).cause = 0 ∧
          (u.ctx s.here.ctx).kind = 8 ∧ (u.ctx s.here.ctx).cause = 0x11 ∧ (u.ctx s.here.ctx).pc = s.th.pc ∧
          (u.ctx s.here.ctx).warg = BitVec.ofNat 60 (lead.lastSlot % 16 + 256 * kind) ∧ SameBytes s u ∧
          ((s.die s.hereDie).log.length < 256 → ((u.die s.hereDie).log[(s.die s.hereDie).log.length]?.map fun x => x.1.toNat % 256) = some 6)))

/-- R165, R162, R168: sums, differences and products of every length and form: the low bits of the exact result. -/
def Obligations.IntegerArithmetic : Prop :=
  ∀ (s : State) (a b d : Reg) (g h w z : Bool) (i12 : BitVec 12) (i18 : BitVec 18) (i8 : BitVec 8) (i5 : BitVec 5), NoPrefix s →
    let x := s.th.wv a
    let y := s.th.wv b
    (Full s [a.toNat, b.toNat] →
      Does s (exec (.add w g b h a d) s) (wrote s d (res w (uns w x + uns w y)) 4) ∧
      Does s (exec (.sub w g b h a d) s) (wrote s d (res w (uns w x - uns w y)) 4) ∧
      Does s (exec (.mul w g b h a d) s) (wrote s d (res w (uns w x * uns w y)) 4) ∧
      Does s (exec (.mulh z w g b h a d) s) (wrote s d (res w (val z w x * val z w y / (2 ^ size w : Nat))) 4) ∧
      Does s (exec (.addC16 d a b) s) (wrote s d (res false (uns false x + uns false y)) 2) ∧
      Does s (exec (.subC16 d a b) s) (wrote s d (res false (uns false x - uns false y)) 2) ∧
      Does s (exec (.mulC16 d a b) s) (wrote s d (res false (uns false x * uns false y)) 2)) ∧
    (Full s [a.toNat] →
      Does s (exec (.muli w i12 h a d) s) (wrote s d (res w (sgn w x * i12.toInt)) 4) ∧
      Does s (exec (.addi i18 h a d) s) (wrote s d (res false (uns false x + i18.toInt)) 4) ∧
      Does s (exec (.movh i18 h a d) s) (wrote s d (res false (uns false x * (2 ^ 18 : Nat) + i18.toNat)) 4) ∧
      Does s (exec (.addiC16 d a i5) s) (wrote s d (res false (uns false x + i5.toInt)) 2)) ∧
    Does s (exec (.movi i18 d) s) (wrote s d (res false i18.toInt) 4) ∧
    Does s (exec (.moviC16 d i8) s) (wrote s d (res false i8.toInt) 2)

/-- R165, R167: logic, bit by bit. -/
def Obligations.IntegerLogic : Prop :=
  ∀ (s : State) (a b d : Reg) (g h w : Bool) (i12 : BitVec 12) (i5 : BitVec 5), NoPrefix s →
    let p := (s.th.wv a).getLsbD
    let q := (s.th.wv b).getLsbD
    let i := fun n => i12.getLsbD (min n 11)
    (Full s [a.toNat, b.toNat] →
      Does s (exec (.and w g b h a d) s) (wrote s d (bitwise w fun n => p n && q n) 4) ∧
      Does s (exec (.or w g b h a d) s) (wrote s d (bitwise w fun n => p n || q n) 4) ∧
      Does s (exec (.xor w g b h a d) s) (wrote s d (bitwise w fun n => p n != q n) 4) ∧
      Does s (exec (.andn w g b h a d) s) (wrote s d (bitwise w fun n => p n && !q n) 4) ∧
      Does s (exec (.orn w g b h a d) s) (wrote s d (bitwise w fun n => p n || !q n) 4) ∧
      Does s (exec (.andC16 d a b) s) (wrote s d (bitwise false fun n => p n && q n) 2) ∧
      Does s (exec (.orC16 d a b) s) (wrote s d (bitwise false fun n => p n || q n) 2) ∧
      Does s (exec (.xorC16 d a b) s) (wrote s d (bitwise false fun n => p n != q n) 2) ∧
      Does s (exec (.andnC16 d a b) s) (wrote s d (bitwise false fun n => p n && !q n) 2)) ∧
    (Full s [a.toNat] →
      Does s (exec (.andi w i12 h a d) s) (wrote s d (bitwise w fun n => p n && i n) 4) ∧
      Does s (exec (.ori w i12 h a d) s) (wrote s d (bitwise w fun n => p n || i n) 4) ∧
      Does s (exec (.xori w i12 h a d) s) (wrote s d (bitwise w fun n => p n != i n) 4) ∧
      Does s (exec (.andiC16 d a i5) s) (wrote s d (bitwise false fun n => p n && i5.getLsbD (min n 4)) 2))

/-- R76, R165, R167: shifts and rotates by an 8-bit amount; an amount of the size or more empties a shift, and a rotate
takes it modulo the size. -/
def Obligations.IntegerShifts : Prop :=
  ∀ (s : State) (a b d : Reg) (g h w : Bool) (i8 : BitVec 8) (i5 : BitVec 5), NoPrefix s →
    let x := s.th.wv a
    let k := (s.th.wv b).toNat % 256
    let left := fun (w : Bool) (k : Nat) => res w (uns w x * (2 ^ k : Nat))
    let right := fun (w : Bool) (k : Nat) => res w (uns w x / (2 ^ k : Nat))
    let arith := fun (w : Bool) (k : Nat) => res w (sgn w x / (2 ^ k : Nat))
    let rotL := fun (k : Nat) => bitwise w fun n => x.getLsbD ((n + size w - k % size w) % size w)
    let rotR := fun (k : Nat) => bitwise w fun n => x.getLsbD ((n + k) % size w)
    (Full s [a.toNat, b.toNat] →
      Does s (exec (.shl w g b h a d) s) (wrote s d (left w k) 4) ∧
      Does s (exec (.shr w g b h a d) s) (wrote s d (right w k) 4) ∧
      Does s (exec (.sar w g b h a d) s) (wrote s d (arith w k) 4) ∧
      Does s (exec (.rol w g b h a d) s) (wrote s d (rotL k) 4) ∧
      Does s (exec (.ror w g b h a d) s) (wrote s d (rotR k) 4) ∧
      Does s (exec (.shlC16 d a b) s) (wrote s d (left false k) 2) ∧
      Does s (exec (.shrC16 d a b) s) (wrote s d (right false k) 2) ∧
      Does s (exec (.sarC16 d a b) s) (wrote s d (arith false k) 2)) ∧
    (Full s [a.toNat] →
      Does s (exec (.shli w i8 h a d) s) (wrote s d (left w i8.toNat) 4) ∧
      Does s (exec (.shri w i8 h a d) s) (wrote s d (right w i8.toNat) 4) ∧
      Does s (exec (.sari w i8 h a d) s) (wrote s d (arith w i8.toNat) 4) ∧
      Does s (exec (.roli w i8 h a d) s) (wrote s d (rotL i8.toNat) 4) ∧
      Does s (exec (.rori w i8 h a d) s) (wrote s d (rotR i8.toNat) 4) ∧
      Does s (exec (.shliC16 d a i5) s) (wrote s d (left false i5.toNat) 2) ∧
      Does s (exec (.shriC16 d a i5) s) (wrote s d (right false i5.toNat) 2) ∧
      Does s (exec (.sariC16 d a i5) s) (wrote s d (arith false i5.toNat) 2))

/-- R165: counts, extensions, extremes, moves and the selection by a predicate bit. -/
def Obligations.IntegerSelect : Prop :=
  ∀ (s : State) (a b d : Reg) (g h w z : Bool) (sz : BitVec 2) (p : BitVec 6), NoPrefix s → sz ≠ 3 →
    let x := s.th.wv a
    let y := s.th.wv b
    let zero := fun n => !x.getLsbD n
    (Full s [a.toNat] →
      Does s (exec (.clz w h a d) s) (wrote s d (BitVec.ofNat 64 ((List.range (size w)).reverse.takeWhile zero).length) 4) ∧
      Does s (exec (.ctz w h a d) s) (wrote s d (BitVec.ofNat 64 ((List.range (size w)).takeWhile zero).length) 4) ∧
      Does s (exec (.popc w h a d) s) (wrote s d (BitVec.ofNat 64 ((List.range (size w)).filter x.getLsbD).length) 4) ∧
      Does s (exec (.sext sz w h a d) s) (wrote s d (bitwise w fun n => x.getLsbD (min n (8 * 2 ^ sz.toNat - 1))) 4) ∧
      Does s (exec (.zext sz w h a d) s) (wrote s d (bitwise w fun n => decide (n < 8 * 2 ^ sz.toNat) && x.getLsbD n) 4) ∧
      Does s (exec (.abs w h a d) s) (wrote s d (res w (sgn w x).natAbs) 4) ∧
      Does s (exec (.mov w h a d) s) (wrote s d (res w (uns w x)) 4) ∧
      Does s (exec (.movC16 d a) s) (wrote s d x 2)) ∧
    (Full s [a.toNat, b.toNat] →
      Does s (exec (.min z w g b h a d) s) (wrote s d (res w (min (val z w x) (val z w y))) 4) ∧
      Does s (exec (.max z w g b h a d) s) (wrote s d (res w (max (val z w x) (val z w y))) 4) ∧
      Does s (exec (.sel p g b h a d) s) (wrote s d (if s.th.pw.getLsbD p.toNat then x else y) 4))

/-- R166: `bext` and `bins`, bit by bit, cut at the size. -/
def Obligations.BitFields : Prop :=
  ∀ (s : State) (z w g h : Bool) (b a d : Reg), NoPrefix s → Full s [a.toNat, b.toNat] →
    let x := s.th.wv a
    let pos := (s.th.wv b).toNat % 256
    let len := (s.th.wv b).toNat / 256 % 256
    Does s (exec (.bext z w g b h a d) s) (wrote s d (bitwise w fun n =>
      if n < len then bitX z w x (pos + n) else !z && decide (0 < len) && bitX z w x (pos + len - 1)) 4) ∧
    (Full s [d.toNat] → Does s (exec (.bins w g b h a d) s) (wrote s d (bitwise w fun n =>
      if pos ≤ n ∧ n < pos + len then x.getLsbD (n - pos) else (s.th.wv d).getLsbD n) 4))

/-- R77, R40, R42: the quotient and the remainder, long; the corners are values and no trap. -/
def Obligations.IntegerDivision : Prop :=
  ∀ (s : State) (z w g h : Bool) (b a d : Reg), NoPrefix s → Full s [a.toNat, b.toNat] → NoPend s [d] →
    let x := s.th.wv a
    let y := s.th.wv b
    Does s (exec (.div z w g b h a d) s) (wroteLong s d
      (if val z w y = 0 then res w (-1) else res w ((val z w x).tdiv (val z w y)))) ∧
    Does s (exec (.rem z w g b h a d) s) (wroteLong s d
      (if val z w y = 0 then res w (uns w x) else res w ((val z w x).tmod (val z w y))))

/-- R170: moves between the two register files; an extension register that waits for a fill is not written. -/
def Obligations.ExtensionMoves : Prop :=
  ∀ (s : State) (h : Bool) (a d : Reg) (e : Reg), NoPrefix s → e.toNat < 4 →
    (Full s [a.toNat] → s.th.epend.getLsbD e.toNat = false → Does s (exec (.xset h a e) s)
        { passed s 4 with th := { (passed s 4).th with
          e := s.th.e.setIfInBounds e.toNat (s.th.wv a), fee := s.th.fee ||| (1#4 <<< e.toNat) } }) ∧
    (Full s [8 + e.toNat] → Does s (exec (.xget h e d) s) (wrote s d (s.th.ev e.toNat) 4))

/-- 06 R142, R144, 07 R165, R169: comparisons write one bit of the predicate word and nothing else. -/
def Obligations.Comparisons : Prop :=
  ∀ (s : State) (w g h : Bool) (a b : Reg) (p : BitVec 6) (c : BitVec 3) (i12 : BitVec 12), NoPrefix s → c.toNat < 6 →
    let x := s.th.wv a
    let y := s.th.wv b
    (Full s [a.toNat, b.toNat] →
      Does s (exec (.cmp w p g b h a c) s) (wrotePW s (withBit s.th.pw p (holds c w x y)))) ∧
    (Full s [a.toNat] →
      Does s (exec (.cmpi p i12 h a c) s) (wrotePW s (withBit s.th.pw p (holds c false x (i12.signExtend 64)))))

/-- R140, R180: the predicate-word instructions. -/
def Obligations.PredicateWord : Prop :=
  ∀ (s : State) (g h : Bool) (a b d : Reg) (p : BitVec 6), NoPrefix s →
    let byte := fun (n : Reg) (i : Nat) => s.th.pw.getLsbD (8 * n.toNat + i % 8)
    let put := fun (f : Nat → Bool) => bitwise false fun i => if i / 8 = d.toNat then f i else s.th.pw.getLsbD i
    Does s (exec (.pset p) s) (wrotePW s (withBit s.th.pw p true)) ∧
    Does s (exec (.pclr p) s) (wrotePW s (withBit s.th.pw p false)) ∧
    Does s (exec (.pnot a d) s) (wrotePW s (put fun i => !byte a i)) ∧
    Does s (exec (.pand b a d) s) (wrotePW s (put fun i => byte a i && byte b i)) ∧
    Does s (exec (.por b a d) s) (wrotePW s (put fun i => byte a i || byte b i)) ∧
    Does s (exec (.pxor b a d) s) (wrotePW s (put fun i => byte a i != byte b i)) ∧
    Does s (exec (.pwr d) s) (wrote s d s.th.pw 4) ∧
    (Full s [a.toNat, b.toNat] → Does s (exec (.pww g b h a) s) (wrotePW s
      (bitwise false fun i => if (s.th.wv b).getLsbD i then (s.th.wv a).getLsbD i else s.th.pw.getLsbD i))) ∧
    (Full s [a.toNat] → Does s (exec (.pcnt h a d) s) (wrote s d
      (BitVec.ofNat 64 ((List.range 64).filter fun i => s.th.pw.getLsbD i && (s.th.wv a).getLsbD i).length) 4))

/-- R132, R181: branches: to the target where the condition holds, and past the instruction where it does not; offsets count
halfwords from the instruction, modulo 2^57; `bl` links in w7 and `loop` counts down. -/
def Obligations.Branches : Prop :=
  ∀ (s : State) (h : Bool) (a : Reg) (p : BitVec 6) (k25 : BitVec 25) (k18 : BitVec 18) (k11 : BitVec 11) (k3 : BitVec 3)
    (k5 : BitVec 5), NoPrefix s →
    let to_ := fun (c : Bool) (off : Int) (n : Nat) =>
      jumped s (if c then s.th.pc + BitVec.ofInt 57 (2 * off) else s.th.pc + BitVec.ofNat 57 n)
    let byte := (s.th.pw.toNat / 2 ^ (8 * a.toNat)) % 256
    let bit := s.th.pw.getLsbD p.toNat
    let x := s.th.wv a
    Does s (exec (.b k25) s) (to_ true k25.toInt 4) ∧
    Does s (exec (.bC16 k11) s) (to_ true k11.toInt 2) ∧
    Does s (exec (.bany k18 a) s) (to_ (byte != 0) k18.toInt 4) ∧
    Does s (exec (.ball k18 a) s) (to_ (byte == 255) k18.toInt 4) ∧
    Does s (exec (.bnone k18 a) s) (to_ (byte == 0) k18.toInt 4) ∧
    Does s (exec (.bpt k18 p) s) (to_ bit k18.toInt 4) ∧
    Does s (exec (.bpf k18 p) s) (to_ (!bit) k18.toInt 4) ∧
    Does s (exec (.bptC16 p k5) s) (to_ bit k5.toInt 2) ∧
    Does s (exec (.bpfC16 p k5) s) (to_ (!bit) k5.toInt 2) ∧
    Does s (exec (.bl k25) s) { (wrote s 7 ((s.th.pc + 4).setWidth 64) 4) with
      th := { (wrote s 7 ((s.th.pc + 4).setWidth 64) 4).th with pc := (to_ true k25.toInt 4).th.pc } } ∧
    (Full s [a.toNat] →
      Does s (exec (.bz k18 h a) s) (to_ (x == 0) k18.toInt 4) ∧
      Does s (exec (.bnz k18 h a) s) (to_ (x != 0) k18.toInt 4) ∧
      Does s (exec (.bzC16 k3 a k5) s) (to_ (x == 0) (k3 ++ k5).toInt 2) ∧
      Does s (exec (.bnzC16 k3 a k5) s) (to_ (x != 0) (k3 ++ k5).toInt 2) ∧
      Does s (exec (.loop k18 h a) s) { (wrote s a (x - 1) 4) with
        th := { (wrote s a (x - 1) 4).th with pc := (to_ (x != 1) k18.toInt 4).th.pc } }) ∧
    Does s (exec .nop s) (passed s 4) ∧
    Does s (exec .nopC16 s) (passed s 2)

/-- R182: jumps to a register's value: an even value below 2^57 is the new pc, and `jr.l` links in w7; an odd one raises
ALIGN and another PAGE_NOT_PRESENT, each with the value. -/
def Obligations.Jumps : Prop :=
  ∀ (s : State) (h : Bool) (a : Reg), NoPrefix s → Full s [a.toNat] →
    let x := s.th.wv a
    let t := x.setWidth 57
    (x.toNat % 2 = 0 → x.toNat < 2 ^ 57 →
      Does s (exec (.jr h a) s) (jumped s t) ∧
      Does s (exec (.jrC16 a) s) (jumped s t) ∧
      Does s (exec (.jrL h a) s) { (wrote s 7 ((s.th.pc + 4).setWidth 64) 4) with
        th := { (wrote s 7 ((s.th.pc + 4).setWidth 64) 4).th with pc := t } }) ∧
    (x.toNat % 2 = 1 → Unpaired s →
      exec (.jr h a) s = .next (s.trapAt 5 x s.th.pc) ∧ exec (.jrC16 a) s = .next (s.trapAt 5 x s.th.pc) ∧
      exec (.jrL h a) s = .next (s.trapAt 5 x s.th.pc)) ∧
    (x.toNat % 2 = 0 → 2 ^ 57 ≤ x.toNat → Unpaired s →
      exec (.jr h a) s = .next (s.trapAt 6 x s.th.pc) ∧ exec (.jrC16 a) s = .next (s.trapAt 6 x s.th.pc) ∧
      exec (.jrL h a) s = .next (s.trapAt 6 x s.th.pc))

/-- R147, R148: `fmt` leaves its fields pending for the next instruction; one that finds a prefix pending raises ILLEGAL_INSTR, and
the earlier prefix stays pending. -/
def Obligations.Prefix : Prop :=
  ∀ (s : State) (f : BitVec 4) (r : BitVec 3) (st : Bool),
    (NoPrefix s → Does s (exec (.fmt f r st) s) { passed s 2 with th := { (passed s 2).th with
      pfx := true, pfxval := BitVec.ofNat 13 (512 * f.toNat + 64 * r.toNat + 32 * st.toNat) } }) ∧
    (s.th.pfx = true → Unpaired s → exec (.fmt f r st) s = .next (s.trapAt 1 s.ienc s.th.pc) ∧
      (s.cur ≠ none → (s.core s.hereCore).hctxM ≠ some s.here.ctx → (s.core s.hereCore).hctxS ≠ some s.here.ctx →
        ((s.trapAt 1 s.ienc s.th.pc).ctx s.here.ctx).pfx = true))

/-- R172, R79, Table 7-3: packed arithmetic, lane by lane from the exact lane values. -/
def Obligations.PackedArithmetic : Prop :=
  ∀ (s : State) (z g h : Bool) (l : BitVec 2) (b a d : Reg), NoPrefix s → l ≠ 3 →
    let n := lsize l
    let x := fun z => laneInt z n (s.th.wv a)
    let y := fun z => laneInt z n (s.th.wv b)
    (Full s [a.toNat, b.toNat] →
      Does s (exec (.padd l g b h a d) s) (wrote s d (lanewise n fun i => x z i + y z i) 4) ∧
      Does s (exec (.psub l g b h a d) s) (wrote s d (lanewise n fun i => x z i - y z i) 4) ∧
      Does s (exec (.pmul l g b h a d) s) (wrote s d (lanewise n fun i => x z i * y z i) 4) ∧
      Does s (exec (.padds z l g b h a d) s) (wrote s d (lanewise n fun i => sat z n (x z i + y z i)) 4) ∧
      Does s (exec (.psubs z l g b h a d) s) (wrote s d (lanewise n fun i => sat z n (x z i - y z i)) 4) ∧
      Does s (exec (.pmulh z l g b h a d) s) (wrote s d (lanewise n fun i => x z i * y z i / (2 ^ n : Nat)) 4) ∧
      Does s (exec (.pavg z l g b h a d) s) (wrote s d (lanewise n fun i => (x z i + y z i + 1) / 2) 4) ∧
      Does s (exec (.pmin z l g b h a d) s) (wrote s d (lanewise n fun i => min (x z i) (y z i)) 4) ∧
      Does s (exec (.pmax z l g b h a d) s) (wrote s d (lanewise n fun i => max (x z i) (y z i)) 4) ∧
      Does s (exec (.pclip z l g b h a d) s) (wrote s d (lanewise n fun i => min (max (x z i) (y z 0)) (y z 1)) 4)) ∧
    (Full s [a.toNat] →
      Does s (exec (.pabs l h a d) s) (wrote s d (lanewise n fun i => sat false n (x false i).natAbs) 4))

/-- R76, Table 7-3: packed shifts, by one amount or by an amount per lane. -/
def Obligations.PackedShifts : Prop :=
  ∀ (s : State) (g h : Bool) (l : BitVec 2) (b a d : Reg), NoPrefix s → l ≠ 3 → Full s [a.toNat, b.toNat] →
    let n := lsize l
    let x := fun i => laneAt n (s.th.wv a) i
    let xs := fun i => laneInt false n (s.th.wv a) i
    let k := (s.th.wv b).toNat % 256
    let ks := fun i => laneAt n (s.th.wv b) i % 256
    Does s (exec (.pshl l g b h a d) s) (wrote s d (lanewise n fun i => (x i * 2 ^ k : Nat)) 4) ∧
    Does s (exec (.pshr l g b h a d) s) (wrote s d (lanewise n fun i => (x i / 2 ^ k : Nat)) 4) ∧
    Does s (exec (.psar l g b h a d) s) (wrote s d (lanewise n fun i => xs i / (2 ^ k : Nat)) 4) ∧
    Does s (exec (.pvshl l g b h a d) s) (wrote s d (lanewise n fun i => (x i * 2 ^ ks i : Nat)) 4) ∧
    Does s (exec (.pvshr l g b h a d) s) (wrote s d (lanewise n fun i => (x i / 2 ^ ks i : Nat)) 4) ∧
    Does s (exec (.pvsar l g b h a d) s) (wrote s d (lanewise n fun i => xs i / (2 ^ ks i : Nat)) 4)

/-- R173, R174, Table 7-3: packed sums, comparisons, selections and rearrangements. -/
def Obligations.PackedMoves : Prop :=
  ∀ (s : State) (z g h u : Bool) (l : BitVec 2) (k c : BitVec 3) (b a d : Reg), NoPrefix s → l ≠ 3 → c.toNat < 6 →
    let n := lsize l
    let lanes := 64 / n
    let xu := laneAt n (s.th.wv a)
    let yu := laneAt n (s.th.wv b)
    let x := fun z => laneInt z n (s.th.wv a)
    let y := fun z => laneInt z n (s.th.wv b)
    let p := fun i => x z i * y z i
    let mask := fun i => s.th.pw.getLsbD (8 * k.toNat + i * n / 8)
    let byte := laneAt 8 (s.th.wv b)
    (Full s [a.toNat, b.toNat] →
      Does s (exec (.pdot z l g b h a d) s) (wrote s d (lanewise (2 * n) fun j => p (2 * j) + p (2 * j + 1)) 4) ∧
      Does s (exec (.psad z l g b h a d) s) (wrote s d
        (BitVec.ofNat 64 ((List.range lanes).map fun i => (x z i - y z i).natAbs).sum) 4) ∧
      Does s (exec (.pcmp k l g b h a c) s) (wrotePW s (bitwise false fun i =>
        if i / 8 = k.toNat then
          (let j := i % 8 * 8 / n
           condition c (xu j) (yu j) (x false j) (y false j))
        else s.th.pw.getLsbD i)) ∧
      Does s (exec (.psel k l g b h a d) s) (wrote s d (lanewise n fun i => if mask i then xu i else yu i) 4) ∧
      Does s (exec (.pperm g b h a d) s) (wrote s d (lanewise 8 fun i =>
        if 128 ≤ byte i then 0 else laneAt 8 (s.th.wv a) (byte i % 8)) 4) ∧
      (l ≠ 0 → Does s (exec (.pnarrow z l g b h a d) s) (wrote s d (lanewise (n / 2) fun i =>
        if i < lanes then sat z (n / 2) (x false i) else sat z (n / 2) (y false (i - lanes))) 4))) ∧
    (Full s [a.toNat] → Does s (exec (.pwiden z l u h a d) s) (wrote s d
      (lanewise (2 * n) fun i => x z (if u then i + lanes / 2 else i)) 4))

/-- R62, R69, R175: FP32 arithmetic, rounded once in the mode that the prefix gives. -/
def Obligations.FloatArithmetic : Prop :=
  ∀ (s : State) (g h : Bool) (b a d : Reg), RoundingOnly s → Full s [a.toNat, b.toNat] →
    let m := modeNow s
    let x := valueIn fp32 (s.th.wv a)
    let y := valueIn fp32 (s.th.wv b)
    Does s (exec (.fadd g b h a d) s) (wrote s d (rounded fp32 m (fAdd (m == 3) x y)) 4) ∧
    Does s (exec (.fsub g b h a d) s) (wrote s d (rounded fp32 m (fAdd (m == 3) x (fNeg y))) 4) ∧
    Does s (exec (.fmul g b h a d) s) (wrote s d (rounded fp32 m (fMul x y)) 4) ∧
    (Full s [d.toNat] → Does s (exec (.fma g b h a d) s) (wrote s d
      (rounded fp32 m (fAdd (m == 3) (fMul x y) (valueIn fp32 (s.th.wv d)))) 4)) ∧
    (NoPend s [d] →
      Does s (exec (.fdiv g b h a d) s) (wroteLong s d (rounded fp32 m (fDiv x y))) ∧
      Does s (exec (.fsqrt h a d) s) (wroteLong s d (rounded fp32 m (fSqrt x))))

/-- R178, R56: the same on binary64, on a core that has the extension; one that lacks it executes none of them, and the thread
moves. Choices and readings of the model's own on which it rests: log entries 20, 21. -/
def Obligations.DoubleArithmetic : Prop :=
  ∀ (s : State) (g h : Bool) (b a d : Reg) (p : BitVec 6) (c : BitVec 3),
    Moves s (exec (.dadd g b h a d) s) 1 ∧ Moves s (exec (.dsub g b h a d) s) 1 ∧ Moves s (exec (.dmul g b h a d) s) 1 ∧
    Moves s (exec (.dfma g b h a d) s) 1 ∧ Moves s (exec (.ddiv g b h a d) s) 1 ∧ Moves s (exec (.dsqrt h a d) s) 1 ∧
    Moves s (exec (.dcmp p g b h a c) s) 1 ∧
    (RoundingOnly s → Full s [a.toNat, b.toNat] → isWide s.hereCore = true →
    let m := modeNow s
    let x := valueIn fp64 (s.th.wv a)
    let y := valueIn fp64 (s.th.wv b)
    Does s (exec (.dadd g b h a d) s) (wrote s d (rounded fp64 m (fAdd (m == 3) x y)) 4) ∧
    Does s (exec (.dsub g b h a d) s) (wrote s d (rounded fp64 m (fAdd (m == 3) x (fNeg y))) 4) ∧
    Does s (exec (.dmul g b h a d) s) (wrote s d (rounded fp64 m (fMul x y)) 4) ∧
    (Full s [d.toNat] → Does s (exec (.dfma g b h a d) s) (wrote s d
      (rounded fp64 m (fAdd (m == 3) (fMul x y) (valueIn fp64 (s.th.wv d)))) 4)) ∧
    (NoPend s [d] →
      Does s (exec (.ddiv g b h a d) s) (wroteLong s d (rounded fp64 m (fDiv x y))) ∧
      Does s (exec (.dsqrt h a d) s) (wroteLong s d (rounded fp64 m (fSqrt x)))) ∧
    (NoPrefix s → c.toNat < 5 → Does s (exec (.dcmp p g b h a c) s) (wrotePW s (withBit s.th.pw p (fcondition c x y)))))

/-- R62, R176: `fmin`, `fmax`, `fcmp` and `fclass`. -/
def Obligations.FloatComparisons : Prop :=
  ∀ (s : State) (g h : Bool) (b a d : Reg) (p : BitVec 6) (c : BitVec 3), NoPrefix s → Full s [a.toNat, b.toNat] →
    let x := s.th.wv a
    let y := s.th.wv b
    Does s (exec (.fmin g b h a d) s) (wrote s d (extreme fp32 false x y) 4) ∧
    Does s (exec (.fmax g b h a d) s) (wrote s d (extreme fp32 true x y) 4) ∧
    (c.toNat < 5 → Does s (exec (.fcmp p g b h a c) s)
        (wrotePW s (withBit s.th.pw p (fcondition c (valueIn fp32 x) (valueIn fp32 y))))) ∧
    Does s (exec (.fclass p g b h a) s) (wrotePW s (withBit s.th.pw p (y.getLsbD
      (let e := x.toNat / 2 ^ 23 % 256
       let f := x.toNat % 2 ^ 23
       let neg := x.getLsbD 31
       if e = 255 then (if f ≠ 0 then 8 else if neg then 0 else 7)
       else if e ≠ 0 then (if neg then 1 else 6)
       else if f ≠ 0 then (if neg then 2 else 5)
       else if neg then 3 else 4))))

/-- R177, R179: conversions: the target is the prefix's format, FP32 without a prefix; `dcvt` converts to and from binary64 on a
core that has the extension. Choices and readings of the model's own on which it rests: log entries 20, 21. -/
def Obligations.Conversions : Prop :=
  ∀ (s : State) (h : Bool) (f : BitVec 4) (a d : Reg), Full s [a.toNat] → pfxMode s.th.pfxval < 6 →
    let m := modeNow s
    let st := s.th.pfx && pfxSat s.th.pfxval
    let src := fmtOf f.toNat
    let to_ := if s.th.pfx then pfxFmt s.th.pfxval else 6
    let x := s.th.wv a
    let e3 := (s.th.ev 3).toNat
    let draw := mixBits (s.seedOf s.here.ctx) (e3 % 2 ^ 32) (e3 / 2 ^ 32 % 2 ^ 16) (e3 / 2 ^ 48)
    ((m = 5 → srAccepts f.toNat to_ = true ∧ Full s [11]) → (to_ = 14 → m = 0) → f.toNat < 15 → to_ < 15 →
      Does s (exec (.fcvt f h a d) s) (wrote s d
        (asRegister (fmtOf to_) (convert src (fmtOf to_) m st false draw (x.toNat % 2 ^ src.width))) 4)) ∧
    Moves s (exec (.dcvtTo f h a d) s) 1 ∧ Moves s (exec (.dcvtFrom f h a d) s) 1 ∧
    (isWide s.hereCore = true → (s.th.pfx = true → pfxFmt s.th.pfxval = 0 ∧ m ≠ 5) →
      Does s (exec (.dcvtTo f h a d) s) (wrote s d
        (BitVec.ofNat 64 (convert src (.flt fp64) m st false 0 (x.toNat % 2 ^ src.width))) 4) ∧
      ((f = 14 → m = 0) → Does s (exec (.dcvtFrom f h a d) s) (wrote s d
        (asRegister src (convert (.flt fp64) src m st false 0 x.toNat)) 4)))

/-- R62: the invalid operations give the canonical NaN in every rounding mode, and an exact zero sum of opposite signs is +0
except under RD. -/
def Obligations.FloatSpecials : Prop :=
  ∀ (s : State) (g h : Bool) (b a d : Reg), RoundingOnly s → Full s [a.toNat, b.toNat] →
    let x := (s.th.wv a).toNat % 2 ^ 32
    let y := (s.th.wv b).toNat % 2 ^ 32
    let nan := fun v => decide (0x7F800000 < v % 2 ^ 31)
    let inf := fun v => decide (v % 2 ^ 31 = 0x7F800000)
    let zero := fun v => decide (v % 2 ^ 31 = 0)
    let qnan := wrote s d 0x7FC00000 4
    (nan x || nan y || (inf x && inf y && decide (x ≠ y)) → Does s (exec (.fadd g b h a d) s) qnan) ∧
    (nan x || nan y || (inf x && decide (x = y)) → Does s (exec (.fsub g b h a d) s) qnan) ∧
    (nan x || nan y || (inf x && zero y) || (zero x && inf y) → Does s (exec (.fmul g b h a d) s) qnan) ∧
    (x = y → nan x = false → inf x = false → Does s (exec (.fsub g b h a d) s)
        (wrote s d (if modeNow s = 3 then 0x80000000 else 0) 4)) ∧
    (NoPend s [d] →
      (nan x || nan y || (inf x && inf y) || (zero x && zero y) →
        Does s (exec (.fdiv g b h a d) s) (wroteLong s d 0x7FC00000)) ∧
      (nan x || (decide (2 ^ 31 < x)) → Does s (exec (.fsqrt h a d) s) (wroteLong s d 0x7FC00000)) ∧
      (x = 2 ^ 31 → Does s (exec (.fsqrt h a d) s) (wroteLong s d 0x80000000)))

/-- R192, R193, R198: loads from core stores, in every form and of every size, 16 bytes among them (z = 7): the own core's store
at once, after the thread's own accesses to it, and another core's by a message. Choices and readings of the model's own on which
it rests: log entry 30. -/
def Obligations.OwnStoreLoads : Prop :=
  ∀ (s : State) (h z' u : Bool) (a t : Reg) (k : BitVec 11) (sc z : BitVec 3) (dx dy i5 : BitVec 5), NoPrefix s → Unpaired s → (z = 7 → t.toNat % 2 = 0) →
    Full s [a.toNat] →
    let x := s.th.wv a
    OwnLoad s (exec (.ld k sc z h a t) s) (x + BitVec.ofInt 64 (k.toInt * bytesOfCode z)) sc.toNat 4 z t ∧
    OwnLoad s (exec (.ldDC16 t a i5) s) (x + BitVec.ofNat 64 (8 * i5.toNat)) 0 2 3 t ∧
    OwnLoad s (exec (.ldWC16 t a i5) s) (x + BitVec.ofNat 64 (4 * i5.toNat)) 0 2 2 t ∧
    (s.th.handler = 0 → (anchored s dx dy x).isSome = true →
      OwnLoad s (exec (.ldAnchorRel dx dy sc z h a t) s) ((anchored s dx dy x).getD 0) sc.toNat 4 z t) ∧
    StoreLoad s (exec (.ldN z' u h a t) s) x 0 4 (nibReq s x z' u t) [t] (fun v loc => nibbled v z' u t (readByte s.cstore loc).toNat)

/-- R192, R193, R196, R42: global loads, in every form and of every size, 16 bytes among them (z = 7): the L1's bytes at once, or
empty destinations and a request, after what the thread's own accesses and acquires have to perform first. Choices and readings of
the model's own on which it rests: log entries 29, 30. -/
def Obligations.GlobalLoads : Prop :=
  ∀ (s : State) (h z' u : Bool) (a t : Reg) (k : BitVec 11) (sc z : BitVec 3) (i5 : BitVec 5), NoPrefix s → Unpaired s → (z = 7 → t.toNat % 2 = 0) →
    Full s [a.toNat] →
    let x := s.th.wv a
    GlobalLoad s (exec (.ld k sc z h a t) s) (x + BitVec.ofInt 64 (k.toInt * bytesOfCode z)) sc.toNat 4 z t ∧
    GlobalLoad s (exec (.ldDC16 t a i5) s) (x + BitVec.ofNat 64 (8 * i5.toNat)) 0 2 3 t ∧
    GlobalLoad s (exec (.ldWC16 t a i5) s) (x + BitVec.ofNat 64 (4 * i5.toNat)) 0 2 2 t ∧
    PageLoad s (exec (.ldN z' u h a t) s) x 0 4 (nibReq s x z' u t) [t] (fun v b => nibbled v z' u t b)

/-- R192, R193, R198, R102: stores to the issuing core's own core store, in every form: the bytes stored and no others; a
nibble goes to the core's controller as a message. -/
def Obligations.OwnStoreStores : Prop :=
  ∀ (s : State) (f h g u : Bool) (a b t : Reg) (k : BitVec 11) (z : BitVec 3) (dx dy i5 : BitVec 5), NoPrefix s → Unpaired s → (z = 7 → t.toNat % 2 = 0) →
    Full s (a.toNat :: (regsOf z t).map (·.toNat)) → Full s [t.toNat, b.toNat] →
    let x := s.th.wv a
    OwnStore s (exec (.st k 0 z f h a t) s) (x + BitVec.ofInt 64 (k.toInt * bytesOfCode z)) 4 (bytesOfCode z) (dataOf s z t) ∧
    OwnStore s (exec (.stDC16 t a i5) s) (x + BitVec.ofNat 64 (8 * i5.toNat)) 2 8 (dataOf s 3 t) ∧
    OwnStore s (exec (.stWC16 t a i5) s) (x + BitVec.ofNat 64 (4 * i5.toNat)) 2 4 (dataOf s 2 t) ∧
    (s.th.handler = 0 → (anchored s dx dy x).isSome = true →
      OwnStore s (exec (.stAnchorRel dx dy 0 z f h a t) s) ((anchored s dx dy x).getD 0) 4 (bytesOfCode z) (dataOf s z t)) ∧
    (AtStore s x 1 fun loc => Free s (.store (loc / 65536)) → NoFailure s →
      Runs (exec (.stN u g b h a) s) fun q => q.th = (passed s 4).th ∧ Kept s q ∧
        Sent q (.coreStoreAccess { ctx := s.here.ctx, core := s.hereCore, kind := .nibStore u, addr := loc, size := 1,
                                   data := (s.th.wv b).toNat % 16, info := x }))

/-- R192, R193, R115, R107: stores that become visible in a later step, in every form. Choices and readings of the model's own on
which it rests: log entry 29. -/
def Obligations.SentStores : Prop :=
  ∀ (s : State) (f h : Bool) (a t : Reg) (k : BitVec 11) (sc z : BitVec 3) (dx dy i5 : BitVec 5), NoPrefix s → Unpaired s → (z = 7 → t.toNat % 2 = 0) →
    Full s (a.toNat :: (regsOf z t).map (·.toNat)) → Full s [t.toNat] →
    let x := s.th.wv a
    SentStore s (exec (.st k sc z f h a t) s) (x + BitVec.ofInt 64 (k.toInt * bytesOfCode z)) sc.toNat 4 (bytesOfCode z)
      (dataOf s z t) ∧
    SentStore s (exec (.stDC16 t a i5) s) (x + BitVec.ofNat 64 (8 * i5.toNat)) 0 2 8 (dataOf s 3 t) ∧
    SentStore s (exec (.stWC16 t a i5) s) (x + BitVec.ofNat 64 (4 * i5.toNat)) 0 2 4 (dataOf s 2 t) ∧
    (s.th.handler = 0 → (anchored s dx dy x).isSome = true →
      SentAway s (exec (.stAnchorRel dx dy sc z f h a t) s) ((anchored s dx dy x).getD 0) sc.toNat 4 (bytesOfCode z) (dataOf s z t))

/-- R195, R93, 04 R83, R84: the checks of an address in their order: a mesh address on a die outside the partition, a misaligned one, one in
a gap or in pages that a walk has found unmapped, one that its page does not permit, and the form that leaves the mesh. -/
def Obligations.AddressFaults : Prop :=
  ∀ (s : State) (f h g e z' : Bool) (a b d t : Reg) (k : BitVec 11) (i7 : BitVec 7) (o sc z : BitVec 3) (dx dy : BitVec 5) (i5 : BitVec 5)
    (v : BitVec 2), NoPrefix s → Unpaired s → (z = 7 → t.toNat % 2 = 0) →
    let x := s.th.wv a
    let ea := x + BitVec.ofInt 64 (k.toInt * bytesOfCode z)
    let me := s.ctx s.here.ctx
    let trap := fun (out : Out) (ea : Word) (n : Nat) (r w : Bool) =>
      let n' := if n = 0 then 1 else n
      let offset := ea.toNat % 2 ^ 56
      let pages := regionAt ea.toNat ≠ .mesh ∧ regionAt ea.toNat ≠ .gap
      (regionAt ea.toNat = .mesh → (setDies s.mode (s.th.part / 4)).contains ((ea.toNat - meshBase) / 2 ^ 26) = false →
        out = .next (s.trapAt 8 ea s.th.pc)) ∧
      (regionAt ea.toNat ≠ .mesh ∨ (setDies s.mode (s.th.part / 4)).contains ((ea.toNat - meshBase) / 2 ^ 26) = true →
        ea.toNat % n' ≠ 0 → out = .next (s.trapAt 5 ea s.th.pc)) ∧
      (ea.toNat % n' = 0 → regionAt ea.toNat = .gap → out = .next (s.trapAt 6 ea s.th.pc)) ∧
      (ea.toNat % n' = 0 → pages → me.badVa = some ea.toNat → out = .next (s.trapAt 6 ea s.th.pc)) ∧
      (ea.toNat % n' = 0 → pages → me.badVa = none →
        ∀ y ∈ tlbFind (s.core s.hereCore).tlb me.part (ea.getLsbD 56) offset,
          regionAt ea.toNat = .context ∨ me.priv = 0 ∧ (ea.getLsbD 56 = true ∨ y.u = false) ∨ r = true ∧ y.r = false ∨ w = true ∧ y.w = false →
          out = .next (s.trapAt 7 ea s.th.pc))
    Full s (a.toNat :: b.toNat :: 8 :: (regsOf z t).map (·.toNat)) →
      trap (exec (.ld k sc z h a t) s) ea (bytesOfCode z) true false ∧
      trap (exec (.st k sc z f h a t) s) ea (bytesOfCode z) false true ∧
      trap (exec (.ldDC16 t a i5) s) (x + BitVec.ofNat 64 (8 * i5.toNat)) 8 true false ∧
      trap (exec (.ldWC16 t a i5) s) (x + BitVec.ofNat 64 (4 * i5.toNat)) 4 true false ∧
      trap (exec (.ldN z' g h a t) s) x 1 true false ∧
      trap (exec (.stN f g b h a) s) x 1 false true ∧
      (d.toNat < 4 → s.th.epend.getLsbD d.toNat = false → trap (exec (.xld i7 h a d) s) (x + BitVec.ofInt 64 (8 * i7.toInt)) 8 true false) ∧
      trap (exec (.amoAddPost e o sc g b h a) s) x (if e then 8 else 4) true true ∧
      trap (exec (.amoCasPost e o sc g b h a) s) x (if e then 8 else 4) true true ∧
      (NoPend s [d] → trap (exec (.amoAdd e o sc g b h a d) s) x (if e then 8 else 4) true true ∧
        trap (exec (.amoCas e o sc g b h a d) s) x (if e then 8 else 4) true true ∧
        trap (exec (.stv v g b h a d) s) x (2 ^ v.toNat) false true) ∧
      (s.th.handler = 0 → anchored s dx dy x = none →
        let info : Word := dx ++ dy ++ x.setWidth 54
        exec (.ldAnchorRel dx dy sc z h a t) s = .next (s.trapAt 8 info s.th.pc) ∧
        exec (.stAnchorRel dx dy sc z f h a t) s = .next (s.trapAt 8 info s.th.pc))

/-- R200, R201, R40: atomics of every operation, with and without a result: sent, or held where they release. -/
def Obligations.Atomics : Prop :=
  ∀ (s : State) (e g h : Bool) (o sc : BitVec 3) (b a d : Reg), NoPrefix s → Unpaired s → Full s [a.toNat, b.toNat, 8] →
    (NoPend s [d] → Atomic s (exec (.amoAdd e o sc g b h a d) s) .add false e o sc a b d) ∧
    Atomic s (exec (.amoAddPost e o sc g b h a) s) .add true e o sc a b 0 ∧
    (NoPend s [d] → Atomic s (exec (.amoAnd e o sc g b h a d) s) .and false e o sc a b d) ∧
    Atomic s (exec (.amoAndPost e o sc g b h a) s) .and true e o sc a b 0 ∧
    (NoPend s [d] → Atomic s (exec (.amoOr e o sc g b h a d) s) .or false e o sc a b d) ∧
    Atomic s (exec (.amoOrPost e o sc g b h a) s) .or true e o sc a b 0 ∧
    (NoPend s [d] → Atomic s (exec (.amoXor e o sc g b h a d) s) .xor false e o sc a b d) ∧
    Atomic s (exec (.amoXorPost e o sc g b h a) s) .xor true e o sc a b 0 ∧
    (NoPend s [d] → Atomic s (exec (.amoMinS e o sc g b h a d) s) .minS false e o sc a b d) ∧
    Atomic s (exec (.amoMinSPost e o sc g b h a) s) .minS true e o sc a b 0 ∧
    (NoPend s [d] → Atomic s (exec (.amoMaxS e o sc g b h a d) s) .maxS false e o sc a b d) ∧
    Atomic s (exec (.amoMaxSPost e o sc g b h a) s) .maxS true e o sc a b 0 ∧
    (NoPend s [d] → Atomic s (exec (.amoSwp e o sc g b h a d) s) .swp false e o sc a b d) ∧
    Atomic s (exec (.amoSwpPost e o sc g b h a) s) .swp true e o sc a b 0 ∧
    (NoPend s [d] → Atomic s (exec (.amoCas e o sc g b h a d) s) .cas false e o sc a b d) ∧
    Atomic s (exec (.amoCasPost e o sc g b h a) s) .cas true e o sc a b 0 ∧
    (NoPend s [d] → Atomic s (exec (.amoFadd e o sc g b h a d) s) .fadd false e o sc a b d) ∧
    Atomic s (exec (.amoFaddPost e o sc g b h a) s) .fadd true e o sc a b 0 ∧
    (NoPend s [d] → Atomic s (exec (.amoMinZ e o sc g b h a d) s) .minZ false e o sc a b d) ∧
    Atomic s (exec (.amoMinZPost e o sc g b h a) s) .minZ true e o sc a b 0 ∧
    (NoPend s [d] → Atomic s (exec (.amoMaxZ e o sc g b h a d) s) .maxZ false e o sc a b d) ∧
    Atomic s (exec (.amoMaxZPost e o sc g b h a) s) .maxZ true e o sc a b 0

/-- R199, R203, R204, R205, R171, 05 R116: cache control, fences with the token rounds that the wide ones wait for, timed stores
and waits, and the load of an extension register. Choices and readings of the model's own on which it rests: log entries 34, 81,
83. -/
def Obligations.CacheAndFences : Prop :=
  ∀ (s : State) (g h : Bool) (a b d : Reg) (l k z : BitVec 2) (sc : BitVec 3) (i7 : BitVec 7), NoPrefix s → Unpaired s →
    let x := s.th.wv a
    let core := s.hereCore
    let id := s.here.ctx
    let n := 2 ^ z.toNat
    let ts : Req := { ctx := id, core := core, kind := .storeTs, addr := 0, size := n, data := (s.th.wv b).toNat % 2 ^ (8 * n),
                      reg := d.toNat, tag := !s.th.epoch.getLsbD d.toNat, info := x }
    let line := fun (v : Nat) => v / 2 ^ 56 * 2 ^ 56 + v % 2 ^ 56 / 192 * 192
    let acquires := fun (q : State) => k ≠ 1 → 2 ≤ sc → (q.core core).l1 = [] ∧ (q.core core).acqAt = s.fresh + 1
    let ea := x + BitVec.ofInt 64 (8 * i7.toInt)
    let xl : Req := { ctx := id, core := core, kind := .load, addr := 0, size := 8, reg := 8 + d.toNat, info := ea }
    -- a fence that releases, with earlier stores still to perform, holds back the later ones at its scope or wider
    let fences := fun (k : BitVec 2) (sc : BitVec 3) =>
      if (k = 1 ∨ k = 2) ∧ s.released id core sc.toNat s.held.length = false ∧ s.th.fenced.toNat < sc.toNat then sc else s.th.fenced
    -- the links on whose token rounds a first issue waits: those with posted operations, or a round, under way, and for `.sy` the host's
    let open_ := fun (n : Nat) => (s.die s.hereDie).roundsOpen.any fun y => y.1 == n
    let links := (List.range 16).filter fun n =>
      (linkPeer s.hereDie n).isSome && (open_ n || (s.link s.hereDie n).posted || (sc == 5 && n == 12))
    let rounds := links.map fun n => (n, ((s.die s.hereDie).begun n + 1) % 65536)
    let ask := fun (pa : Nat) =>
      Ev.homeReadRequest { ctx := id, core := core, kind := .load, addr := pa, size := 1, reg := 17 + l.toNat, info := x }
    let emptyE := { (passed s 4).th with fee := s.th.fee &&& ~~~(1#4 <<< d.toNat), epend := s.th.epend ||| (1#4 <<< d.toNat) }
    exec .cinvalAll s = .next (passed (s.forget core) 4) ∧
    exec (.fence k 0) s = .next (passed s 4) ∧
    ((nth (s.core core).slots s.here.slot {}).fence = none → 0 < sc.toNat → sc.toNat ≤ 5 →
      (sc.toNat < 4 ∨ k = 0 ∨ links = [] →
        (s.fenceDone k.toNat sc.toNat = true → Runs (exec (.fence k sc) s) fun q =>
          q.th = { (passed s 4).th with fenced := fences k sc } ∧ Kept s q ∧ acquires q) ∧
        (s.fenceDone k.toNat sc.toNat = false → Runs (exec (.fence k sc) s) fun q =>
          q.th = { s.th with stall := some 0 } ∧ Kept s q)) ∧
      -- a token follows what is queued on each of the links, and the fence waits for them all
      (4 ≤ sc.toNat → k ≠ 0 → links ≠ [] → s.here.slot < 16 → (s.core core).slots.length = 16 → Runs (exec (.fence k sc) s) fun q =>
        q.th = { s.th with stall := some 0 } ∧ Kept s q ∧ (nth (q.core core).slots s.here.slot {}).fence = some rounds ∧
          ∀ n ∈ links, ∀ p ∈ linkPeer s.hereDie n,
            (open_ n = true → (q.link s.hereDie n).posted = true ∧ (q.link s.hereDie n).queue = (s.link s.hereDie n).queue) ∧
            (open_ n = false → (q.link s.hereDie n).posted = false ∧ (n, ((s.die s.hereDie).begun n + 1) % 65536) ∈ (q.die s.hereDie).roundsOpen ∧
              (q.link s.hereDie n).queue.map (·.ev) = (s.link s.hereDie n).queue.map (·.ev) ++
                [.fenceTokenArrival p (linkTo p s.hereDie) (((s.die s.hereDie).begun n + 1) % 65536)]))) ∧
    (∀ r ∈ (nth (s.core core).slots s.here.slot {}).fence, sc ≠ 0 →
      (s.roundsDone s.hereDie r = true → s.fenceDone k.toNat sc.toNat = true → Runs (exec (.fence k sc) s) fun q =>
        q.th = { (passed s 4).th with fenced := fences k sc } ∧ Kept s q ∧ acquires q) ∧
      (s.roundsDone s.hereDie r = false → Runs (exec (.fence k sc) s) fun q => q.th = { s.th with stall := some 0 } ∧ Kept s q)) ∧
    (Full s [a.toNat] →
      (∀ pa u, s.look core id x.toNat .hint = .ok pa u →
        exec (.pf l h a) s = .next (passed { u with inbox := u.inbox ++ [ask pa] } 4) ∧
        Runs (exec (.cinval h a) s) fun q => q.th = (passed u 4).th ∧ Kept s q ∧ (q.core core).l1.all (fun y => y.1 / 4 != pa / 192) = true) ∧
      (∀ c u, s.look core id x.toNat .hint = .fault c u →
        exec (.pf l h a) s = .next (passed u 4) ∧ exec (.cinval h a) s = .next (passed u 4)) ∧
      (∀ u, s.look core id x.toNat .hint = .wait u → Waits u (exec (.pf l h a) s) ∧ Waits u (exec (.cinval h a) s)) ∧
      (regionAt x.toNat = .mesh → exec (.cflush h a) s = .next (passed s 4)) ∧
      (regionAt x.toNat ≠ .mesh → regionAt (line x.toNat) ≠ .mesh → AtPage s (BitVec.ofNat 64 (line x.toNat)) 1 .load fun pa u =>
        s.th.fenced = 0 → ((u.touches id ++ u.heldTouches id).any fun t => t.write && match t.spot with | .sector m => m / 4 == pa / 192 | _ => false) = false →
        (u.line (pa / 192)).st ≠ .lost → Runs (exec (.cflush h a) s) fun q => q.th = (passed s 4).th ∧ Kept s q ∧
          (q.line (pa / 192)).st = .i ∧ (q.line (pa / 192)).owner = none ∧ (q.core core).l1.all (fun y => y.1 / 4 != pa / 192) = true) ∧
      ((s.die s.hereDie).locked = true →
        (((s.dieTime s.hereDie : Int) - x.toNat) % 2 ^ 60 < 2 ^ 59 → exec (.twait h a) s = .next (passed (s.forget core) 4)) ∧
        (2 ^ 59 ≤ ((s.dieTime s.hereDie : Int) - x.toNat) % 2 ^ 60 →
          exec (.twait h a) s = .next { s with th := { s.th with kind := 6, warg := x.setWidth 60, stall := none } })) ∧
      ((s.die s.hereDie).locked = false → exec (.twait h a) s = .next (s.trapAt 0x12 x s.th.pc)) ∧
      (d.toNat < 4 → s.th.epend.getLsbD d.toNat = false →
        (AtPage s ea 8 .load fun pa u => u.mustHold u.here.ctx u.hereCore (.sector (pa / 48)) = false →
          Runs (exec (.xld i7 h a d) s) fun q => q.th = emptyE ∧ (NoProfile s → NoFailure s → Kept s q) ∧
            -- a hit of the L1 fills the register as well by a message
            (Clean u (l1Place core + pa) 8 → Sent q (if u.l1Clear (.sector (pa / 48)) = true ∧ ((u.core core).cached pa 8).isSome = true then
                .registerFill id (8 + d.toNat) false (BitVec.ofNat 64 (((u.core core).cached pa 8).getD 0)) false ea (.core core) 0
              else .homeReadRequest { xl with addr := pa }))) ∧
        (AtStore s ea 8 fun loc => Free s (.store (loc / 65536)) → NoFailure s → Runs (exec (.xld i7 h a d) s) fun q =>
          q.th = emptyE ∧ (NoProfile s → Kept s q) ∧ Sent q (.coreStoreAccess { xl with addr := loc })))) ∧
    (Full s [a.toNat, b.toNat] → NoPend s [d] →
      (AtPage s x n .store fun pa u => Free u (.sector (pa / 48)) → NoFailure s → Runs (exec (.stv z g b h a d) s) fun q =>
        q.th = emptied s [d] 4 ∧ Kept s q ∧ Sent q (.storeVisible { ts with addr := pa })) ∧
      (AtStore s x n fun loc => Free s (.store (loc / 65536)) → NoFailure s → Runs (exec (.stv z g b h a d) s) fun q =>
        q.th = emptied s [d] 4 ∧ Kept s q ∧ Sent q (.coreStoreAccess { ts with addr := loc })))

/-- R184, R185, R187, R188, 02 R56: the bitstream instructions on a wide core: the most significant bit first, the position moved
on, and no bit past the end. A stream in the core's own store or in its L1 is read at once; one in pages that the L1 does not
hold, or in another core's store, by a request for its bytes, after which the position has moved on. Choices and readings of the
model's own on which it rests: log entries 20, 21, 84. -/
def Obligations.Bitstream : Prop :=
  ∀ (s : State) (g h p : Bool) (a b d : Reg) (n6 : BitVec 6) (c : BitVec 3) (z : Nat)
    (f : Nat → Nat) (byte : Nat → Byte),
    -- on a core that lacks the extension none of them is executed, and the thread moves (02 R56)
    Moves s (exec (.bsopen g b h a) s) 2 ∧ Moves s (exec (.getb g b d) s) 2 ∧ Moves s (exec (.getbImm n6 d) s) 2 ∧
    Moves s (exec (.peekb g b d) s) 2 ∧ Moves s (exec (.peekbImm n6 d) s) 2 ∧ Moves s (exec (.skipb g b) s) 2 ∧
    Moves s (exec (.skipbImm n6) s) 2 ∧ Moves s (exec .bsalign s) 2 ∧ Moves s (exec (.getue d) s) 2 ∧ Moves s (exec (.getse d) s) 2 ∧
    Moves s (exec (.crc p c g b h a d) s) 2 ∧
    (NoPrefix s → isWide s.hereCore = true →
    let e0 := (s.th.ev 0).toNat
    let e1 := (s.th.ev 1).toNat
    let x := s.th.wv a
    let y := s.th.wv b
    let ni := n6.toNat + 1
    let nr := min y.toNat 64
    let got := fun (byte : Nat → Byte) (k : Nat) => { wrote s d (BitVec.ofNat 64 (streamNat byte e0 k)) 4 with
      th := putE (wrote s d (BitVec.ofNat 64 (streamNat byte e0 k)) 4).th 0 (e0 + k) }
    let own := storeByte s
    let code := fun (byte : Nat → Byte) => streamNat byte (e0 + z) (z + 1) - 1
    -- getue and getse of a code of z zeros, over bytes that the core sees
    let coded := fun (byte : Nat → Byte) =>
      (Runs (exec (.getue d) s) fun q => q.th = { (got byte (2 * z + 1)).th with
          w := (wrote s d (BitVec.ofNat 64 (code byte)) 4).th.w } ∧ (NoFailure s → Kept s q)) ∧
      (Runs (exec (.getse d) s) fun q => q.th = { (got byte (2 * z + 1)).th with
          w := (wrote s d (BitVec.ofInt 64 (if code byte % 2 = 1 then (code byte + 1) / 2 else -(code byte / 2))) 4).th.w } ∧ (NoFailure s → Kept s q))
    -- getb and peekb of n bits over bytes that the core sees, and over others
    let seen := fun (byte : Nat → Byte) (n : Nat) (get peek : Out) =>
      (Runs get fun q => q.th = (got byte n).th ∧ (NoFailure s → Kept s q)) ∧
      (Runs peek fun q => q.th = (wrote s d (BitVec.ofNat 64 (streamNat byte e0 n)) 4).th ∧ (NoFailure s → Kept s q))
    let far := fun (at_ : Nat → Nat) (n : Nat) (mesh : Bool) (get peek : Out) =>
      let bytes := bytesFor e0 (e0 + n)
      let first := e0 / 8
      let run := ((List.range bytes.length).takeWhile fun i => at_ (first + i) == at_ first + i).length
      let r := fun (c : Ctx) => ({ ctx := s.here.ctx, core := s.hereCore, kind := .stream (e0 % 8) n run, addr := at_ first, size := bytes.length,
                                   data := if run < bytes.length then at_ (first + run) else 0, reg := d.toNat, tag := c.epoch.getLsbD d.toNat,
                                   info := BitVec.ofNat 64 first } : Req)
      let sent := fun (q : State) => if mesh then Sent q (.coreStoreAccess (r q.th)) else Sent q (.homeReadRequest (r q.th))
      NoPend s [d] → NoFailure s → NoProfile s →
        (Runs get fun q => q.th = putE (emptied s [d] 4) 0 (e0 + n) ∧ Kept s q ∧ sent q) ∧
        (Runs peek fun q => q.th = emptied s [d] 4 ∧ Kept s q ∧ sent q)
    let past := fun (o : Out) (flag : Nat) => o = .next (s.trapAt 0x0F (BitVec.ofNat 64 (flag * 2 ^ 63 + e0 % 2 ^ 60)) s.th.pc)
    (Full s [a.toNat, b.toNat] →
      Does s (exec (.crc p c g b h a d) s) (wrote s d
        ((crcVal (if p then 0x82F63B78 else 0xEDB88320) (x.setWidth 32) y (c.toNat + 1)).setWidth 64) 4) ∧
      (s.th.epend = 0 → x.toNat + y.toNat < 2 ^ 57 → Does s (exec (.bsopen g b h a) s)
        { wroteE s 0 (8 * x.toNat) with th := putE (wroteE s 0 (8 * x.toNat)).th 1 (8 * (x.toNat + y.toNat)) }) ∧
      (Unpaired s → s.th.epend = 0 → 2 ^ 57 ≤ x.toNat + y.toNat → exec (.bsopen g b h a) s = .next (s.trapAt 6 x s.th.pc))) ∧
    (Full s [b.toNat, 8, 9] → Unpaired s → e0 < 2 ^ 60 → e1 < 2 ^ 60 →
      (e0 + ni ≤ e1 → exec (.skipbImm n6) s = .next (wroteE s 0 (e0 + ni))) ∧
      (e0 + y.toNat ≤ e1 → exec (.skipb g b) s = .next (wroteE s 0 (e0 + y.toNat))) ∧
      ((e0 + 7) / 8 * 8 ≤ e1 → exec .bsalign s = .next (wroteE s 0 ((e0 + 7) / 8 * 8))) ∧
      (e1 < e0 + ni → past (exec (.skipbImm n6) s) 0 ∧ past (exec (.getbImm n6 d) s) 0 ∧ past (exec (.peekbImm n6 d) s) 0) ∧
      (e1 < e0 + y.toNat → past (exec (.skipb g b) s) 0) ∧
      (e1 < e0 + nr → past (exec (.getb g b d) s) 0 ∧ past (exec (.peekb g b d) s) 0) ∧
      (e1 ≤ e0 → past (exec (.getue d) s) 0 ∧ past (exec (.getse d) s) 0) ∧
      (e0 + ni ≤ e1 →
        (OwnFree s → OwnBits s e0 (e0 + ni) → seen own ni (exec (.getbImm n6 d) s) (exec (.peekbImm n6 d) s)) ∧
        (PageBits s f e0 (e0 + ni) →
          ((∀ i ∈ bytesFor e0 (e0 + ni), L1Byte s (f i) (byte i)) → seen byte ni (exec (.getbImm n6 d) s) (exec (.peekbImm n6 d) s)) ∧
          ((s.core s.hereCore).l1 = [] → far f ni false (exec (.getbImm n6 d) s) (exec (.peekbImm n6 d) s))) ∧
        (AwayBits s e0 (e0 + ni) → far (· - meshBase) ni true (exec (.getbImm n6 d) s) (exec (.peekbImm n6 d) s))) ∧
      (0 < nr → e0 + nr ≤ e1 →
        (OwnFree s → OwnBits s e0 (e0 + nr) → seen own nr (exec (.getb g b d) s) (exec (.peekb g b d) s)) ∧
        (PageBits s f e0 (e0 + nr) →
          ((∀ i ∈ bytesFor e0 (e0 + nr), L1Byte s (f i) (byte i)) → seen byte nr (exec (.getb g b d) s) (exec (.peekb g b d) s)) ∧
          ((s.core s.hereCore).l1 = [] → far f nr false (exec (.getb g b d) s) (exec (.peekb g b d) s))) ∧
        (AwayBits s e0 (e0 + nr) → far (· - meshBase) nr true (exec (.getb g b d) s) (exec (.peekb g b d) s))) ∧
      (nr = 0 → e0 ≤ e1 → exec (.getb g b d) s = .next (got own 0) ∧ exec (.peekb g b d) s = .next (wrote s d 0 4)) ∧
      (z < 32 → e0 + 2 * z + 1 ≤ e1 →
        (OwnFree s → OwnBits s e0 (e0 + 2 * z + 1) → streamNat own e0 z = 0 → streamAt own (e0 + z) = true → coded own) ∧
        (PageBits s f e0 (e0 + 2 * z + 1) → (∀ i ∈ bytesFor e0 (e0 + 2 * z + 1), L1Byte s (f i) (byte i)) → streamNat byte e0 z = 0 →
          streamAt byte (e0 + z) = true → coded byte)) ∧
      -- the first byte that the scan does not see is asked for, and the slot waits
      (e0 < e1 → PageBits s f e0 (e0 + 1) → (s.core s.hereCore).l1 = [] → NoFailure s → NoProfile s → s.flying = [] → s.held = [] →
        Runs (exec (.getue d) s) fun q => q.th = { s.th with stall := some 0 } ∧ Kept s q ∧
          Sent q (.homeReadRequest { ctx := s.here.ctx, core := s.hereCore, kind := .load, addr := f (e0 / 8), size := 1, reg := 16,
                                     info := BitVec.ofNat 64 (e0 / 8) })) ∧
      (OwnFree s → streamNat own e0 32 = 0 → e0 + 32 ≤ e1 → OwnBits s e0 (e0 + 32) →
        past (exec (.getue d) s) 1 ∧ past (exec (.getse d) s) 1)))

/-- R208, R209, R210: semaphores, join counters and watches: the request is on its way to the owner of the word, the waiting kinds
and arguments are those of the wait tag, and a join counter with a fault word traps. Each address is checked in the order of R208:
a gap, another place than the mesh window or a die outside the partition, and alignment. Choices and readings of the model's own
on which it rests: log entry 110. -/
def Obligations.WaitObjects : Prop :=
  ∀ (s : State) (g h : Bool) (a b d : Reg) (sc : BitVec 3) (t : BitVec 4), NoPrefix s → Unpaired s → Full s [a.toNat, b.toNat] →
    let x := s.th.wv a
    let y := s.th.wv b
    let id := s.here.ctx
    let limit := if t = 15 then 0 else 2 ^ t.toNat * 4000
    let asked := { emptied s [d] 4 with kind := 5, warg := x.setWidth 60 }
    -- a wait object lies in the mesh window, on a die of the partition, aligned
    let far := (setDies s.mode (s.th.part / 4)).contains ((x.toNat - meshBase) / 2 ^ 26) = false
    let trap := fun (out : Out) (n : Nat) =>
      (regionAt x.toNat = .gap → out = .next (s.trapAt 6 x s.th.pc)) ∧
      (regionAt x.toNat ≠ .gap → regionAt x.toNat ≠ .mesh → out = .next (s.trapAt 8 x s.th.pc)) ∧
      (regionAt x.toNat = .mesh → far → out = .next (s.trapAt 8 x s.th.pc)) ∧
      (regionAt x.toNat = .mesh → ¬ far → x.toNat % n ≠ 0 → out = .next (s.trapAt 5 x s.th.pc))
    trap (exec (.semV sc h a) s) 8 ∧ trap (exec (.semP sc h a) s) 8 ∧ trap (exec (.jcAdd sc g b h a) s) 32 ∧
    (y.toNat < 2 ^ 31 → trap (exec (.jcWait g b h a) s) 32) ∧
    (AtStore s x 8 fun loc => Free s (.store (loc / 65536)) → NoFailure s →
      (Runs (exec (.semV sc h a) s) fun q =>
        q.th = (passed s 4).th ∧ Kept s q ∧ Sent q (.semVExecute loc id sc.toNat none)) ∧
      (s.th.fenced = 0 → Runs (exec (.semP sc h a) s) fun q =>
        q.th = { (passed s 4).th with kind := 2, warg := BitVec.ofNat 60 loc } ∧ Kept s q ∧
        Sent q (.semPExecute loc id sc.toNat none))) ∧
    (AtStore s x 32 fun loc => Free s (.store (loc / 65536)) → NoFailure s → Runs (exec (.jcAdd sc g b h a) s) fun q =>
      q.th = (passed s 4).th ∧ Kept s q ∧ Sent q (.jcUpdate loc y 0 id none)) ∧
    (2 ^ 31 ≤ y.toNat → exec (.jcWait g b h a) s = .next (s.trapAt 1 y s.th.pc)) ∧
    -- another core's counter: its core is asked, and the thread idles until the answer has come
    (y.toNat < 2 ^ 31 → AtStore s x 32 fun loc => loc / 65536 ≠ s.hereCore → Clear s (.store (loc / 65536)) → NoFailure s →
      (s.th.quest = none → Runs (exec (.jcWait g b h a) s) fun q =>
        q.th = { s.th with stall := some 0, quest := some (s.fresh, 1, 0) } ∧ Kept s q ∧ Sent q (.errand (.join loc y.toNat id s.fresh true))) ∧
      (∀ m ∈ s.th.quest,
        (m.2.1 ≠ 0 → Waits s (exec (.jcWait g b h a) s)) ∧
        (m.2.1 = 0 → m.2.2 = 0 → exec (.jcWait g b h a) s = .next (passed (acquired s) 4)) ∧
        (m.2.1 = 0 → m.2.2 ≠ 0 → m.2.2 < 2 ^ 64 → exec (.jcWait g b h a) s =
          .next (({ s with th := { s.th with quest := none } } : State).trapAt 0x0D (BitVec.ofNat 64 m.2.2) s.th.pc)))) ∧
    (y.toNat < 2 ^ 31 → AtStore s x 32 fun loc => loc / 65536 = s.hereCore → Clear s (.store (loc / 65536)) →
      let fault := readNat s.cstore (loc + 16) 8
      let count := sgn false (BitVec.ofNat 64 (readNat s.cstore loc 8))
      (fault ≠ 0 → exec (.jcWait g b h a) s = .next (s.trapAt 0x0D (BitVec.ofNat 64 fault) s.th.pc)) ∧
      (fault = 0 → count ≤ y.toNat → exec (.jcWait g b h a) s = .next (passed (acquired s) 4)) ∧
      (fault = 0 → y.toNat < count → s.cur.isSome = true → Runs (exec (.jcWait g b h a) s) fun q =>
        q.th = { s.th with kind := 3, warg := BitVec.ofNat 60 (y.toNat * 2 ^ 29 + loc), stall := none, pollAt := q.th.pollAt } ∧
        q.ctxs = s.ctxs ∧ SameBytes s q ∧
        (((q.core (loc / 65536)).waiters.any fun w => w.ctx == id && w.kind == 3 && w.loc == loc) = true ∨
          (.jcWaitRepoll id ∈ q.inbox ∧ q.th.pollAt = s.gtime + 4000)))) ∧
    (NoPend s [d] → NoFailure s →
      (AtStore s x 8 fun loc => Clear s (.store (loc / 65536)) → Runs (exec (.waitMem t g b h a d) s) fun q =>
        q.th = asked ∧ Kept s q ∧ Sent q (.watchArm true loc y id d.toNat (asked.epoch.getLsbD d.toNat) limit ⟨s.hereDie, 0⟩)) ∧
      (AtPage s x 8 .load fun pa u => Clear u (.sector (pa / 48)) → Runs (exec (.waitMem t g b h a d) s) fun q =>
        q.th = asked ∧ Kept s q ∧ Sent q (.watchArm false pa y id d.toNat (asked.epoch.getLsbD d.toNat) limit
          ⟨s.hereDie, s.verAt s.hereDie (s.homeDie (setOf s.mode s.hereDie) pa)⟩)))

/-- R211, R212, R213: giving the slot away, ending, asking for a thread of the block's pool, and chunk counters. -/
def Obligations.Threads : Prop :=
  ∀ (s : State) (g h : Bool) (a b d : Reg) (c : BitVec 4), NoPrefix s → Unpaired s → Running s → s.th.handler = 0 →
    let id := s.here.ctx
    let x := s.th.wv a
    let y := s.th.wv b
    let blk := s.th.blk
    let asked := emptied s [d] 4
    let tag := asked.epoch.getLsbD d.toNat
    let alone := (nth (s.core s.hereCore).ready s.th.prio.toNat []).isEmpty
    let home := match get? s.blocks blk with | some k => k.cluster | none => 0
    (alone = true → exec .yield s = .next (passed s 4) ∧ exec .yieldC16 s = .next (passed s 2)) ∧
    (alone = false → GaveWay s 4 (exec .yield s) ∧ GaveWay s 2 (exec .yieldC16 s)) ∧
    (s.th.cmds ≠ 0 →
      exec .exit s = .next { s with th := { s.th with kind := 7, warg := 0, stall := none } } ∧
      exec .exitC16 s = .next { s with th := { s.th with kind := 7, warg := 0, stall := none } }) ∧
    (s.th.cmds = 0 → Settled s → Runs (exec .exit s) (Ended s) ∧ Runs (exec .exitC16 s) (Ended s)) ∧
    (NoFailure s → NoPend s [d] → Full s [a.toNat, b.toNat] →
      (x.toNat % 2 = 1 → exec (.spawn g b h a d) s = .next (s.trapAt 5 x s.th.pc)) ∧
      (x.toNat % 2 = 0 → Runs (exec (.spawn g b h a d) s) fun q =>
        q.th = asked ∧ Kept s q ∧ Sent q (.spawnPoolRequest blk id d.toNat tag x y none s.hereDie)) ∧
      (Full s [d.toNat] → x.toNat % 2 = 0 → AtStore s (s.th.wv d) 32 fun loc => Runs (exec (.spawnDef g b h a d) s) fun q =>
        q.th = asked ∧ Kept s q ∧ Sent q (.spawnPoolRequest blk id d.toNat tag x y (some loc) s.hereDie))) ∧
    (NoFailure s → Full s [a.toNat, b.toNat] →
      (x = 0 ∨ 2 ^ 32 ≤ x.toNat → exec (.chunkInit c g b h a) s = .next (s.trapAt 1 x s.th.pc)) ∧
      (0 < x.toNat → x.toNat < 2 ^ 32 → y.toNat < 2 ^ 32 → y.toNat % 65536 ≠ 0 → y.toNat / 65536 ≠ 0 →
        Runs (exec (.chunkInit c g b h a) s) fun q => q.th = (passed s 4).th ∧ Kept s q ∧
          Sent q (.chunkInitRequest home c.toNat x.toNat (y.toNat % 65536) (y.toNat / 65536) s.hereCore))) ∧
    (NoFailure s → NoPend s [d] → Runs (exec (.chunk c d) s) fun q =>
      q.th = asked ∧ Kept s q ∧ Sent q (.chunkRequest home c.toNat id d.toNat tag s.hereCore))

/-- R214, R216, R217: hardware barriers of a pinned thread: setting one up, arriving, waiting and testing. -/
def Obligations.Barriers : Prop :=
  ∀ (s : State) (f g h : Bool) (a b d : Reg) (n : BitVec 2), NoPrefix s → Unpaired s → Full s [a.toNat, b.toNat] →
    let core := s.hereCore
    let x := s.th.wv a
    let field := fun (lo len : Nat) => x.toNat / 2 ^ lo % 2 ^ len
    let inside := fun (p lo len : Nat) => lo ≤ p ∧ p < lo + len ∧ lo + len ≤ 32
    let bar := s.bar core n.toNat
    let gen := x.setWidth 8
    -- signals that came while the register was not set up, or after its phase was aborted, belong to the next phase (R215)
    let early := fun (old : Bar) => !old.cfg || old.aborted != none
    let ended := if f then bar.gen ≠ gen else bar.gen.getLsbD 0 ≠ gen.getLsbD 0
    (s.pinned s.here.ctx = true → x.toNat < 2 ^ 27 → 1 ≤ field 22 5 → field 22 5 ≤ 16 → 1 ≤ field 16 6 → 1 ≤ field 10 6 →
      inside (xOf core) (field 0 5) (field 10 6) → inside (yOf core) (field 5 5) (field 16 6) →
      Runs (exec (.barCfg n g b h a) s) fun q => q.th = (passed s 4).th ∧ SameBytes s q ∧ q.ctxs = s.ctxs ∧
        ∀ old ∈ (s.core core).bars[n.toNat]?, (q.core core).bars[n.toNat]? = some
          { cfg := true, x0 := field 0 5, y0 := field 5 5, wd := field 10 6, ht := field 16 6, count := field 22 5,
            timeout := (s.th.wv b).toNat, rowIn := early old && old.rowIn, colIn := early old && old.colIn }) ∧
    (bar.cfg = true → (∀ m ∈ bar.aborted,
      exec (.barTest f n h a d) s = .next (s.trapAt 0x0E m s.th.pc) ∧
      (s.pinned s.here.ctx = true →
        exec (.barArr n d) s = .next (s.trapAt 0x0E m s.th.pc) ∧ exec (.barWait n h a) s = .next (s.trapAt 0x0E m s.th.pc)))) ∧
    (bar.cfg = true → bar.aborted = none →
      (ended → exec (.barTest f n h a d) s = .next (wrote (acquired s) d 1 4)) ∧
      (¬ended → exec (.barTest f n h a d) s = .next (wrote s d 0 4)) ∧
      (s.pinned s.here.ctx = true →
        (bar.gen ≠ gen → exec (.barWait n h a) s = .next (passed (acquired s) 4)) ∧
        (bar.gen = gen → exec (.barWait n h a) s = .next
          { s with th := { s.th with kind := 4, warg := BitVec.ofNat 60 (n.toNat + 4 * gen.toNat), stall := none } }) ∧
        (Settled s →
          (bar.arrived < bar.count → Runs (exec (.barArr n d) s) fun q =>
            q.th = (wrote s d (bar.gen.setWidth 64) 4).th ∧ SameBytes s q ∧ q.ctxs = s.ctxs ∧
            (n.toNat < (s.core core).bars.length → (q.bar core n.toNat).arrived = bar.arrived + 1)) ∧
          (bar.count ≤ bar.arrived → NoPend s [d] → Runs (exec (.barArr n d) s) fun q =>
            q.th = { emptied s [d] 4 with kind := 4, warg := BitVec.ofNat 60 (n.toNat + 4 * bar.gen.toNat + 1024) } ∧
            SameBytes s q ∧ q.ctxs = s.ctxs ∧
            (n.toNat < (s.core core).bars.length → (q.bar core n.toNat).arrived = bar.arrived)))))

/-- R206, R218, R219, R220, R221: identity and clocks; key bins and sends by key; launches. Choices and readings of the model's
own on which it rests: log entries 91, 92. -/
def Obligations.IdentityAndLaunch : Prop :=
  ∀ (s : State) (g h : Bool) (a b d : Reg) (n : BitVec 2) (i : BitVec 3), NoPrefix s → Unpaired s →
    let x := s.th.wv a
    let y := s.th.wv b
    let field := fun (v : Word) (lo len : Nat) => v.toNat / 2 ^ lo % 2 ^ len
    let die := s.die s.hereDie
    let shown := fun (o : Out) (v : Word) => Runs o fun q => q.th = (wrote s d v 4).th ∧ Kept s q
    shown (exec (.gtime d) s) (BitVec.ofNat 64 (s.dieTime s.hereDie)) ∧
    shown (exec (.gtimeLk d) s) (if die.locked then 1 else 0) ∧
    shown (exec (.cyc d) s) (BitVec.ofNat 64 die.cyc) ∧
    shown (exec (.cycT d) s) (BitVec.ofNat 64 (s.hereDie * 2 ^ 61 + die.cyc % 2 ^ 61)) ∧
    shown (exec (.idr 5 d) s) (BitVec.ofNat 64 s.hereCore) ∧
    (get? s.blocks s.th.blk = none → i.toNat < 5 → exec (.idr i d) s = .next (wrote s d 0 4)) ∧
    (∀ k ∈ get? s.blocks s.th.blk, ∀ l ∈ get? s.launches k.launch, i.toNat < 5 → exec (.idr i d) s = .next (wrote s d
      ([BitVec.ofNat 64 s.th.tindex, BitVec.ofNat 64 k.index, BitVec.ofNat 64 l.id, BitVec.ofNat 64 k.anchor, l.seed].getD i.toNat 0) 4)) ∧
    (s.th.handler = 0 → Full s [a.toNat, b.toNat] →
      (x.toNat < 2 ^ 23 → 1 ≤ field x 16 6 → 1 ≤ field x 10 6 → field x 0 5 + field x 10 6 ≤ 32 → field x 5 5 + field x 16 6 ≤ 32 →
        y.toNat < 2 ^ 32 → 1 ≤ field y 16 16 → field y 16 16 ≤ 16384 → field y 0 16 % 4 = 0 →
        field y 0 16 + 4 * field y 16 16 ≤ 65536 →
        Runs (exec (.kbinCfg n g b h a) s) fun q => q.th = (passed s 4).th ∧ Kept s q ∧
          ∀ k ∈ get? s.blocks s.th.blk, ∃ k' ∈ get? q.blocks s.th.blk, get? k'.kbins n.toNat = some (x, y)) ∧
      (∀ k ∈ get? s.blocks s.th.blk, ∀ v ∈ get? k.kbins n.toNat,
        let count := field v.1 10 6 * field v.1 16 6
        let j := x.toNat / count
        let i := (x.toNat % count + j * 0x9E3779B9) % count
        let at_ := (k.anchor / 1024 % 8 * 1024 + (field v.1 5 5 + i / field v.1 10 6) * 32 + (field v.1 0 5 + i % field v.1 10 6)) * 65536 +
          field v.2 0 16 + 4 * j
        (count * field v.2 16 16 ≤ x.toNat → exec (.ksend n g b h a) s = .next (s.trapAt 8 x s.th.pc)) ∧
        (x.toNat < count * field v.2 16 16 → field v.1 0 5 + field v.1 10 6 ≤ 32 → field v.1 5 5 + field v.1 16 6 ≤ 32 →
          k.anchor < 8192 → Free s (.store (at_ / 65536)) → NoFailure s →
          Runs (exec (.ksend n g b h a) s) fun q => q.th = (passed s 4).th ∧ Kept s q ∧
            Sent q (.ksendAccumulate at_ (v.1.getLsbD 22) (y.setWidth 32) s.here.ctx none)))) ∧
    (s.th.handler = 0 → Full s [a.toNat] → NoPend s [d] →
      Settled s → NoFailure s →
      let asked := emptied s [d] 4
      let req := fun (v : Word) => Ev.launchAccept s.th.part v s.here.ctx d.toNat (asked.epoch.getLsbD d.toNat) s.th.priv.toNat 0
      (AtStore s x 128 fun loc => Runs (exec (.launch h a d) s) fun q =>
        q.th = asked ∧ SameBytes s q ∧ q.ctxs = s.ctxs ∧ Sent q (req (BitVec.ofNat 64 (2 ^ 62 + loc)))) ∧
      (AtPage s x 128 .load fun pa u => u.flying = [] → Runs (exec (.launch h a d) s) fun q =>
        q.th = asked ∧ SameBytes s q ∧ q.ctxs = s.ctxs ∧ Sent q (req (BitVec.ofNat 64 pa))))

/-- R231, R232, R237 to R245: every vector command is sent to its Juggler with its operation code, its mod bits and the words it
reads, and a command with no B operand reads w0. Choices and readings of the model's own on which it rests: log entry 87. -/
def Obligations.VectorCommands : Prop :=
  ∀ (s : State) (g h j f m : Bool) (a b : Reg) (c : BitVec 3) (r : BitVec 2), NoPrefix s → Unpaired s → s.th.handler = 0 →
    let two := fun (o : Out) (op mods : Nat) => TaskSent s o op mods [] b a j f
    let one := fun (o : Out) (op mods : Nat) => TaskSent s o op mods [] 0 a j f
    let mb := if m then 1 else 0
    two (exec (.vadd g b h a j f) s) 0x00 0 ∧ two (exec (.vsub g b h a j f) s) 0x01 0 ∧ two (exec (.vmul g b h a j f) s) 0x02 0 ∧
    two (exec (.vmin g b h a j f) s) 0x03 0 ∧ two (exec (.vmax g b h a j f) s) 0x04 0 ∧ two (exec (.vfma g b h a j f) s) 0x05 0 ∧
    two (exec (.vcmp c g b h a j f) s) 0x0E c.toNat ∧ two (exec (.vsel g b h a j f) s) 0x0F 0 ∧
    one (exec (.vabs h a j f) s) 0x06 0 ∧ one (exec (.vneg h a j f) s) 0x07 0 ∧ one (exec (.vexp2 h a j f) s) 0x08 0 ∧
    one (exec (.vlog2 h a j f) s) 0x09 0 ∧ one (exec (.vrcp h a j f) s) 0x0A 0 ∧ one (exec (.vrsqrt h a j f) s) 0x0B 0 ∧
    one (exec (.vtanh h a j f) s) 0x0C 0 ∧ one (exec (.vcvt h a j f) s) 0x0D 0 ∧
    one (exec (.vrowred r h a j f) s) 0x10 r.toNat ∧ one (exec (.vcolred r h a j f) s) 0x11 r.toNat ∧
    one (exec (.vbcast m h a j f) s) 0x12 mb ∧ one (exec (.vtrans h a j f) s) 0x13 0 ∧
    one (exec (.vquant h a j f) s) 0x15 0 ∧ one (exec (.vmov h a j f) s) 0x1A 0 ∧
    TaskSent s (exec (.vscale m h a j f) s) 0x14 mb [9] 0 a j f ∧
    TaskSent s (exec (.vshl m g b h a j f) s) 0x16 mb [9] b a j f ∧
    TaskSent s (exec (.vshr m g b h a j f) s) 0x17 mb [9] b a j f ∧
    TaskSent s (exec (.vsar m g b h a j f) s) 0x18 mb [9] b a j f ∧
    TaskSent s (exec (.vclamp h a j f) s) 0x19 0 [9] 0 a j f ∧
    TaskSent s (exec (.vfill h a j f) s) 0x1B 0 [9] 0 a j f ∧
    TaskSent s (exec (.vmask m h a j f) s) 0x1C mb [9] 0 a j f

/-- R231, R232, R246, R248, R251: matrix commands, copies, gathers and scatters are sent in the same way. -/
def Obligations.MatrixAndCopyCommands : Prop :=
  ∀ (s : State) (g h j f r k x y : Bool) (a b : Reg), NoPrefix s → Unpaired s → s.th.handler = 0 →
    let bit := fun (v : Bool) => if v then 1 else 0
    TaskSent s (exec (.mma r k y x g b h a j f) s) 0x20 (bit x + 2 * bit y + 4 * bit k + 8 * bit r) (if r then [9] else []) b a j f ∧
    TaskSent s (exec (.mdrain g b h a j f) s) 0x21 0 [9] b a j f ∧
    TaskSent s (exec (.cpyMt g b h a j f) s) 0x28 0 [9] b a j f ∧
    TaskSent s (exec (.cpyTm g b h a j f) s) 0x28 1 [9] b a j f ∧
    TaskSent s (exec (.cpyMm g b h a j f) s) 0x28 2 [9] b a j f ∧
    TaskSent s (exec (.gath g b h a j f) s) 0x29 0 [9, 10] b a j f ∧
    TaskSent s (exec (.scat g b h a j f) s) 0x2A 0 [9, 10] b a j f

/-- R224 to R230: allocation, views, questions about tiles, moves of single words, and waiting for commands. Choices and readings
of the model's own on which it rests: log entry 110. -/
def Obligations.TileInstructions : Prop :=
  ∀ (s : State) (g h : Bool) (a b d : Reg), NoPrefix s → Unpaired s →
    let x := s.th.wv a
    let y := s.th.wv b
    let id := s.here.ctx
    let field := fun (v : Word) (lo len : Nat) => v.toNat / 2 ^ lo % 2 ^ len
    let asked := emptied s [d] 4
    let home := match get? s.blocks s.th.blk with | some k => k.cluster | none => 0
    let row := field x 6 7 + field y 0 7
    let rows := field y 8 6
    let askFor := field x 39 9 = 0 ∧ field x 58 6 = 0
    exec (.vbusy d) s = .next (wrote s d (s.th.cmds.setWidth 64) 4) ∧
    (s.th.cmds = 0 → exec .vfence s = .next (passed (acquired s) 4)) ∧
    (s.th.cmds ≠ 0 → exec .vfence s = .next { s with th := { s.th with kind := 7, warg := 0, stall := none } }) ∧
    (Full s [a.toNat, b.toNat] → x.toNat < 2 ^ 32 →
      (row ≤ 127 → (field x 0 6 = 0 ∨ rows ≠ 0 ∧ field y 0 7 + rows ≤ field x 0 6) →
        exec (.tview g b h a d) s = .next (wrote s d (BitVec.ofNat 64 (x.toNat / 2 ^ 13 * 2 ^ 13 + row * 64 + rows)) 4)) ∧
      (127 < row ∨ field x 0 6 ≠ 0 ∧ (rows = 0 ∨ field x 0 6 < field y 0 7 + rows) →
        exec (.tview g b h a d) s = .next (s.trapAt 0x0A x s.th.pc))) ∧
    (s.th.handler = 0 → Full s [a.toNat] →
      (descOk x.toNat = false → NoPend s [d] → exec (.talloc h a d) s = .next (s.trapAt 1 x s.th.pc)) ∧
      (descOk x.toNat = true → NoPend s [d] → NoFailure s → Runs (exec (.talloc h a d) s) fun q =>
        q.th = asked ∧ Kept s q ∧ Sent q (.tallocServe home id d.toNat (asked.epoch.getLsbD d.toNat) s.th.blk x s.hereDie)) ∧
      (x.toNat < 2 ^ 32 → s.th.cmds ≠ 63 → Commanded s (exec (.tfree h a) s) (commandOf s 0x81 0 false false x 0)) ∧
      (2 ^ 32 ≤ x.toNat → exec (.tfree h a) s = .next (s.trapAt 1 x s.th.pc)) ∧
      -- a tile of this die is looked up at once, one of another die by a message, after whose answer the instruction goes on
      (x.toNat < 2 ^ 32 → NoPend s [d] →
        let there := handleKey x.toNat / 65536
        let local_ := there = s.hereDie ∨ (setDies s.mode (s.th.part / 4)).contains there = false
        let told := fun (o : Out) (v : Nat) (u : State) =>
          (v = 0 → o = .next (u.trapAt 9 x s.th.pc)) ∧ (v = 1 → o = .next (u.trapAt 0x0A x s.th.pc)) ∧
          (2 ≤ v → v ≠ noAnswer → Runs o fun q => q.th = asked ∧ Kept s q ∧
            Sent q (.registerFill id d.toNat (asked.epoch.getLsbD d.toNat) (BitVec.ofNat 64 (v - 2)) false 0 (.core s.hereCore) 0))
        (local_ →
          (s.tileRef s.th.blk 0 x.toNat false = none → told (exec (.tinfo h a d) s) 0 s) ∧
          (∀ t ∈ s.tileRef s.th.blk 0 x.toNat false, told (exec (.tinfo h a d) s)
            (if t.past then 1 else 2 + (t.desc + 2 ^ 23 * t.row0 + 2 ^ 30 * (t.rows - 1) + (if t.scale then 2 ^ 37 else 0))) s)) ∧
        (¬local_ →
          (s.th.quest = none → NoFailure s → Runs (exec (.tinfo h a d) s) fun q =>
            q.th = { s.th with stall := some 0, quest := some (s.fresh, 1, 0) } ∧ Kept s q ∧ Sent q (.errand (.look (64 * there) s.th.blk x id s.fresh))) ∧
          (∀ m ∈ s.th.quest, (m.2.1 ≠ 0 → Waits s (exec (.tinfo h a d) s)) ∧
            (m.2.1 = 0 → told (exec (.tinfo h a d) s) m.2.2 { s with th := { s.th with quest := none } })))) ∧
      (askFor → NoPend s [d] → Commanded s (exec (.tget h a d) s) (commandOf s 0x82 0 false false x
        (BitVec.ofNat 64 (d.toNat + if (s.ctx id).epoch.getLsbD d.toNat then 0 else 8)))) ∧
      (¬askFor → NoPend s [d] → exec (.tget h a d) s = .next (s.trapAt 1 x s.th.pc)) ∧
      (Full s [b.toNat] →
        (askFor → s.th.cmds ≠ 63 → Commanded s (exec (.tset g b h a) s) (commandOf s 0x80 0 false false x y)) ∧
        (¬askFor → exec (.tset g b h a) s = .next (s.trapAt 1 x s.th.pc))))

/-- R311, R312: taking a trap of cause k with an information word: the context stands at the given pc with kind 8, its cause and
its information word. Bit k of `sys.tdeleg` gives it to the core's S handler, where there is one that has not trapped itself, and
else to the M handler. A dormant handler, with no machine check standing, receives the context's address, the cause, the
information word and the context's old wait tag in w0 to w3 and stands at its entry, ready to run; for a serving one, and while a
machine check stands, the trap joins the core's queue, after it the die's overflow list, and with both full it is a machine check.
So is a trap of the M handler, and one for which there is none: it marks `sys.mcheck` with its cause, and the die logs it. Choices
and readings of the model's own on which it rests: log entry 16. -/
def Obligations.TrapTaken : Prop :=
  ∀ (s : State) (k : BitVec 8) (info : Word) (pc : BitVec 57), NoProfile s → s.cur ≠ none →
    let core := s.hereCore
    let x := s.core core
    let id := s.here.ctx
    let q := s.trapAt k.toNat info pc
    let level := if x.tdeleg.getLsbD k.toNat = true ∧ x.hctxS ≠ none ∧ s.th.handler ≠ 1 then 1 else 3
    let (handler, entry) := if level = 1 then (x.hctxS, x.hentryS) else (x.hctxM, x.hentryM)
    let mine : TrapEntry := ⟨id, k.toNat, info, s.th.kind ++ s.th.warg, level⟩
    (∀ h ∈ handler, s.th.handler ≠ 3 →
      (x.mcheck = 0 → s.serving core level = false → h ≠ id → HeldBy s h (.core core) → (s.ctx h).peer = none → x.slotOf h = none → (s.ctx h).handler = level →
        (s.die (dieOf core)).preempted = false → Shaped s core →
        (q.ctx h).kind = 0 ∧ (q.ctx h).pc = entry.setWidth 57 &&& ~~~1 ∧
        (q.ctx h).wv 0 = BitVec.ofNat 64 s.th.cva ∧ (q.ctx h).wv 1 = k.setWidth 64 ∧ (q.ctx h).wv 2 = info ∧
        (q.ctx h).wv 3 = s.th.kind ++ s.th.warg ∧ (∀ r < 4, (q.ctx h).full r = true) ∧
        (h ∈ (q.core core).readyH ∨ ((q.core core).slotOf h).isSome = true)) ∧
      (x.mcheck ≠ 0 ∨ (s.ctx h).handler = level ∧ (s.ctx h).lastCore = some core ∧ (s.ctx h).kind ≠ 11 ∧ h ≠ id ∧ h ∈ s.ctxs.map (·.1) →
        (x.trapQ.length < 64 → (q.core core).trapQ = x.trapQ ++ [mine]) ∧
        (64 ≤ x.trapQ.length → (s.die (dieOf core)).overflow.length < 4096 →
          (q.core core).trapQ = x.trapQ ∧ (q.die (dieOf core)).overflow = (s.die (dieOf core)).overflow ++ [(core, mine)]) ∧
        (64 ≤ x.trapQ.length → 4096 ≤ (s.die (dieOf core)).overflow.length → (q.core core).mcheck = x.mcheck ||| 2))) ∧
    (s.th.handler = 3 ∨ level = 3 ∧ x.hctxM = none →
      (q.core core).mcheck = ((x.mcheck ||| 1) &&& 0xFF) ||| (k.setWidth 64 <<< 8) ∧ (q.core core).trapQ = x.trapQ ∧
      ((s.die (dieOf core)).log.length < 256 → ∃ e ∈ (q.die (dieOf core)).log.getLast?, e.1.setWidth 8 = 7#8 ∧ e.2 = BitVec.ofNat 64 s.th.cva)) ∧
    (x.hctxM ≠ some id → x.hctxS ≠ some id →
      (q.ctx id).pc = pc ∧ (q.ctx id).cause = k ∧ (q.ctx id).kind = 8 ∧ (q.ctx id).warg = info.setWidth 60 ∧
      (q.ctx id).w = s.th.w ∧ (q.ctx id).e = s.th.e ∧ (q.ctx id).pw = s.th.pw ∧ (q.ctx id).pfx = s.th.pfx ∧ (q.ctx id).few = s.th.few) ∧
    SameBytes s q

/-- R320, R323: a system call raises SYSCALL with the pc past it; a return from a trap gives the handler the next trap that waits,
or leaves it dormant. -/
def Obligations.CallsAndReturns : Prop :=
  ∀ (s : State) (n : BitVec 7), NoPrefix s → Unpaired s →
    let core := s.hereCore
    let id := s.here.ctx
    let level := s.th.handler
    exec (.sys n) s = .next (s.trapAt 0x14 (n.setWidth 64) (s.th.pc + 4)) ∧
    (level ≠ 0 → 1 ≤ s.th.priv.toNat → s.cur ≠ none → (s.core core).handler level = some id → NoProfile s → Runs (exec .eret s) fun q =>
      SameBytes s q ∧
      ((s.core core).mcheck = 0 → ∀ e ∈ (s.core core).trapQ.find? (fun v : TrapEntry => v.level == level),
        (q.ctx id).kind = 0 ∧ (q.ctx id).wv 0 = BitVec.ofNat 64 (s.ctx e.ctx).cva ∧ (q.ctx id).wv 1 = BitVec.ofNat 64 e.cause ∧
        (q.ctx id).wv 2 = e.info ∧ (q.ctx id).wv 3 = e.tag ∧ (q.ctx id).pc = (s.core core).hentry level ∧ (q.core core).trapQ = (s.core core).trapQ.eraseP fun x => x.level == level) ∧
      ((s.core core).trapQ = [] → (s.die (dieOf core)).overflow = [] →
        (q.ctx id).kind = 11 ∧ (q.core core).slotOf id = none ∧ registers (q.ctx id) = registers s.th))

/-- R321, R308: reads of system registers answer through a fill; a write of a register that stores it is read back, masked; one of
a register that ignores writes changes nothing. Choices and readings of the model's own on which it rests: log entry 25. -/
def Obligations.SystemRegisters : Prop :=
  ∀ (s : State) (h : Bool) (a d : Reg) (n : BitVec 7), NoPrefix s → Unpaired s →
    let x := s.th.wv a
    let part := s.th.part
    let core := s.hereCore
    let assigned := n.toNat ≤ 0x0A ∨ 0x20 ≤ n.toNat ∧ n.toNat ≤ 0x27 ∨ 0x30 ≤ n.toNat ∧ n.toNat ≤ 0x39 ∨
      0x40 ≤ n.toNat ∧ n.toNat ≤ 0x46 ∨ 0x50 ≤ n.toNat ∧ n.toNat ≤ 0x65 ∨ 0x70 ≤ n.toNat ∧ n.toNat ≤ 0x73
    (¬assigned → exec (.srd n d) s = .next (s.trapAt 1 s.ienc s.th.pc) ∧ exec (.swr n h a) s = .next (s.trapAt 1 s.ienc s.th.pc)) ∧
    (assigned → s.th.priv = 0 → exec (.srd n d) s = .next (s.trapAt 3 s.ienc s.th.pc)) ∧
    (assigned → s.th.priv ≠ 0 → NoPend s [d] → NoFailure s → Runs (exec (.srd n d) s) fun q =>
      Answered s d (s.readSys core part n.toNat) q ∧ Kept s q) ∧
    (assigned → Full s [a.toNat] → sysWrite n.toNat = none → exec (.swr n h a) s = .next (passed s 4)) ∧
    (∀ p ∈ sysWrite n.toNat, Full s [a.toNat] → s.th.priv.toNat < p → exec (.swr n h a) s = .next (s.trapAt 3 s.ienc s.th.pc)) ∧
    (∀ p ∈ sysWrite n.toNat, Full s [a.toNat] → p ≤ s.th.priv.toNat →
      (∀ m ∈ storing, m.1 = n.toNat → (s.part part).bps.length = 4 → (s.core core).evs.length = 8 →
        (s.cluster (clusterOf core)).evs.length = 16 → (s.core core).evSel.toNat % 32 < 24 → Runs (exec (.swr n h a) s) fun q =>
        q.th = (passed s 4).th ∧ SameBytes s q ∧ q.ctxs = s.ctxs ∧ q.inbox = s.inbox ∧ q.readSys core part n.toNat = x &&& m.2) ∧
      (n.toNat = 0x40 → x.toNat / 2 % 16 ≤ 10 → Runs (exec (.swr n h a) s) fun q =>
        q.th = (passed s 4).th ∧ q.scrub = x &&& 0x1F) ∧
      (n.toNat = 0x46 → Runs (exec (.swr n h a) s) fun q =>
        q.th = (passed s 4).th ∧ (q.core core).rasCore = (s.core core).rasCore &&& ~~~(x &&& 1)) ∧
      (n.toNat = 0x07 → exec (.swr n h a) s = .next { passed s 4 with inbox := s.inbox ++ [.mcheckClear core x] }) ∧
      (n.toNat = 0x44 → exec (.swr n h a) s = .next { passed s 4 with inbox := s.inbox ++ [.rasPop (dieOf core)] }) ∧
      (n.toNat = 0x01 ∨ n.toNat = 0x02 → x = 0 → exec (.swr n h a) s = .next
        { passed s 4 with inbox := s.inbox ++ [.handlerInstall core (n.toNat == 2) 0] }))

/-- R307, R319, 10 R278, R279: the privileged instructions raise PRIV at U with their encoding as the information word, and `halt` below M. -/
def Obligations.Privilege : Prop :=
  ∀ (s : State) (g h l p : Bool) (a b d : Reg) (i k : BitVec 4) (z : BitVec 2) (sc : BitVec 3), NoPrefix s → Unpaired s →
    let turned := fun (o : Out) => o = .next (s.trapAt 3 s.ienc s.th.pc)
    (s.th.priv.toNat < 3 → turned (exec .halt s)) ∧
    (s.th.priv = 0 →
      (s.th.handler ≠ 0 → turned (exec .eret s)) ∧ turned (exec (.ctxLd i h a d) s) ∧
      (k.toNat ≠ 14 → turned (exec (.ctxSt k g b h a d) s)) ∧ turned (exec (.ctxReady h a d) s) ∧ turned (exec (.ctxEvict l h a d) s) ∧
      turned (exec (.ctxPark h a d) s) ∧ turned (exec (.ctxParkKill h a d) s) ∧ turned (exec (.dstop h a d) s) ∧
      (1 ≤ sc.toNat → sc.toNat ≤ 5 → turned (exec (.tlbi z sc g b h a) s)) ∧ turned (exec (.bmode g b h a d) s) ∧
      turned (exec (.slotPark h a) s) ∧ turned (exec (.slotFree h a) s) ∧ turned (exec (.trgen d) s) ∧
      (p = true ∨ l = true → turned (exec (.dmmark p l g b h a) s)))

/-- R322, R324, R325, R329, R317, 14 R333: a context instruction empties its destination and goes to the home of the line that its
address names, which passes it on to the unit that holds the line (log entry 110); there it is answered by the state of the line,
and changes the line, and no other, as its rule says. Choices and readings of the model's own on which it rests: log entries 25,
26, 110. -/
def Obligations.ContextInstructions : Prop :=
  ∀ (s : State) (g h l : Bool) (a b d : Reg) (i : BitVec 4) (y : Word) (id ctx reg no : Nat) (tag : Bool) (unit : Holder) (issuer : BitVec 2),
    (NoPrefix s → Unpaired s → s.th.priv ≠ 0 → Full s [a.toNat] → NoPend s [d] → NoFailure s →
      let x := s.th.wv a
      let asked := emptied s [d] 4
      let sent := fun (o : Out) (op : CtxOp) =>
        (x.toNat % 128 ≠ 0 → o = .next (s.trapAt 5 x s.th.pc)) ∧
        (x.toNat % 128 = 0 → regionAt x.toNat ≠ .context → o = .next (s.trapAt 7 x s.th.pc)) ∧
        (x.toNat % 128 = 0 → regionAt x.toNat = .context → ∀ line u, s.look s.hereCore s.here.ctx x.toNat .line = .ok line u →
          ((u.ctx line).priv = 3 → s.th.priv ≠ 3 → o = .next (u.trapAt 3 s.ienc s.th.pc)) ∧
          ((u.ctx line).priv ≠ 3 ∨ s.th.priv = 3 → Runs o fun q => q.th = asked ∧ (NoProfile s → Kept s q) ∧
            Sent q (.messageReturn line (.errand (.line op line s.fresh s.th.priv.toNat s.here.ctx d.toNat (asked.epoch.getLsbD d.toNat) .memory)))))
      sent (exec (.ctxLd i h a d) s) (.ld i.toNat) ∧ sent (exec (.ctxReady h a d) s) .ready ∧
      sent (exec (.ctxEvict l h a d) s) (.evict l) ∧ sent (exec (.ctxPark h a d) s) .park ∧
      sent (exec (.ctxParkKill h a d) s) .kill ∧ sent (exec (.dstop h a d) s) .stop ∧
      (i ≠ 14 → Full s [b.toNat] → sent (exec (.ctxSt i g b h a d) s) (.st i.toNat (s.th.wv b)))) ∧
    (let c := s.ctx id
     let at_ := fun (op : CtxOp) => execErrand (.line op id no issuer.toNat ctx reg tag unit) s
     let none_ := c.isFree = true ∨ c.kind = 11 ∨ c.kind = 12
     let halted := c.kind = 8 ∨ c.kind = 9
     let reserved := 13 ≤ c.kind.toNat
     let held := fun (how : Nat) => { c with heldStop := if c.heldStop.contains how then c.heldStop else c.heldStop ++ [how] }
     let byReply := c.kind = 2 ∨ c.kind = 5 ∨ c.kind = 4 ∧ c.warg.getLsbD 10 = true
     let answered := fun (q : State) (v : Word) =>
       Sent q (.registerFill ctx reg tag v false 0 (s.centry ctx).holder 0)
     let gives := fun (o : Out) (v : Word) => Runs o fun q => answered q v ∧ Kept s q ∧ q.th = s.th
     let does := fun (o : Out) (v : Word) (p : Ctx → Prop) => Runs o fun q => answered q v ∧ SameBytes s q ∧
       (∀ z ∈ s.ctxs, z.1 ≠ id → registers (q.ctx z.1) = registers (s.ctx z.1)) ∧ p (q.ctx id)
     let priv := y.extractLsb' 32 2
     let barred := i = 15 ∧ priv ≠ c.priv ∧ (issuer.toNat ≤ priv.toNat ∨ priv = 2)
     (s.cur = none → (s.centry id).moving = false → c.peer = none → NoProfile s →
       Reach s (holderDie (s.ctxHome id) unit) (holderDie (s.ctxHome ctx) (s.centry ctx).holder) →
       (HeldBy s id unit →
         gives (at_ (.ld i.toNat)) (c.word i.toNat) ∧
         (none_ → gives (at_ .ready) 4 ∧ gives (at_ (.evict l)) 4 ∧ gives (at_ .park) 4 ∧ gives (at_ .kill) 4 ∧ gives (at_ .stop) 4 ∧
           gives (at_ (.st i.toNat y)) 4) ∧
         (¬none_ →
           (halted → c.heldTraps = [] → c.heldStop = [] → does (at_ .ready) 0 fun c' => c'.kind = 0 ∧ registers c' = registers c) ∧
           (¬halted → gives (at_ .ready) 1) ∧
           (halted ∨ reserved → gives (at_ .park) 1) ∧
           (byReply → does (at_ .park) 2 fun c' => c' = held 1) ∧
           (¬halted → ¬reserved → ¬byReply → does (at_ .park) 0 fun c' => c'.kind = 8 ∧ c'.cause = 0 ∧ registers c' = registers c) ∧
           (c.kind = 9 → gives (at_ .stop) 0) ∧ (reserved → gives (at_ .stop) 1) ∧
           (c.kind = 8 ∨ byReply → does (at_ .stop) 2 fun c' => c' = held 2) ∧
           (¬halted → ¬reserved → ¬byReply → (∀ z ∈ s.dies, z.2.dlogBase = 0) →
             does (at_ .stop) 0 fun c' => c'.kind = 9 ∧ c'.cause = 0x15 ∧ registers c' = registers c) ∧
           (does (at_ .kill) 0 fun c' => c'.kind = 11 ∧ c'.pend = 0) ∧
           (s.pinned id = true ∨ c.handler ≠ 0 → gives (at_ (.evict l)) 1) ∧
           (s.pinned id = false → c.handler = 0 → (∀ k, unit ≠ .l2 k) → (∀ k, unit ≠ .shadow k) → unit ≠ .memory →
             Runs (at_ (.evict l)) fun q => answered q 0 ∧ SameBytes s q ∧ registers (q.ctx id) = registers c ∧
               ((q.centry id).transfer = some .memory ↔ l = true) ∧ (q.centry id).transfer ≠ none) ∧
           (¬halted → gives (at_ (.st i.toNat y)) 1) ∧
           (halted → barred → gives (at_ (.st i.toNat y)) 3) ∧
           (halted → ¬barred → i ≠ 14 → does (at_ (.st i.toNat y)) 0 fun c' =>
             (∀ j < 15, j ≠ i.toNat → c'.word j = c.word j) ∧
             (i.toNat < 8 ∨ 9 ≤ i.toNat ∧ i.toNat ≤ 13 → c'.word i.toNat = y) ∧
             (i = 8 → c'.pc = y.setWidth 57 &&& ~~~1) ∧
             (i = 15 → (y.extractLsb' 40 8).toNat ≤ 0x15 → y.extractLsb' 38 2 ≠ 3 →
               c'.sw = (y &&& 0x00FFFFCF03FC1FFF) ||| (c.sw &&& ~~~(0x00FFFFCF03FFFFFF : Word)))))) ∧
       -- a unit that does not hold the line returns it to the home
       ((s.centry id).holder ≠ unit → Reach s (holderDie (s.ctxHome id) unit) (s.ctxHome id) → ∀ op, Runs (at_ op) fun q =>
         q.ctxs = s.ctxs ∧ SameBytes s q ∧ Sent q (.messageReturn id (.errand (.line op id no issuer.toNat ctx reg tag unit))))))

/-- R326 to R330: invalidation of translations, bank modes, parking of slots, and halting a core. Choices and readings of the
model's own on which it rests: log entry 110. -/
def Obligations.CoreControls : Prop :=
  ∀ (s : State) (g h : Bool) (a b d : Reg) (k : BitVec 2) (sc : BitVec 3), NoPrefix s → Unpaired s → 1 ≤ s.th.priv.toNat →
    let x := s.th.wv a
    let y := s.th.wv b
    let here := s.hereCore
    let core := x.toNat % 2 ^ 13
    let slot := x.toNat / 2 ^ 16 % 16
    let dies := setDies s.mode (s.th.part / 4)
    let named := x.toNat < 2 ^ 20 ∧ x.toNat / 2 ^ 13 % 8 = 0 ∧ dies.contains (core / 1024) = true
    let parks := fun (o : Out) (v : Bool) => Runs o fun q => SameBytes s q ∧ (slot < (s.core core).slots.length →
      (nth (q.core core).slots slot {}).parked = v) ∧ registers (q.ctx s.here.ctx) = registers (passed s 4).th
    let cluster := x.toNat / 64 % 8 * 64 + x.toNat % 64
    let bank := x.toNat / 2 ^ 9 % 16
    -- another die is told by a message, and the instruction passes once its answer has come (log entry 110)
    let waits := fun (o : Out) (n : Nat) (sent : State → Prop) => Runs o fun q =>
      q.th = { s.th with stall := some 0, quest := some (s.fresh, n, 0) } ∧ SameBytes s q ∧ q.ctxs = s.ctxs ∧ sent q
    let passes := fun (o : Out) => ∀ m ∈ s.th.quest, (m.2.1 ≠ 0 → Waits s o) ∧ (m.2.1 = 0 → o = .next (passed s 4))
    (Full s [a.toNat] → named → s.cur ≠ none →
      (core / 1024 = s.hereDie → parks (exec (.slotPark h a) s) true ∧ parks (exec (.slotFree h a) s) false) ∧
      (core / 1024 ≠ s.hereDie →
        (s.th.quest = none → NoFailure s →
          waits (exec (.slotPark h a) s) 1 (fun q => Sent q (.errand (.slot core slot true s.here.ctx s.fresh))) ∧
          waits (exec (.slotFree h a) s) 1 (fun q => Sent q (.errand (.slot core slot false s.here.ctx s.fresh)))) ∧
        passes (exec (.slotPark h a) s) ∧ passes (exec (.slotFree h a) s))) ∧
    -- such a message parks the slot, or lets it issue again, and is answered
    ((s.centry s.here.ctx).holder = .core here → core / 1024 = dieOf here → slot < (s.core core).slots.length →
      ∀ v : Bool, Runs (execErrand (.slot core slot v s.here.ctx s.fresh) s) fun q => (nth (q.core core).slots slot {}).parked = v ∧
        (v = true → Sent q (.errand (.answer s.here.ctx s.fresh 0 (.core here))))) ∧
    (Full s [a.toNat, b.toNat] → 1 ≤ sc.toNat → sc.toNat ≤ 5 → (k = 1 → 1 ≤ y.toNat ∧ y.toNat ≤ 2 ^ 20) → dies.contains s.hereDie = true →
      let others := if sc.toNat < 4 then [] else dies.filter (· ≠ s.hereDie)
      let gone := fun (q : State) =>
        (∀ e ∈ (q.core here).tlb, e ∈ (s.core here).tlb ∧ ¬Invalidated s k x y.toNat e) ∧
        (∀ e ∈ (s.core here).tlb, ¬Invalidated s k x y.toNat e → e ∈ (q.core here).tlb) ∧
        (∀ e ∈ (q.cluster (clusterOf here)).tlb, ¬Invalidated s k x y.toNat e)
      (others = [] → Settled s → Runs (exec (.tlbi k sc g b h a) s) fun q =>
        q.th = (passed s 4).th ∧ SameBytes s q ∧ q.ctxs = s.ctxs ∧ gone q) ∧
      (others ≠ [] → s.th.quest = none → Settled s → NoFailure s → waits (exec (.tlbi k sc g b h a) s) others.length fun q => gone q ∧
        ∀ o ∈ others, Sent q (.errand (.invalidate o s.th.part k.toNat (x.getLsbD 56) (x.toNat % 2 ^ 56 / 12288) (if k = 1 then y.toNat else 1)
          s.here.ctx s.fresh))) ∧
      (others ≠ [] → NoFailure s → passes (exec (.tlbi k sc g b h a) s))) ∧
    (Full s [a.toNat, b.toNat] → NoPend s [d] → NoFailure s → x.toNat < 2 ^ 13 → y.toNat < 4 → dies.contains (x.toNat / 64 % 8) = true →
      let tag := (emptied s [d] 4).epoch.getLsbD d.toNat
      Runs (exec (.bmode g b h a d) s) fun q => q.th = emptied s [d] 4 ∧ Kept s q ∧
        Sent q (.errand (.bank cluster bank y.toNat s.here.ctx d.toNat tag here s.th.part))) ∧
    -- at its cluster a change of a bank is answered, or begins
    (let at_ := execErrand (.bank cluster bank (y.toNat % 4) s.here.ctx d.toNat true here s.th.part) s
     ((s.cluster cluster).drains.any fun w => w.bank == bank) = false → Reach s (cluster / 64) (holderDie (s.ctxHome s.here.ctx) (s.centry s.here.ctx).holder) →
       (∀ st ∈ s.judgeBank cluster bank s.th.part (bankModeOf (y.toNat % 4)), Runs at_ fun q =>
         Sent q (.registerFill s.here.ctx d.toNat true (BitVec.ofNat 64 st) false 0 (s.centry s.here.ctx).holder 0) ∧ Kept s q) ∧
       (s.judgeBank cluster bank s.th.part (bankModeOf (y.toNat % 4)) = none → Runs at_ fun q =>
         Kept s q ∧ .bankDrainDone cluster bank ∈ q.inbox ∧ ((q.cluster cluster).drains.any fun w => w.bank == bank) = true)) ∧
    (s.th.priv = 3 → s.drained s.here.ctx = true → Runs (exec .halt s) fun q =>
      q.th = (passed s 4).th ∧ SameBytes s q ∧ q.ctxs = s.ctxs ∧ (q.core here).halted = true)

/-- R278 to R283: generations, relaunches, the live trace state, and the dirty map. Choices and readings of the model's own on
which it rests: log entry 91. -/
def Obligations.TraceInstructions : Prop :=
  ∀ (s : State) (g h p l : Bool) (a b d : Reg) (i : Nat), NoPrefix s → Unpaired s → NoFailure s →
    let x := s.th.wv a
    let y := s.th.wv b
    let set := s.th.part / 4
    let asked := emptied s [d] 4
    let home := match get? s.blocks s.th.blk with | some k => k.cluster | none => 0
    -- the pages that a range names
    let page := fun (j : Nat) => BitVec.ofNat 64 (x.toNat + 12288 * j)
    let req := fun (repair : Bool) => Ev.relaunchAccept s.th.part x y s.here.ctx d.toNat (asked.epoch.getLsbD d.toNat) s.th.priv.toNat repair 0
    (NoPend s [d] →
      (s.th.priv ≠ 0 → Runs (exec (.trgen d) s) fun q =>
        q.th = asked ∧ SameBytes s q ∧ q.ctxs = s.ctxs ∧ (q.set set).gfull = ((s.set set).gfull + 1) % 2 ^ 32 ∧
        ((q.set set).advances.any fun v => v.waits == [(s.here.ctx, d.toNat, asked.epoch.getLsbD d.toNat)]) = true) ∧
      ((s.die (if s.th.handler = 0 then home / 64 else s.hereDie)).knows = [] → Runs (exec (.trstat d) s) fun q =>
        Answered s d (BitVec.ofNat 64 (s.traceState s.th.blk)) q ∧ Kept s q) ∧
      (Full s [a.toNat] → AtPage s x 1 .load fun pa u => Runs (exec (.dmread h a d) s) fun q =>
        let hbm := patchKind s.mode set (pa / 12288) = .hbm
        (NoProfile s → Kept s q) ∧ Answered s d (BitVec.ofNat 64 ((if hbm then u.stampOf (pa / 12288) else 512) +
          (if hbm ∧ u.lost.contains (pa / 12288) = true then 256 else 0) + 2 ^ 16 * ((u.set set).gfull % 256) +
          2 ^ 32 * (u.set set).inst)) q) ∧
      (Full s [a.toNat] → regionAt x.toNat = .mesh → exec (.dmread h a d) s = .next (s.trapAt 8 x s.th.pc)) ∧
      (Full s [a.toNat, b.toNat] →
        (x.toNat % 1024 ≠ 0 → exec (.relaunch g b h a d) s = .next (s.trapAt 5 x s.th.pc) ∧
          exec (.relaunchRepair g b h a d) s = .next (s.trapAt 5 x s.th.pc)) ∧
        (x.toNat % 1024 = 0 → y.toNat % 64 ≠ 0 → exec (.relaunch g b h a d) s = .next (s.trapAt 5 y s.th.pc) ∧
          exec (.relaunchRepair g b h a d) s = .next (s.trapAt 5 y s.th.pc)) ∧
        (x.toNat % 1024 = 0 → y.toNat % 64 = 0 → Settled s → AtPage s x 8 .load fun _ u => u.flying = [] →
          (Runs (exec (.relaunch g b h a d) s) fun q => q.th = asked ∧ SameBytes s q ∧ q.ctxs = s.ctxs ∧ Sent q (req false)) ∧
          (Runs (exec (.relaunchRepair g b h a d) s) fun q => q.th = asked ∧ SameBytes s q ∧ q.ctxs = s.ctxs ∧ Sent q (req true))))) ∧
    (Full s [a.toNat, b.toNat] → (p = true ∨ l = true → s.th.priv ≠ 0) →
      (y = 0 ∨ 65536 < y.toNat → exec (.dmmark p l g b h a) s = .next (s.trapAt 1 y s.th.pc)) ∧
      (p = true → x.toNat < 2 ^ 40 → 1 ≤ y.toNat → y.toNat ≤ 65536 → Runs (exec (.dmmark p l g b h a) s) fun q =>
        q.th = (passed s 4).th ∧ SameBytes s q ∧ q.ctxs = s.ctxs ∧
        (i < y.toNat → patchKind s.mode set (x.toNat + i) = .hbm → setOf s.mode s.hereDie = set →
          (l = true → q.lost.contains (x.toNat + i) = true) ∧
          (setOfPatch s.mode (x.toNat + i) = set → q.stampOf (x.toNat + i) = stampedBy s (64 * (x.toNat + i))))) ∧
      (p = false → s.th.marked = 0 → (∀ j < y.toNat, Hits s (page j)) → 1 ≤ y.toNat → y.toNat ≤ 65536 → regionAt x.toNat ≠ .mesh →
        Runs (exec (.dmmark p l g b h a) s) fun q => q.th = (passed s 4).th ∧ SameBytes s q ∧ q.ctxs = s.ctxs ∧
          (i < y.toNat → l = true → AtPage s (page i) 1 .load fun pa _ =>
            patchKind s.mode set (pa / 12288) = .hbm → q.lost.contains (pa / 12288) = true)) ∧
      (p = false → y = 1 → s.th.marked = 0 → AtPage s x 1 .load fun pa _ => Runs (exec (.dmmark p l g b h a) s) fun q =>
        q.th = (passed s 4).th ∧ SameBytes s q ∧ q.ctxs = s.ctxs ∧
        (l = true → patchKind s.mode set (pa / 12288) = .hbm → q.lost.contains (pa / 12288) = true)))

/-- R42, R43, R53, R205, R208: fills and wakeups where a line is held, deadlines, and semaphores at their owner. Choices and
readings of the model's own on which it rests: log entries 41, 76, 110. -/
def Obligations.WaitEvents : Prop :=
  ∀ (s : State) (ctx reg kind wake scope loc : Nat) (tag acq poison : Bool) (v info : Word) (arg : BitVec 60)
    (unit : Holder) (tx : Option Nat), NoReplay s →
    let x := s.ctx ctx
    let owner := loc / 65536
    let home := holderDie (s.ctxHome ctx) (s.centry ctx).holder
    let there := loc < 2 ^ 29
    let word := readNat s.cstore loc 8
    let stands := HeldBy s ctx unit ∧ x.kind ≠ 12
    let waiting := fun (q : State) (k : Nat) => ((q.core owner).waiters.any fun w => w.ctx == ctx && w.kind == k && w.loc == loc && !w.dead) = true
    -- a fill is taken if it is outstanding, of the current epoch, and its register has not been written since (R42)
    let taken := x.pend.getLsbD reg = true ∧ x.epoch.getLsbD reg = tag ∧ x.void.getLsbD reg = false
    let dropped := { x with pend := x.pend &&& ~~~(1#8 <<< reg), void := x.void &&& ~~~(1#8 <<< reg) }
    let filled := if x.pend.getLsbD reg = true ∧ x.epoch.getLsbD reg = tag ∧ x.void.getLsbD reg = false then
        { dropped with w := x.w.setIfInBounds reg v, few := x.few ||| (1#8 <<< reg) } else dropped
    -- fills: a context that waits for no register (or for another), the one that kind 1 waits for, and the reply that ends a wait
    (stands → poison = false → wake ≠ 16 → x.pair = 0 →
      (reg < 8 → x.kind ≠ 1 → wake = 0 ∨ x.kind.toNat ≠ wake ∧ x.peer = none →
        Runs (exec (.registerFill ctx reg tag v poison info unit wake) s) fun q =>
          SameBytes s q ∧ OthersKept s q ctx ∧ q.ctx ctx = (if taken then { dropped with w := x.w.setIfInBounds reg v, few := x.few ||| (1#8 <<< reg) } else dropped)) ∧
      (reg < 8 → x.kind = 1 → wake = 0 → Plain x →
        (if (if x.warg.getLsbD 4 then x.warg.toNat % 16 = reg else filled.full (x.warg.toNat % 16) = true) then
          Runs (exec (.registerFill ctx reg tag v poison info unit wake) s) fun q =>
            SameBytes s q ∧ OthersKept s q ctx ∧ (q.ctx ctx).kind = 0 ∧ registers (q.ctx ctx) = registers filled ∧
            (q.ctx ctx).few = filled.few ∧ (q.ctx ctx).pend = filled.pend
        else Runs (exec (.registerFill ctx reg tag v poison info unit wake) s) fun q =>
            SameBytes s q ∧ OthersKept s q ctx ∧ q.ctx ctx = filled)) ∧
      (reg < 8 → wake ≠ 0 → wake ≠ 1 → x.kind.toNat = wake → Plain x → Runs (exec (.registerFill ctx reg tag v poison info unit wake) s) fun q =>
        SameBytes s q ∧ OthersKept s q ctx ∧ (q.ctx ctx).kind = 0 ∧ registers (q.ctx ctx) = registers filled ∧
        (q.ctx ctx).few = filled.few ∧ (q.ctx ctx).pend = filled.pend) ∧
      (8 ≤ reg → reg < 12 → wake = 0 → x.kind ≠ 1 → Runs (exec (.registerFill ctx reg tag v poison info unit wake) s) fun q =>
        SameBytes s q ∧ OthersKept s q ctx ∧ (q.ctx ctx).w = x.w ∧
        (if x.epend.getLsbD (reg - 8) then (q.ctx ctx).ev (reg - 8) = v ∧ (q.ctx ctx).full reg = true else q.ctx ctx = x))) ∧
    (stands → poison = true → wake ≠ 16 → reg < 8 → Runs (exec (.registerFill ctx reg tag v poison info unit wake) s) fun q =>
      SameBytes s q ∧ (x.epoch.getLsbD reg ≠ tag → wake ≠ 17 → x.kind ≠ 1 → q.ctx ctx = dropped)) ∧
    -- what reaches a context that was lost is discarded; what reaches a unit that no longer holds the line goes back to the home
    (x.kind = 12 → wake ≠ 16 → exec (.registerFill ctx reg tag v poison info unit wake) s = .next s ∧
      exec (.wakeupApply ctx kind arg acq unit) s = .next s) ∧
    (¬HeldBy s ctx unit → x.kind ≠ 12 → wake ≠ 16 → Reach s (holderDie (s.ctxHome ctx) unit) (s.ctxHome ctx) →
      Runs (exec (.registerFill ctx reg tag v poison info unit wake) s) fun q =>
        Kept s q ∧ Sent q (.messageReturn ctx (.registerFill ctx reg tag v poison info unit wake))) ∧
    -- wakeups
    (stands → arg.getLsbD 30 = false →
      (x.kind.toNat ≠ kind → kind ≠ 3 ∨ x.kind ≠ 0 ∨ x.quest = none → exec (.wakeupApply ctx kind arg acq unit) s = .next s) ∧
      (x.kind.toNat = kind → arg.getLsbD 31 = false → Plain x → x.resend = none →
        Runs (exec (.wakeupApply ctx kind arg acq unit) s) fun q => SameBytes s q ∧ OthersKept s q ctx ∧ (q.ctx ctx).kind = 0 ∧
          registers (q.ctx ctx) = registers x ∧ (q.ctx ctx).inval = (x.inval || acq))) ∧
    -- a counter's wakeup overtakes the answer that says to wait for it
    (∀ a ∈ x.quest, stands → arg.getLsbD 30 = false → kind = 3 → x.kind = 0 → Runs (exec (.wakeupApply ctx kind arg acq unit) s) fun q =>
      SameBytes s q ∧ OthersKept s q ctx ∧ registers (q.ctx ctx) = registers x ∧ (q.ctx ctx).kind = 0 ∧
      (q.ctx ctx).quest = some (a.1, a.2.1, if a.2.1 = 0 then a.2.2 else 1)) ∧
    -- the answer that the request is queued, or must be sent again in 1 us
    (stands → arg.getLsbD 30 = true → x.kind.toNat = kind → Runs (exec (.wakeupApply ctx kind arg acq unit) s) fun q =>
      SameBytes s q ∧ OthersKept s q ctx ∧ registers (q.ctx ctx) = registers x ∧ (q.ctx ctx).kind = x.kind ∧
      (q.ctx ctx).warg = arg &&& 0x3FFFFFFF ∧ (arg.getLsbD 29 = true → .semPResend ctx ∈ q.inbox ∧ (q.ctx ctx).pollAt = s.gtime + 4000)) ∧
    (x.kind ≠ 6 → x.peer = none → exec (.timeDeadline ctx) s = .next s) ∧
    (x.kind = 6 → Plain x → Runs (exec (.timeDeadline ctx) s) fun q => SameBytes s q ∧ OthersKept s q ctx ∧ (q.ctx ctx).kind = 0 ∧
      registers (q.ctx ctx) = registers x) ∧
    -- semaphores
    (there → (s.nextWaiter loc (s.core owner).waiters).1 = none → Runs (exec (.semVExecute loc ctx scope tx) s) fun q =>
      q.mem = s.mem ∧ Wrote s q loc 8 (min (word + 1) (2 ^ 64 - 1))) ∧
    (there → (∀ w ∈ (s.nextWaiter loc (s.core owner).waiters).1,
      Reach s (owner / 1024) (holderDie (s.ctxHome w.ctx) (s.centry w.ctx).holder) → Runs (exec (.semVExecute loc ctx scope tx) s) fun q =>
        SameBytes s q ∧ Sent q (Wakeup s w.ctx 2 0 (2 ≤ w.scope)) ∧ (q.core owner).waiters.length < (s.core owner).waiters.length)) ∧
    (there → Reach s (owner / 1024) home →
      (word ≠ 0 → Runs (exec (.semPExecute loc ctx scope tx) s) fun q =>
        q.mem = s.mem ∧ Wrote s q loc 8 (word - 1) ∧ Sent q (Wakeup s ctx 2 0 (2 ≤ scope))) ∧
      -- the entry of a context that has ended meanwhile is not one that a sem.v grants
      (word = 0 → x.kind ≠ 2 → Runs (exec (.semPExecute loc ctx scope tx) s) fun q => SameBytes s q ∧ (waiting q 2 → waiting s 2)) ∧
      (word = 0 → x.kind = 2 → (s.core owner).waiters.length < 256 → Runs (exec (.semPExecute loc ctx scope tx) s) fun q =>
        SameBytes s q ∧ waiting q 2 ∧ Sent q (Wakeup s ctx 2 (2 ^ 31 * scope + 2 ^ 30 + loc) false)) ∧
      (word = 0 → x.kind = 2 → 256 ≤ (s.core owner).waiters.length → waiting s 2 ∨ Runs (exec (.semPExecute loc ctx scope tx) s) fun q =>
        SameBytes s q ∧ Sent q (Wakeup s ctx 2 (2 ^ 31 * scope + 2 ^ 30 + 2 ^ 29 + loc) false))) ∧
    (x.resend = none ∨ x.kind ≠ 2 → exec (.semPResend ctx) s = .next s) ∧
    (∀ sc ∈ x.resend, x.kind = 2 → Reach s home (x.warg.toNat % 2 ^ 29 / 65536 / 1024) → Runs (exec (.semPResend ctx) s) fun q =>
      SameBytes s q ∧ Sent q (.semPExecute (x.warg.toNat % 2 ^ 29) ctx sc none) ∧ (q.ctx ctx).resend = none)

/-- R54, R55, R209, R210, R213, R219: join counters, chunk counters, sends by key and watches, where they are served. Choices and
readings of the model's own on which it rests: log entry 110. -/
def Obligations.CounterEvents : Prop :=
  ∀ (s : State) (ctx reg loc n p m c cluster core a id thr unit ver : Nat) (tag fp inCore poll : Bool) (v : Word) (tx : Option Nat) (f : BitVec 32)
    (h : Holder), NoReplay s →
    let x := s.ctx ctx
    let owner := loc / 65536
    let home := holderDie (s.ctxHome ctx) (s.centry ctx).holder
    let there := loc < 2 ^ 29
    let word := readNat s.cstore loc 8
    let waiting := fun (q : State) (k : Nat) => ((q.core owner).waiters.any fun w => w.ctx == ctx && w.kind == k && w.loc == loc && !w.dead) = true
    let stands := HeldBy s ctx h ∧ x.kind ≠ 12
    let unit_ := (s.centry ctx).holder
    let fault := readNat s.cstore (loc + 16) 8
    let met := sgn false (BitVec.ofNat 64 word) ≤ (thr : Int)
    let hasRoom := (s.core owner).waiters.length < 256
    let asks := fun i : Nat => (x.quest.any fun y => y.1 == i) = true
    let mine := fun w : Waiter => w.kind == 5 && w.ctx == ctx && w.dead == false
    -- join counters
    (there → Clean s (storePlace + loc) 24 → Runs (exec (.jcUpdate loc v n ctx tx) s) fun q =>
      q.mem = s.mem ∧ readNat q.cstore loc 8 = (word + v.toNat) % 2 ^ 64 ∧
      readNat q.cstore (loc + 16) 8 = (if n ≠ 0 ∧ readNat s.cstore (loc + 16) 8 = 0 then n % 2 ^ 64 else readNat s.cstore (loc + 16) 8) ∧
      (a < loc ∨ loc + 24 ≤ a → readByte q.cstore a = readByte s.cstore a)) ∧
    (x.kind ≠ 3 → exec (.jcWaitRepoll ctx) s = .next s) ∧
    (x.kind = 3 → Reach s home (x.warg.toNat % 2 ^ 29 / 65536 / 1024) → Runs (exec (.jcWaitRepoll ctx) s) fun q =>
      SameBytes s q ∧ Sent q (.errand (.join (x.warg.toNat % 2 ^ 29) (x.warg.toNat / 2 ^ 29 % 2 ^ 31) ctx 0 false))) ∧
    -- the test of a jc.wait at the counter's core: a fault word, a count at or below the threshold, or a place in the waiter list
    (there → Reach s (owner / 1024) home →
      (fault ≠ 0 ∨ met → Runs (execErrand (.join loc thr ctx id true) s) fun q =>
        SameBytes s q ∧ q.ctxs = s.ctxs ∧ Sent q (.errand (.answer ctx id fault unit_))) ∧
      (fault = 0 → ¬met → asks id → Runs (execErrand (.join loc thr ctx id true) s) fun q => SameBytes s q ∧ q.ctxs = s.ctxs ∧
        (if hasRoom then waiting q 3 ∧ Sent q (.errand (.waits ctx id loc thr false unit_))
         else waiting s 3 ∨ Sent q (.errand (.waits ctx id loc thr true unit_)))) ∧
      (met → Runs (execErrand (.join loc thr ctx id false) s) fun q => SameBytes s q ∧ Sent q (Wakeup s ctx 3 (2 ^ 31 + loc) false)) ∧
      (¬met → x.kind = 3 → Runs (execErrand (.join loc thr ctx id false) s) fun q => SameBytes s q ∧ q.ctxs = s.ctxs ∧
        (if hasRoom then waiting q 3 else waiting s 3 ∨ Sent q (.errand (.waits ctx id loc thr true unit_))))) ∧
    -- its answers, at the unit that holds the context
    (stands →
      (asks id → Runs (execErrand (.answer ctx id n h) s) fun q => SameBytes s q ∧ OthersKept s q ctx ∧
        q.ctx ctx = { x with quest := x.quest.map fun y => (y.1, y.2.1 - 1, n) }) ∧
      (¬asks id → Runs (execErrand (.answer ctx id n h) s) fun q => SameBytes s q ∧ OthersKept s q ctx ∧ q.ctx ctx = x) ∧
      (∀ y ∈ x.quest, y.1 = id →
        (y.2.2 = 1 → Runs (execErrand (.waits ctx id loc thr poll h) s) fun q =>
          SameBytes s q ∧ OthersKept s q ctx ∧ q.ctx ctx = { x with quest := none }) ∧
        (y.2.2 ≠ 1 → Runs (execErrand (.waits ctx id loc thr poll h) s) fun q =>
          SameBytes s q ∧ OthersKept s q ctx ∧ registers (q.ctx ctx) = registers x ∧ (q.ctx ctx).kind = 3 ∧ (q.ctx ctx).quest = none ∧
          (q.ctx ctx).warg = BitVec.ofNat 60 (thr * 2 ^ 29 + loc) ∧
          (poll = true → .jcWaitRepoll ctx ∈ q.inbox ∧ (q.ctx ctx).pollAt = s.gtime + 4000)))) ∧
    -- chunk counters and sends by key
    (c < (s.cluster cluster).chunks.length →
      (Runs (exec (.chunkInitRequest cluster c n p m core) s) fun q => SameBytes s q ∧ q.ctxs = s.ctxs ∧
        (q.cluster cluster).chunks[c]? = some { total := n, remaining := n, parts := p, least := m }) ∧
      (∀ k ∈ (s.cluster cluster).chunks[c]?, Reach s (cluster / 64) home → 0 < k.parts →
        let took := min (max k.least ((k.remaining + 4 * k.parts - 1) / (4 * k.parts))) k.remaining
        Runs (exec (.chunkRequest cluster c ctx reg tag core) s) fun q => SameBytes s q ∧ q.ctxs = s.ctxs ∧
          (q.cluster cluster).chunks[c]? = some { k with remaining := k.remaining - took } ∧
          Sent q (Fill s ctx reg tag (BitVec.ofNat 64 (took * 2 ^ 32 + (k.total - k.remaining))) 0))) ∧
    (there → Runs (exec (.ksendAccumulate loc fp f ctx tx) s) fun q => q.mem = s.mem ∧ q.ctxs = s.ctxs ∧ Wrote s q loc 4
      (if fp then fp32.round 0 false false 0 (fAdd false (fp32.value (readNat s.cstore loc 4)) (fp32.value f.toNat))
       else (readNat s.cstore loc 4 + f.toNat) % 2 ^ 32)) ∧
    -- watches
    (x.kind ≠ 5 → exec (.watchArm inCore loc v ctx reg tag n ⟨unit, ver⟩) s = .next s) ∧
    (let home_ := if inCore then owner / 1024 else s.homeDie (setOf s.mode unit) loc
     let stale := inCore = false ∧ ver ≠ 0 ∧ home_ + 1 ≠ ver / 16
     let now := readNat (if inCore then s.cstore else s.mem) loc 8
     let full := if inCore then 256 ≤ (s.core owner).waiters.length else 16384 ≤ (s.die home_).watches.length
     x.kind = 5 → (inCore = true → there) →
      (stale → Reach s (ver / 16 - 1) unit → Runs (exec (.watchArm inCore loc v ctx reg tag n ⟨unit, ver⟩) s) fun q =>
        SameBytes s q ∧ q.ctxs = s.ctxs ∧ Sent q (.homeNackRetry (.watchArm inCore loc v ctx reg tag n ⟨unit, ver⟩))) ∧
      (¬stale → Reach s home_ home →
        (now ≠ v.toNat → Runs (exec (.watchArm inCore loc v ctx reg tag n ⟨unit, ver⟩) s) fun q =>
          SameBytes s q ∧ q.ctxs = s.ctxs ∧ Sent q (Fill s ctx reg tag 2 5)) ∧
        (now = v.toNat → full → (inCore = true ∧ waiting s 5) ∨ Runs (exec (.watchArm inCore loc v ctx reg tag n ⟨unit, ver⟩) s) fun q =>
          SameBytes s q ∧ q.ctxs = s.ctxs ∧ Sent q (Fill s ctx reg tag 3 5)) ∧
        (now = v.toNat → ¬full → Runs (exec (.watchArm inCore loc v ctx reg tag n ⟨unit, ver⟩) s) fun q =>
          SameBytes s q ∧ q.ctxs = s.ctxs ∧ ((if inCore then (q.core owner).waiters else (q.die home_).watches).any fun w =>
            w.ctx == ctx && w.kind == 5 && w.loc == loc && w.reg == reg && w.tag == tag && !w.dead) = true))) ∧
    (Runs (exec (.watchCancel ctx) s) fun q => SameBytes s q ∧ q.ctxs = s.ctxs ∧ q.inbox = s.inbox ∧
      ((q.core core).waiters.any fun w => w.kind == 5 && w.ctx == ctx && w.dead) = false ∧
      ((q.die cluster).watches.any fun w => w.kind == 5 && w.ctx == ctx && w.dead) = false) ∧
    -- its limit has passed: at a core's store controller, or at a home
    (∀ w ∈ (s.core core).waiters.find? mine, (s.cores.all fun k => k.1 == core || !k.2.waiters.any mine) = true →
      Reach s (core / 1024) home →
      Runs (exec (.watchTimeout ctx) s) fun q => SameBytes s q ∧ q.ctxs = s.ctxs ∧ Sent q (Fill s ctx w.reg w.tag 1 5) ∧
        (q.core core).waiters.any mine = false) ∧
    (∀ w ∈ (s.die cluster).watches.find? mine, (s.cores.all fun k => !k.2.waiters.any mine) = true →
      (s.dies.all fun k => k.1 == cluster || !k.2.watches.any mine) = true → Reach s cluster home →
      Runs (exec (.watchTimeout ctx) s) fun q => SameBytes s q ∧ q.ctxs = s.ctxs ∧ Sent q (Fill s ctx w.reg w.tag 1 5) ∧
        (q.die cluster).watches.any mine = false)

/-- R94, R102, R103, R106, R107, R200 to R202, R366, R369, R380, R381, R436: accesses at their perform points, and the
directories' rows: which bytes a store, an atomic or a nibble update changes, what a load answers, and how a line changes hands.
Choices and readings of the model's own on which it rests: log entries 29, 35, 36, 82. -/
def Obligations.MemoryEvents : Prop :=
  ∀ (s : State) (r : Req) (op : AtomOp) (posted inCore keep : Bool) (cmp : Word) (line cluster die n m unit loc ver : Nat), NoReplay s →
    let own := dieOf r.core
    let k := clusterOf r.core
    let e := s.line (r.addr / 192)
    let l := s.line line
    let home := s.homeDie (setOf s.mode own) r.addr
    let draining := s.bankDraining k (r.addr / 192) = true
    let stale := r.ver ≠ 0 ∧ home + 1 ≠ r.ver / 16
    let holds := fun (e : DirEntry) (d : Nat) => e.dies.getLsbD d = true ∨ e.owner = some d
    let owner := r.addr / 65536
    let there := r.addr < 2 ^ 29
    let here := if inCore then s.cstore else s.mem
    let old := readNat here r.addr r.size
    let nib := fun (hi : Bool) (b : Nat) => if hi then b % 16 + 16 * (r.data % 16) else b / 16 * 16 + r.data % 16
    -- a cluster cache of the die holds the sectors that the read names, and no poisoned copy of its bytes
    let served := e.serves own (sectorMask r) = true
    let sole := e.st = .e ∧ e.dies = 1#8 <<< own
    let mine := e.st = .m ∧ e.owner = some own ∧ own ∉ e.await
    let fresh := e.gen = s.unitGen (setOf s.mode own) (64 + k)
    let moved := ver ≠ 0 ∧ s.homeDie (setOf s.mode (cluster / 64)) (192 * line) + 1 ≠ ver / 16
    let plain := r.size = 1 ∨ r.size = 2 ∨ r.size = 4 ∨ r.size = 8
    -- loads
    (r.kind = .load → plain → r.reg < 12 → Sound s r.ctx r.addr r.size →
      (r.ver = 0 → ¬draining → served → s.copyPoisoned own r = false → Runs (exec (.homeReadRequest r) s) fun q =>
        SameBytes s q ∧ Sent q (Reply r (readNat s.mem r.addr r.size))) ∧
      (r.ver = 0 → ¬draining → ¬served → Reach s own home → Runs (exec (.homeReadRequest r) s) fun q =>
        SameBytes s q ∧ q.ctxs = s.ctxs ∧ Sent q (.homeReadRequest r)) ∧
      (r.ver ≠ 0 → ¬stale → Reach s home own → Runs (exec (.homeReadRequest r) s) fun q =>
        SameBytes s q ∧ Sent q (Reply r (readNat s.mem r.addr r.size)) ∧ holds (q.line (r.addr / 192)) own)) ∧
    (r.ver ≠ 0 → stale → Reach s (r.ver / 16 - 1) own → Runs (exec (.homeReadRequest r) s) fun q =>
      SameBytes s q ∧ q.ctxs = s.ctxs ∧ Sent q (.homeNackRetry (.homeReadRequest r))) ∧
    (draining → r.ver = 0 → exec (.homeReadRequest r) s = .next { s with inbox := .bankNackRetry (.homeReadRequest r) :: s.inbox }) ∧
    -- stores
    (draining → exec (.storeVisible r) s = .next { s with inbox := .bankNackRetry (.storeVisible r) :: s.inbox }) ∧
    (¬draining → mine → r.addr / 12288 < 2 ^ 26 → fresh → Sound s r.ctx r.addr r.size → Runs (exec (.storeVisible r) s) fun q =>
        q.cstore = s.cstore ∧ q.ctxs = s.ctxs ∧ Stored s.mem q.mem r.addr r.data r.size) ∧
    -- an owned line passes between the clusters of a die without the home; one held in E, or stamped by an older generation, asks it for
    -- a stamp; any other asks it for ownership
    (¬draining → sole ∨ mine ∧ r.addr / 12288 < 2 ^ 26 ∧ ¬fresh → Reach s own home → Runs (exec (.storeVisible r) s) fun q =>
      SameBytes s q ∧ q.ctxs = s.ctxs ∧ .storeVisible r ∈ q.inbox ∧ (q.line (r.addr / 192)).cluster = some k ∧
      Sent q (.restampRequest (setOf s.mode own) (r.addr / 192) ⟨k, s.verAt own home⟩)) ∧
    (¬draining → e.st ≠ .lost → ¬mine → ¬sole → Reach s own home → Runs (exec (.storeVisible r) s) fun q =>
      SameBytes s q ∧ q.ctxs = s.ctxs ∧ .storeVisible r ∈ q.inbox ∧ (q.line (r.addr / 192)).req = some k ∧
      Sent q (.ownershipRequest (r.addr / 192) ⟨k, s.verAt own home⟩)) ∧
    (there → r.kind = .store → Runs (exec (.coreStoreAccess r) s) fun q =>
      q.mem = s.mem ∧ q.ctxs = s.ctxs ∧ Wrote s q r.addr r.size r.data) ∧
    (there → r.kind = .storeTs → Reach s (owner / 1024) own → Runs (exec (.coreStoreAccess r) s) fun q =>
      q.mem = s.mem ∧ q.ctxs = s.ctxs ∧ Wrote s q r.addr r.size r.data ∧
      Sent q (.registerFill r.ctx r.reg r.tag 0 false r.info (.core r.core) 16)) ∧
    (there → r.kind = .load → plain → r.reg < 12 → Clean s (storePlace + r.addr) r.size → Reach s (owner / 1024) own →
      Runs (exec (.coreStoreAccess r) s) fun q => SameBytes s q ∧ Sent q (Reply r (readNat s.cstore r.addr r.size))) ∧
    (there → ∀ hi, r.kind = .nibStore hi → Runs (exec (.coreStoreAccess r) s) fun q =>
      q.mem = s.mem ∧ q.ctxs = s.ctxs ∧ Wrote s q r.addr 1 (nib hi (readNat s.cstore r.addr 1))) ∧
    (¬stale → Sound s r.ctx r.addr 1 → ∀ hi, r.kind = .nibStore hi → Runs (exec (.nibbleStoreExecute r) s) fun q =>
      q.cstore = s.cstore ∧ q.ctxs = s.ctxs ∧ Stored s.mem q.mem r.addr (nib hi (readNat s.mem r.addr 1)) 1) ∧
    -- atomics
    (r.kind = .store → (inCore = true → there ∧ Clean s (storePlace + r.addr) r.size) → (inCore = false → ¬stale ∧ Sound s r.ctx r.addr r.size) →
      r.size = 4 ∨ r.size = 8 → r.data < 2 ^ (8 * r.size) → r.signed = false → r.reg < 12 →
      Reach s (if inCore then owner / 1024 else home) own → Runs (exec (.atomicExecute op posted inCore cmp r) s) fun q =>
        (posted = false → Sent q (Reply r old)) ∧ (if inCore then q.mem else q.cstore) = (if inCore then s.mem else s.cstore) ∧
        Updated here (if inCore then q.cstore else q.mem) r.addr r.size (atomicValue op r.size old cmp.toNat r.data)) ∧
    -- retries and held releases
    (exec (.bankNackRetry (.storeVisible r)) s = .next { s with inbox := .storeVisible r :: s.inbox }) ∧
    (Reach s own home → Runs (exec (.homeNackRetry (.homeReadRequest r)) s) fun q =>
      SameBytes s q ∧ q.ctxs = s.ctxs ∧ Sent q (.homeReadRequest { r with ver := 0 })) ∧
    (s.held[n]? = none → exec (.heldReleaseSend n) s = .next s) ∧
    (∀ h ∈ s.held[n]?, Reach s (dieOf h.core) (s.route h.ev).1 →
      Runs (exec (.heldReleaseSend n) s) fun q => SameBytes s q ∧ q.ctxs = s.ctxs ∧ q.held = s.held.eraseIdx n ∧
        Sent q (withTx (withVer h.ev 0) none)) ∧
    ((s.parts.any fun p => p.2.rplHeld.any fun x => x.1 == unit && x.2.1 == loc) = false → exec (.replayDivergence unit loc) s = .next s) ∧
    -- directories: a home that is the line's no longer refuses
    (moved → Reach s (ver / 16 - 1) (cluster / 64) →
      (Runs (exec (.ownershipRequest line ⟨cluster, ver⟩) s) fun q => SameBytes s q ∧ q.ctxs = s.ctxs ∧ q.dir = s.dir ∧
        Sent q (.homeNackRetry (.ownershipRequest line ⟨cluster, ver⟩))) ∧
      (n = setOf s.mode (cluster / 64) → Runs (exec (.restampRequest n line ⟨cluster, ver⟩) s) fun q =>
        SameBytes s q ∧ q.ctxs = s.ctxs ∧ q.dir = s.dir ∧ Sent q (.homeNackRetry (.restampRequest n line ⟨cluster, ver⟩)))) ∧
    (¬moved → l.st = .lost → Runs (exec (.ownershipRequest line ⟨cluster, ver⟩) s) fun q =>
      SameBytes s q ∧ q.ctxs = s.ctxs ∧ q.line line = { l with req := none }) ∧
    (¬moved → l.st ≠ .lost → (∀ d < 8, d ≠ cluster / 64 → ¬holds l d) → Reach s (s.homeDie (setOf s.mode (cluster / 64)) (192 * line)) (cluster / 64) →
      Runs (exec (.ownershipRequest line ⟨cluster, ver⟩) s) fun q => SameBytes s q ∧ q.ctxs = s.ctxs ∧ Sent q (.ownershipGrant line cluster)) ∧
    (¬moved → l.st ≠ .lost → n < 8 → n ≠ cluster / 64 → holds l n → Reach s (s.homeDie (setOf s.mode (cluster / 64)) (192 * line)) n →
      Runs (exec (.ownershipRequest line ⟨cluster, ver⟩) s) fun q => SameBytes s q ∧ q.ctxs = s.ctxs ∧
        n ∈ (q.line line).await ∧ Sent q (.dieRecall line n false)) ∧
    -- a grant: the line is the cluster's, with the dirty sectors of a die that owned it; its patch is stamped, and its watches wake
    (l.st ≠ .lost → Runs (exec (.ownershipGrant line cluster) s) fun q => SameBytes s q ∧ q.ctxs = s.ctxs ∧
      (q.line line).st = .m ∧ (q.line line).owner = some (cluster / 64) ∧ (q.line line).cluster = some cluster ∧ (q.line line).req = none ∧
      (q.line line).dirty = (if l.owner = some (cluster / 64) then l.dirty else 0) ∧
      (line / 64 < 2 ^ 26 → q.stampOf (line / 64) = stampedBy s line) ∧
      (8 ≤ n → n < 21 → ∀ w ∈ (s.die n).watches, w.loc / 192 = line → w ∉ (q.die n).watches ∧
        (w.dead = false → Reach s n (holderDie (s.ctxHome w.ctx) (s.centry w.ctx).holder) → Sent q (Fill s w.ctx w.reg w.tag 0 5)))) ∧
    (l.st = .lost → Runs (exec (.ownershipGrant line cluster) s) fun q =>
      SameBytes s q ∧ q.ctxs = s.ctxs ∧ q.line line = { l with req := none }) ∧
    -- a recall: the die's caches give the line up, or the ownership alone, and its dirty sectors go to the home, which then counts them
    (die < 8 → Reach s die (s.homeDie (setOf s.mode die) (192 * line)) → Runs (exec (.dieRecall line die keep) s) fun q =>
      SameBytes s q ∧ q.ctxs = s.ctxs ∧ (q.line line).sharers = (if keep then l.sharers else l.sharers.filter fun c => c / 64 != die) ∧
      (l.owner = some die → (q.line line).cluster = none) ∧
      Sent q (.writeBackArrival line die (if l.owner = some die ∧ (l.st = .m ∨ l.st = .o) then l.dirty.toNat else 0))) ∧
    (m < 16 → Runs (exec (.writeBackArrival line die m) s) fun q => SameBytes s q ∧ q.ctxs = s.ctxs ∧ die ∉ (q.line line).await ∧
      (q.line line).owner ≠ some die ∧ (l.st = .lost → (q.line line).st = .lost) ∧
      (die < 8 → (q.line line).dies = (if l.sharers.any fun c => c / 64 == die then l.dies ||| (1#8 <<< die) else l.dies &&& ~~~(1#8 <<< die))) ∧
      (∀ c ∈ l.req, l.await = [die] → l.st = .s → Reach s (s.homeDie (setOf s.mode (c / 64)) (192 * line)) (c / 64) →
        Sent q (.ownershipGrant line c))) ∧
    -- a write-back that no recall asked for: a die none of whose clusters owns the line gives its ownership up
    (16 ≤ m → m < 32 → Runs (exec (.writeBackArrival line die m) s) fun q => SameBytes s q ∧ q.ctxs = s.ctxs ∧
      (q.line line).await = l.await ∧ (l.owner = some die → l.cluster = none → (q.line line).owner = none) ∧
      (l.owner ≠ some die ∨ l.cluster ≠ none → q.line line = l)) ∧
    -- a stamp, with which a die that held the line in E owns it
    (n = setOf s.mode (cluster / 64) → ¬moved → Runs (exec (.restampRequest n line ⟨cluster, ver⟩) s) fun q =>
      SameBytes s q ∧ q.ctxs = s.ctxs ∧ (q.line line).req = none ∧
      (if l.st = .e ∧ l.dies = 1#8 <<< (cluster / 64) then (q.line line).st = .m ∧ (q.line line).cluster = some cluster else (q.line line).st = l.st) ∧
      (line / 64 < 2 ^ 26 → q.stampOf (line / 64) = stampedBy s line))

/-- R116, R215 to R217, R376: token rounds, and hardware barriers as they complete, end and abort. Choices and readings of the
model's own on which it rests: log entries 34, 39, 63, 85, 95. -/
def Obligations.BarrierEvents : Prop :=
  ∀ (s : State) (core n die link round ctx : Nat) (column : Bool) (mask : Word),
    let b := s.bar core n
    let x := s.ctx ctx
    let d := s.die die
    let real := n < (s.core core).bars.length ∧ core < 8192
    let open_ := d.roundsOpen.any fun v => v.1 == link
    -- an abort is on its way to a core's register, or has reached it
    let coming := fun (q : State) (k : Nat) => (q.inbox.any fun e => match e with | .barrierAbort c m _ => c == k && m == n | _ => false) = true
    let gone := fun (k : Nat) => (s.bar k n).aborted ≠ none ∨ coming s k
    let sender := coreAt (dieOf core) (if column then xOf core else xOf core - 1) (if column then yOf core - 1 else yOf core)
    (d.tokens = [] → (d.fwd.filter fun v => v.1 == link) = [] → ∀ p ∈ linkPeer die link, Reach s die p →
      Runs (exec (.fenceTokenArrival die link round) s) fun q =>
        SameBytes s q ∧ q.ctxs = s.ctxs ∧ q.cores = s.cores ∧ Sent q (.fenceEchoArrival p (linkTo p die) round)) ∧
    (d.roundsOpen.contains (link, round) = false → exec (.fenceEchoArrival die link round) s = .next s) ∧
    (d.roundsOpen.contains (link, round) = true → (s.link die link).posted = false → exec (.fenceEchoArrival die link round) s =
      .next (s.modDie die fun d => { d with roundsOpen := d.roundsOpen.filter (· != (link, round)) })) ∧
    ((s.link die link).posted = false ∨ open_ = true → exec (.postedTokenRound die link) s = .next s) ∧
    ((s.link die link).posted = true → open_ = false → (linkPeer die link).isSome = true → Runs (exec (.postedTokenRound die link) s) fun q =>
      SameBytes s q ∧ q.ctxs = s.ctxs ∧ q.cores = s.cores ∧ ((q.die die).roundsOpen.any fun v => v.1 == link) = true ∧
      (q.link die link).posted = false) ∧
    (b.aborted ≠ none ∧ gone sender → exec (.barrierSignal core n column) s = .next s) ∧
    (real → b.aborted = none ∨ ¬gone sender → Runs (exec (.barrierSignal core n column) s) fun q => SameBytes s q ∧ q.ctxs = s.ctxs ∧
      (if column then (q.bar core n).colIn else (q.bar core n).rowIn) = true ∧ (q.bar core n).gen = b.gen ∧
      (q.bar core n).arrived = b.arrived) ∧
    (real → b.cfg = true → b.aborted = none → Runs (exec (.barrierRelease core n) s) fun q => SameBytes s q ∧
      (q.bar core n).gen = b.gen + 1 ∧ (q.bar core n).arrived = (b.late.take b.count).length ∧
      (q.bar core n).late = b.late.drop b.count ∧
      (b.x0 < xOf core → .barrierRelease (coreAt (dieOf core) (xOf core - 1) (yOf core)) n ∈ q.inbox) ∧
      ((s.barWaiters core n).contains ctx = true → x.warg.getLsbD 10 = false → Plain x → (q.ctx ctx).kind = 0 ∧
        registers (q.ctx ctx) = registers x)) ∧
    (b.aborted ≠ none ∨ b.cfg = false → Runs (exec (.barrierRelease core n) s) fun q => SameBytes s q ∧ q.ctxs = s.ctxs ∧ q.cores = s.cores) ∧
    (Runs (exec (.barrierTimeout core n) s) fun q => SameBytes s q ∧ q.ctxs = s.ctxs ∧ (q.bar core n).firstAt = none ∧
      -- every member core that is in the same phase, and that no abort has reached, is sent one
      ∀ k ∈ b.members (dieOf core), (s.bar k n).cfg = true → (s.bar k n).gen = b.gen → (s.bar k n).aborted = none →
        coming q k ∧ (¬coming s k → .barrierAbort k n (s.missingMask b (dieOf core) n) ∈ q.inbox)) ∧
    (b.aborted ≠ none → exec (.barrierAbort core n mask) s = .next s) ∧
    (real → b.aborted = none → NoProfile s → Runs (exec (.barrierAbort core n mask) s) fun q => SameBytes s q ∧
      (q.bar core n).aborted = some mask ∧ (q.bar core n).late = [] ∧
      ((s.barWaiters core n) = [ctx] → (s.core core).hctxM ≠ some ctx → (s.core core).hctxS ≠ some ctx → x.warg.getLsbD 10 = false →
        Plain x → (s.centry ctx).holder = .core core → ((s.core core).slotOf ctx = none) →
        (q.ctx ctx).kind = 8 ∧ (q.ctx ctx).cause = 0x0E ∧ (q.ctx ctx).pc = x.pc))

/-- R225, R226, R229, R232, R236 to R245, R247, R248: commands at their Jugglers: what is answered, admission, the elements that a
vector or matrix command leaves, completion, and the parts of a copy. Choices and readings of the model's own on which it rests:
log entries 10, 33, 42, 43, 86, 88, 90, 97, 111. -/
def Obligations.CommandEvents : Prop :=
  ∀ (s : State) (c : Cmd) (ctx op kind cause reg cluster task part blk r col : Nat) (tag : Bool) (info desc : Word) (unit : Holder), NoReplay s →
    let x := s.ctx ctx
    let k := s.cluster cluster
    let t := s.task cluster task
    let home := holderDie (s.ctxHome ctx) (s.centry ctx).holder
    -- tasks, but for which of them the engines work on
    let waiting := fun (m : FMap Task) => mapVals m fun _ v => { v with running := false }
    let answered := fun (q : State) (kind cause : Nat) (info : Word) =>
      Sent q (.commandReply c.ctx c.op kind cause info (if c.op = 0x82 then c.wb.toNat % 8 else 16))
    let room := 256 + 2048 * (s.cluster c.cluster).fifoBanks.length
    (Reach s (c.cluster / 64) (dieOf c.core) →
      (room ≤ (s.cluster c.cluster).inq.length → Runs (exec (.commandAccept c) s) fun q => Kept s q ∧ answered q 2 0 0) ∧
      ((s.cluster c.cluster).inq.length < room → Judged (s.judge c)
        (fun cause info => Runs (exec (.commandAccept c) s) fun q => Kept s q ∧ answered q 1 cause info)
        (fun t =>
          -- its pages that miss are walked, and it is then tried again (15 R359)
          let want := s.unwalkedOps t
          let pool := fun q : State => (q.die (c.cluster / 64)).walks ++ (q.die (c.cluster / 64)).walkQ ++ (q.die (c.cluster / 64)).walkHeld
          (want ≠ [] → Runs (exec (.commandAccept c) s) fun q => SameBytes s q ∧ q.ctxs = s.ctxs ∧ q.tiles = s.tiles ∧
            (q.cluster c.cluster).inq = (s.cluster c.cluster).inq ∧ .commandAccept c ∈ q.inbox ∧
            ∀ p ∈ want, ((pool q).any fun w => w.part == t.part && w.hi == p.1 && w.page == p.2) = true) ∧
          (want = [] → Runs (exec (.commandAccept c) s) fun q => SameBytes s q ∧ q.ctxs = s.ctxs ∧ answered q 0 0 0 ∧
            (q.cluster c.cluster).inq.dropLast = (s.cluster c.cluster).inq ∧
            ((q.cluster c.cluster).inq.getLast?.map fun u => (u.cmd, u.refs, u.part, u.order)) = some (c, t.refs, t.part, t.order) ∧
            .taskAdmit c.cluster ∈ q.inbox))) ∧
      ((s.cluster c.cluster).inq.length < room → c.op = 0x81 → s.tileRef c.blk 0 (c.wa.toNat % 2 ^ 32) true = none →
        Runs (exec (.commandAccept c) s) fun q => Kept s q ∧ answered q 1 9 (BitVec.ofNat 64 (c.wa.toNat % 2 ^ 32)))) ∧
    (exec (.commandRetry ctx) s = .next s) ∧
    (x.pair ≠ 1 → x.kind ≠ 11 → x.kind ≠ 12 →
      (op ≠ 0x82 → Runs (exec (.commandReply ctx op 0 cause info reg) s) fun q => SameBytes s q ∧ OthersKept s q ctx ∧
        { q.ctx ctx with lastIssue := x.lastIssue, issuedAt := x.issuedAt } =
          { x with pc := x.pc + 4, pfx := false, stall := none, badVa := none, marked := 0, quest := none, seen := [], bpExempt := false,
                   cmds := x.cmds + 1 }) ∧
      (reg < 8 → Runs (exec (.commandReply ctx 0x82 0 cause info reg) s) fun q => SameBytes s q ∧ OthersKept s q ctx ∧
        (q.ctx ctx).pc = x.pc + 4 ∧ (q.ctx ctx).cmds = x.cmds ∧ (q.ctx ctx).few.getLsbD reg = false ∧ (q.ctx ctx).pend.getLsbD reg = true ∧
        (q.ctx ctx).w = x.w) ∧
      (x.kind = 0 → (s.centry ctx).holder = .core 0 → (s.core 0).hctxM ≠ some ctx → (s.core 0).hctxS ≠ some ctx → NoProfile s →
        Runs (exec (.commandReply ctx op 1 cause info reg) s) fun q => SameBytes s q ∧ (q.ctx ctx).kind = 8 ∧
          (q.ctx ctx).cause = BitVec.ofNat 8 cause ∧ (q.ctx ctx).warg = info.setWidth 60 ∧ (q.ctx ctx).pc = x.pc ∧ (q.ctx ctx).w = x.w) ∧
      (2 ≤ kind → NoProfile s → Runs (exec (.commandReply ctx op kind cause info reg) s) fun q => Kept s q ∧ q.th = s.th ∧
        .commandRetry ctx ∈ q.inbox)) ∧
    (Reach s (cluster / 64) home → get? s.blocks blk = none → Runs (exec (.tallocServe cluster ctx reg tag blk desc 0) s) fun q =>
      Kept s q ∧ Sent q (Fill s ctx reg tag 0 0)) ∧
    (Reach s (cluster / 64) home → desc.toNat / 2 ^ 21 % 4 = 0 → ∀ b ∈ get? s.blocks blk,
      let id := ((get? s.launches b.launch).map (·.id)).getD 0
      let mine := s.tiles.filter fun v => v.1 / 1024 == cluster && v.2.launch == id && v.2.block == b.index
      ∀ i ∈ s.freeEntry cluster false, ∀ base ∈ firstRun (mine.map fun v => (v.2.base, v.2.granules)) (granulesOf desc.toNat false)
        (b.banks.length * bankGranules), Runs (exec (.tallocServe cluster ctx reg tag blk desc 0) s) fun q => SameBytes s q ∧ q.ctxs = s.ctxs ∧
          Sent q (Fill s ctx reg tag (BitVec.ofNat 64 (2 ^ 13 * (1024 * cluster + i))) 0) ∧
          ((get? q.tiles (1024 * cluster + i)).map fun v => (v.desc, v.block, v.base)) = some (desc.toNat, b.index, base)) ∧
    (k.inq = [] ∨ k.freeTask = none → exec (.taskAdmit cluster) s = .next s) ∧
    (∀ n ∈ k.freeTask, ∀ u ∈ k.inq.head?, Runs (exec (.taskAdmit cluster) s) fun q => SameBytes s q ∧ q.ctxs = s.ctxs ∧
      (q.cluster cluster).inq = k.inq.tail ∧ (get? (q.cluster cluster).tasks n).map (fun v => { v with running := u.running }) = some u) ∧
    (t = none → exec (.taskComplete cluster task) s = .next s ∧ exec (.mmaFragmentDone cluster task) s = .next s ∧
      exec (.streamerPartStart cluster task part) s = .next s ∧ exec (.streamerPush cluster task part) s = .next s ∧
      Runs (exec (.streamerPartDone cluster task part) s) fun q => SameBytes s q ∧ q.ctxs = s.ctxs ∧ q.inbox = s.inbox ∧
        q.task cluster task = none) ∧
    (∀ u ∈ t,
      let there := holderDie (s.ctxHome u.cmd.ctx) (s.centry u.cmd.ctx).holder
      let wrong := u.flt.map fun f => BitVec.ofNat 64 (u.cmd.op % 128 * 65536 + task * 256 + f)
      -- completion
      (u.performed = true → u.cmd.op ≠ 0x82 → Reach s (cluster / 64) there → Runs (exec (.taskComplete cluster task) s) fun q =>
        SameBytes s q ∧ q.ctxs = s.ctxs ∧ waiting (q.cluster cluster).tasks = waiting (del k.tasks task) ∧
        Sent q (.cmdsDecrement u.cmd.ctx (if u.cmd.j then none else wrong) (s.centry u.cmd.ctx).holder)) ∧
      (u.performed = false → u.cmd.op = 0x80 → s.tastes u = false → ∀ x ∈ refIn u.refs 0, Present s x → x.scale = false →
        u.cmd.wa.toNat / 2 ^ 48 % 2 ^ 10 < halfCols x.desc false → Runs (exec (.taskComplete cluster task) s) fun q => SameBytes s q ∧ q.ctxs = s.ctxs ∧
          (q.viewOf x).t.elem x.row0 (u.cmd.wa.toNat / 2 ^ 48 % 2 ^ 10) = u.cmd.wb.toNat % 2 ^ halfWidth x.desc false) ∧
      (u.performed = false → u.cmd.op = 0x81 → u.cmd.j = false → ∀ x ∈ refIn u.refs 0, s.tastes u = false →
        (get? s.tiles x.key).map (·.seed) = some x.seed → Runs (exec (.taskComplete cluster task) s) fun q => SameBytes s q ∧ get? q.tiles x.key = none) ∧
      (u.performed = false → u.cmd.op = 0x82 → u.cmd.j = false → Reach s (cluster / 64) there → ∀ x ∈ refIn u.refs 0, Present s x → x.scale = false →
        Runs (exec (.taskComplete cluster task) s) fun q => SameBytes s q ∧ q.tiles = s.tiles ∧
          Sent q (.registerFill u.cmd.ctx (u.cmd.wb.toNat % 8) (u.cmd.wb.getLsbD 3)
            (asRegister (fmtOf x.fmt) ((s.viewOf x).t.elem x.row0 (u.cmd.wa.toNat / 2 ^ 48 % 2 ^ 10))) false u.cmd.wa (s.centry u.cmd.ctx).holder 0)) ∧
      -- a vector command and mdrain: each element of D, the scales of vquant, and no other tile
      (u.performed = false → u.cmd.op < 0x28 → u.cmd.op ≠ 0x20 → s.tastes u = false → ∀ x ∈ refIn u.refs 0, Present s x →
        let view := fun i : Nat => s.viewOf ((refIn u.refs i).getD x)
        r < x.rows → col < x.cols → Runs (exec (.taskComplete cluster task) s) fun q => SameBytes s q ∧ q.ctxs = s.ctxs ∧
          (∀ v ∈ elementOf u.cmd u.seed (view 0) (view 1) (view 2) (view 3) (s.scaleIn u 1) r col, (q.viewOf x).t.elem (x.row0 + r) col = v % 2 ^ halfWidth x.desc x.scale) ∧
          (u.cmd.op = 0x15 → ScalePresent s x → x.axis = 1 ∨ x.axis = 2 ∧ x.row0 % 32 = 0 →
            (if x.axis = 1 then (q.scaleOf x).elem (x.row0 + r) (col / 32) else (q.scaleOf x).elem ((x.row0 + r) / 32) col) =
              scaleEl x.fmt (blockEl u.cmd (view 0) (view 1) r col)) ∧
          (∀ y ∈ s.tiles, y.1 ≠ x.key → y.1 ≠ x.key + 1 → get? q.tiles y.1 = get? s.tiles y.1)) ∧
      -- one that would read a poisoned word writes nothing and faults (17 R392; that it writes nothing is log 111)
      (u.performed = false → u.cmd.op < 0x28 → u.cmd.op ≠ 0x20 → s.tastes u = true → u.cmd.j = false → u.flt = none → Reach s (cluster / 64) there →
        Runs (exec (.taskComplete cluster task) s) fun q => SameBytes s q ∧ q.tiles = s.tiles ∧
          Sent q (.cmdsDecrement u.cmd.ctx (some (BitVec.ofNat 64 (u.cmd.op % 128 * 65536 + task * 256 + 0x10))) (s.centry u.cmd.ctx).holder)) ∧
      -- mma: all of K in one fragment, and the row sums
      (Runs (exec (.mmaFragmentDone cluster task) s) fun q => SameBytes s q ∧ q.ctxs = s.ctxs ∧
        (.taskComplete cluster task ∈ q.inbox ∨ .mmaFragmentDone cluster task ∈ q.inbox)) ∧
      (u.cmd.op = 0x20 → u.done = 0 → s.tastes u = false → ∀ x ∈ refIn u.refs 0, Present s x →
        let view := fun i : Nat => s.viewOf ((refIn u.refs i).getD x)
        let a := view 1
        let whole := a.fmt < 2
        let start := match refIn u.refs 3 with | some y => (s.viewOf y).elem r col | none => 0
        0 < x.rows → x.rows ≤ 128 → x.cols ≤ 128 → (x.fmt = 4 ↔ whole) → isMx a.fmt = true ∨ a.fmt = 7 ∨ a.fmt = 8 ∨ whole →
        a.cols ≤ (if a.fmt = 7 ∨ a.fmt = 8 then 256 else 1024) →
        Runs (exec (.mmaFragmentDone cluster task) s) fun q => .taskComplete cluster task ∈ q.inbox ∧
          (r < x.rows → col < x.cols → (∀ y ∈ refIn u.refs 4, y.key ≠ x.key) →
            (q.viewOf x).t.elem (x.row0 + r) col = mmaEl u.cmd a (view 2) (s.scaleIn u 1) (s.scaleIn u 2) whole r col start) ∧
          (whole → ∀ y ∈ refIn u.refs 4, Present s y → y.key ≠ x.key → y.cols = 1 → y.fmt = 4 → r < y.rows →
            (q.viewOf y).t.elem (y.row0 + r) 0 = (((List.range a.cols).map fun k =>
              let e := a.elem r k % 256
              if u.cmd.mods % 2 = 1 ∨ e < 128 then (e : Int) else (e : Int) - 256).sum % (2 ^ 32 : Nat)).toNat)) ∧
      -- copies: the parts, one for each streamer that serves source bytes
      (u.parts = [] → u.cmd.op = 0x28 → (s.die (cluster / 64)).knows = [] → cluster / 64 < 20 → ∀ m ∈ (s.streamMoves (u.rowAsker cluster task) u).1,
        Runs (exec (.streamerPartStart cluster task 0) s) fun q => SameBytes s q ∧ q.ctxs = s.ctxs ∧
          ∀ v ∈ q.task cluster task, ((List.range v.parts.length).any fun i =>
            (v.parts[i]?.map fun p => p.unit == s.streamer u.part m.2 && (p.begun || p.moves.contains m)) == some true &&
              (q.flying ++ q.held.map (·.ev)).contains (.streamerPartStart cluster task i)) = true) ∧
      (∀ p ∈ u.parts[part]?, u.parts ≠ [] →
        let at_ := streamerDie p.unit
        let left := (p.moves.map (·.2)).drop p.data.length
        let piece := left.take (readLen left)
        let from_ := match left.head? with | some y => s.placeDie u.part y | none => at_
        let here := left.all fun y => s.placeDie u.part y == at_
        let whole := p.data = [] ∧ p.begun = false ∧ here = true
        let now := fun (q : State) => (q.task cluster task).bind fun v => v.parts[part]?
        -- bytes of another die's storage are asked for and answered a piece at a time, and the part then makes its first push
        (left ≠ [] → ¬whole → from_ ≠ at_ → p.asked % 2 = 0 → Reach s at_ from_ → Runs (exec (.streamerPartStart cluster task part) s) fun q =>
          SameBytes s q ∧ q.ctxs = s.ctxs ∧ now q = some { p with asked := p.asked + 1, begun := true } ∧ Sent q (.streamerPartStart cluster task part)) ∧
        (left ≠ [] → ¬whole → from_ = at_ ∨ p.asked % 2 = 1 → Reach s from_ at_ → Runs (exec (.streamerPartStart cluster task part) s) fun q =>
          SameBytes s q ∧ q.ctxs = s.ctxs ∧ Sent q (.streamerPartStart cluster task part) ∧
          (if piece.any s.placePoisoned then (now q).map (fun v => (v.moves, v.data)) = some ([], []) ∧
              (u.flt = none → (q.task cluster task).map (·.flt) = some (some 0x10))
           else (now q).map (fun v => (v.moves, v.data, v.begun)) = some (p.moves, p.data ++ piece.map (s.placeByte u), true))) ∧
        (left ≠ [] → whole → (s.die at_).knows = [] → at_ < 21 → Runs (exec (.streamerPartStart cluster task part) s) fun q =>
          SameBytes s q ∧ q.ctxs = s.ctxs ∧ (left.any s.placePoisoned = false →
            now q = some { p with begun := true, data := p.moves.map fun m => s.placeByte u m.2 }) ∧
          ((∀ m ∈ p.moves, s.placeDie u.part m.1 < 21) → Sent q (.streamerPush cluster task part))) ∧
        (left = [] → (s.die at_).knows = [] → at_ < 21 → (∀ m ∈ p.moves, s.placeDie u.part m.1 < 21) →
          Runs (exec (.streamerPartStart cluster task part) s) fun q => SameBytes s q ∧ q.ctxs = s.ctxs ∧ Sent q (.streamerPush cluster task part)) ∧
        (p.moves = [] → u.cmd.j = false → Reach s at_ (cluster / 64) → Runs (exec (.streamerPush cluster task part) s) fun q =>
          Kept s q ∧ Sent q (.streamerPartDone cluster task part)) ∧
        (∀ m ∈ p.moves.head?, m.1 < 2 ^ 62 → (∀ o, o < 192 → Sound s 0 (m.1 + o) 1) → s.repairing u.cmd.blk = false →
          (s.poison.any fun w => m.1 < 8 * w + 200 && 8 * w < m.1 + 192) = false →
          (s.die at_).knows = [] → Runs (exec (.streamerPush cluster task part) s) fun q => q.cstore = s.cstore ∧ q.ctxs = s.ctxs ∧
            Sent q (.streamerPush cluster task part) ∧
            Stored s.mem q.mem m.1 (natOfBytes (p.data.take (pushLen p.moves))) (p.data.take (pushLen p.moves)).length) ∧
        (Runs (exec (.streamerPartDone cluster task part) s) fun q => SameBytes s q ∧ q.ctxs = s.ctxs ∧
          ∀ v ∈ q.task cluster task, (v.parts[part]?.map (·.done)) = some true))) ∧
    (x.kind = 12 → exec (.cmdsDecrement ctx none unit) s = .next s) ∧
    (HeldBy s ctx unit → x.kind ≠ 12 → x.pair = 0 → x.kind ≠ 7 → Runs (exec (.cmdsDecrement ctx none unit) s) fun q =>
      SameBytes s q ∧ OthersKept s q ctx ∧ q.ctx ctx = { x with cmds := if x.cmds = 0 then 0 else x.cmds - 1 }) ∧
    (HeldBy s ctx unit → x.pair = 0 → x.kind = 7 → x.warg = 0 → x.cmds.toNat ≤ 1 → Plain x → Runs (exec (.cmdsDecrement ctx none unit) s) fun q =>
      SameBytes s q ∧ OthersKept s q ctx ∧ (q.ctx ctx).kind = 0 ∧ (q.ctx ctx).cmds = 0 ∧ registers (q.ctx ctx) = registers x)

/-- R47 to R52, R57, R58, R257 to R274, R279: launches and relaunches as Ringmaster carries them out, their blocks, records and
generations. Choices and readings of the model's own on which it rests: log entries 12, 44, 78, 91, 92. -/
def Obligations.LaunchEvents : Prop :=
  ∀ (s : State) (part reg lch blk patch other pc cause unit gen set ctx priv : Nat) (dsc : Nat) (rgn : Nat) (comp res entry arg : Word)
    (tag wr repair : Bool) (jc : Option Nat), ctx ≠ noCtx → NoSamples s → dsc < 2 ^ 64 → rgn < 2 ^ 64 →
    let there := holderDie (s.ctxHome ctx) (s.centry ctx).holder
    let bytes := if 2 ^ 62 ≤ dsc then readNat s.cstore (dsc - 2 ^ 62) 128 else readNat s.mem dsc 128
    let id := s.launchIds + 1
    let f := fun off n => bytes / 256 ^ off % 256 ^ n
    let l := launchOf bytes part id (f 0x28 8)
    let copy := natOfBytes (s.readVirt part (rgn + 0x80) 128)
    let again := launchOf copy part id comp.toNat
    let told := fun (q : State) (v : Nat) => Reach s 20 there → Sent q (Fill s ctx reg tag (BitVec.ofNat 64 v) 0)
    let advancing := fun (q : State) (n : Nat) => (q.set (part / 4)).gfull = ((s.set (part / 4)).gfull + 1) % 2 ^ 32 ∧
      ((q.set (part / 4)).advances.getLast?.map fun a => (a.launch, a.waits, a.gfull)) = some (some n, [], (q.set (part / 4)).gfull)
    let record := fun (q : State) (c : Word) (x y : Nat) => c.toNat % 64 = 0 → s.mayAccess part priv c.toNat .store = true →
      Field s q part c.toNat 0 x 4 ∧ Field s q part c.toNat 4 y 4
    -- acceptance
    (f 0x08 4 = 0 ∨ 2 ^ 31 < f 0x08 4 ∨ f 0x0C 2 = 0 ∨ 1024 < f 0x0C 2 ∨ 14 < f 0x0E 1 ∨ 2 < f 0x0F 1 ∨ 4095 < f 0x30 2 →
      s.refusal bytes l priv = some 1) ∧
    (∀ r ∈ s.refusal bytes l priv, Runs (exec (.launchAccept part (BitVec.ofNat 64 dsc) ctx reg tag priv res) s) fun q =>
      q.cstore = s.cstore ∧ q.ctxs = s.ctxs ∧ q.launches = s.launches ∧ q.launchIds = s.launchIds ∧ told q 0 ∧ record q l.comp 3 r) ∧
    (s.refusal bytes l priv = none → Runs (exec (.launchAccept part (BitVec.ofNat 64 dsc) ctx reg tag priv res) s) fun q =>
      q.cstore = s.cstore ∧ q.ctxs = s.ctxs ∧ q.launchIds = id ∧
      (bitAt (f 0x10 4) 0 = false → told q id ∧ .blockStart id ∈ q.inbox) ∧
      (bitAt (f 0x10 4) 0 = true → (get? q.launches id).map (·.submit) = some (some (ctx, reg, tag, res)) ∧ advancing q id) ∧
      ∃ x ∈ get? q.launches id, x.entry.toNat = f 0 8 ∧ x.blocks = f 8 4 ∧ x.threads = f 0x0C 2 ∧ x.args.toNat = f 0x20 8 ∧
        x.seed.toNat = f 0x18 8 ∧ x.toStart = List.range (f 8 4) ∧ x.relaunch = none) ∧
    -- the blocks of a launch, and children
    (get? s.launches lch = none → exec (.blockStart lch) s = .next s ∧ exec (.launchCompletion lch) s = .next s ∧
      exec (.relaunchComplete lch) s = .next s) ∧
    (∀ x ∈ get? s.launches lch,
      (x.toStart = [] → exec (.blockStart lch) s = .next s) ∧
      (x.toStart ≠ [] → s.canStart x = false → Runs (exec (.blockStart lch) s) fun q => Kept s q) ∧
      (s.canStart x = true → ((s.freeLines x.part).map (·.2)).Nodup → bitAt x.flags 2 = false → bitAt x.flags 0 = false →
        ∀ index ∈ x.toStart.head?, ∀ p ∈ s.placeBlock x index, Runs (exec (.blockStart lch) s) fun q =>
          SameBytes s q ∧ (get? q.launches lch).map (·.toStart) = some x.toStart.tail ∧
          ∃ b ∈ get? q.blocks (x.id * 2 ^ 32 + index + 1), (b.launch, b.index, b.cluster) = (lch, index, p.1) ∧ b.live.length = x.threads ∧
            b.live.Nodup ∧ ∀ t < b.live.length, ∀ line ∈ b.live[t]?,
              let c := q.ctx line
              (c.cva, line) ∈ s.freeLines x.part ∧
              c.w = #v[BitVec.ofNat 64 index, BitVec.ofNat 64 t, x.args, 0, 0, 0, 0, 0] ∧ c.pc = x.entry.setWidth 57 ∧ c.few = 7 ∧
                c.pw = 0 ∧ c.kind = 0 ∧ c.priv = 0 ∧ c.prio.toNat = bits x.flags 4 2 ∧ c.tindex = t) ∧
      -- completion
      (x.livePkg ≠ 0 ∨ x.toStart ≠ [] → exec (.launchCompletion lch) s = .next s) ∧
      (x.livePkg = 0 → x.toStart = [] → x.relaunch ≠ none → exec (.launchCompletion lch) s = .next (s.post (.relaunchComplete lch))) ∧
      (x.livePkg = 0 → x.toStart = [] → x.relaunch = none → Runs (exec (.launchCompletion lch) s) fun q =>
        q.cstore = s.cstore ∧ q.ctxs = s.ctxs ∧ q.launches = del s.launches lch ∧
        (bitAt x.flags 0 = false → x.comp.toNat % 64 = 0 → Field s q x.part x.comp.toNat 0 (if x.lostCtx = 0 then 1 else 2) 4 ∧
          Field s q x.part x.comp.toNat 8 x.completed 4 ∧ Field s q x.part x.comp.toNat 32 x.id 8)) ∧
      (x.relaunch = none → exec (.relaunchComplete lch) s = .next s) ∧
      (∀ r ∈ x.relaunch, Runs (exec (.relaunchComplete lch) s) fun q =>
        q.cstore = s.cstore ∧ q.ctxs = s.ctxs ∧ q.launches = del s.launches lch ∧
        (x.comp.toNat % 64 = 0 → x.summary = 0 → s.physOf x.part (r.region + 4) = none → s.physOf x.part (r.region + 8) = none →
          Field s q x.part x.comp.toNat 0 (if x.lostCtx = 0 then 1 else 2) 4 ∧ Field s q x.part x.comp.toNat 8 r.selected 4))) ∧
    (let free := s.freeLines ((get? s.blocks blk).elim 0 fun b => (get? s.launches b.launch).elim 0 (·.part))
     let src := (get? s.blocks blk).elim 0 fun b => dieOf b.anchor
     let told := fun (q : State) (v : Nat) => Reach s src there → Sent q (Fill s ctx reg tag (BitVec.ofNat 64 v) 0)
     let paired := (get? s.blocks blk).elim false fun b => (get? s.launches b.launch).elim false fun x => bitAt x.flags 2
     (get? s.blocks blk = none ∨ ((get? s.blocks blk).map (·.pool)) = some [] ∨ free.length < (if paired then 2 else 1) →
       Runs (exec (.spawnPoolRequest blk ctx reg tag entry arg jc unit) s) fun q => Kept s q ∧ told q 0) ∧
     ((free.map (·.2)).Nodup → (if paired then 2 else 1) ≤ free.length → ∀ b ∈ get? s.blocks blk, ∀ i ∈ b.pool.head?, ∀ x ∈ get? s.launches b.launch,
       Runs (exec (.spawnPoolRequest blk ctx reg tag entry arg jc unit) s) fun q => ∃ line ∈ free, ∃ two ∈ free,
         let child := fun (c : Ctx) (va : Nat) (pair : BitVec 2) (peer : Option Nat) =>
           c.w = #v[arg, BitVec.ofNat 64 (1024 + i), x.args, 0, 0, 0, 0, 0] ∧ c.pc = entry.setWidth 57 ∧ c.entryHi = entry.extractLsb' 57 7 ∧
           c.cva = va ∧ (jc = none → c.kind = 0) ∧ (∀ loc ∈ jc, c.kind = 3 ∧ c.warg = BitVec.ofNat 60 loc) ∧ c.pair = pair ∧ c.peer = peer
         (paired = false → child (q.ctx line.2) line.1 0 none) ∧
         (paired = true → two.2 ≠ line.2 ∧ child (q.ctx line.2) line.1 1 (some two.2) ∧ child (q.ctx two.2) two.1 2 (some line.2)) ∧
         ((get? q.blocks blk).map fun v => (v.pool, v.live)) = some (b.pool.tail, b.live ++ if paired then [line.2, two.2] else [line.2]) ∧
         (jc = none → SameBytes s q ∧ (line.2 ≠ ctx → two.2 ≠ ctx → told q line.1)) ∧
         (∀ loc ∈ jc, q.mem = s.mem ∧ Stored s.cstore q.cstore (loc + 8) line.1 8))) ∧
    -- trace records
    (get? s.blocks blk = none → Runs (exec (.traceReport blk patch wr cause pc) s) (Kept s) ∧ exec (.blockRecordWrite blk) s = .next s) ∧
    (∀ b ∈ get? s.blocks blk, ∀ t ∈ b.trace,
      (Runs (exec (.traceReport blk patch wr cause pc) s) fun q => Kept s q ∧ ∃ u ∈ get? q.blocks blk, ∃ v ∈ u.trace,
        (if cause = 0 ∨ t.impure = true then (v.impure, v.icause, v.ipc) = (t.impure, t.icause, t.ipc)
          else (v.impure, v.icause, v.ipc) = (true, cause, pc)) ∧
        (patch = noPatch → v.rd = t.rd ∧ v.wr = t.wr) ∧ (wr = true → v.rd = t.rd ∧ v.rdovf = t.rdovf) ∧
        (wr = false → v.wr = t.wr ∧ v.wrovf = t.wrovf) ∧
        (patch ≠ noPatch →
          let old := if wr then t.wr else t.rd
          let new := if wr then v.wr else v.rd
          let across := if wr then v.wrovf else v.rdovf
          (InRanges new other ↔ InRanges old other ∨ (other = patch ∧ (old.length < 60 ∨ InRanges new patch))) ∧ (InRanges new patch ∨ across = true) ∧
          (old.length < 60 → InRanges new patch ∧ across = (if wr then t.wrovf else t.rdovf)))) ∧
      (∀ x ∈ get? s.launches b.launch, Runs (exec (.blockRecordWrite blk) s) fun q =>
        let va := x.region + 1024 * (b.index + 1)
        q.cstore = s.cstore ∧ q.ctxs = s.ctxs ∧ q.blocks = del s.blocks blk ∧ .launchCompletion b.launch ∈ q.inbox ∧
        (get? q.launches b.launch).map (·.completed) = some (x.completed + 1) ∧
        (x.region % 1024 = 0 → Field s q x.part va 0 b.index 4 ∧ Field s q x.part va 4 (t.flags + if b.spoiled then 0 else 1) 1 ∧
          Field s q x.part va 8 t.ipc 8 ∧ Field s q x.part va 24 x.id 8))) ∧
    -- generations
    (Runs (exec (.generationBroadcast set unit gen) s) fun q => Kept s { q with sets := s.sets } ∧ (q.set set).gfull = (s.set set).gfull ∧
      (64 ≤ unit → (q.cluster (unit - 64)).gen = gen) ∧
      (∀ a ∈ (s.set set).advances.head?, a.await = [unit] → a.gfull % 256 = gen → .generationAdvanceDone set ∈ q.inbox)) ∧
    ((s.set set).advances.all (fun a => !a.await.isEmpty) = true → exec (.generationAdvanceDone set) s = .next s) ∧
    (∀ a ∈ (s.set set).advances.head?, a.await = [] →
      (a.launch = none → Runs (exec (.generationAdvanceDone set) s) fun q => Kept s { q with sets := s.sets } ∧
        (q.set set).advances = (s.set set).advances.tail ∧ (a.waits = [(ctx, reg, tag)] → told q a.gfull)) ∧
      (∀ n ∈ a.launch, ∀ x ∈ get? s.launches n, Runs (exec (.generationAdvanceDone set) s) fun q =>
        q.cstore = s.cstore ∧ q.ctxs = s.ctxs ∧ (x.submit = some (ctx, reg, tag, res) → a.waits = [] → told q x.id) ∧
        (x.relaunch = none → .blockStart n ∈ q.inbox) ∧ ∀ r ∈ x.relaunch, ∃ y ∈ get? q.launches n, y.livePkg = y.toStart.length ∧
          (y.toStart = [] → .relaunchComplete n ∈ q.inbox) ∧ (y.toStart ≠ [] → .blockStart n ∈ q.inbox) ∧
          (s.numVirt x.part (r.region + 8) 4 ≠ (s.set (x.part / 4)).inst ∨ bitAt x.flags 1 = false → y.toStart = List.range x.blocks))) ∧
    -- relaunches
    (s.mayAccess part priv rgn .load = false → Runs (exec (.relaunchAccept part (BitVec.ofNat 64 rgn) comp ctx reg tag priv repair res) s) fun q =>
      Kept s q ∧ q.launches = s.launches ∧ told q 0) ∧
    (s.mayAccess part priv rgn .load = true → s.numVirt part rgn 4 ≠ 1 ∨ s.numVirt part (rgn + 4) 4 ≠ 2 →
      Runs (exec (.relaunchAccept part (BitVec.ofNat 64 rgn) comp ctx reg tag priv repair res) s) fun q =>
        q.cstore = s.cstore ∧ q.ctxs = s.ctxs ∧ q.launches = s.launches ∧ told q 0 ∧ record q comp 3 6) ∧
    (s.mayAccess part priv rgn .load = true → s.numVirt part rgn 4 = 1 → s.numVirt part (rgn + 4) 4 = 2 →
      (∀ r ∈ s.refusal copy again priv, Runs (exec (.relaunchAccept part (BitVec.ofNat 64 rgn) comp ctx reg tag priv repair res) s) fun q =>
        q.cstore = s.cstore ∧ q.ctxs = s.ctxs ∧ q.launches = s.launches ∧ told q 0 ∧ record q comp 3 r) ∧
      (s.refusal copy again priv = none → Runs (exec (.relaunchAccept part (BitVec.ofNat 64 rgn) comp ctx reg tag priv repair res) s) fun q =>
        q.cstore = s.cstore ∧ q.ctxs = s.ctxs ∧ q.launchIds = id ∧ advancing q id ∧
        (rgn % 1024 = 0 → Field s q part rgn 4 1 4) ∧
        ∃ x ∈ get? q.launches id, x.submit = some (ctx, reg, tag, res) ∧ x.toStart = [] ∧ x.region = rgn ∧ (x.relaunch.map (·.repair)) = some repair))

/-- R44, R45, R334, R336 to R349, R395: contexts as the Carousel, Ringmaster and the homes move them, and as the holder of a line
sends it where the home has told it to: no register, predicate word or pc and no byte changes. Choices and readings of the model's
own on which it rests: log entries 48, 49, 50, 52, 60, 93, 110. -/
def Obligations.ScheduleEvents : Prop :=
  ∀ (s : State) (core slot sctx cluster part die old new : Nat) (dst : Holder) (msg : Ev) (image : Core),
    let c := s.ctx sctx
    let e := s.centry sctx
    let home := s.ctxHome sctx
    let ctl := (s.set (part / 4)).ctl
    let set := part / 4
    let into := s.set (new / 4)
    let target := fun i => s.part (4 * (new / 4) + i)
    (Runs (exec (.idleContextReplace core slot) s) fun q => SameRegisters s q ∧
      (s.idleNext core slot = none → q = s.dispatch core) ∧
      ∀ x ∈ s.idleNext core slot, (nth (s.core core).slots slot {}).ctx = some x.1 ∧ (s.ctx x.1).pin = none ∧
        (s.ctx x.1).lastIssue + 128 ≤ (s.die (dieOf core)).cyc ∧ (q.ctx x.2.1).runAt = s.gtime ∧
        ((s.ctx x.1).kind = 0 → (s.ctx x.1).stall = none → (s.ctx x.1).peer = none → (s.ctx x.1).handler = 0 → Shaped s core → s.suspect core = false →
          QueuedOrSeated q core x.1)) ∧
    (Runs (exec (.quantumExpiry core slot) s) fun q => SameRegisters s q ∧ (s.quantumNext core slot = none → q = s) ∧
      ∀ x ∈ s.quantumNext core slot, (nth (s.core core).slots slot {}).ctx = some x.1 ∧ (s.ctx x.1).pin = none ∧
        (s.ctx x.1).runAt + 64 * us ≤ s.gtime ∧ x.2.1 ∈ nth (s.core core).ready (s.ctx x.1).level [] ∧ (q.ctx x.2.1).runAt = s.gtime ∧
        ((s.ctx x.1).kind = 0 → (s.ctx x.1).stall = none → (s.ctx x.1).peer = none → Shaped s core → s.suspect core = false →
          QueuedOrSeated q core x.1)) ∧
    (c.aged s.gtime = false → exec (.agingPromotion sctx) s = .next s) ∧
    (c.kind = 0 → 0 < c.level → c.readyAt + ms * (c.prio.toNat - c.level + 1) ≤ s.gtime →
      Runs (exec (.agingPromotion sctx) s) fun q => SameRegisters s q ∧
        -- what takes a slot and is displaced from it at once begins to wait again
        ((q.ctx sctx).level = c.level - 1 ∨
          (q.ctx sctx).level = c.prio.toNat ∧ (q.ctx sctx).runAt = s.gtime ∧ (q.ctx sctx).readyAt = s.gtime) ∧
        (e.holder = .core core → (s.core core).ready.any (·.contains sctx) = true → Shaped s core → c.level ≤ 3 → s.suspect core = false →
          QueuedOrSeated q core sctx ∨ c.stall = some (q.ctx sctx).tag ∧ (q.ctx sctx).runAt = s.gtime)) ∧
    (s.claimable core = none → s.copyable core = none → exec (.carouselRingClaim core) s = .next s) ∧
    (s.claimable core = none → ∀ x ∈ s.copyable core, x ∈ ringOf s (clusterOf core) (s.dieActive (dieOf core)) ∧
      exec (.carouselRingClaim core) s = .next (s.modCore core fun k => { k with copy := some x })) ∧
    (∀ x ∈ s.claimable core, Runs (exec (.carouselRingClaim core) s) fun q => SameRegisters s q ∧
      (q.core core).claims.getLast? = some x.1.ctx ∧ (q.core core).claims.length ≤ 4 ∧ x.2.l1Lines core + (s.unit x.1.ctx).length ≤ 254 ∧
      ((s.core core).copy = none → x.1 ∈ ringOf s (clusterOf core) (s.dieActive (dieOf core))) ∧ (∀ y ∈ (s.core core).copy, y = x.1) ∧
      ringOf q cluster part = ringOf s cluster part ∧ (q.core core).copied.getLast? = some x.1 ∧ (q.core core).copy = none ∧
      (Reach s (dieOf core) (s.ctxHome x.1.ctx) → Sent q (.contextClaim core x.1.ctx))) ∧
    (Runs (exec (.contextClaim core sctx) s) fun q => (q.core core).copied = (s.core core).copied.filter (·.ctx != sctx) ∧
      ∀ x ∈ (s.core core).copied, x.ctx = sctx → x ∉ ringOf q cluster part) ∧
    (e.transfer = none → (e.holder = .memory ∨ e.holder = .l2 cluster) → c.isFree = false → c.peer = none → (c.extneed = 0 ∨ isWide core = true) →
      (c.kind = 0 ∨ c.kind = 10 ∧ isWide core = true) → (e.spoiled = true → c.handler = 0 →
        Runs (exec (.contextClaim core sctx) s) fun q => SameBytes s q ∧ (q.ctx sctx).kind = 12 ∧
          (Reach s home (dieOf core) → Sent q (.contextLineArrival sctx (.core core)))) ∧ (e.spoiled = false →
      Runs (exec (.contextClaim core sctx) s) fun q => SameRegisters s q ∧ (q.centry sctx).transfer = some (.core core) ∧
        (e.holder = .memory → Reach s home (dieOf core) → Sent q (.contextLineArrival sctx (.core core))) ∧
        (e.holder = .l2 cluster → Reach s home (cluster / 64) → Sent q (.errand (.fetch sctx (.core core)))))) ∧
    -- the holder sends the line where the home has told it to
    (e.transfer = some dst → e.holder = .l2 cluster → dst ≠ e.holder → Reach s (cluster / 64) (holderDie home dst) →
      Runs (execErrand (.fetch sctx dst) s) fun q => SameRegisters s q ∧ (q.centry sctx).transfer = some dst ∧
        Sent q (.contextLineArrival sctx dst) ∧ sctx ∉ (q.cluster cluster).l2) ∧
    (e.transfer ≠ none ∨ e.holder = .core cluster ∨ e.holder = .shadow cluster ∨ c.isFree = true ∨ (c.extneed ≠ 0 ∧ isWide core = false) →
      Runs (exec (.contextClaim core sctx) s) fun q => Kept s q ∧ q.cdir = s.cdir ∧
        (Reach s home (dieOf core) → Sent q (.contextLineArrival sctx (.core core)))) ∧
    (e.transfer ≠ some dst → Runs (exec (.contextLineArrival sctx dst) s) fun q => Kept s q ∧ q.cdir = s.cdir ∧
      (dst = .core core → (q.core core).claims = (s.core core).claims.filter (· != sctx))) ∧
    (e.transfer = some dst → c.heldTraps = [] → c.peer = none → Runs (exec (.contextLineArrival sctx dst) s) fun q => SameRegisters s q ∧
      (q.centry sctx).holder = dst ∧
      ((dst = .l2 cluster → (s.l2Free cluster c.part).isSome = true) → (∀ k, dst = .l2 k → k = cluster) →
        Reach s (holderDie home dst) home → Sent q (.contextTransferAck sctx)) ∧
      (dst = .core core → s.suspect core = false → (q.core core).resident.contains sctx = true ∧
        (c.kind = 10 → isWide core = true → (q.ctx sctx).kind = 0)) ∧
      (dst = .l2 cluster → (s.l2Free cluster c.part).isSome = true → (q.cluster cluster).l2.getLast? = some sctx)) ∧
    (c.peer = none → (e.postDue = false ∨ e.holder = .memory ∨ e.holder = .l2 cluster) → Runs (exec (.contextTransferAck sctx) s) fun q =>
      Kept s q ∧ (q.centry sctx).transfer = none ∧ (q.centry sctx).queue = [] ∧ (q.centry sctx).holder = e.holder ∧
      (Reach s home (holderDie home e.holder) → ∀ m ∈ e.queue, ForLine m → Sent q (toUnit m e.holder)) ∧
      (e.postDue = true → c.kind = 0 → c.isFree = false → Reach s (holderDie home e.holder) (e.affinity / 64) → Sent q (.ringPost sctx))) ∧
    (e.postDue = true → e.holder = .core core → c.peer = none → c.kind = 0 → c.heldTraps = [] → s.suspect core = false → Shaped s core →
      c.level ≤ 3 → Runs (exec (.contextTransferAck sctx) s) fun q => SameRegisters s q ∧ (q.centry sctx).transfer = none ∧
        (QueuedOrSeated q core sctx ∨ (s.core core).readyH.contains sctx = true ∨
          c.stall = some (q.ctx sctx).tag ∧ (q.ctx sctx).runAt = s.gtime)) ∧
    (e.transfer ≠ none → Runs (exec (.messageReturn sctx msg) s) fun q => Kept s q ∧ q.inbox = s.inbox ∧
      (q.centry sctx).queue = e.queue ++ [msg]) ∧
    (e.transfer = none → ForLine msg → Reach s home (holderDie home e.holder) → Runs (exec (.messageReturn sctx msg) s) fun q => Kept s q ∧
      Sent q (toUnit msg e.holder)) ∧
    -- ready rings
    (e.holder = .core core ∨ e.holder = .shadow core ∨ (e.holder = .memory ∧ c.isFree = true) → exec (.ringPost sctx) s = .next s) ∧
    (e.holder = .l2 cluster → Runs (exec (.ringPost sctx) s) fun q => Kept s q ∧
      ((ringOf s e.affinity c.part).length < 2048 → ringOf q e.affinity c.part = ringOf s e.affinity c.part ++ [⟨sctx, c.level, c.extneed, c.readyAt⟩]) ∧
      ((ringOf s e.affinity c.part).length = s.ringRoom e.affinity c.part → ringOf q e.affinity c.part = ringOf s e.affinity c.part ∧
        (q.centry sctx).postPending = true)) ∧
    (e.postPending = false → exec (.ringPostRetry sctx) s = .next s) ∧
    (e.postPending = true → Reach s home (e.affinity / 64) → Runs (exec (.ringPostRetry sctx) s) fun q => Kept s q ∧
      (q.centry sctx).postPending = false ∧ Sent q (.ringPost sctx)) ∧
    (s.stealDue cluster part = none → exec (.ringmasterSteal cluster part) s = .next s) ∧
    (∀ k ∈ s.stealDue cluster part, k ≠ cluster → Runs (exec (.ringmasterSteal cluster part) s) fun q => Kept s q ∧
      (ringOf q cluster part).take (ringOf s cluster part).length = ringOf s cluster part ∧
      let out := (ringOf q cluster part).drop (ringOf s cluster part).length
      out.length ≤ 16 ∧ (∀ x ∈ ringOf s k part, x ∈ out ∨ x ∈ ringOf q k part) ∧ (∀ x ∈ ringOf q k part, x ∈ ringOf s k part) ∧
      ∀ x ∈ out, x ∈ ringOf s k part ∧ x ∉ ringOf q k part ∧ (q.centry x.ctx).affinity = cluster ∧
        ∀ y ∈ ringOf q k part, y.prio < 4 → x.prio ≤ y.prio) ∧
    -- errors
    (c.kind = 12 ∨ c.isFree = true → exec (.contextLoss sctx) s = .next s) ∧
    (c.kind ≠ 12 → c.isFree = false → c.handler = 0 → c.kind ≠ 11 → (e.holder = .memory ∨ e.holder = .l2 cluster) →
      exec (.contextLoss sctx) s = .next (s.modEntry sctx fun e => { e with spoiled := true })) ∧
    (c.kind ≠ 12 → c.isFree = false → c.handler = 0 → c.kind ≠ 11 → c.peer = none → c.cva < 2 ^ 60 → e.holder = .core core →
      (s.die (dieOf core)).log = [] → Runs (exec (.contextLoss sctx) s) fun q => SameBytes s q ∧ (q.ctx sctx).kind = 12 ∧
        ((q.die (dieOf core)).log.head?.map fun x => (x.1.toNat % 256, x.2.toNat)) = some (5, c.cva)) ∧
    -- pre-emption and swaps
    ((s.die die).preempted = false → ctl = none → NoHeldTrap s → Runs (exec (.preemptRequest die part) s) fun q => SameRegisters s q ∧
      (q.die die).preempted = true ∧ (q.die die).preAt = (s.die die).preAt ∧
      (∀ x ∈ s.ctxs, (s.ctx x.1).heldStop = [] → (q.ctx x.1).tag = (s.ctx x.1).tag) ∧
      ∀ x ∈ s.cores, dieOf x.1 = die → slot < 16 → (nth (q.core x.1).slots slot {}).ctx = none ∨ (nth (q.core x.1).slots slot {}).parked = true) ∧
    (∀ x ∈ ctl, x.await = [die] → x.what = 0 → x.res = none → NoHeldTrap s → Runs (exec (.preemptRequest die part) s) fun q => SameRegisters s q ∧
      (q.set set).halted = true ∧ (q.set set).ctl = none) ∧
    (ctl = none → Runs (exec (.preemptResume die part) s) fun q => SameRegisters s q ∧ q.dies = s.dies ∧ q.sets = s.sets) ∧
    (∀ x ∈ ctl, x.await = [die] → x.what = 3 → x.res = none → (s.part (4 * set + (s.set set).active.getD 0)).startDue = false →
      Runs (exec (.preemptResume die part) s) fun q => SameRegisters s q ∧ (q.set set).halted = false ∧ (q.set set).ctl = none ∧
        ∀ d ∈ setDies s.mode set, (q.die d).preempted = false) ∧
    (ctl = none → s.set (new / 4) = s.set set → NoHeldTrap s → old ≠ new → Runs (exec (.partitionSwap die old new) s) fun q =>
      SameRegisters s q ∧ (old ≠ 32 → ∀ x ∈ s.cores, dieOf x.1 = die → ∃ k ∈ get? (q.part old).image x.1, k.resident.length ≤ 56) ∧
        ((s.part new).image = [(core, image)] → dieOf core = die → ∀ i ∈ image.resident, (q.centry i).holder = .core core)) ∧
    (∀ x ∈ into.ctl, x.await = [die] → x.what = 2 → x.res = none → (target x.into).startDue = false →
      NoHeldTrap s → old ≠ new →
      Runs (exec (.partitionSwap die old new) s) fun q => SameRegisters s q ∧ (q.set (new / 4)).active = some x.into ∧
        (q.set (new / 4)).halted = false ∧ (q.set (new / 4)).ctl = none)

/-- R31, R152, R309, R311, R356 to R358, R365 to R369, R388, R400, R413, R420, R421, R423, R431: page walks, region migration,
bank modes, and what follows a write of a system register. Choices and readings of the model's own on which it rests: log entries
20, 21, 22, 23, 24, 38, 61, 64, 68, 71. -/
def Obligations.TranslationAndRegisterEvents : Prop :=
  ∀ (s : State) (core cluster die link part set page region bank mhz pc reason n unit loc : Nat) (val entry : Word) (enc : BitVec 32) (lvlM : Bool),
    let d := s.die die
    let m := s.set set
    let k := s.core core
    let root := fun w : Walk => if w.hi then (s.part w.part).ptHi else (s.part w.part).ptLo
    let holding := s.parts.find? fun x => x.2.rplHeld.any fun y => y.1 == unit && y.2.1 == loc
    let level := if lvlM then 3 else 1
    -- page walks
    ((d.walks.any fun w => walkKey w == page) = false → exec (.walkComplete die page) s = .next s) ∧
    (∀ w ∈ d.walks.find? (fun w => walkKey w == page),
      let r := s.walkRoot d.walkCache w.part w.hi w.root.toNat (12288 * w.page)
      Runs (exec (.walkComplete die page) s) fun q => SameRegisters s q ∧
        -- queued misses begin their walks while there is room, from the roots as they stand
        (let rest := d.walks.filter fun x => walkKey x != page
         let go := (d.walkQ.take (512 - rest.length)).map fun x => { x with root := root x }
         (q.die die).walks = rest ++ go ∧ (q.die die).walkQ = d.walkQ.drop (512 - rest.length) ∧ ∀ x ∈ go, .walkComplete die (walkKey x) ∈ q.inbox) ∧
        -- the TLBs of a waiting core take the leaf, or its access faults; an engine's waiting look-up (8192 and its cluster) is told
        (∀ e ∈ r.leaf, ∀ x ∈ w.waiters.getLast?, x.core < 8192 → e ∈ (q.core x.core).tlb ∧ e ∈ (q.cluster (clusterOf x.core)).tlb) ∧
        (∀ x ∈ w.waiters, 8192 ≤ x.core → (x.ctx, page, r.leaf) ∈ (q.cluster (x.core - 8192)).xlat) ∧
        (r.leaf = none → q.cores = s.cores ∧ ((∀ x ∈ w.waiters, x.core < 8192) → q.clusters = s.clusters) ∧
          ∀ x ∈ w.waiters.getLast?, x.core < 8192 → ((s.core x.core).slotOf x.ctx).isSome = true → (s.ctx x.ctx).stall ≠ none →
            (q.ctx x.ctx).badVa = some x.info.toNat)) ∧
    (d.walkHeld = [] → exec (.walkQueueRetry die) s = .next s) ∧
    (∀ w ∈ d.walkHeld.head?, Runs (exec (.walkQueueRetry die) s) fun q => Kept s q ∧ q.ctxs = s.ctxs ∧
      ((d.walks ++ d.walkQ ++ d.walkHeld.tail).any (fun x => walkKey x == walkKey w) = false →
        (d.walks.length < 512 → (q.die die).walks = d.walks ++ [{ w with root := root w }] ∧ (q.die die).walkHeld = d.walkHeld.tail ∧
          .walkComplete die (walkKey w) ∈ q.inbox) ∧
        (512 ≤ d.walks.length → d.walkQ.length < 4096 → (q.die die).walkQ = d.walkQ ++ [{ w with root := root w }] ∧ (q.die die).walkHeld = d.walkHeld.tail))) ∧
    -- region migration and bank modes
    (let v := entry.toNat
     let dead := bits v 2 4
     let sub := bits v 12 4
     let new := entry &&& 0xFFFD
     (m.mig ≠ none ∨ 42 < bits v 6 6 ∨ dead = sub ∨ (setMems s.mode set).contains (8 + dead) = false ∨ new = nth m.regions region 0 →
       exec (.regionMigrationStart set region entry) s = .next s) ∧
     (m.mig = none → bits v 6 6 ≤ 42 → dead ≠ sub → (setMems s.mode set).contains (8 + dead) = true →
       (setMems s.mode set).contains (8 + sub) = true → s.spareTaken sub dead (bits v 6 6) = false → new ≠ nth m.regions region 0 →
       exec (.regionMigrationStart set region entry) s = .next (s.modSet set fun d => { d with
         mig := some region, oldEntry := nth m.regions region 0, regions := m.regions.set region new
         cursors := m.cursors.set region 0, rver := (m.rver + 1) % 16 }))) ∧
    (m.mig = none → exec (.migrationLineMove set) s = .next s) ∧
    (∀ r ∈ m.mig, let cur := nth m.cursors r 0
      let line := 64 * setBase s.mode set + regionLines s.mode * r + cur
      let old := homeUnder s.mode set line m.oldEntry
      let new := homeUnder s.mode set line (nth m.regions r 0)
      Runs (exec (.migrationLineMove set) s) fun q => SameRegisters s q ∧ q.ctxs = s.ctxs ∧ (q.set set).regions = m.regions ∧
        (q.set set).rver = m.rver ∧
        (old ≠ new → m.moving = false → (q.set set).moving = true ∧ (q.set set).mig = some r ∧ (q.set set).cursors = m.cursors ∧
          (Reach s old new → Sent q (.migrationLineMove set))) ∧
        (old = new ∨ m.moving = true → (q.set set).moving = false ∧ (r < m.cursors.length → nth (q.set set).cursors r 0 = cur + 1) ∧
          (q.set set).mig = (if cur + 1 < regionLines s.mode then some r else none))) ∧
    ((s.cluster cluster).drains.any (fun x => x.bank == bank) = false → exec (.bankDrainDone cluster bank) s = .next s) ∧
    (∀ x ∈ (s.cluster cluster).drains.head?, x.bank = bank → (s.cluster cluster).drains.tail = [] → bank < (s.cluster cluster).modes.length →
      bank < (s.cluster cluster).owner.length → Runs (exec (.bankDrainDone cluster bank) s) fun q => SameRegisters s q ∧
        nth (q.cluster cluster).modes bank .cache = x.mode ∧ (q.cluster cluster).drains = [] ∧
        nth (q.cluster cluster).owner bank none = (if x.mode = .cache then none else some (x.part % 4)) ∧
        (Reach s (cluster / 64) (holderDie (s.ctxHome x.ctx) (s.centry x.ctx).holder) → Sent q (Fill s x.ctx x.reg x.tag 0 0))) ∧
    -- handlers and machine checks
    (val ≠ 0 → s.physOf (s.dieActive (dieOf core)) val.toNat = none → exec (.handlerInstall core lvlM val) s = .next s) ∧
    (Runs (exec (.handlerInstall core lvlM 0) s) fun q => SameRegisters s q ∧
      (if lvlM then ((q.core core).hcvaM, (q.core core).hctxM) else ((q.core core).hcvaS, (q.core core).hctxS)) = (0, none)) ∧
    (val ≠ 0 → k.trapQ = [] → (s.die (dieOf core)).overflow = [] → ∀ id ∈ s.physOf (s.dieActive (dieOf core)) val.toNat,
      Runs (exec (.handlerInstall core lvlM val) s) fun q => SameBytes s q ∧
        (if lvlM then ((q.core core).hcvaM, (q.core core).hctxM) else ((q.core core).hcvaS, (q.core core).hctxS)) = (val, some id) ∧
        (q.centry id).holder = .core core ∧ (q.core core).resident.contains id = true ∧
        let c := q.ctx id
        let at_ := if lvlM then k.hentryM else k.hentryS
        c.kind = 11 ∧ c.priv.toNat = level ∧ c.cva = val.toNat ∧ c.few = 0xFF ∧ c.fee = 0xF ∧ c.pc.toNat = at_.toNat % 2 ^ 57 / 2 * 2 ∧
          (c.w, c.e, c.pw) = (Vector.replicate 8 0, Vector.replicate 4 0, 0)) ∧
    (k.mcheck &&& ~~~val ≠ 0 → exec (.mcheckClear core val) s = .next (s.modCore core fun c => { c with mcheck := k.mcheck &&& ~~~val })) ∧
    (k.mcheck &&& ~~~val = 0 → Runs (exec (.mcheckClear core val) s) fun q => SameBytes s q ∧ (q.core core).mcheck = 0 ∧
      (k.hctxM = none → ∀ h ∈ k.hctxS, ∀ e ∈ k.trapQ.head?, e.level = 1 → s.serving core 1 = false → let c := q.ctx h
          (c.wv 0, c.wv 1, c.wv 2, c.wv 3) = (BitVec.ofNat 64 (s.ctx e.ctx).cva, BitVec.ofNat 64 e.cause, e.info, e.tag) ∧ c.kind = 0 ∧
            (q.core core).trapQ = k.trapQ.tail)) ∧
    -- registers of a die, and links
    exec (.rasPop die) s = .next (s.modDie die fun x => { x with log := d.log.tail }) ∧
    exec (.dlogBaseWrite die val) s = .next (s.modDie die fun x => { x with dlogBase := val, dlogIdx := 0 }) ∧
    (100 ≤ val.toNat % 1024 → val.toNat % 1024 ≤ 250 →
      exec (.pwrCapWrite die val) s = .next (s.modDie die fun x => { x with pwrCap := val &&& 0x3FF })) ∧
    (val.toNat % 1024 < 100 ∨ 250 < val.toNat % 1024 → exec (.pwrCapWrite die val) s = .next s) ∧
    (Runs (exec (.pctDisableSpill part) s) fun q => q.cstore = s.cstore ∧ q.ctxs = s.ctxs ∧ q.cores = s.cores ∧
      ((setClusters s.mode (part / 4)).contains cluster = true → (q.cluster cluster).pct = [])) ∧
    (Runs (exec (.rplCtlWrite part val) s) fun q => SameRegisters s q ∧ (q.part part).rplCtl = val ∧ (q.part part).rplDiv = false ∧
      (q.part part).rplLog = [] ∧ (q.part part).rplHeld = [] ∧ (q.part part).rplStuck = [] ∧
      (q.part part).rplOvf = (if val.toNat % 4 = 1 then [] else (s.part part).rplOvf) ∧
      q.inbox = ((s.part part).rplHeld.map fun x => x.2.2.2.2) ++ s.inbox) ∧
    -- an operation that a replay holds and whose window has passed (19 R423): it is reported, and its unit gives up its log or stays held
    (∀ x ∈ holding, s.part x.1 = x.2 →
      Runs (exec (.replayDivergence unit loc) s) fun q => q.cstore = s.cstore ∧ q.ctxs = s.ctxs ∧ q.cores = s.cores ∧
        (q.part x.1).rplDiv = true ∧
        (x.2.rplCtl.toNat.testBit 2 = true → (q.part x.1).rplStuck = x.2.rplStuck ++ [(unit, loc)] ∧ (q.part x.1).rplHeld = x.2.rplHeld) ∧
        (x.2.rplCtl.toNat.testBit 2 = false → (q.part x.1).rplFree = x.2.rplFree ++ [unit] ∧
          (q.part x.1).rplHeld = x.2.rplHeld.filter (·.1 != unit) ∧ ∀ y ∈ x.2.rplHeld, y.1 = unit → y.2.2.2.2 ∈ q.inbox)) ∧
    (linkPeer die link = none ∨ (s.link die link).st ≠ 2 → exec (.lnkRetrainForce die link) s = .next s) ∧
    (∀ p ∈ linkPeer die link, (s.link die link).st = 2 → Runs (exec (.lnkRetrainForce die link) s) fun q => SameRegisters s q ∧
      .linkRetrainDone die link ∈ q.inbox ∧
      let a := q.link die link
      let b := q.link p (linkTo p die)
      (a.st, a.wire, b.st, b.wire, a.replay, b.replay) = (1, [], 1, [], (s.link die link).replay, (s.link p (linkTo p die)).replay)) ∧
    (linkPeer die link = none → exec (.lnkInject die link) s = .next s) ∧
    ((linkPeer die link).isSome = true → exec (.lnkInject die link) s = .next (s.modLink die link fun l => { l with inject := true })) ∧
    (s.snapshotDue die = false → exec (.linkCounterSnapshot die) s = .next s) ∧
    (s.snapshotDue die = true → d.lnkcBase = 0 → Runs (exec (.linkCounterSnapshot die) s) fun q => SameRegisters s q ∧ q.ctxs = s.ctxs ∧
      (q.die die).lnkcAt = s.crossing die ∧ (q.die die).lnkcDone = d.lnkcDone ∧ (q.die die).lnkcSkip = d.lnkcSkip) ∧
    -- of several multiples crossed since the last capture the earliest is captured, unless its record is still under way, and the others are
    -- counted as skipped
    (let late := s.crossing die - d.lnkcAt
     s.snapshotDue die = true → d.lnkcBase ≠ 0 → Runs (exec (.linkCounterSnapshot die) s) fun q => q.cstore = s.cstore ∧ q.ctxs = s.ctxs ∧
      q.cores = s.cores ∧ (q.die die).lnkcAt = s.crossing die ∧
      (q.die die).lnkcSkip = (d.lnkcSkip + (late - if s.recordsOut die 3 = [] then 1 else 0)) % 2 ^ 32) ∧
    (k.sample = none → exec (.pcSample core) s = .next s) ∧
    (k.sample = some (part, reason, pc, unit) → Runs (exec (.pcSample core) s) fun q =>
      let ctl := (s.part part).pctCtl.toNat
      let at_ := pctIndex pc reason
      q.cstore = s.cstore ∧ q.ctxs = s.ctxs ∧ (q.core core).sample = none ∧
      (ctl.testBit 0 = false ∨ ctl.testBit (7 + reason) = false → q.clusters = s.clusters ∧ q.mem = s.mem) ∧
      (ctl.testBit 0 = true → ctl.testBit (7 + reason) = true →
        (get? (s.cluster (clusterOf core)).pct at_ = none →
          get? (q.cluster (clusterOf core)).pct at_ = some ⟨pc, reason, unit, 1⟩) ∧
        (∀ e ∈ get? (s.cluster (clusterOf core)).pct at_, e = ⟨pc, reason, unit, n⟩ → n < 2 ^ 42 - 1 →
          get? (q.cluster (clusterOf core)).pct at_ = some { e with count := n + 1 }))) ∧
    (die < 8 → 600 ≤ mhz → mhz ≤ 800 → mhz % 50 = 0 → exec (.operatingPointChange die mhz) s = .next (s.modDie die fun x => { x with mhzNext := some mhz })) ∧
    (8 ≤ die ∨ mhz < 600 ∨ 800 < mhz ∨ mhz % 50 ≠ 0 → exec (.operatingPointChange die mhz) s = .next s) ∧
    -- a word that is no instruction, on a core that has the extension of its major opcode, and on one that lacks it (02 R56)
    (let ext := if enc.toNat % 128 = 0b1110011 then 1 else if enc.toNat % 128 = 0b1110111 then 2 else 0
     (Unpaired s → ext = 0 ∨ isWide s.hereCore = true → exec (.nonInstructionEncoding enc) s = .next (s.trapAt 1 (enc.setWidth 64) s.th.pc)) ∧
     (ext ≠ 0 → Moves s (exec (.nonInstructionEncoding enc) s) ext))

/-- R373 to R378, R382 to R386, R390 to R394, R399: flits, retries and retrains of a die link, the exchanges of a die's time, the
failure of a compute die, and the errors that the scrubber and other accesses find. Choices and readings of the model's own on
which it rests: log entries 17, 18, 54, 55, 56, 57, 61, 105, 109. -/
def Obligations.LinkAndTimeEvents : Prop :=
  ∀ (s : State) (ldie llink seq cls die failed mdie line ctx sector err t1 t2 t3 t4 lower upper ticks struct : Nat) (ahead : Bool),
    let l := s.link ldie llink
    let quiet := fun (q : State) => SameRegisters s q ∧ q.ctxs = s.ctxs
    let d := s.die die
    let place := 48 * sector + 8 * (err / 8 % 6)
    let at_ := s.logDie place
    -- sending
    (l.maySend = false → exec (.flitSend ldie llink) s = .next s) ∧
    -- acknowledgements alone take no number and are not kept; a flit of messages carries them along, and the first after a failure a NAK
    (l.maySend = true → l.fresh = none → Runs (exec (.flitSend ldie llink) s) fun q => quiet q ∧ q.inbox = s.inbox ∧
      let a := q.link ldie llink
      a.nextTx = l.nextTx ∧ a.replay = l.replay ∧ a.queue = l.queue ∧ a.inject = false ∧ a.owes = false ∧
      ∃ f ∈ a.wire.getLast?, a.wire = l.wire ++ [f] ∧ f.plain = true ∧ f.msgs = [] ∧ f.bad = l.inject ∧ f.ack = some l.expect ∧
        f.nak = (if l.nakDue then some l.expect else none)) ∧
    (l.maySend = true → ∀ c ∈ l.fresh, Runs (exec (.flitSend ldie llink) s) fun q => quiet q ∧ q.inbox = s.inbox ∧
      let a := q.link ldie llink
      a.nextTx = (l.nextTx + 1) % 1024 ∧ a.inject = false ∧ a.owes = false ∧
      (l.aged = [] → l.since1 < 7 → (List.range c).all (fun x => !l.has x) = true) ∧
      ∃ f ∈ a.replay.getLast?, f.seq = l.nextTx ∧ f.plain = false ∧ a.replay = l.replay ++ [f] ∧
        a.wire = l.wire ++ [{ f with bad := l.inject, ack := some l.expect, nak := if l.nakDue then some l.expect else none }] ∧
        f.msgs ≠ [] ∧ (∀ m ∈ f.msgs, m.cls = c ∧ m ∈ l.queue) ∧ (f.msgs.map (·.bytes)).sum ≤ 236 ∧
        f.msgs.length + a.queue.length = l.queue.length ∧ ∀ m ∈ a.queue, m ∈ l.queue) ∧
    (l.ageDue cls s.gtime = false → exec (.classAgePromotion ldie llink cls) s = .next s) ∧
    (l.ageDue cls s.gtime = true → exec (.classAgePromotion ldie llink cls) s =
      .next (s.modLink ldie llink fun x => { x with aged := l.aged ++ [cls] })) ∧
    -- receiving
    (linkPeer ldie llink = none → exec (.flitReceive ldie llink) s = .next s) ∧
    (∀ p ∈ linkPeer ldie llink,
      let back := linkTo p ldie
      (s.link p back).wire = [] → exec (.flitReceive ldie llink) s = .next s) ∧
    (∀ p ∈ linkPeer ldie llink,
      let back := linkTo p ldie
      ∀ f ∈ (s.link p back).wire.head?,
        -- what the flit's acknowledgement or NAK makes due at this end
        let told := match f.nak, f.ack with
          | some n, _ => [.linkNak ldie llink n]
          | none, some a => if (l.ackTo a).length < l.replay.length then [.linkAck ldie llink a] else []
          | none, none => []
        let expected := f.plain = false ∧ f.seq = l.expect
        let known := fun m : LinkMsg => (s.die ldie).knows.contains m.src = true
        (f.bad = true ∨ f.plain = false ∧ f.seq ≠ l.expect → Runs (exec (.flitReceive ldie llink) s) fun q => quiet q ∧
          (q.link p back).wire = (s.link p back).wire.tail ∧ (q.link ldie llink).expect = l.expect ∧ (q.link ldie llink).naked = true ∧
          (q.link ldie llink).nakDue = (l.nakDue || decide (l.naked = false ∨ expected)) ∧
          (q.link ldie llink).crc = (l.crc + if f.bad then 1 else 0) % 2 ^ 64 ∧ (f.bad = false → q.inbox = s.inbox) ∧
          -- a CRC failure is an entry of the error log (17 R390, R399)
          (f.bad = true → (s.die (s.logsFor ldie)).log.length < 256 →
            (((q.die (s.logsFor ldie)).log.getLast?).map (·.1)) = some (BitVec.ofNat 64 (2 ^ 32 * ldie + 2 ^ 16 * llink + 0x701)))) ∧
        (f.bad = false → f.plain = true → Runs (exec (.flitReceive ldie llink) s) fun q => quiet q ∧
          (q.link p back).wire = (s.link p back).wire.tail ∧ (q.link ldie llink).expect = l.expect ∧
          q.inbox = s.inbox ++ (if l.naked then [] else told)) ∧
        (f.bad = false → expected → Runs (exec (.flitReceive ldie llink) s) fun q => quiet q ∧
          (q.link ldie llink).expect = (l.expect + 1) % 1024 ∧ (q.link ldie llink).naked = false ∧ (q.link ldie llink).nakDue = false ∧
          (q.link ldie llink).ackDue = l.ackDue + 1 ∧ (f.msgs = [] → q.inbox = s.inbox ++ told) ∧
          ∀ m ∈ f.msgs.head?, f.msgs.tail = [] → m.again = false →
            (known m → q.inbox = s.inbox ++ told) ∧
            (¬known m →
              (m.dst = ldie → m.tx = none → l.got ≤ f.no → q.inbox = s.inbox ++ told ++ [m.ev]) ∧
              -- the repeat of a flit accepted before a retrain: a load executes again, under the requester's first answer
              (m.dst = ldie → m.tx = none → f.no < l.got →
                (LinkMsg.repeated m = none → q.inbox = s.inbox ++ told) ∧
                (∀ r, m.ev = .homeReadRequest r → q.inbox = s.inbox ++ told ++ [.homeReadRequest { r with reg := 20 }])) ∧
              (∀ t ∈ m.tx, m.dst = ldie → t / 2 ^ 27 = m.src → m.src ≠ ldie → ((s.die ldie).filter.any fun x => x.1 == t) = false →
                q.inbox = s.inbox ++ told ++ [m.ev] ∧ ((q.die ldie).filter.any fun x => x.1 == t) = true) ∧
              (∀ t ∈ m.tx, m.dst = ldie → t / 2 ^ 27 = ldie → l.got ≤ f.no → q.inbox = s.inbox ++ told ++ [m.ev] ∧
                (q.die ldie).unconf = (s.die ldie).unconf.eraseP fun x => x.1 == m.src && x.2.1 == t) ∧
              (∀ t ∈ m.tx, m.dst = ldie → t / 2 ^ 27 = m.src → m.src ≠ ldie → ((s.die ldie).filter.any fun x => x.1 == t) = true →
                q.inbox = s.inbox ++ told ∧ (q.link ldie llink).dup = (l.dup + 1) % 2 ^ 64) ∧
              (m.dst ≠ ldie → l.got ≤ f.no → Reach s ldie m.dst → m.ev ∈ q.flying)))) ∧
    -- retry
    (Runs (exec (.linkAck ldie llink seq) s) fun q => quiet q ∧ q.inbox = s.inbox ∧ Freed l.replay (q.link ldie llink).replay seq ∧
      (q.link ldie llink).queue = l.queue ∧ (q.link ldie llink).wire = l.wire) ∧
    ((if l.nakSeq = some seq then l.fails + 1 else 0) < 3 → Runs (exec (.linkNak ldie llink seq) s) fun q => quiet q ∧
      let a := q.link ldie llink
      Freed l.replay a.replay seq ∧ a.replays = (if a.replay = [] then l.replays else (l.replays + 1) % 2 ^ 32) ∧ a.nakSeq = some seq ∧ a.queue = l.queue ∧
        a.wire.map (·.seq) = l.wire.map (·.seq) ++ a.replay.map (·.seq)) ∧
    (l.nakSeq = some seq → 2 ≤ l.fails → l.st = 2 → (linkPeer ldie llink).isSome = true → Runs (exec (.linkNak ldie llink seq) s) fun q => quiet q ∧
      (q.link ldie llink).st = 1 ∧ (q.link ldie llink).wire = [] ∧ .linkRetrainDone ldie llink ∈ q.inbox) ∧
    (l.timedOut s.gtime = false → exec (.replayTimeout ldie llink) s = .next s) ∧
    (l.st = 2 → l.replay ≠ [] → l.sentAt + us ≤ s.gtime → Runs (exec (.replayTimeout ldie llink) s) fun q => quiet q ∧ q.inbox = s.inbox ∧
      (q.link ldie llink).wire.map (·.seq) = l.wire.map (·.seq) ++ l.replay.map (·.seq) ∧ (q.link ldie llink).replay = l.replay) ∧
    -- lanes
    (linkPeer ldie llink = none → exec (.laneFaultReport ldie llink lower upper) s = .next s ∧ exec (.linkRetrainDone ldie llink) s = .next s) ∧
    (l.st ≠ 1 → exec (.linkRetrainDone ldie llink) s = .next s) ∧
    (∀ p ∈ linkPeer ldie llink,
      let b := s.link p (linkTo p ldie)
      let at2 := fun (q : State) (spare : Nat) (x32 : Bool) => quiet q ∧ [q.link ldie llink, q.link p (linkTo p ldie)].all
        (fun e => e.st == 2 && e.x32 == x32 && e.redundant == spare && e.expect == 0 && e.replay.map (·.seq) == List.range e.replay.length) = true ∧
        (q.link ldie llink).retrains = (l.retrains + 1) % 65536 ∧
        (q.link ldie llink).replays = (if l.replay = [] then l.replays else (l.replays + 1) % 2 ^ 32) ∧ (q.link ldie llink).replay.map (·.msgs) = l.replay.map (·.msgs)
      (Runs (exec (.laneFaultReport ldie llink lower upper) s) fun q => quiet q ∧
        (q.link ldie llink).badLow = min 32 (l.badLow + lower) ∧ (q.link p (linkTo p ldie)).badHigh = min 32 (b.badHigh + upper) ∧
        -- a flit in flight is damaged, and fails its CRC
        (q.link ldie llink).crc = (l.crc + if l.st = 2 ∧ b.wire ≠ [] then 1 else 0) % 2 ^ 64 ∧
        (l.st = 2 → (q.link ldie llink).st = 1 ∧ (q.link p (linkTo p ldie)).st = 1 ∧ .linkRetrainDone ldie llink ∈ q.inbox)) ∧
      (l.st = 1 → l.x32 = false → l.badLow + l.badHigh ≤ 4 → Runs (exec (.linkRetrainDone ldie llink) s) fun q => at2 q (l.badLow + l.badHigh) false) ∧
      (l.st = 1 → (l.x32 = true ∨ 4 < l.badLow + l.badHigh) → l.degrade = true → b.degrade = true →
        (l.badLow ≤ 4 → 4 < l.badHigh → Runs (exec (.linkRetrainDone ldie llink) s) fun q => at2 q l.badLow true) ∧
        (4 < l.badLow → l.badHigh ≤ 4 → Runs (exec (.linkRetrainDone ldie llink) s) fun q => at2 q l.badHigh true) ∧
        (l.badLow ≤ 4 → l.badHigh ≤ 4 → Runs (exec (.linkRetrainDone ldie llink) s) fun q =>
          at2 q l.badLow true ∨ at2 q l.badHigh true)) ∧
      (l.st = 1 → (l.x32 = true ∨ 4 < l.badLow + l.badHigh) → (l.degrade = false ∨ b.degrade = false ∨ 4 < l.badLow ∧ 4 < l.badHigh) →
        Runs (exec (.linkRetrainDone ldie llink) s) fun q => q.cstore = s.cstore ∧
          (ldie < 8 → 8 ≤ p → q.diefail.getLsbD ldie = true) ∧ (8 ≤ ldie → p < 8 → q.diefail.getLsbD p = true))) ∧
    -- time
    (Runs (exec (.calliopeExchange die) s) fun q => quiet q ∧ (q.die die).exAt = s.gtime ∧ q.inbox.length = s.inbox.length + 1 ∧
      Exchanged s die q.inbox.getLast?) ∧
    (let theta : Int := (((t2 : Int) - t1) - ((t4 : Int) - t3)) / 2
     Runs (exec (.calliopeResult die t1 t2 t3 t4) s) fun q => quiet q ∧
      let e := q.die die
      e.theta = theta ∧ e.delay = (((t2 : Int) - t1) + ((t4 : Int) - t3)) / 2 ∧ e.missing = 0 ∧
      -- the loss of lock is reported to the partition controller
      q.lockReports = s.lockReports ++ (if d.locked = true ∧ 12 < theta.natAbs then [die] else []) ∧
      (d.locked = true → 12 < theta.natAbs → e.locked = false ∧ e.good = 0 ∧ e.losses = (d.losses + 1) % 65536) ∧
      (d.locked = true → theta.natAbs ≤ 12 → e.locked = true ∧ e.losses = d.losses ∧ e.tslew.natAbs ≤ 100000 ∧ e.tslew * theta ≤ 0) ∧
      (d.locked = false → 8 < theta.natAbs → e.locked = false ∧ e.good = 0) ∧
      (d.locked = false → theta.natAbs ≤ 8 → e.locked = decide (16 ≤ d.good + 1) ∧ (e.everLocked = true ∨ e.locked = false)) ∧
      (d.locked = false → theta < -4000 → e.ahead = d.offset s.gtime - theta)) ∧
    (Runs (exec (.exchangeMissing die) s) fun q => quiet q ∧
      let e := q.die die
      e.missing = min 3 (d.missing + 1) ∧ e.good = 0 ∧ q.lockReports = s.lockReports ++ (if d.locked = true ∧ 2 ≤ d.missing then [die] else []) ∧
      (d.missing < 2 → e.locked = d.locked ∧ e.losses = d.losses) ∧ (2 ≤ d.missing → e.locked = false) ∧
      (2 ≤ d.missing → d.locked = true → e.losses = (d.losses + 1) % 65536)) ∧
    -- a two-step message counts with its follow-up; the grandmaster then slews, against its offset
    exec (.ptpEventMessage .twoStep ticks) s = .next { s with ptpWaits := true } ∧
    (s.ptpWaits = false → exec (.ptpEventMessage (.followUp ahead) ticks) s = .next s) ∧
    (let told (waits : Bool) (q : State) : Prop :=
       q = { s with external := if ahead then ticks else -(ticks : Int), ptpRate := q.ptpRate, ptpWaits := waits } ∧
       q.ptpRate.natAbs ≤ 100000 ∧ q.ptpRate * q.external ≤ 0 ∧ (ticks = 0 → q.ptpRate = 0)
     Runs (exec (.ptpEventMessage (.oneStep ahead) ticks) s) (told s.ptpWaits) ∧
     (s.ptpWaits = true → Runs (exec (.ptpEventMessage (.followUp ahead) ticks) s) (told false))) ∧
    -- the failure of a die
    (8 ≤ ldie ∨ s.diefail.getLsbD ldie = true → exec (.heartbeatTimeout ldie) s = .next s ∧ exec (.unrecoverableFaultReport ldie) s = .next s) ∧
    (ldie < 8 → s.diefail.getLsbD ldie = false →
      let gone := fun (q : State) => q.cstore = s.cstore ∧ q.diefail = s.diefail ||| (1#22 <<< ldie) ∧ (q.die ldie).on = false ∧
        (q.die 20).knows.contains ldie = true ∧ (q.core (1024 * ldie + sector)).waiters = (if sector < 1024 then [] else (q.core (1024 * ldie + sector)).waiters) ∧
        ((s.die 20).knows = [] → mdie < 20 → 8 ≤ mdie → s.diefail.getLsbD mdie = false → Sent q (.dieFailureBroadcast mdie ldie))
      Runs (exec (.heartbeatTimeout ldie) s) gone ∧ Runs (exec (.unrecoverableFaultReport ldie) s) gone) ∧
    (Runs (exec (.dieFailureBroadcast ldie failed) s) fun q => SameBytes s q ∧ (q.die ldie).knows.contains failed = true ∧
      (8 ≤ ldie → ldie < 20 → .homeFailureProcess ldie failed ∈ q.inbox) ∧
      (linkPeer ldie llink = some failed → (∀ m ∈ l.queue ++ (l.replay.map (·.msgs)).flatten, m.dst = failed) → (q.link ldie llink).replay = [] ∧ (q.link ldie llink).posted = false ∧
        ((q.die ldie).roundsOpen.all fun x => x.1 != llink) = true)) ∧
    (Runs (exec (.homeFailureProcess mdie failed) s) fun q => SameBytes s q ∧
      let e := s.line line
      let mine := s.homeDie (setOfPatch s.mode (line / 64)) (192 * line) = mdie ∧ (get? s.dir line).isSome = true
      (mine → e.owner = some failed → (e.st = .m ∨ e.st = .o) → (q.line line).st = .lost ∧ q.lost.contains (line / 64) = true) ∧
      (mine → e.owner ≠ some failed → e.st = .lost → (q.line line).st = .lost) ∧
      (mine → e.owner ≠ some failed → (q.line line).owner = e.owner ∧ (q.line line).dies.getLsbD failed = false) ∧
      ((get? s.ctxs ctx).isSome = true → s.ctxHome ctx = mdie → s.lostWith ctx failed = true → (q.ctx ctx).kind = 12)) ∧
    -- scrubbing
    (s.scrubMay mdie sector = false → exec (.scrubRead mdie sector err) s = .next s) ∧
    (s.scrubMay mdie sector = true → err % 8 = 0 ∨ 4 < err % 8 → Runs (exec (.scrubRead mdie sector err) s) fun q =>
      SameBytes s q ∧ q.ctxs = s.ctxs ∧ q.poison = s.poison ∧ (die ≠ mdie → q.die die = s.die die)) ∧
    (s.scrubMay mdie sector = true → mdie ≠ at_ → (s.die at_).log.length < 256 →
      let logged := fun (q : State) (kind : Nat) => SameBytes s q ∧ q.ctxs = s.ctxs ∧
        (((q.die at_).log.getLast?).map fun x => (x.1.toNat % 65536, x.2)) = some (kind, BitVec.ofNat 64 place)
      (err % 8 = 1 ∨ err % 8 = 2 → Runs (exec (.scrubRead mdie sector err) s) fun q => logged q (err % 8) ∧
        (q.die at_).corrected = ((s.die at_).corrected + 1) % 2 ^ 32 ∧ .scrubWrite mdie sector (getD s.seqs sector 0) ∈ q.inbox ∧ q.poison = s.poison) ∧
      (err % 8 = 3 → Runs (exec (.scrubRead mdie sector err) s) fun q => logged q 1 ∧ q.poison = s.poison) ∧
      (err % 8 = 4 → Runs (exec (.scrubRead mdie sector err) s) fun q => logged q 3 ∧
        (if s.sectorAway place then q.poison = s.poison else q.poison.contains (place / 8) = true))) ∧
    -- an access of a unit finds an error: in a core store (3) or an L1 (4) here
    (struct = 3 ∨ struct = 4 → 1 ≤ err → err ≤ 4 →
      let core := line % 8192
      let where_ := if struct = 3 then 65536 * core + place % 65536 else 2 ^ 64 * core + place
      let spot := if struct = 3 then storePlace + (65536 * core + place % 65536) else l1Place core + place
      let kind := if err = 3 then 1 else if err = 4 then 3 else err
      (s.die (core / 1024)).log.length < 256 → Runs (execErrand (.cellError struct where_ err) s) fun q => SameBytes s q ∧ q.ctxs = s.ctxs ∧
        (((q.die (core / 1024)).log.getLast?).map fun x => x.1.toNat % 65536) = some (256 * struct + kind) ∧
        (err = 4 → q.poison.contains (spot / 8) = true) ∧ (err ≠ 4 → q.poison = s.poison)) ∧
    (getD s.seqs sector 0 ≠ seq ∨ s.mem.wf = true → exec (.scrubWrite mdie sector seq) s =
      .next (s.modDie mdie fun d => { d with scrubAt := del d.scrubAt sector }))

/-- R361, R425 to R433: boot, resets, the host's and the scale-up ports' accesses, the writes of the launch ports and of the
mailbox, what the ports pass on, and the partition controller's commands with their results. Choices and readings of the model's
own on which it rests: log entries 1, 2, 3, 4, 5, 13, 15, 45, 46, 47, 50, 51, 65, 75, 108, 110. -/
def Obligations.HostAndBootEvents : Prop :=
  ∀ (s : State) (die peer haddr size data hpart bank : Nat) (wr : Bool) (arg0 arg1 res mode set share idx slice nonce buf : Word),
    let p := s.part hpart
    let there := (get? s.parts hpart).isSome = true
    let g := set.toNat
    let into := idx.toNat
    let d := s.set g
    let part := 4 * g + into
    let asked := fun (q : State) => q.cstore = s.cstore ∧ q.ctxs = s.ctxs
    -- resets and boot
    exec .packageReset s = .next { State.reset with
      flash := s.flash, fresh := s.fresh, sets := s.sets.map fun x => (x.1, { ({} : DieSet) with inst := x.2.inst }) } ∧
    (5 ≤ s.bootStep ∨ s.bootFail ≠ 0 → exec .bootStepAdvance s = .next s) ∧
    (s.bootFail = 0 →
      (s.bootStep = 0 → get? s.flash 0 = none → exec .bootStepAdvance s = .next (bootFailed s 1 1)) ∧
      (s.bootStep = 0 → ∀ i ∈ get? s.flash 0,
        exec .bootStepAdvance s = .next (if i.verified then { s.extend 0 i with bootStep := 1 } else bootFailed s 1 1)) ∧
      (s.bootStep = 1 → get? s.flash 1 = none → exec .bootStepAdvance s = .next (bootFailed s 2 1)) ∧
      (s.bootStep = 1 → ∀ i ∈ get? s.flash 1, Runs (exec .bootStepAdvance s) fun q => SameRegisters s q ∧
        if i.verified && inits 2 ((List.range 12).map (8 + ·)) then
          q.bootStep = 2 ∧ q.bootFail = 0 ∧ q.stamps = [] ∧ q.lost = [] ∧ (q.set 0).inst = ((s.set 0).inst + 1) % 2 ^ 32 ∧
            (List.range 12).all (fun m => (q.die (8 + m)).on) = true
        else (q.bootStep, q.bootFail, q.bootReason) = (1, 2, if i.verified then 2 else 1)) ∧
      (s.bootStep = 2 → get? s.flash 2 = none → exec .bootStepAdvance s = .next (bootFailed s 3 1)) ∧
      (s.bootStep = 2 → ∀ i ∈ get? s.flash 2, Runs (exec .bootStepAdvance s) fun q =>
        if i.verified && inits 3 (List.range 8) && ({ s.extend 2 i with mode := 0 }).handlersOk i 0 (List.range 8) then
          q.bootStep = 3 ∧ q.mode = 0 ∧ (q.set 0).active = some 0 ∧ q.meas = (s.extend 2 i).meas ∧ (List.range 8).all (fun c => (q.die c).on) = true
        else (q.bootStep, q.bootFail) = (2, 3) ∧ q.cores = s.cores ∧ q.mem = s.mem) ∧
      (s.bootStep = 3 → (List.range 20).all (fun c => (s.die c).locked) = true → exec .bootStepAdvance s =
        .next (if inits 4 (List.range 20) then { s with bootStep := 4 } else bootFailed s 4 2)) ∧
      (s.bootStep = 4 → get? s.flash 3 = none → Runs (exec .bootStepAdvance s) fun q => SameRegisters s q ∧ (q.bootStep, q.bootFail) = (4, 5)) ∧
      (s.bootStep = 4 → ∀ i ∈ get? s.flash 3, exec .bootStepAdvance s =
        .next (if !inits 5 [21] then bootFailed s 5 2 else if i.verified then { s.extend 3 i with bootStep := 5 } else bootFailed s 5 1))) ∧
    (8 ≤ die ∨ s.diefail.getLsbD die = true ∨ s.bootStep < 3 → exec (.dieReset die) s = .next s) ∧
    (die < 8 → s.diefail.getLsbD die = false → 3 ≤ s.bootStep → Runs (exec (.dieReset die) s) fun q =>
      (∀ x ∈ q.cstore, x ∈ s.cstore ∧ dieOf (locCore x.1) ≠ die) ∧ (∀ x ∈ s.cstore, dieOf (locCore x.1) ≠ die → x ∈ q.cstore) ∧
      (q.die die).walks = [] ∧ (get? s.flash 2 = none → q.mem = s.mem ∧ (q.die die).on = false ∧ (q.bootFail, q.bootReason) = (3, 1) ∧
        ∀ x ∈ q.cores, dieOf x.1 ≠ die)) ∧
    -- accesses from outside
    -- before boot step 5 the host link is not enabled
    (s.bootStep < 5 → exec (.hostAccess wr haddr size data) s = .next s) ∧
    (let word := fun i : Nat => BitVec.ofNat 64 (data / 2 ^ (64 * i))
     let out := exec (.hostAccess wr haddr size data) s
     5 ≤ s.bootStep →
      -- a launch port of a partition takes a whole 32-byte command while it has credit; anything else it refuses
      (inPorts haddr = true →
        let port := (haddr - Config.portBase) / 32
        let taken := size = 32 ∧ (haddr - Config.portBase) % 32 = 0 ∧ (s.part port).port.length < 256 ∧ (word 3).toNat % 8 = 0 ∧
          (word 0 = 1 ∧ word 2 = 0 ∨ word 0 = 2 ∨ word 0 = 3)
        (wr = false → out = .next s) ∧
        (wr = true → taken → (get? s.parts port).isSome = true → Runs out fun q => SameRegisters s q ∧
          (q.part port).port = (s.part port).port ++ [if word 0 = 1 then .portLaunch port (word 1) (word 2) (word 3)
            else if word 0 = 2 then .portRelaunch port (word 1) (word 2) (word 3) else .portRepair port (word 1) (word 2) (word 3)]) ∧
        (wr = true → ¬taken → out = .next { s with inbox := s.inbox ++ [.launchPortWriteRefused port] })) ∧
      -- the mailbox of the partition controller
      (inPorts haddr = false → inMailbox haddr = true →
        let taken := size = 64 ∧ haddr = Config.mailBase ∧ s.mailbox.length < 16
        (wr = false → out = .next s) ∧
        (wr = true → taken → Runs out fun q => SameRegisters s q ∧
          (word 0 = 1 → q.mailbox = s.mailbox ++ [.setmode (word 1) (word 7)]) ∧
          (word 0 = 2 → q.mailbox = s.mailbox ++ [.create (word 1) (word 2) (word 7)]) ∧
          (word 0 = 3 → q.mailbox = s.mailbox ++ [.destroy (word 1) (word 2) (word 7)]) ∧
          (word 0 = 4 → q.mailbox = s.mailbox ++ [.swap (word 1) (word 2) (word 7)]) ∧
          (word 0 = 5 → q.mailbox = s.mailbox ++ [.slice (word 1) (word 2) (word 7)]) ∧
          (word 0 = 6 → q.mailbox = s.mailbox ++ [.preempt (word 1) (word 7)]) ∧
          (word 0 = 7 → q.mailbox = s.mailbox ++ [.resume (word 1) (word 7)]) ∧
          (word 0 = 8 → q.mailbox = s.mailbox ++ [.attest (word 1) (word 2) (word 7)])) ∧
        (wr = true → ¬taken → Runs out fun q => SameRegisters s q ∧ q.mailbox = s.mailbox ∧
          ∃ v ∈ q.inbox.getLast?, ((List.range 32).any fun k => v == .mailboxWriteRefused k) = true)) ∧
      -- and any other access takes its place at the home of its bytes
      (inPorts haddr = false → inMailbox haddr = false →
        (onDevice haddr size = false → out = .next s) ∧
        (onDevice haddr size = true → (s.die 21).knows = [] → Runs out fun q => Kept s q ∧ Sent q (.errand (.host wr haddr size data))))) ∧
    (192 ≤ peer → exec (.scaleUpAccess peer wr haddr size data) s = .next s) ∧
    -- a peer's own memory holds what the peer stores there
    (peer < 192 → ofPeer peer haddr size = true → exec (.scaleUpAccess peer false haddr size data) s = .next s ∧
      Runs (exec (.scaleUpAccess peer true haddr size data) s) fun q => asked q ∧ Stored s.mem q.mem haddr data size) ∧
    (peer < 192 → ofPeer peer haddr size = false → onDevice haddr size = false → exec (.scaleUpAccess peer wr haddr size data) s = .next s) ∧
    (onDevice haddr size = true →
      let stored := fun (q : State) => asked q ∧ (Whole s haddr size → Stored s.mem q.mem haddr data size)
      let loaded := fun (q : State) => asked q ∧ q.mem = s.mem ∧ ((s.line (haddr / 192)).st = .m → size ≠ 0 → haddr % 192 + size ≤ 192 →
        (q.line (haddr / 192)).st = .s ∧ (q.line (haddr / 192)).owner = none)
      Runs (execErrand (.host true haddr size data) s) stored ∧ Runs (execErrand (.host false haddr size data) s) loaded ∧
        (peer < 192 → Runs (exec (.scaleUpAccess peer true haddr size data) s) stored ∧
          Runs (exec (.scaleUpAccess peer false haddr size data) s) loaded)) ∧
    -- launch ports
    (¬there → exec (.launchPortWriteRefused hpart) s = .next s ∧ exec (.mailboxWriteRefused hpart) s = .next s) ∧
    (there → exec (.launchPortWriteRefused hpart) s = .next (s.modPart hpart fun x => { x with refused := (p.refused + 1) % 2 ^ 32 }) ∧
      exec (.mailboxWriteRefused hpart) s = .next (s.modPart hpart fun x => { x with refused := (p.refused + 1) % 2 ^ 32 })) ∧
    (there →
      let bad := fun (q : State) => Kept { s with parts := q.parts } q ∧ q.inbox = s.inbox ∧ (q.part hpart).refused = (p.refused + 1) % 2 ^ 32
      let none_ := fun (q : State) => asked q ∧ Field s q hpart res.toNat 0 0 8
      (arg1 ≠ 0 ∨ res.toNat % 8 ≠ 0 → Runs (exec (.portLaunch hpart arg0 arg1 res) s) bad) ∧
      (res.toNat % 8 ≠ 0 → Runs (exec (.portRelaunch hpart arg0 arg1 res) s) bad ∧ Runs (exec (.portRepair hpart arg0 arg1 res) s) bad) ∧
      (res.toNat % 8 = 0 →
        (arg0.toNat % 128 ≠ 0 ∨ s.mayAccess hpart 1 arg0.toNat .load = false → Runs (exec (.portLaunch hpart arg0 0 res) s) none_) ∧
        (arg0.toNat % 128 = 0 → s.mayAccess hpart 1 arg0.toNat .load = true → ∀ pa ∈ s.physOf hpart arg0.toNat,
          Runs (exec (.portLaunch hpart arg0 0 res) s) fun q => asked q ∧ q.mem = s.mem ∧
            q.inbox = s.inbox ++ [.launchAccept hpart (BitVec.ofNat 64 pa) noCtx 0 false 1 res] ∧ (q.part hpart).port = p.port.erase (.portLaunch hpart arg0 0 res)) ∧
        (arg0.toNat % 1024 ≠ 0 ∨ s.mayAccess hpart 1 arg0.toNat .load = false →
          Runs (exec (.portRelaunch hpart arg0 arg1 res) s) none_ ∧ Runs (exec (.portRepair hpart arg0 arg1 res) s) none_) ∧
        (arg0.toNat % 1024 = 0 → s.mayAccess hpart 1 arg0.toNat .load = true →
          (Runs (exec (.portRelaunch hpart arg0 arg1 res) s) fun q => asked q ∧ q.mem = s.mem ∧
            q.inbox = s.inbox ++ [.relaunchAccept hpart arg0 arg1 noCtx 0 false 1 false res]) ∧
          (Runs (exec (.portRepair hpart arg0 arg1 res) s) fun q => asked q ∧ q.mem = s.mem ∧
            q.inbox = s.inbox ++ [.relaunchAccept hpart arg0 arg1 noCtx 0 false 1 true res])))) ∧
    -- the partition controller
    (2 < mode.toNat → Runs (exec (.setmode mode res) s) fun q => asked q ∧ q.mode = s.mode ∧ Result s q res 1 0) ∧
    (mode.toNat ≤ 2 → s.launches ≠ [] → Runs (exec (.setmode mode res) s) fun q => asked q ∧ q.mode = s.mode ∧ Result s q res 2 0) ∧
    (mode.toNat ≤ 2 → s.launches = [] → get? s.flash 2 = none → Runs (exec (.setmode mode res) s) fun q =>
      asked q ∧ q.mode = s.mode ∧ Result s q res 1 0) ∧
    (mode.toNat ≤ 2 → s.launches = [] → ∀ i ∈ get? s.flash 2, Runs (exec (.setmode mode res) s) fun q =>
      if (List.range (setCount mode.toNat)).all fun v => ({ s with mode := mode.toNat }).handlersOk i (4 * v) (setDies mode.toNat v) then
        q.mode = mode.toNat ∧ q.blocks = [] ∧ q.tiles = [] ∧ q.lost = [] ∧ (q.set 0).active = some 0 ∧ q.cstore = s.cstore
      else asked q ∧ q.mode = s.mode ∧ Result s q res 1 0) ∧
    (setCount s.mode ≤ g ∨ 2 ^ 12 ≤ share.toNat ∨ bits share.toNat 4 4 < 2 ∨ 14 < bits share.toNat 0 4 →
      Runs (exec (.create set share res) s) fun q => asked q ∧ q.parts = s.parts ∧ Result s q res 1 0) ∧
    (g < setCount s.mode → share.toNat < 2 ^ 12 → 2 ≤ bits share.toNat 4 4 → bits share.toNat 0 4 ≤ 14 →
      let need := bits share.toNat 0 4 + bits share.toNat 4 4 + bits share.toNat 8 4
      let full := (List.range 4).all fun v => (get? s.parts (4 * g + v)).isSome
      let short := (setClusters s.mode g).any fun c => (s.spareBanks c).length < need
      (full = true ∨ short = true → Runs (exec (.create set share res) s) fun q => asked q ∧ q.parts = s.parts ∧ Result s q res 3 0) ∧
      (full = false → short = false → get? s.flash 2 = none → Runs (exec (.create set share res) s) fun q =>
        asked q ∧ q.parts = s.parts ∧ Result s q res 1 0) ∧
      (full = false → short = false → ∀ i ∈ get? s.flash 2, ∀ v ∈ (List.range 4).find? (fun v => (get? s.parts (4 * g + v)).isNone),
        Runs (exec (.create set share res) s) fun q =>
          if s.handlersOk i (4 * g + v) (setDies s.mode g) then
            q.cstore = s.cstore ∧ (q.part (4 * g + v)).startDue = true ∧
              (q.part (4 * g + v)).share = (bits share.toNat 0 4, bits share.toNat 4 4, bits share.toNat 8 4)
          else asked q ∧ q.parts = s.parts ∧ Result s q res 1 0)) ∧
    (setCount s.mode ≤ g ∨ 3 < into ∨ get? s.parts part = none → Runs (exec (.destroy set idx res) s) fun q =>
      asked q ∧ q.parts = s.parts ∧ Result s q res 1 0) ∧
    (g < setCount s.mode → into ≤ 3 → (get? s.parts part).isSome = true →
      (s.launches.any (fun l => l.2.part == part) = true → Runs (exec (.destroy set idx res) s) fun q =>
        asked q ∧ q.parts = s.parts ∧ Result s q res 2 0) ∧
      (s.launches.any (fun l => l.2.part == part) = false → Runs (exec (.destroy set idx res) s) fun q =>
        q.cstore = s.cstore ∧ q.parts = del s.parts part ∧ Result s q res 0 0 ∧
        (d.active = some into → (q.set g).active = none) ∧ (d.active ≠ some into → (q.set g).active = d.active) ∧
        ((setClusters s.mode g).contains 0 = true → bank < 16 → (s.cluster 0).owner.length = 16 → (s.cluster 0).modes.length = 16 →
          nth (s.cluster 0).owner bank none = some into →
          nth (q.cluster 0).owner bank none = none ∧ nth (q.cluster 0).modes bank .cache = .cache))) ∧
    (setCount s.mode ≤ g ∨ 3 < into ∨ get? s.parts part = none → Runs (exec (.swap set idx res) s) fun q => asked q ∧ q.sets = s.sets ∧ Result s q res 1 0) ∧
    (g < setCount s.mode → into ≤ 3 → (get? s.parts part).isSome = true →
      (d.active = some into → d.halted = false → Runs (exec (.swap set idx res) s) fun q =>
        asked q ∧ (q.set g).sliceAt = s.gtime ∧ (q.set g).ctl = d.ctl ∧ Result s q res 0 0) ∧
      (d.active = some into → d.halted = true → Runs (exec (.swap set idx res) s) fun q => asked q ∧ q.mem = s.mem ∧
        Asked s q g 3 into fun v => .preemptResume v part) ∧
      (∀ a ∈ d.active, a ≠ into → Runs (exec (.swap set idx res) s) fun q => asked q ∧ q.mem = s.mem ∧
        Asked s q g 1 into fun v => .preemptRequest v (4 * g + a)) ∧
      (d.active = none → Runs (exec (.swap set idx res) s) fun q => asked q ∧ q.mem = s.mem ∧
        Asked s q g 2 into fun v => .partitionSwap v 32 part)) ∧
    (setCount s.mode ≤ g ∨ (slice ≠ 0 ∧ (slice.toNat < 100 ∨ 100000 < slice.toNat)) → Runs (exec (.slice set slice res) s) fun q =>
      asked q ∧ q.sets = s.sets ∧ Result s q res 1 0) ∧
    (g < setCount s.mode → (slice = 0 ∨ 100 ≤ slice.toNat ∧ slice.toNat ≤ 100000) → Runs (exec (.slice set slice res) s) fun q =>
      asked q ∧ (q.set g).slice = slice.toNat ∧ (q.set g).active = d.active ∧ Result s q res 0 0) ∧
    (setCount s.mode ≤ g ∨ d.active = none → (Runs (exec (.preempt set res) s) fun q => asked q ∧ q.sets = s.sets ∧ Result s q res 1 0) ∧
      Runs (exec (.resume set res) s) fun q => asked q ∧ q.sets = s.sets ∧ Result s q res 1 0) ∧
    (g < setCount s.mode → ∀ a ∈ d.active,
      (Runs (exec (.preempt set res) s) fun q => asked q ∧ q.mem = s.mem ∧ Asked s q g 0 a fun v => .preemptRequest v (4 * g + a)) ∧
      (d.halted = true → Runs (exec (.resume set res) s) fun q => asked q ∧ q.mem = s.mem ∧
        Asked s q g 3 a fun v => .preemptResume v (4 * g + a)) ∧
      (d.halted = false → Runs (exec (.resume set res) s) fun q => asked q ∧ q.sets = s.sets ∧ Result s q res 0 0)) ∧
    (s.meas.length = 4 → Runs (exec (.attest nonce buf res) s) fun q => asked q ∧ q.mailbox = s.mailbox.erase (.attest nonce buf res) ∧
      (s.mem.wf = true → Whole s buf.toNat 520 → res.toNat + 8 ≤ buf.toNat ∨ buf.toNat + 520 ≤ res.toNat →
        readList q.mem buf.toNat 388 = s.report520 (readList s.mem nonce.toNat 64))) ∧
    (s.sliceDue g = false → exec (.timeSliceExpiry g) s = .next s) ∧
    (s.sliceDue g = true → ∀ a ∈ d.active,
      ((List.range 3).all (fun v => !s.wantsTurn (4 * g + (a + 1 + v) % 4)) = true → exec (.timeSliceExpiry g) s =
        .next (s.modSet g fun x => { x with sliceAt := s.gtime })) ∧
      (s.wantsTurn (4 * g + (a + 1) % 4) = true → Runs (exec (.timeSliceExpiry g) s) fun q => asked q ∧ q.mem = s.mem ∧
        Asked s q g 1 ((a + 1) % 4) fun v => .preemptRequest v (4 * g + a)))
end

