-- ==== Sys2Proof/Laws/Exec.lean ====
section
/-! SUPPORT. What `exec` does with each constructor of Instr: it calls that instruction's own meaning. Each by rfl, so that no later
proof unfolds the dispatch. -/

set_option Elab.async false

namespace Sys2Proof.Laws

open Sys2Proof Sys2Proof.Machine

@[simp] theorem exec_add (w : Bool) (g : Bool) (b : Reg) (h : Bool) (a : Reg) (d : Reg) (s : State) : exec (.add w g b h a d) s = execAdd w g b h a d s := rfl
@[simp] theorem exec_sub (w : Bool) (g : Bool) (b : Reg) (h : Bool) (a : Reg) (d : Reg) (s : State) : exec (.sub w g b h a d) s = execSub w g b h a d s := rfl
@[simp] theorem exec_mul (w : Bool) (g : Bool) (b : Reg) (h : Bool) (a : Reg) (d : Reg) (s : State) : exec (.mul w g b h a d) s = execMul w g b h a d s := rfl
@[simp] theorem exec_mulh (z : Bool) (w : Bool) (g : Bool) (b : Reg) (h : Bool) (a : Reg) (d : Reg) (s : State) : exec (.mulh z w g b h a d) s = execMulh z w g b h a d s := rfl
@[simp] theorem exec_div (z : Bool) (w : Bool) (g : Bool) (b : Reg) (h : Bool) (a : Reg) (d : Reg) (s : State) : exec (.div z w g b h a d) s = execDiv z w g b h a d s := rfl
@[simp] theorem exec_rem (z : Bool) (w : Bool) (g : Bool) (b : Reg) (h : Bool) (a : Reg) (d : Reg) (s : State) : exec (.rem z w g b h a d) s = execRem z w g b h a d s := rfl
@[simp] theorem exec_and (w : Bool) (g : Bool) (b : Reg) (h : Bool) (a : Reg) (d : Reg) (s : State) : exec (.and w g b h a d) s = execAnd w g b h a d s := rfl
@[simp] theorem exec_or (w : Bool) (g : Bool) (b : Reg) (h : Bool) (a : Reg) (d : Reg) (s : State) : exec (.or w g b h a d) s = execOr w g b h a d s := rfl
@[simp] theorem exec_xor (w : Bool) (g : Bool) (b : Reg) (h : Bool) (a : Reg) (d : Reg) (s : State) : exec (.xor w g b h a d) s = execXor w g b h a d s := rfl
@[simp] theorem exec_andn (w : Bool) (g : Bool) (b : Reg) (h : Bool) (a : Reg) (d : Reg) (s : State) : exec (.andn w g b h a d) s = execAndn w g b h a d s := rfl
@[simp] theorem exec_orn (w : Bool) (g : Bool) (b : Reg) (h : Bool) (a : Reg) (d : Reg) (s : State) : exec (.orn w g b h a d) s = execOrn w g b h a d s := rfl
@[simp] theorem exec_shl (w : Bool) (g : Bool) (b : Reg) (h : Bool) (a : Reg) (d : Reg) (s : State) : exec (.shl w g b h a d) s = execShl w g b h a d s := rfl
@[simp] theorem exec_shr (w : Bool) (g : Bool) (b : Reg) (h : Bool) (a : Reg) (d : Reg) (s : State) : exec (.shr w g b h a d) s = execShr w g b h a d s := rfl
@[simp] theorem exec_sar (w : Bool) (g : Bool) (b : Reg) (h : Bool) (a : Reg) (d : Reg) (s : State) : exec (.sar w g b h a d) s = execSar w g b h a d s := rfl
@[simp] theorem exec_rol (w : Bool) (g : Bool) (b : Reg) (h : Bool) (a : Reg) (d : Reg) (s : State) : exec (.rol w g b h a d) s = execRol w g b h a d s := rfl
@[simp] theorem exec_ror (w : Bool) (g : Bool) (b : Reg) (h : Bool) (a : Reg) (d : Reg) (s : State) : exec (.ror w g b h a d) s = execRor w g b h a d s := rfl
@[simp] theorem exec_clz (w : Bool) (h : Bool) (a : Reg) (d : Reg) (s : State) : exec (.clz w h a d) s = execClz w h a d s := rfl
@[simp] theorem exec_ctz (w : Bool) (h : Bool) (a : Reg) (d : Reg) (s : State) : exec (.ctz w h a d) s = execCtz w h a d s := rfl
@[simp] theorem exec_popc (w : Bool) (h : Bool) (a : Reg) (d : Reg) (s : State) : exec (.popc w h a d) s = execPopc w h a d s := rfl
@[simp] theorem exec_bext (z : Bool) (w : Bool) (g : Bool) (b : Reg) (h : Bool) (a : Reg) (d : Reg) (s : State) : exec (.bext z w g b h a d) s = execBext z w g b h a d s := rfl
@[simp] theorem exec_bins (w : Bool) (g : Bool) (b : Reg) (h : Bool) (a : Reg) (d : Reg) (s : State) : exec (.bins w g b h a d) s = execBins w g b h a d s := rfl
@[simp] theorem exec_sext (s : BitVec 2) (w : Bool) (h : Bool) (a : Reg) (d : Reg) (σ : State) : exec (.sext s w h a d) σ = execSext s w h a d σ := rfl
@[simp] theorem exec_zext (s : BitVec 2) (w : Bool) (h : Bool) (a : Reg) (d : Reg) (σ : State) : exec (.zext s w h a d) σ = execZext s w h a d σ := rfl
@[simp] theorem exec_min (z : Bool) (w : Bool) (g : Bool) (b : Reg) (h : Bool) (a : Reg) (d : Reg) (s : State) : exec (.min z w g b h a d) s = execMin z w g b h a d s := rfl
@[simp] theorem exec_max (z : Bool) (w : Bool) (g : Bool) (b : Reg) (h : Bool) (a : Reg) (d : Reg) (s : State) : exec (.max z w g b h a d) s = execMax z w g b h a d s := rfl
@[simp] theorem exec_abs (w : Bool) (h : Bool) (a : Reg) (d : Reg) (s : State) : exec (.abs w h a d) s = execAbs w h a d s := rfl
@[simp] theorem exec_mov (w : Bool) (h : Bool) (a : Reg) (d : Reg) (s : State) : exec (.mov w h a d) s = execMov w h a d s := rfl
@[simp] theorem exec_sel (p : BitVec 6) (g : Bool) (b : Reg) (h : Bool) (a : Reg) (d : Reg) (s : State) : exec (.sel p g b h a d) s = execSel p g b h a d s := rfl
@[simp] theorem exec_cmp (w : Bool) (p : BitVec 6) (g : Bool) (b : Reg) (h : Bool) (a : Reg) (c : BitVec 3) (s : State) : exec (.cmp w p g b h a c) s = execCmp w p g b h a c s := rfl
@[simp] theorem exec_xset (h : Bool) (a : Reg) (d : Reg) (s : State) : exec (.xset h a d) s = execXset h a d s := rfl
@[simp] theorem exec_xget (h : Bool) (a : Reg) (d : Reg) (s : State) : exec (.xget h a d) s = execXget h a d s := rfl
@[simp] theorem exec_andi (w : Bool) (i : BitVec 12) (h : Bool) (a : Reg) (d : Reg) (s : State) : exec (.andi w i h a d) s = execAndi w i h a d s := rfl
@[simp] theorem exec_ori (w : Bool) (i : BitVec 12) (h : Bool) (a : Reg) (d : Reg) (s : State) : exec (.ori w i h a d) s = execOri w i h a d s := rfl
@[simp] theorem exec_xori (w : Bool) (i : BitVec 12) (h : Bool) (a : Reg) (d : Reg) (s : State) : exec (.xori w i h a d) s = execXori w i h a d s := rfl
@[simp] theorem exec_shli (w : Bool) (i : BitVec 8) (h : Bool) (a : Reg) (d : Reg) (s : State) : exec (.shli w i h a d) s = execShli w i h a d s := rfl
@[simp] theorem exec_shri (w : Bool) (i : BitVec 8) (h : Bool) (a : Reg) (d : Reg) (s : State) : exec (.shri w i h a d) s = execShri w i h a d s := rfl
@[simp] theorem exec_sari (w : Bool) (i : BitVec 8) (h : Bool) (a : Reg) (d : Reg) (s : State) : exec (.sari w i h a d) s = execSari w i h a d s := rfl
@[simp] theorem exec_roli (w : Bool) (i : BitVec 8) (h : Bool) (a : Reg) (d : Reg) (s : State) : exec (.roli w i h a d) s = execRoli w i h a d s := rfl
@[simp] theorem exec_rori (w : Bool) (i : BitVec 8) (h : Bool) (a : Reg) (d : Reg) (s : State) : exec (.rori w i h a d) s = execRori w i h a d s := rfl
@[simp] theorem exec_muli (w : Bool) (i : BitVec 12) (h : Bool) (a : Reg) (d : Reg) (s : State) : exec (.muli w i h a d) s = execMuli w i h a d s := rfl
@[simp] theorem exec_addi (i : BitVec 18) (h : Bool) (a : Reg) (d : Reg) (s : State) : exec (.addi i h a d) s = execAddi i h a d s := rfl
@[simp] theorem exec_movi (i : BitVec 18) (d : Reg) (s : State) : exec (.movi i d) s = execMovi i d s := rfl
@[simp] theorem exec_movh (i : BitVec 18) (h : Bool) (a : Reg) (d : Reg) (s : State) : exec (.movh i h a d) s = execMovh i h a d s := rfl
@[simp] theorem exec_cmpi (p : BitVec 6) (i : BitVec 12) (h : Bool) (a : Reg) (c : BitVec 3) (s : State) : exec (.cmpi p i h a c) s = execCmpi p i h a c s := rfl
@[simp] theorem exec_padd (l : BitVec 2) (g : Bool) (b : Reg) (h : Bool) (a : Reg) (d : Reg) (s : State) : exec (.padd l g b h a d) s = execPadd l g b h a d s := rfl
@[simp] theorem exec_psub (l : BitVec 2) (g : Bool) (b : Reg) (h : Bool) (a : Reg) (d : Reg) (s : State) : exec (.psub l g b h a d) s = execPsub l g b h a d s := rfl
@[simp] theorem exec_padds (z : Bool) (l : BitVec 2) (g : Bool) (b : Reg) (h : Bool) (a : Reg) (d : Reg) (s : State) : exec (.padds z l g b h a d) s = execPadds z l g b h a d s := rfl
@[simp] theorem exec_psubs (z : Bool) (l : BitVec 2) (g : Bool) (b : Reg) (h : Bool) (a : Reg) (d : Reg) (s : State) : exec (.psubs z l g b h a d) s = execPsubs z l g b h a d s := rfl
@[simp] theorem exec_pmul (l : BitVec 2) (g : Bool) (b : Reg) (h : Bool) (a : Reg) (d : Reg) (s : State) : exec (.pmul l g b h a d) s = execPmul l g b h a d s := rfl
@[simp] theorem exec_pmulh (z : Bool) (l : BitVec 2) (g : Bool) (b : Reg) (h : Bool) (a : Reg) (d : Reg) (s : State) : exec (.pmulh z l g b h a d) s = execPmulh z l g b h a d s := rfl
@[simp] theorem exec_pdot (z : Bool) (l : BitVec 2) (g : Bool) (b : Reg) (h : Bool) (a : Reg) (d : Reg) (s : State) : exec (.pdot z l g b h a d) s = execPdot z l g b h a d s := rfl
@[simp] theorem exec_pavg (z : Bool) (l : BitVec 2) (g : Bool) (b : Reg) (h : Bool) (a : Reg) (d : Reg) (s : State) : exec (.pavg z l g b h a d) s = execPavg z l g b h a d s := rfl
@[simp] theorem exec_pmin (z : Bool) (l : BitVec 2) (g : Bool) (b : Reg) (h : Bool) (a : Reg) (d : Reg) (s : State) : exec (.pmin z l g b h a d) s = execPmin z l g b h a d s := rfl
@[simp] theorem exec_pmax (z : Bool) (l : BitVec 2) (g : Bool) (b : Reg) (h : Bool) (a : Reg) (d : Reg) (s : State) : exec (.pmax z l g b h a d) s = execPmax z l g b h a d s := rfl
@[simp] theorem exec_pabs (l : BitVec 2) (h : Bool) (a : Reg) (d : Reg) (s : State) : exec (.pabs l h a d) s = execPabs l h a d s := rfl
@[simp] theorem exec_psad (z : Bool) (l : BitVec 2) (g : Bool) (b : Reg) (h : Bool) (a : Reg) (d : Reg) (s : State) : exec (.psad z l g b h a d) s = execPsad z l g b h a d s := rfl
@[simp] theorem exec_pclip (z : Bool) (l : BitVec 2) (g : Bool) (b : Reg) (h : Bool) (a : Reg) (d : Reg) (s : State) : exec (.pclip z l g b h a d) s = execPclip z l g b h a d s := rfl
@[simp] theorem exec_pshl (l : BitVec 2) (g : Bool) (b : Reg) (h : Bool) (a : Reg) (d : Reg) (s : State) : exec (.pshl l g b h a d) s = execPshl l g b h a d s := rfl
@[simp] theorem exec_pshr (l : BitVec 2) (g : Bool) (b : Reg) (h : Bool) (a : Reg) (d : Reg) (s : State) : exec (.pshr l g b h a d) s = execPshr l g b h a d s := rfl
@[simp] theorem exec_psar (l : BitVec 2) (g : Bool) (b : Reg) (h : Bool) (a : Reg) (d : Reg) (s : State) : exec (.psar l g b h a d) s = execPsar l g b h a d s := rfl
@[simp] theorem exec_pvshl (l : BitVec 2) (g : Bool) (b : Reg) (h : Bool) (a : Reg) (d : Reg) (s : State) : exec (.pvshl l g b h a d) s = execPvshl l g b h a d s := rfl
@[simp] theorem exec_pvshr (l : BitVec 2) (g : Bool) (b : Reg) (h : Bool) (a : Reg) (d : Reg) (s : State) : exec (.pvshr l g b h a d) s = execPvshr l g b h a d s := rfl
@[simp] theorem exec_pvsar (l : BitVec 2) (g : Bool) (b : Reg) (h : Bool) (a : Reg) (d : Reg) (s : State) : exec (.pvsar l g b h a d) s = execPvsar l g b h a d s := rfl
@[simp] theorem exec_pcmp (k : BitVec 3) (l : BitVec 2) (g : Bool) (b : Reg) (h : Bool) (a : Reg) (c : BitVec 3) (s : State) : exec (.pcmp k l g b h a c) s = execPcmp k l g b h a c s := rfl
@[simp] theorem exec_psel (k : BitVec 3) (l : BitVec 2) (g : Bool) (b : Reg) (h : Bool) (a : Reg) (d : Reg) (s : State) : exec (.psel k l g b h a d) s = execPsel k l g b h a d s := rfl
@[simp] theorem exec_pperm (g : Bool) (b : Reg) (h : Bool) (a : Reg) (d : Reg) (s : State) : exec (.pperm g b h a d) s = execPperm g b h a d s := rfl
@[simp] theorem exec_pnarrow (z : Bool) (l : BitVec 2) (g : Bool) (b : Reg) (h : Bool) (a : Reg) (d : Reg) (s : State) : exec (.pnarrow z l g b h a d) s = execPnarrow z l g b h a d s := rfl
@[simp] theorem exec_pwiden (z : Bool) (l : BitVec 2) (u : Bool) (h : Bool) (a : Reg) (d : Reg) (s : State) : exec (.pwiden z l u h a d) s = execPwiden z l u h a d s := rfl
@[simp] theorem exec_fadd (g : Bool) (b : Reg) (h : Bool) (a : Reg) (d : Reg) (s : State) : exec (.fadd g b h a d) s = execFadd g b h a d s := rfl
@[simp] theorem exec_fsub (g : Bool) (b : Reg) (h : Bool) (a : Reg) (d : Reg) (s : State) : exec (.fsub g b h a d) s = execFsub g b h a d s := rfl
@[simp] theorem exec_fmul (g : Bool) (b : Reg) (h : Bool) (a : Reg) (d : Reg) (s : State) : exec (.fmul g b h a d) s = execFmul g b h a d s := rfl
@[simp] theorem exec_fma (g : Bool) (b : Reg) (h : Bool) (a : Reg) (d : Reg) (s : State) : exec (.fma g b h a d) s = execFma g b h a d s := rfl
@[simp] theorem exec_fdiv (g : Bool) (b : Reg) (h : Bool) (a : Reg) (d : Reg) (s : State) : exec (.fdiv g b h a d) s = execFdiv g b h a d s := rfl
@[simp] theorem exec_fsqrt (h : Bool) (a : Reg) (d : Reg) (s : State) : exec (.fsqrt h a d) s = execFsqrt h a d s := rfl
@[simp] theorem exec_fmin (g : Bool) (b : Reg) (h : Bool) (a : Reg) (d : Reg) (s : State) : exec (.fmin g b h a d) s = execFmin g b h a d s := rfl
@[simp] theorem exec_fmax (g : Bool) (b : Reg) (h : Bool) (a : Reg) (d : Reg) (s : State) : exec (.fmax g b h a d) s = execFmax g b h a d s := rfl
@[simp] theorem exec_fcmp (p : BitVec 6) (g : Bool) (b : Reg) (h : Bool) (a : Reg) (c : BitVec 3) (s : State) : exec (.fcmp p g b h a c) s = execFcmp p g b h a c s := rfl
@[simp] theorem exec_fcvt (f : BitVec 4) (h : Bool) (a : Reg) (d : Reg) (s : State) : exec (.fcvt f h a d) s = execFcvt f h a d s := rfl
@[simp] theorem exec_fclass (p : BitVec 6) (g : Bool) (b : Reg) (h : Bool) (a : Reg) (s : State) : exec (.fclass p g b h a) s = execFclass p g b h a s := rfl
@[simp] theorem exec_pset (n : BitVec 6) (s : State) : exec (.pset n) s = execPset n s := rfl
@[simp] theorem exec_pclr (n : BitVec 6) (s : State) : exec (.pclr n) s = execPclr n s := rfl
@[simp] theorem exec_pnot (a : Reg) (d : Reg) (s : State) : exec (.pnot a d) s = execPnot a d s := rfl
@[simp] theorem exec_pand (b : Reg) (a : Reg) (d : Reg) (s : State) : exec (.pand b a d) s = execPand b a d s := rfl
@[simp] theorem exec_por (b : Reg) (a : Reg) (d : Reg) (s : State) : exec (.por b a d) s = execPor b a d s := rfl
@[simp] theorem exec_pxor (b : Reg) (a : Reg) (d : Reg) (s : State) : exec (.pxor b a d) s = execPxor b a d s := rfl
@[simp] theorem exec_pwr (d : Reg) (s : State) : exec (.pwr d) s = execPwr d s := rfl
@[simp] theorem exec_pww (g : Bool) (b : Reg) (h : Bool) (a : Reg) (s : State) : exec (.pww g b h a) s = execPww g b h a s := rfl
@[simp] theorem exec_pcnt (h : Bool) (a : Reg) (d : Reg) (s : State) : exec (.pcnt h a d) s = execPcnt h a d s := rfl
@[simp] theorem exec_ld (k : BitVec 11) (s : BitVec 3) (z : BitVec 3) (h : Bool) (a : Reg) (t : Reg) (σ : State) : exec (.ld k s z h a t) σ = execLd k s z h a t σ := rfl
@[simp] theorem exec_st (k : BitVec 11) (s : BitVec 3) (z : BitVec 3) (f : Bool) (h : Bool) (a : Reg) (t : Reg) (σ : State) : exec (.st k s z f h a t) σ = execSt k s z f h a t σ := rfl
@[simp] theorem exec_ldAnchorRel (x : BitVec 5) (y : BitVec 5) (s : BitVec 3) (z : BitVec 3) (h : Bool) (a : Reg) (t : Reg) (σ : State) : exec (.ldAnchorRel x y s z h a t) σ = execLdAnchorRel x y s z h a t σ := rfl
@[simp] theorem exec_stAnchorRel (x : BitVec 5) (y : BitVec 5) (s : BitVec 3) (z : BitVec 3) (f : Bool) (h : Bool) (a : Reg) (t : Reg) (σ : State) : exec (.stAnchorRel x y s z f h a t) σ = execStAnchorRel x y s z f h a t σ := rfl
@[simp] theorem exec_amoAdd (e : Bool) (o : BitVec 3) (s : BitVec 3) (g : Bool) (b : Reg) (h : Bool) (a : Reg) (d : Reg) (σ : State) : exec (.amoAdd e o s g b h a d) σ = execAmoAdd e o s g b h a d σ := rfl
@[simp] theorem exec_amoAnd (e : Bool) (o : BitVec 3) (s : BitVec 3) (g : Bool) (b : Reg) (h : Bool) (a : Reg) (d : Reg) (σ : State) : exec (.amoAnd e o s g b h a d) σ = execAmoAnd e o s g b h a d σ := rfl
@[simp] theorem exec_amoOr (e : Bool) (o : BitVec 3) (s : BitVec 3) (g : Bool) (b : Reg) (h : Bool) (a : Reg) (d : Reg) (σ : State) : exec (.amoOr e o s g b h a d) σ = execAmoOr e o s g b h a d σ := rfl
@[simp] theorem exec_amoXor (e : Bool) (o : BitVec 3) (s : BitVec 3) (g : Bool) (b : Reg) (h : Bool) (a : Reg) (d : Reg) (σ : State) : exec (.amoXor e o s g b h a d) σ = execAmoXor e o s g b h a d σ := rfl
@[simp] theorem exec_amoMinS (e : Bool) (o : BitVec 3) (s : BitVec 3) (g : Bool) (b : Reg) (h : Bool) (a : Reg) (d : Reg) (σ : State) : exec (.amoMinS e o s g b h a d) σ = execAmoMinS e o s g b h a d σ := rfl
@[simp] theorem exec_amoMaxS (e : Bool) (o : BitVec 3) (s : BitVec 3) (g : Bool) (b : Reg) (h : Bool) (a : Reg) (d : Reg) (σ : State) : exec (.amoMaxS e o s g b h a d) σ = execAmoMaxS e o s g b h a d σ := rfl
@[simp] theorem exec_amoSwp (e : Bool) (o : BitVec 3) (s : BitVec 3) (g : Bool) (b : Reg) (h : Bool) (a : Reg) (d : Reg) (σ : State) : exec (.amoSwp e o s g b h a d) σ = execAmoSwp e o s g b h a d σ := rfl
@[simp] theorem exec_amoCas (e : Bool) (o : BitVec 3) (s : BitVec 3) (g : Bool) (b : Reg) (h : Bool) (a : Reg) (d : Reg) (σ : State) : exec (.amoCas e o s g b h a d) σ = execAmoCas e o s g b h a d σ := rfl
@[simp] theorem exec_amoFadd (e : Bool) (o : BitVec 3) (s : BitVec 3) (g : Bool) (b : Reg) (h : Bool) (a : Reg) (d : Reg) (σ : State) : exec (.amoFadd e o s g b h a d) σ = execAmoFadd e o s g b h a d σ := rfl
@[simp] theorem exec_amoMinZ (e : Bool) (o : BitVec 3) (s : BitVec 3) (g : Bool) (b : Reg) (h : Bool) (a : Reg) (d : Reg) (σ : State) : exec (.amoMinZ e o s g b h a d) σ = execAmoMinZ e o s g b h a d σ := rfl
@[simp] theorem exec_amoMaxZ (e : Bool) (o : BitVec 3) (s : BitVec 3) (g : Bool) (b : Reg) (h : Bool) (a : Reg) (d : Reg) (σ : State) : exec (.amoMaxZ e o s g b h a d) σ = execAmoMaxZ e o s g b h a d σ := rfl
@[simp] theorem exec_amoAddPost (e : Bool) (o : BitVec 3) (s : BitVec 3) (g : Bool) (b : Reg) (h : Bool) (a : Reg) (σ : State) : exec (.amoAddPost e o s g b h a) σ = execAmoAddPost e o s g b h a σ := rfl
@[simp] theorem exec_amoAndPost (e : Bool) (o : BitVec 3) (s : BitVec 3) (g : Bool) (b : Reg) (h : Bool) (a : Reg) (σ : State) : exec (.amoAndPost e o s g b h a) σ = execAmoAndPost e o s g b h a σ := rfl
@[simp] theorem exec_amoOrPost (e : Bool) (o : BitVec 3) (s : BitVec 3) (g : Bool) (b : Reg) (h : Bool) (a : Reg) (σ : State) : exec (.amoOrPost e o s g b h a) σ = execAmoOrPost e o s g b h a σ := rfl
@[simp] theorem exec_amoXorPost (e : Bool) (o : BitVec 3) (s : BitVec 3) (g : Bool) (b : Reg) (h : Bool) (a : Reg) (σ : State) : exec (.amoXorPost e o s g b h a) σ = execAmoXorPost e o s g b h a σ := rfl
@[simp] theorem exec_amoMinSPost (e : Bool) (o : BitVec 3) (s : BitVec 3) (g : Bool) (b : Reg) (h : Bool) (a : Reg) (σ : State) : exec (.amoMinSPost e o s g b h a) σ = execAmoMinSPost e o s g b h a σ := rfl
@[simp] theorem exec_amoMaxSPost (e : Bool) (o : BitVec 3) (s : BitVec 3) (g : Bool) (b : Reg) (h : Bool) (a : Reg) (σ : State) : exec (.amoMaxSPost e o s g b h a) σ = execAmoMaxSPost e o s g b h a σ := rfl
@[simp] theorem exec_amoSwpPost (e : Bool) (o : BitVec 3) (s : BitVec 3) (g : Bool) (b : Reg) (h : Bool) (a : Reg) (σ : State) : exec (.amoSwpPost e o s g b h a) σ = execAmoSwpPost e o s g b h a σ := rfl
@[simp] theorem exec_amoCasPost (e : Bool) (o : BitVec 3) (s : BitVec 3) (g : Bool) (b : Reg) (h : Bool) (a : Reg) (σ : State) : exec (.amoCasPost e o s g b h a) σ = execAmoCasPost e o s g b h a σ := rfl
@[simp] theorem exec_amoFaddPost (e : Bool) (o : BitVec 3) (s : BitVec 3) (g : Bool) (b : Reg) (h : Bool) (a : Reg) (σ : State) : exec (.amoFaddPost e o s g b h a) σ = execAmoFaddPost e o s g b h a σ := rfl
@[simp] theorem exec_amoMinZPost (e : Bool) (o : BitVec 3) (s : BitVec 3) (g : Bool) (b : Reg) (h : Bool) (a : Reg) (σ : State) : exec (.amoMinZPost e o s g b h a) σ = execAmoMinZPost e o s g b h a σ := rfl
@[simp] theorem exec_amoMaxZPost (e : Bool) (o : BitVec 3) (s : BitVec 3) (g : Bool) (b : Reg) (h : Bool) (a : Reg) (σ : State) : exec (.amoMaxZPost e o s g b h a) σ = execAmoMaxZPost e o s g b h a σ := rfl
@[simp] theorem exec_ldN (z : Bool) (u : Bool) (h : Bool) (a : Reg) (d : Reg) (s : State) : exec (.ldN z u h a d) s = execLdN z u h a d s := rfl
@[simp] theorem exec_stN (u : Bool) (g : Bool) (b : Reg) (h : Bool) (a : Reg) (s : State) : exec (.stN u g b h a) s = execStN u g b h a s := rfl
@[simp] theorem exec_pf (l : BitVec 2) (h : Bool) (a : Reg) (s : State) : exec (.pf l h a) s = execPf l h a s := rfl
@[simp] theorem exec_cflush (h : Bool) (a : Reg) (s : State) : exec (.cflush h a) s = execCflush h a s := rfl
@[simp] theorem exec_cinval (h : Bool) (a : Reg) (s : State) : exec (.cinval h a) s = execCinval h a s := rfl
@[simp] theorem exec_cinvalAll (s : State) : exec (.cinvalAll) s = execCinvalAll s := rfl
@[simp] theorem exec_fence (k : BitVec 2) (s : BitVec 3) (σ : State) : exec (.fence k s) σ = execFence k s σ := rfl
@[simp] theorem exec_stv (z : BitVec 2) (g : Bool) (b : Reg) (h : Bool) (a : Reg) (d : Reg) (s : State) : exec (.stv z g b h a d) s = execStv z g b h a d s := rfl
@[simp] theorem exec_twait (h : Bool) (a : Reg) (s : State) : exec (.twait h a) s = execTwait h a s := rfl
@[simp] theorem exec_xld (k : BitVec 7) (h : Bool) (a : Reg) (d : Reg) (s : State) : exec (.xld k h a d) s = execXld k h a d s := rfl
@[simp] theorem exec_semV (s : BitVec 3) (h : Bool) (a : Reg) (σ : State) : exec (.semV s h a) σ = execSemV s h a σ := rfl
@[simp] theorem exec_semP (s : BitVec 3) (h : Bool) (a : Reg) (σ : State) : exec (.semP s h a) σ = execSemP s h a σ := rfl
@[simp] theorem exec_jcAdd (s : BitVec 3) (g : Bool) (b : Reg) (h : Bool) (a : Reg) (σ : State) : exec (.jcAdd s g b h a) σ = execJcAdd s g b h a σ := rfl
@[simp] theorem exec_jcWait (g : Bool) (b : Reg) (h : Bool) (a : Reg) (s : State) : exec (.jcWait g b h a) s = execJcWait g b h a s := rfl
@[simp] theorem exec_waitMem (t : BitVec 4) (g : Bool) (b : Reg) (h : Bool) (a : Reg) (d : Reg) (s : State) : exec (.waitMem t g b h a d) s = execWaitMem t g b h a d s := rfl
@[simp] theorem exec_yield (s : State) : exec (.yield) s = execYield s := rfl
@[simp] theorem exec_exit (s : State) : exec (.exit) s = execExit s := rfl
@[simp] theorem exec_spawn (g : Bool) (b : Reg) (h : Bool) (a : Reg) (d : Reg) (s : State) : exec (.spawn g b h a d) s = execSpawn g b h a d s := rfl
@[simp] theorem exec_spawnDef (g : Bool) (b : Reg) (h : Bool) (a : Reg) (d : Reg) (s : State) : exec (.spawnDef g b h a d) s = execSpawnDef g b h a d s := rfl
@[simp] theorem exec_chunkInit (c : BitVec 4) (g : Bool) (b : Reg) (h : Bool) (a : Reg) (s : State) : exec (.chunkInit c g b h a) s = execChunkInit c g b h a s := rfl
@[simp] theorem exec_chunk (c : BitVec 4) (d : Reg) (s : State) : exec (.chunk c d) s = execChunk c d s := rfl
@[simp] theorem exec_barCfg (n : BitVec 2) (g : Bool) (b : Reg) (h : Bool) (a : Reg) (s : State) : exec (.barCfg n g b h a) s = execBarCfg n g b h a s := rfl
@[simp] theorem exec_barArr (n : BitVec 2) (d : Reg) (s : State) : exec (.barArr n d) s = execBarArr n d s := rfl
@[simp] theorem exec_barWait (n : BitVec 2) (h : Bool) (a : Reg) (s : State) : exec (.barWait n h a) s = execBarWait n h a s := rfl
@[simp] theorem exec_barTest (f : Bool) (n : BitVec 2) (h : Bool) (a : Reg) (d : Reg) (s : State) : exec (.barTest f n h a d) s = execBarTest f n h a d s := rfl
@[simp] theorem exec_ksend (n : BitVec 2) (g : Bool) (b : Reg) (h : Bool) (a : Reg) (s : State) : exec (.ksend n g b h a) s = execKsend n g b h a s := rfl
@[simp] theorem exec_kbinCfg (n : BitVec 2) (g : Bool) (b : Reg) (h : Bool) (a : Reg) (s : State) : exec (.kbinCfg n g b h a) s = execKbinCfg n g b h a s := rfl
@[simp] theorem exec_idr (s : BitVec 3) (d : Reg) (σ : State) : exec (.idr s d) σ = execIdr s d σ := rfl
@[simp] theorem exec_gtime (d : Reg) (s : State) : exec (.gtime d) s = execGtime d s := rfl
@[simp] theorem exec_gtimeLk (d : Reg) (s : State) : exec (.gtimeLk d) s = execGtimeLk d s := rfl
@[simp] theorem exec_cyc (d : Reg) (s : State) : exec (.cyc d) s = execCyc d s := rfl
@[simp] theorem exec_cycT (d : Reg) (s : State) : exec (.cycT d) s = execCycT d s := rfl
@[simp] theorem exec_launch (h : Bool) (a : Reg) (d : Reg) (s : State) : exec (.launch h a d) s = execLaunch h a d s := rfl
@[simp] theorem exec_talloc (h : Bool) (a : Reg) (d : Reg) (s : State) : exec (.talloc h a d) s = execTalloc h a d s := rfl
@[simp] theorem exec_tfree (h : Bool) (a : Reg) (s : State) : exec (.tfree h a) s = execTfree h a s := rfl
@[simp] theorem exec_tview (g : Bool) (b : Reg) (h : Bool) (a : Reg) (d : Reg) (s : State) : exec (.tview g b h a d) s = execTview g b h a d s := rfl
@[simp] theorem exec_tinfo (h : Bool) (a : Reg) (d : Reg) (s : State) : exec (.tinfo h a d) s = execTinfo h a d s := rfl
@[simp] theorem exec_tget (h : Bool) (a : Reg) (d : Reg) (s : State) : exec (.tget h a d) s = execTget h a d s := rfl
@[simp] theorem exec_tset (g : Bool) (b : Reg) (h : Bool) (a : Reg) (s : State) : exec (.tset g b h a) s = execTset g b h a s := rfl
@[simp] theorem exec_vfence (s : State) : exec (.vfence) s = execVfence s := rfl
@[simp] theorem exec_vbusy (d : Reg) (s : State) : exec (.vbusy d) s = execVbusy d s := rfl
@[simp] theorem exec_vadd (g : Bool) (b : Reg) (h : Bool) (a : Reg) (j : Bool) (f : Bool) (s : State) : exec (.vadd g b h a j f) s = execVadd g b h a j f s := rfl
@[simp] theorem exec_vsub (g : Bool) (b : Reg) (h : Bool) (a : Reg) (j : Bool) (f : Bool) (s : State) : exec (.vsub g b h a j f) s = execVsub g b h a j f s := rfl
@[simp] theorem exec_vmul (g : Bool) (b : Reg) (h : Bool) (a : Reg) (j : Bool) (f : Bool) (s : State) : exec (.vmul g b h a j f) s = execVmul g b h a j f s := rfl
@[simp] theorem exec_vfma (g : Bool) (b : Reg) (h : Bool) (a : Reg) (j : Bool) (f : Bool) (s : State) : exec (.vfma g b h a j f) s = execVfma g b h a j f s := rfl
@[simp] theorem exec_vmin (g : Bool) (b : Reg) (h : Bool) (a : Reg) (j : Bool) (f : Bool) (s : State) : exec (.vmin g b h a j f) s = execVmin g b h a j f s := rfl
@[simp] theorem exec_vmax (g : Bool) (b : Reg) (h : Bool) (a : Reg) (j : Bool) (f : Bool) (s : State) : exec (.vmax g b h a j f) s = execVmax g b h a j f s := rfl
@[simp] theorem exec_vabs (h : Bool) (a : Reg) (j : Bool) (f : Bool) (s : State) : exec (.vabs h a j f) s = execVabs h a j f s := rfl
@[simp] theorem exec_vneg (h : Bool) (a : Reg) (j : Bool) (f : Bool) (s : State) : exec (.vneg h a j f) s = execVneg h a j f s := rfl
@[simp] theorem exec_vexp2 (h : Bool) (a : Reg) (j : Bool) (f : Bool) (s : State) : exec (.vexp2 h a j f) s = execVexp2 h a j f s := rfl
@[simp] theorem exec_vlog2 (h : Bool) (a : Reg) (j : Bool) (f : Bool) (s : State) : exec (.vlog2 h a j f) s = execVlog2 h a j f s := rfl
@[simp] theorem exec_vrcp (h : Bool) (a : Reg) (j : Bool) (f : Bool) (s : State) : exec (.vrcp h a j f) s = execVrcp h a j f s := rfl
@[simp] theorem exec_vrsqrt (h : Bool) (a : Reg) (j : Bool) (f : Bool) (s : State) : exec (.vrsqrt h a j f) s = execVrsqrt h a j f s := rfl
@[simp] theorem exec_vtanh (h : Bool) (a : Reg) (j : Bool) (f : Bool) (s : State) : exec (.vtanh h a j f) s = execVtanh h a j f s := rfl
@[simp] theorem exec_vcvt (h : Bool) (a : Reg) (j : Bool) (f : Bool) (s : State) : exec (.vcvt h a j f) s = execVcvt h a j f s := rfl
@[simp] theorem exec_vcmp (c : BitVec 3) (g : Bool) (b : Reg) (h : Bool) (a : Reg) (j : Bool) (f : Bool) (s : State) : exec (.vcmp c g b h a j f) s = execVcmp c g b h a j f s := rfl
@[simp] theorem exec_vsel (g : Bool) (b : Reg) (h : Bool) (a : Reg) (j : Bool) (f : Bool) (s : State) : exec (.vsel g b h a j f) s = execVsel g b h a j f s := rfl
@[simp] theorem exec_vrowred (r : BitVec 2) (h : Bool) (a : Reg) (j : Bool) (f : Bool) (s : State) : exec (.vrowred r h a j f) s = execVrowred r h a j f s := rfl
@[simp] theorem exec_vcolred (r : BitVec 2) (h : Bool) (a : Reg) (j : Bool) (f : Bool) (s : State) : exec (.vcolred r h a j f) s = execVcolred r h a j f s := rfl
@[simp] theorem exec_vbcast (w : Bool) (h : Bool) (a : Reg) (j : Bool) (f : Bool) (s : State) : exec (.vbcast w h a j f) s = execVbcast w h a j f s := rfl
@[simp] theorem exec_vtrans (h : Bool) (a : Reg) (j : Bool) (f : Bool) (s : State) : exec (.vtrans h a j f) s = execVtrans h a j f s := rfl
@[simp] theorem exec_vscale (x : Bool) (h : Bool) (a : Reg) (j : Bool) (f : Bool) (s : State) : exec (.vscale x h a j f) s = execVscale x h a j f s := rfl
@[simp] theorem exec_vquant (h : Bool) (a : Reg) (j : Bool) (f : Bool) (s : State) : exec (.vquant h a j f) s = execVquant h a j f s := rfl
@[simp] theorem exec_vshl (v : Bool) (g : Bool) (b : Reg) (h : Bool) (a : Reg) (j : Bool) (f : Bool) (s : State) : exec (.vshl v g b h a j f) s = execVshl v g b h a j f s := rfl
@[simp] theorem exec_vshr (v : Bool) (g : Bool) (b : Reg) (h : Bool) (a : Reg) (j : Bool) (f : Bool) (s : State) : exec (.vshr v g b h a j f) s = execVshr v g b h a j f s := rfl
@[simp] theorem exec_vsar (v : Bool) (g : Bool) (b : Reg) (h : Bool) (a : Reg) (j : Bool) (f : Bool) (s : State) : exec (.vsar v g b h a j f) s = execVsar v g b h a j f s := rfl
@[simp] theorem exec_vclamp (h : Bool) (a : Reg) (j : Bool) (f : Bool) (s : State) : exec (.vclamp h a j f) s = execVclamp h a j f s := rfl
@[simp] theorem exec_vmov (h : Bool) (a : Reg) (j : Bool) (f : Bool) (s : State) : exec (.vmov h a j f) s = execVmov h a j f s := rfl
@[simp] theorem exec_vfill (h : Bool) (a : Reg) (j : Bool) (f : Bool) (s : State) : exec (.vfill h a j f) s = execVfill h a j f s := rfl
@[simp] theorem exec_vmask (t : Bool) (h : Bool) (a : Reg) (j : Bool) (f : Bool) (s : State) : exec (.vmask t h a j f) s = execVmask t h a j f s := rfl
@[simp] theorem exec_mma (r : Bool) (s : Bool) (y : Bool) (x : Bool) (g : Bool) (b : Reg) (h : Bool) (a : Reg) (j : Bool) (f : Bool) (σ : State) : exec (.mma r s y x g b h a j f) σ = execMma r s y x g b h a j f σ := rfl
@[simp] theorem exec_mdrain (g : Bool) (b : Reg) (h : Bool) (a : Reg) (j : Bool) (f : Bool) (s : State) : exec (.mdrain g b h a j f) s = execMdrain g b h a j f s := rfl
@[simp] theorem exec_cpyMt (g : Bool) (b : Reg) (h : Bool) (a : Reg) (j : Bool) (f : Bool) (s : State) : exec (.cpyMt g b h a j f) s = execCpyMt g b h a j f s := rfl
@[simp] theorem exec_cpyTm (g : Bool) (b : Reg) (h : Bool) (a : Reg) (j : Bool) (f : Bool) (s : State) : exec (.cpyTm g b h a j f) s = execCpyTm g b h a j f s := rfl
@[simp] theorem exec_cpyMm (g : Bool) (b : Reg) (h : Bool) (a : Reg) (j : Bool) (f : Bool) (s : State) : exec (.cpyMm g b h a j f) s = execCpyMm g b h a j f s := rfl
@[simp] theorem exec_gath (g : Bool) (b : Reg) (h : Bool) (a : Reg) (j : Bool) (f : Bool) (s : State) : exec (.gath g b h a j f) s = execGath g b h a j f s := rfl
@[simp] theorem exec_scat (g : Bool) (b : Reg) (h : Bool) (a : Reg) (j : Bool) (f : Bool) (s : State) : exec (.scat g b h a j f) s = execScat g b h a j f s := rfl
@[simp] theorem exec_trgen (d : Reg) (s : State) : exec (.trgen d) s = execTrgen d s := rfl
@[simp] theorem exec_relaunch (g : Bool) (b : Reg) (h : Bool) (a : Reg) (d : Reg) (s : State) : exec (.relaunch g b h a d) s = execRelaunch g b h a d s := rfl
@[simp] theorem exec_relaunchRepair (g : Bool) (b : Reg) (h : Bool) (a : Reg) (d : Reg) (s : State) : exec (.relaunchRepair g b h a d) s = execRelaunchRepair g b h a d s := rfl
@[simp] theorem exec_trstat (d : Reg) (s : State) : exec (.trstat d) s = execTrstat d s := rfl
@[simp] theorem exec_dmread (h : Bool) (a : Reg) (d : Reg) (s : State) : exec (.dmread h a d) s = execDmread h a d s := rfl
@[simp] theorem exec_dmmark (p : Bool) (l : Bool) (g : Bool) (b : Reg) (h : Bool) (a : Reg) (s : State) : exec (.dmmark p l g b h a) s = execDmmark p l g b h a s := rfl
@[simp] theorem exec_sys (n : BitVec 7) (s : State) : exec (.sys n) s = execSys n s := rfl
@[simp] theorem exec_eret (s : State) : exec (.eret) s = execEret s := rfl
@[simp] theorem exec_srd (n : BitVec 7) (d : Reg) (s : State) : exec (.srd n d) s = execSrd n d s := rfl
@[simp] theorem exec_swr (n : BitVec 7) (h : Bool) (a : Reg) (s : State) : exec (.swr n h a) s = execSwr n h a s := rfl
@[simp] theorem exec_ctxLd (i : BitVec 4) (h : Bool) (a : Reg) (d : Reg) (s : State) : exec (.ctxLd i h a d) s = execCtxLd i h a d s := rfl
@[simp] theorem exec_ctxSt (i : BitVec 4) (g : Bool) (b : Reg) (h : Bool) (a : Reg) (d : Reg) (s : State) : exec (.ctxSt i g b h a d) s = execCtxSt i g b h a d s := rfl
@[simp] theorem exec_ctxReady (h : Bool) (a : Reg) (d : Reg) (s : State) : exec (.ctxReady h a d) s = execCtxReady h a d s := rfl
@[simp] theorem exec_ctxEvict (l : Bool) (h : Bool) (a : Reg) (d : Reg) (s : State) : exec (.ctxEvict l h a d) s = execCtxEvict l h a d s := rfl
@[simp] theorem exec_ctxPark (h : Bool) (a : Reg) (d : Reg) (s : State) : exec (.ctxPark h a d) s = execCtxPark h a d s := rfl
@[simp] theorem exec_ctxParkKill (h : Bool) (a : Reg) (d : Reg) (s : State) : exec (.ctxParkKill h a d) s = execCtxParkKill h a d s := rfl
@[simp] theorem exec_tlbi (k : BitVec 2) (s : BitVec 3) (g : Bool) (b : Reg) (h : Bool) (a : Reg) (σ : State) : exec (.tlbi k s g b h a) σ = execTlbi k s g b h a σ := rfl
@[simp] theorem exec_bmode (g : Bool) (b : Reg) (h : Bool) (a : Reg) (d : Reg) (s : State) : exec (.bmode g b h a d) s = execBmode g b h a d s := rfl
@[simp] theorem exec_slotPark (h : Bool) (a : Reg) (s : State) : exec (.slotPark h a) s = execSlotPark h a s := rfl
@[simp] theorem exec_slotFree (h : Bool) (a : Reg) (s : State) : exec (.slotFree h a) s = execSlotFree h a s := rfl
@[simp] theorem exec_dstop (h : Bool) (a : Reg) (d : Reg) (s : State) : exec (.dstop h a d) s = execDstop h a d s := rfl
@[simp] theorem exec_halt (s : State) : exec (.halt) s = execHalt s := rfl
@[simp] theorem exec_jr (h : Bool) (a : Reg) (s : State) : exec (.jr h a) s = execJr h a s := rfl
@[simp] theorem exec_jrL (h : Bool) (a : Reg) (s : State) : exec (.jrL h a) s = execJrL h a s := rfl
@[simp] theorem exec_nop (s : State) : exec (.nop) s = execNop s := rfl
@[simp] theorem exec_b (k : BitVec 25) (s : State) : exec (.b k) s = execB k s := rfl
@[simp] theorem exec_bl (k : BitVec 25) (s : State) : exec (.bl k) s = execBl k s := rfl
@[simp] theorem exec_bz (k : BitVec 18) (h : Bool) (a : Reg) (s : State) : exec (.bz k h a) s = execBz k h a s := rfl
@[simp] theorem exec_bnz (k : BitVec 18) (h : Bool) (a : Reg) (s : State) : exec (.bnz k h a) s = execBnz k h a s := rfl
@[simp] theorem exec_bany (k : BitVec 18) (a : Reg) (s : State) : exec (.bany k a) s = execBany k a s := rfl
@[simp] theorem exec_ball (k : BitVec 18) (a : Reg) (s : State) : exec (.ball k a) s = execBall k a s := rfl
@[simp] theorem exec_bnone (k : BitVec 18) (a : Reg) (s : State) : exec (.bnone k a) s = execBnone k a s := rfl
@[simp] theorem exec_loop (k : BitVec 18) (h : Bool) (a : Reg) (s : State) : exec (.loop k h a) s = execLoop k h a s := rfl
@[simp] theorem exec_bpt (k : BitVec 18) (p : BitVec 6) (s : State) : exec (.bpt k p) s = execBpt k p s := rfl
@[simp] theorem exec_bpf (k : BitVec 18) (p : BitVec 6) (s : State) : exec (.bpf k p) s = execBpf k p s := rfl
@[simp] theorem exec_dadd (g : Bool) (b : Reg) (h : Bool) (a : Reg) (d : Reg) (s : State) : exec (.dadd g b h a d) s = execDadd g b h a d s := rfl
@[simp] theorem exec_dsub (g : Bool) (b : Reg) (h : Bool) (a : Reg) (d : Reg) (s : State) : exec (.dsub g b h a d) s = execDsub g b h a d s := rfl
@[simp] theorem exec_dmul (g : Bool) (b : Reg) (h : Bool) (a : Reg) (d : Reg) (s : State) : exec (.dmul g b h a d) s = execDmul g b h a d s := rfl
@[simp] theorem exec_dfma (g : Bool) (b : Reg) (h : Bool) (a : Reg) (d : Reg) (s : State) : exec (.dfma g b h a d) s = execDfma g b h a d s := rfl
@[simp] theorem exec_ddiv (g : Bool) (b : Reg) (h : Bool) (a : Reg) (d : Reg) (s : State) : exec (.ddiv g b h a d) s = execDdiv g b h a d s := rfl
@[simp] theorem exec_dsqrt (h : Bool) (a : Reg) (d : Reg) (s : State) : exec (.dsqrt h a d) s = execDsqrt h a d s := rfl
@[simp] theorem exec_dcvtTo (f : BitVec 4) (h : Bool) (a : Reg) (d : Reg) (s : State) : exec (.dcvtTo f h a d) s = execDcvtTo f h a d s := rfl
@[simp] theorem exec_dcvtFrom (f : BitVec 4) (h : Bool) (a : Reg) (d : Reg) (s : State) : exec (.dcvtFrom f h a d) s = execDcvtFrom f h a d s := rfl
@[simp] theorem exec_dcmp (p : BitVec 6) (g : Bool) (b : Reg) (h : Bool) (a : Reg) (c : BitVec 3) (s : State) : exec (.dcmp p g b h a c) s = execDcmp p g b h a c s := rfl
@[simp] theorem exec_bsopen (g : Bool) (b : Reg) (h : Bool) (a : Reg) (s : State) : exec (.bsopen g b h a) s = execBsopen g b h a s := rfl
@[simp] theorem exec_getb (g : Bool) (b : Reg) (d : Reg) (s : State) : exec (.getb g b d) s = execGetb g b d s := rfl
@[simp] theorem exec_getbImm (n : BitVec 6) (d : Reg) (s : State) : exec (.getbImm n d) s = execGetbImm n d s := rfl
@[simp] theorem exec_peekb (g : Bool) (b : Reg) (d : Reg) (s : State) : exec (.peekb g b d) s = execPeekb g b d s := rfl
@[simp] theorem exec_peekbImm (n : BitVec 6) (d : Reg) (s : State) : exec (.peekbImm n d) s = execPeekbImm n d s := rfl
@[simp] theorem exec_skipb (g : Bool) (b : Reg) (s : State) : exec (.skipb g b) s = execSkipb g b s := rfl
@[simp] theorem exec_skipbImm (n : BitVec 6) (s : State) : exec (.skipbImm n) s = execSkipbImm n s := rfl
@[simp] theorem exec_getue (d : Reg) (s : State) : exec (.getue d) s = execGetue d s := rfl
@[simp] theorem exec_getse (d : Reg) (s : State) : exec (.getse d) s = execGetse d s := rfl
@[simp] theorem exec_bsalign (s : State) : exec (.bsalign) s = execBsalign s := rfl
@[simp] theorem exec_crc (p : Bool) (c : BitVec 3) (g : Bool) (b : Reg) (h : Bool) (a : Reg) (d : Reg) (s : State) : exec (.crc p c g b h a d) s = execCrc p c g b h a d s := rfl
@[simp] theorem exec_addiC16 (d : Reg) (a : Reg) (i : BitVec 5) (s : State) : exec (.addiC16 d a i) s = execAddiC16 d a i s := rfl
@[simp] theorem exec_andiC16 (d : Reg) (a : Reg) (i : BitVec 5) (s : State) : exec (.andiC16 d a i) s = execAndiC16 d a i s := rfl
@[simp] theorem exec_shliC16 (d : Reg) (a : Reg) (i : BitVec 5) (s : State) : exec (.shliC16 d a i) s = execShliC16 d a i s := rfl
@[simp] theorem exec_shriC16 (d : Reg) (a : Reg) (i : BitVec 5) (s : State) : exec (.shriC16 d a i) s = execShriC16 d a i s := rfl
@[simp] theorem exec_sariC16 (d : Reg) (a : Reg) (i : BitVec 5) (s : State) : exec (.sariC16 d a i) s = execSariC16 d a i s := rfl
@[simp] theorem exec_ldDC16 (d : Reg) (a : Reg) (i : BitVec 5) (s : State) : exec (.ldDC16 d a i) s = execLdDC16 d a i s := rfl
@[simp] theorem exec_stDC16 (d : Reg) (a : Reg) (i : BitVec 5) (s : State) : exec (.stDC16 d a i) s = execStDC16 d a i s := rfl
@[simp] theorem exec_moviC16 (d : Reg) (i : BitVec 8) (s : State) : exec (.moviC16 d i) s = execMoviC16 d i s := rfl
@[simp] theorem exec_addC16 (d : Reg) (a : Reg) (b : Reg) (s : State) : exec (.addC16 d a b) s = execAddC16 d a b s := rfl
@[simp] theorem exec_subC16 (d : Reg) (a : Reg) (b : Reg) (s : State) : exec (.subC16 d a b) s = execSubC16 d a b s := rfl
@[simp] theorem exec_andC16 (d : Reg) (a : Reg) (b : Reg) (s : State) : exec (.andC16 d a b) s = execAndC16 d a b s := rfl
@[simp] theorem exec_orC16 (d : Reg) (a : Reg) (b : Reg) (s : State) : exec (.orC16 d a b) s = execOrC16 d a b s := rfl
@[simp] theorem exec_xorC16 (d : Reg) (a : Reg) (b : Reg) (s : State) : exec (.xorC16 d a b) s = execXorC16 d a b s := rfl
@[simp] theorem exec_andnC16 (d : Reg) (a : Reg) (b : Reg) (s : State) : exec (.andnC16 d a b) s = execAndnC16 d a b s := rfl
@[simp] theorem exec_mulC16 (d : Reg) (a : Reg) (b : Reg) (s : State) : exec (.mulC16 d a b) s = execMulC16 d a b s := rfl
@[simp] theorem exec_movC16 (d : Reg) (a : Reg) (s : State) : exec (.movC16 d a) s = execMovC16 d a s := rfl
@[simp] theorem exec_shlC16 (d : Reg) (a : Reg) (b : Reg) (s : State) : exec (.shlC16 d a b) s = execShlC16 d a b s := rfl
@[simp] theorem exec_shrC16 (d : Reg) (a : Reg) (b : Reg) (s : State) : exec (.shrC16 d a b) s = execShrC16 d a b s := rfl
@[simp] theorem exec_sarC16 (d : Reg) (a : Reg) (b : Reg) (s : State) : exec (.sarC16 d a b) s = execSarC16 d a b s := rfl
@[simp] theorem exec_ldWC16 (d : Reg) (a : Reg) (i : BitVec 5) (s : State) : exec (.ldWC16 d a i) s = execLdWC16 d a i s := rfl
@[simp] theorem exec_stWC16 (d : Reg) (a : Reg) (i : BitVec 5) (s : State) : exec (.stWC16 d a i) s = execStWC16 d a i s := rfl
@[simp] theorem exec_jrC16 (a : Reg) (s : State) : exec (.jrC16 a) s = execJrC16 a s := rfl
@[simp] theorem exec_exitC16 (s : State) : exec (.exitC16) s = execExitC16 s := rfl
@[simp] theorem exec_yieldC16 (s : State) : exec (.yieldC16) s = execYieldC16 s := rfl
@[simp] theorem exec_nopC16 (s : State) : exec (.nopC16) s = execNopC16 s := rfl
@[simp] theorem exec_bzC16 (k : BitVec 3) (a : Reg) (k2 : BitVec 5) (s : State) : exec (.bzC16 k a k2) s = execBzC16 k a k2 s := rfl
@[simp] theorem exec_bnzC16 (k : BitVec 3) (a : Reg) (k2 : BitVec 5) (s : State) : exec (.bnzC16 k a k2) s = execBnzC16 k a k2 s := rfl
@[simp] theorem exec_bC16 (k : BitVec 11) (s : State) : exec (.bC16 k) s = execBC16 k s := rfl
@[simp] theorem exec_bptC16 (p : BitVec 6) (k : BitVec 5) (s : State) : exec (.bptC16 p k) s = execBptC16 p k s := rfl
@[simp] theorem exec_bpfC16 (p : BitVec 6) (k : BitVec 5) (s : State) : exec (.bpfC16 p k) s = execBpfC16 p k s := rfl
@[simp] theorem exec_fmt (f : BitVec 4) (r : BitVec 3) (s : Bool) (σ : State) : exec (.fmt f r s) σ = execFmt f r s σ := rfl
@[simp] theorem exec_registerFill (ctx reg : Nat) (tag : Bool) (val : Word) (poison : Bool) (info : Word) (unit : Holder) (wake : Nat) (s : State) : exec (.registerFill ctx reg tag val poison info unit wake) s = execRegisterFill ctx reg tag val poison info unit wake s := rfl
@[simp] theorem exec_idleContextReplace (core slot : Nat) (s : State) : exec (.idleContextReplace core slot) s = execIdleContextReplace core slot s := rfl
@[simp] theorem exec_quantumExpiry (core slot : Nat) (s : State) : exec (.quantumExpiry core slot) s = execQuantumExpiry core slot s := rfl
@[simp] theorem exec_agingPromotion (ctx : Nat) (s : State) : exec (.agingPromotion ctx) s = execAgingPromotion ctx s := rfl
@[simp] theorem exec_launchAccept (part : Nat) (desc : Word) (ctx reg : Nat) (tag : Bool) (priv : Nat) (res : Word) (s : State) : exec (.launchAccept part desc ctx reg tag priv res) s = execLaunchAccept part desc ctx reg tag priv res s := rfl
@[simp] theorem exec_blockStart (launch : Nat) (s : State) : exec (.blockStart launch) s = execBlockStart launch s := rfl
@[simp] theorem exec_launchCompletion (launch : Nat) (s : State) : exec (.launchCompletion launch) s = execLaunchCompletion launch s := rfl
@[simp] theorem exec_semVExecute (loc ctx scope : Nat) (tx : Option Nat) (s : State) : exec (.semVExecute loc ctx scope tx) s = execSemVExecute loc ctx scope tx s := rfl
@[simp] theorem exec_semPExecute (loc ctx scope : Nat) (tx : Option Nat) (s : State) : exec (.semPExecute loc ctx scope tx) s = execSemPExecute loc ctx scope tx s := rfl
@[simp] theorem exec_semPResend (ctx : Nat) (s : State) : exec (.semPResend ctx) s = execSemPResend ctx s := rfl
@[simp] theorem exec_jcUpdate (loc : Nat) (addend : Word) (flt : Nat) (ctx : Nat) (tx : Option Nat) (s : State) : exec (.jcUpdate loc addend flt ctx tx) s = execJcUpdate loc addend flt ctx tx s := rfl
@[simp] theorem exec_chunkInitRequest (cluster c n p m core : Nat) (s : State) : exec (.chunkInitRequest cluster c n p m core) s = execChunkInitRequest cluster c n p m core s := rfl
@[simp] theorem exec_chunkRequest (cluster c ctx reg : Nat) (tag : Bool) (core : Nat) (s : State) : exec (.chunkRequest cluster c ctx reg tag core) s = execChunkRequest cluster c ctx reg tag core s := rfl
@[simp] theorem exec_spawnPoolRequest (blk ctx reg : Nat) (tag : Bool) (entry arg : Word) (jc : Option Nat) (unit : Nat) (s : State) : exec (.spawnPoolRequest blk ctx reg tag entry arg jc unit) s = execSpawnPoolRequest blk ctx reg tag entry arg jc unit s := rfl
@[simp] theorem exec_wakeupApply (ctx kind : Nat) (arg : BitVec 60) (acq : Bool) (unit : Holder) (s : State) : exec (.wakeupApply ctx kind arg acq unit) s = execWakeupApply ctx kind arg acq unit s := rfl
@[simp] theorem exec_coreStoreAccess (r : Req) (s : State) : exec (.coreStoreAccess r) s = execCoreStoreAccess r s := rfl
@[simp] theorem exec_storeVisible (r : Req) (s : State) : exec (.storeVisible r) s = execStoreVisible r s := rfl
@[simp] theorem exec_nibbleStoreExecute (r : Req) (s : State) : exec (.nibbleStoreExecute r) s = execNibbleStoreExecute r s := rfl
@[simp] theorem exec_atomicExecute (op : AtomOp) (posted inCore : Bool) (cmp : Word) (r : Req) (s : State) : exec (.atomicExecute op posted inCore cmp r) s = execAtomicExecute op posted inCore cmp r s := rfl
@[simp] theorem exec_fenceTokenArrival (die link round : Nat) (s : State) : exec (.fenceTokenArrival die link round) s = execFenceTokenArrival die link round s := rfl
@[simp] theorem exec_fenceEchoArrival (die link round : Nat) (s : State) : exec (.fenceEchoArrival die link round) s = execFenceEchoArrival die link round s := rfl
@[simp] theorem exec_postedTokenRound (die link : Nat) (s : State) : exec (.postedTokenRound die link) s = execPostedTokenRound die link s := rfl
@[simp] theorem exec_heldReleaseSend (idx : Nat) (s : State) : exec (.heldReleaseSend idx) s = execHeldReleaseSend idx s := rfl
@[simp] theorem exec_barrierSignal (core n : Nat) (column : Bool) (s : State) : exec (.barrierSignal core n column) s = execBarrierSignal core n column s := rfl
@[simp] theorem exec_barrierRelease (core n : Nat) (s : State) : exec (.barrierRelease core n) s = execBarrierRelease core n s := rfl
@[simp] theorem exec_barrierTimeout (core n : Nat) (s : State) : exec (.barrierTimeout core n) s = execBarrierTimeout core n s := rfl
@[simp] theorem exec_barrierAbort (core n : Nat) (mask : Word) (s : State) : exec (.barrierAbort core n mask) s = execBarrierAbort core n mask s := rfl
@[simp] theorem exec_ksendAccumulate (loc : Nat) (fp : Bool) (val : BitVec 32) (ctx : Nat) (tx : Option Nat) (s : State) : exec (.ksendAccumulate loc fp val ctx tx) s = execKsendAccumulate loc fp val ctx tx s := rfl
@[simp] theorem exec_commandAccept (c : Cmd) (s : State) : exec (.commandAccept c) s = execCommandAccept c s := rfl
@[simp] theorem exec_commandRetry (ctx : Nat) (s : State) : exec (.commandRetry ctx) s = execCommandRetry ctx s := rfl
@[simp] theorem exec_commandReply (ctx : Nat) (op : Nat) (kind : Nat) (cause : Nat) (info : Word) (reg : Nat) (s : State) : exec (.commandReply ctx op kind cause info reg) s = execCommandReply ctx op kind cause info reg s := rfl
@[simp] theorem exec_tallocServe (cluster ctx reg : Nat) (tag : Bool) (blk : Nat) (desc : Word) (unit : Nat) (s : State) : exec (.tallocServe cluster ctx reg tag blk desc unit) s = execTallocServe cluster ctx reg tag blk desc unit s := rfl
@[simp] theorem exec_taskAdmit (cluster : Nat) (s : State) : exec (.taskAdmit cluster) s = execTaskAdmit cluster s := rfl
@[simp] theorem exec_mmaFragmentDone (cluster task : Nat) (s : State) : exec (.mmaFragmentDone cluster task) s = execMmaFragmentDone cluster task s := rfl
@[simp] theorem exec_streamerPartStart (cluster task part : Nat) (s : State) : exec (.streamerPartStart cluster task part) s = execStreamerPartStart cluster task part s := rfl
@[simp] theorem exec_streamerPush (cluster task part : Nat) (s : State) : exec (.streamerPush cluster task part) s = execStreamerPush cluster task part s := rfl
@[simp] theorem exec_streamerPartDone (cluster task part : Nat) (s : State) : exec (.streamerPartDone cluster task part) s = execStreamerPartDone cluster task part s := rfl
@[simp] theorem exec_taskComplete (cluster task : Nat) (s : State) : exec (.taskComplete cluster task) s = execTaskComplete cluster task s := rfl
@[simp] theorem exec_cmdsDecrement (ctx : Nat) (flt : Option Word) (unit : Holder) (s : State) : exec (.cmdsDecrement ctx flt unit) s = execCmdsDecrement ctx flt unit s := rfl
@[simp] theorem exec_traceReport (blk patch : Nat) (wr : Bool) (icause pc : Nat) (s : State) : exec (.traceReport blk patch wr icause pc) s = execTraceReport blk patch wr icause pc s := rfl
@[simp] theorem exec_blockRecordWrite (blk : Nat) (s : State) : exec (.blockRecordWrite blk) s = execBlockRecordWrite blk s := rfl
@[simp] theorem exec_generationBroadcast (set unit gen : Nat) (s : State) : exec (.generationBroadcast set unit gen) s = execGenerationBroadcast set unit gen s := rfl
@[simp] theorem exec_generationAdvanceDone (set : Nat) (s : State) : exec (.generationAdvanceDone set) s = execGenerationAdvanceDone set s := rfl
@[simp] theorem exec_restampRequest (set line : Nat) (from_ : Sender) (s : State) : exec (.restampRequest set line from_) s = execRestampRequest set line from_ s := rfl
@[simp] theorem exec_relaunchAccept (part : Nat) (region comp : Word) (ctx reg : Nat) (tag : Bool) (priv : Nat) (repair : Bool) (res : Word) (s : State) : exec (.relaunchAccept part region comp ctx reg tag priv repair res) s = execRelaunchAccept part region comp ctx reg tag priv repair res s := rfl
@[simp] theorem exec_relaunchComplete (launch : Nat) (s : State) : exec (.relaunchComplete launch) s = execRelaunchComplete launch s := rfl
@[simp] theorem exec_watchArm (inCore : Bool) (addr : Nat) (expected : Word) (ctx reg : Nat) (tag : Bool) (timeout : Nat) (from_ : Sender) (s : State) : exec (.watchArm inCore addr expected ctx reg tag timeout from_) s = execWatchArm inCore addr expected ctx reg tag timeout from_ s := rfl
@[simp] theorem exec_watchTimeout (ctx : Nat) (s : State) : exec (.watchTimeout ctx) s = execWatchTimeout ctx s := rfl
@[simp] theorem exec_watchCancel (ctx : Nat) (s : State) : exec (.watchCancel ctx) s = execWatchCancel ctx s := rfl
@[simp] theorem exec_timeDeadline (ctx : Nat) (s : State) : exec (.timeDeadline ctx) s = execTimeDeadline ctx s := rfl
@[simp] theorem exec_contextClaim (core ctx : Nat) (s : State) : exec (.contextClaim core ctx) s = execContextClaim core ctx s := rfl
@[simp] theorem exec_contextLineArrival (ctx : Nat) (dst : Holder) (s : State) : exec (.contextLineArrival ctx dst) s = execContextLineArrival ctx dst s := rfl
@[simp] theorem exec_contextTransferAck (ctx : Nat) (s : State) : exec (.contextTransferAck ctx) s = execContextTransferAck ctx s := rfl
@[simp] theorem exec_messageReturn (ctx : Nat) (msg : Ev) (s : State) : exec (.messageReturn ctx msg) s = execMessageReturn ctx msg s := rfl
@[simp] theorem exec_carouselRingClaim (core : Nat) (s : State) : exec (.carouselRingClaim core) s = execCarouselRingClaim core s := rfl
@[simp] theorem exec_ringPost (ctx : Nat) (s : State) : exec (.ringPost ctx) s = execRingPost ctx s := rfl
@[simp] theorem exec_ringPostRetry (ctx : Nat) (s : State) : exec (.ringPostRetry ctx) s = execRingPostRetry ctx s := rfl
@[simp] theorem exec_ringmasterSteal (cluster part : Nat) (s : State) : exec (.ringmasterSteal cluster part) s = execRingmasterSteal cluster part s := rfl
@[simp] theorem exec_preemptRequest (die part : Nat) (s : State) : exec (.preemptRequest die part) s = execPreemptRequest die part s := rfl
@[simp] theorem exec_preemptResume (die part : Nat) (s : State) : exec (.preemptResume die part) s = execPreemptResume die part s := rfl
@[simp] theorem exec_partitionSwap (die old new : Nat) (s : State) : exec (.partitionSwap die old new) s = execPartitionSwap die old new s := rfl
@[simp] theorem exec_walkComplete (die : Nat) (page : Nat) (s : State) : exec (.walkComplete die page) s = execWalkComplete die page s := rfl
@[simp] theorem exec_walkQueueRetry (die : Nat) (s : State) : exec (.walkQueueRetry die) s = execWalkQueueRetry die s := rfl
@[simp] theorem exec_regionMigrationStart (set region : Nat) (entry : Word) (s : State) : exec (.regionMigrationStart set region entry) s = execRegionMigrationStart set region entry s := rfl
@[simp] theorem exec_migrationLineMove (set : Nat) (s : State) : exec (.migrationLineMove set) s = execMigrationLineMove set s := rfl
@[simp] theorem exec_homeNackRetry (msg : Ev) (s : State) : exec (.homeNackRetry msg) s = execHomeNackRetry msg s := rfl
@[simp] theorem exec_bankDrainDone (cluster bank : Nat) (s : State) : exec (.bankDrainDone cluster bank) s = execBankDrainDone cluster bank s := rfl
@[simp] theorem exec_bankNackRetry (msg : Ev) (s : State) : exec (.bankNackRetry msg) s = execBankNackRetry msg s := rfl
@[simp] theorem exec_flitReceive (die link : Nat) (s : State) : exec (.flitReceive die link) s = execFlitReceive die link s := rfl
@[simp] theorem exec_linkNak (die link seq : Nat) (s : State) : exec (.linkNak die link seq) s = execLinkNak die link seq s := rfl
@[simp] theorem exec_linkAck (die link seq : Nat) (s : State) : exec (.linkAck die link seq) s = execLinkAck die link seq s := rfl
@[simp] theorem exec_replayTimeout (die link : Nat) (s : State) : exec (.replayTimeout die link) s = execReplayTimeout die link s := rfl
@[simp] theorem exec_laneFaultReport (die link lower upper : Nat) (s : State) : exec (.laneFaultReport die link lower upper) s = execLaneFaultReport die link lower upper s := rfl
@[simp] theorem exec_linkRetrainDone (die link : Nat) (s : State) : exec (.linkRetrainDone die link) s = execLinkRetrainDone die link s := rfl
@[simp] theorem exec_classAgePromotion (die link cls : Nat) (s : State) : exec (.classAgePromotion die link cls) s = execClassAgePromotion die link cls s := rfl
@[simp] theorem exec_homeReadRequest (r : Req) (s : State) : exec (.homeReadRequest r) s = execHomeReadRequest r s := rfl
@[simp] theorem exec_ownershipRequest (line : Nat) (from_ : Sender) (s : State) : exec (.ownershipRequest line from_) s = execOwnershipRequest line from_ s := rfl
@[simp] theorem exec_ownershipGrant (line cluster : Nat) (s : State) : exec (.ownershipGrant line cluster) s = execOwnershipGrant line cluster s := rfl
@[simp] theorem exec_dieRecall (line die : Nat) (keep : Bool) (s : State) : exec (.dieRecall line die keep) s = execDieRecall line die keep s := rfl
@[simp] theorem exec_writeBackArrival (line die sectors : Nat) (s : State) : exec (.writeBackArrival line die sectors) s = execWriteBackArrival line die sectors s := rfl
@[simp] theorem exec_calliopeExchange (die : Nat) (s : State) : exec (.calliopeExchange die) s = execCalliopeExchange die s := rfl
@[simp] theorem exec_calliopeResult (die : Nat) (t1 t2 t3 t4 : Nat) (s : State) : exec (.calliopeResult die t1 t2 t3 t4) s = execCalliopeResult die t1 t2 t3 t4 s := rfl
@[simp] theorem exec_exchangeMissing (die : Nat) (s : State) : exec (.exchangeMissing die) s = execExchangeMissing die s := rfl
@[simp] theorem exec_ptpEventMessage (msg : PtpMessage) (ticks : Nat) (s : State) : exec (.ptpEventMessage msg ticks) s = execPtpEventMessage msg ticks s := rfl
@[simp] theorem exec_heartbeatTimeout (die : Nat) (s : State) : exec (.heartbeatTimeout die) s = execHeartbeatTimeout die s := rfl
@[simp] theorem exec_dieFailureBroadcast (die failed : Nat) (s : State) : exec (.dieFailureBroadcast die failed) s = execDieFailureBroadcast die failed s := rfl
@[simp] theorem exec_homeFailureProcess (mdie failed : Nat) (s : State) : exec (.homeFailureProcess mdie failed) s = execHomeFailureProcess mdie failed s := rfl
@[simp] theorem exec_scrubRead (mdie sector err : Nat) (s : State) : exec (.scrubRead mdie sector err) s = execScrubRead mdie sector err s := rfl
@[simp] theorem exec_scrubWrite (mdie sector seq : Nat) (s : State) : exec (.scrubWrite mdie sector seq) s = execScrubWrite mdie sector seq s := rfl
@[simp] theorem exec_contextLoss (ctx : Nat) (s : State) : exec (.contextLoss ctx) s = execContextLoss ctx s := rfl
@[simp] theorem exec_rasPop (die : Nat) (s : State) : exec (.rasPop die) s = execRasPop die s := rfl
@[simp] theorem exec_mcheckClear (core : Nat) (val : Word) (s : State) : exec (.mcheckClear core val) s = execMcheckClear core val s := rfl
@[simp] theorem exec_handlerInstall (core : Nat) (lvlM : Bool) (cva : Word) (s : State) : exec (.handlerInstall core lvlM cva) s = execHandlerInstall core lvlM cva s := rfl
@[simp] theorem exec_lnkRetrainForce (die link : Nat) (s : State) : exec (.lnkRetrainForce die link) s = execLnkRetrainForce die link s := rfl
@[simp] theorem exec_lnkInject (die link : Nat) (s : State) : exec (.lnkInject die link) s = execLnkInject die link s := rfl
@[simp] theorem exec_dlogBaseWrite (die : Nat) (val : Word) (s : State) : exec (.dlogBaseWrite die val) s = execDlogBaseWrite die val s := rfl
@[simp] theorem exec_linkCounterSnapshot (die : Nat) (s : State) : exec (.linkCounterSnapshot die) s = execLinkCounterSnapshot die s := rfl
@[simp] theorem exec_pcSample (core : Nat) (s : State) : exec (.pcSample core) s = execPcSample core s := rfl
@[simp] theorem exec_pctDisableSpill (part : Nat) (s : State) : exec (.pctDisableSpill part) s = execPctDisableSpill part s := rfl
@[simp] theorem exec_rplCtlWrite (part : Nat) (val : Word) (s : State) : exec (.rplCtlWrite part val) s = execRplCtlWrite part val s := rfl
@[simp] theorem exec_replayDivergence (unit loc : Nat) (s : State) : exec (.replayDivergence unit loc) s = execReplayDivergence unit loc s := rfl
@[simp] theorem exec_operatingPointChange (die mhz : Nat) (s : State) : exec (.operatingPointChange die mhz) s = execOperatingPointChange die mhz s := rfl
@[simp] theorem exec_pwrCapWrite (die : Nat) (val : Word) (s : State) : exec (.pwrCapWrite die val) s = execPwrCapWrite die val s := rfl
@[simp] theorem exec_packageReset (s : State) : exec (.packageReset) s = execPackageReset s := rfl
@[simp] theorem exec_bootStepAdvance (s : State) : exec (.bootStepAdvance) s = execBootStepAdvance s := rfl
@[simp] theorem exec_dieReset (die : Nat) (s : State) : exec (.dieReset die) s = execDieReset die s := rfl
@[simp] theorem exec_hostAccess (wr : Bool) (addr size data : Nat) (s : State) : exec (.hostAccess wr addr size data) s = execHostAccess wr addr size data s := rfl
@[simp] theorem exec_scaleUpAccess (peer : Nat) (wr : Bool) (addr size data : Nat) (s : State) : exec (.scaleUpAccess peer wr addr size data) s = execScaleUpAccess peer wr addr size data s := rfl
@[simp] theorem exec_portLaunch (part : Nat) (arg0 arg1 res : Word) (s : State) : exec (.portLaunch part arg0 arg1 res) s = execPortLaunch part arg0 arg1 res s := rfl
@[simp] theorem exec_portRelaunch (part : Nat) (arg0 arg1 res : Word) (s : State) : exec (.portRelaunch part arg0 arg1 res) s = execPortRelaunch part arg0 arg1 res s := rfl
@[simp] theorem exec_portRepair (part : Nat) (arg0 arg1 res : Word) (s : State) : exec (.portRepair part arg0 arg1 res) s = execPortRepair part arg0 arg1 res s := rfl
@[simp] theorem exec_setmode (mode res : Word) (s : State) : exec (.setmode mode res) s = execSetmode mode res s := rfl
@[simp] theorem exec_create (set share res : Word) (s : State) : exec (.create set share res) s = execCreate set share res s := rfl
@[simp] theorem exec_destroy (set idx res : Word) (s : State) : exec (.destroy set idx res) s = execDestroy set idx res s := rfl
@[simp] theorem exec_swap (set idx res : Word) (s : State) : exec (.swap set idx res) s = execSwap set idx res s := rfl
@[simp] theorem exec_slice (set us res : Word) (s : State) : exec (.slice set us res) s = execSlice set us res s := rfl
@[simp] theorem exec_preempt (set res : Word) (s : State) : exec (.preempt set res) s = execPreempt set res s := rfl
@[simp] theorem exec_resume (set res : Word) (s : State) : exec (.resume set res) s = execResume set res s := rfl
@[simp] theorem exec_attest (nonce buf res : Word) (s : State) : exec (.attest nonce buf res) s = execAttest nonce buf res s := rfl
@[simp] theorem exec_timeSliceExpiry (set : Nat) (s : State) : exec (.timeSliceExpiry set) s = execTimeSliceExpiry set s := rfl
@[simp] theorem exec_nonInstructionEncoding (enc : BitVec 32) (s : State) : exec (.nonInstructionEncoding enc) s = execNonInstructionEncoding enc s := rfl
@[simp] theorem exec_jcWaitRepoll (ctx : Nat) (s : State) : exec (.jcWaitRepoll ctx) s = execJcWaitRepoll ctx s := rfl
@[simp] theorem exec_flitSend (die link : Nat) (s : State) : exec (.flitSend die link) s = execFlitSend die link s := rfl
@[simp] theorem exec_unrecoverableFaultReport (die : Nat) (s : State) : exec (.unrecoverableFaultReport die) s = execUnrecoverableFaultReport die s := rfl
@[simp] theorem exec_launchPortWriteRefused (part : Nat) (s : State) : exec (.launchPortWriteRefused part) s = execLaunchPortWriteRefused part s := rfl
@[simp] theorem exec_mailboxWriteRefused (part : Nat) (s : State) : exec (.mailboxWriteRefused part) s = execMailboxWriteRefused part s := rfl

end Sys2Proof.Laws
end

