-- ==== Sys2Proof/Laws/State.lean ====
section
/-! SUPPORT. What each update of the state leaves of each field: one lemma per field per update, so that no later proof unfolds a
record update. -/

set_option Elab.async false

namespace Sys2Proof.Laws

open Sys2Proof Sys2Proof.Machine

/-! ### A core is changed -/

@[simp] theorem modCore_th (s : State) (c : Nat) (f : Core → Core) : (s.modCore c f).th = s.th := rfl
@[simp] theorem modCore_cur (s : State) (c : Nat) (f : Core → Core) : (s.modCore c f).cur = s.cur := rfl
@[simp] theorem modCore_ipc (s : State) (c : Nat) (f : Core → Core) : (s.modCore c f).ipc = s.ipc := rfl
@[simp] theorem modCore_ienc (s : State) (c : Nat) (f : Core → Core) : (s.modCore c f).ienc = s.ienc := rfl
@[simp] theorem modCore_mem (s : State) (c : Nat) (f : Core → Core) : (s.modCore c f).mem = s.mem := rfl
@[simp] theorem modCore_cstore (s : State) (c : Nat) (f : Core → Core) : (s.modCore c f).cstore = s.cstore := rfl
@[simp] theorem modCore_poison (s : State) (c : Nat) (f : Core → Core) : (s.modCore c f).poison = s.poison := rfl
@[simp] theorem modCore_ctxs (s : State) (c : Nat) (f : Core → Core) : (s.modCore c f).ctxs = s.ctxs := rfl
@[simp] theorem modCore_cdir (s : State) (c : Nat) (f : Core → Core) : (s.modCore c f).cdir = s.cdir := rfl
@[simp] theorem modCore_clusters (s : State) (c : Nat) (f : Core → Core) : (s.modCore c f).clusters = s.clusters := rfl
@[simp] theorem modCore_dies (s : State) (c : Nat) (f : Core → Core) : (s.modCore c f).dies = s.dies := rfl
@[simp] theorem modCore_links (s : State) (c : Nat) (f : Core → Core) : (s.modCore c f).links = s.links := rfl
@[simp] theorem modCore_dir (s : State) (c : Nat) (f : Core → Core) : (s.modCore c f).dir = s.dir := rfl
@[simp] theorem modCore_stamps (s : State) (c : Nat) (f : Core → Core) : (s.modCore c f).stamps = s.stamps := rfl
@[simp] theorem modCore_lost (s : State) (c : Nat) (f : Core → Core) : (s.modCore c f).lost = s.lost := rfl
@[simp] theorem modCore_seqs (s : State) (c : Nat) (f : Core → Core) : (s.modCore c f).seqs = s.seqs := rfl
@[simp] theorem modCore_tiles (s : State) (c : Nat) (f : Core → Core) : (s.modCore c f).tiles = s.tiles := rfl
@[simp] theorem modCore_blocks (s : State) (c : Nat) (f : Core → Core) : (s.modCore c f).blocks = s.blocks := rfl
@[simp] theorem modCore_launches (s : State) (c : Nat) (f : Core → Core) : (s.modCore c f).launches = s.launches := rfl
@[simp] theorem modCore_parts (s : State) (c : Nat) (f : Core → Core) : (s.modCore c f).parts = s.parts := rfl
@[simp] theorem modCore_sets (s : State) (c : Nat) (f : Core → Core) : (s.modCore c f).sets = s.sets := rfl
@[simp] theorem modCore_held (s : State) (c : Nat) (f : Core → Core) : (s.modCore c f).held = s.held := rfl
@[simp] theorem modCore_inlink (s : State) (c : Nat) (f : Core → Core) : (s.modCore c f).inlink = s.inlink := rfl
@[simp] theorem modCore_olds (s : State) (c : Nat) (f : Core → Core) : (s.modCore c f).olds = s.olds := rfl
@[simp] theorem modCore_inbox (s : State) (c : Nat) (f : Core → Core) : (s.modCore c f).inbox = s.inbox := rfl
@[simp] theorem modCore_gtime (s : State) (c : Nat) (f : Core → Core) : (s.modCore c f).gtime = s.gtime := rfl
@[simp] theorem modCore_sub (s : State) (c : Nat) (f : Core → Core) : (s.modCore c f).sub = s.sub := rfl
@[simp] theorem modCore_mode (s : State) (c : Nat) (f : Core → Core) : (s.modCore c f).mode = s.mode := rfl
@[simp] theorem modCore_bootStep (s : State) (c : Nat) (f : Core → Core) : (s.modCore c f).bootStep = s.bootStep := rfl
@[simp] theorem modCore_bootFail (s : State) (c : Nat) (f : Core → Core) : (s.modCore c f).bootFail = s.bootFail := rfl
@[simp] theorem modCore_bootReason (s : State) (c : Nat) (f : Core → Core) : (s.modCore c f).bootReason = s.bootReason := rfl
@[simp] theorem modCore_meas (s : State) (c : Nat) (f : Core → Core) : (s.modCore c f).meas = s.meas := rfl
@[simp] theorem modCore_flash (s : State) (c : Nat) (f : Core → Core) : (s.modCore c f).flash = s.flash := rfl
@[simp] theorem modCore_diefail (s : State) (c : Nat) (f : Core → Core) : (s.modCore c f).diefail = s.diefail := rfl
@[simp] theorem modCore_scrub (s : State) (c : Nat) (f : Core → Core) : (s.modCore c f).scrub = s.scrub := rfl
@[simp] theorem modCore_mailbox (s : State) (c : Nat) (f : Core → Core) : (s.modCore c f).mailbox = s.mailbox := rfl
@[simp] theorem modCore_launchIds (s : State) (c : Nat) (f : Core → Core) : (s.modCore c f).launchIds = s.launchIds := rfl
@[simp] theorem modCore_external (s : State) (c : Nat) (f : Core → Core) : (s.modCore c f).external = s.external := rfl
@[simp] theorem modCore_ptpRate (s : State) (c : Nat) (f : Core → Core) : (s.modCore c f).ptpRate = s.ptpRate := rfl
@[simp] theorem modCore_ptpFrac (s : State) (c : Nat) (f : Core → Core) : (s.modCore c f).ptpFrac = s.ptpFrac := rfl
@[simp] theorem modCore_ptpWaits (s : State) (c : Nat) (f : Core → Core) : (s.modCore c f).ptpWaits = s.ptpWaits := rfl
@[simp] theorem modCore_lockReports (s : State) (c : Nat) (f : Core → Core) : (s.modCore c f).lockReports = s.lockReports := rfl
@[simp] theorem modCore_fresh (s : State) (c : Nat) (f : Core → Core) : (s.modCore c f).fresh = s.fresh := rfl

/-! ### A cluster is changed -/

@[simp] theorem modCluster_th (s : State) (c : Nat) (f : Cluster → Cluster) : (s.modCluster c f).th = s.th := rfl
@[simp] theorem modCluster_cur (s : State) (c : Nat) (f : Cluster → Cluster) : (s.modCluster c f).cur = s.cur := rfl
@[simp] theorem modCluster_ipc (s : State) (c : Nat) (f : Cluster → Cluster) : (s.modCluster c f).ipc = s.ipc := rfl
@[simp] theorem modCluster_ienc (s : State) (c : Nat) (f : Cluster → Cluster) : (s.modCluster c f).ienc = s.ienc := rfl
@[simp] theorem modCluster_mem (s : State) (c : Nat) (f : Cluster → Cluster) : (s.modCluster c f).mem = s.mem := rfl
@[simp] theorem modCluster_cstore (s : State) (c : Nat) (f : Cluster → Cluster) : (s.modCluster c f).cstore = s.cstore := rfl
@[simp] theorem modCluster_poison (s : State) (c : Nat) (f : Cluster → Cluster) : (s.modCluster c f).poison = s.poison := rfl
@[simp] theorem modCluster_ctxs (s : State) (c : Nat) (f : Cluster → Cluster) : (s.modCluster c f).ctxs = s.ctxs := rfl
@[simp] theorem modCluster_cdir (s : State) (c : Nat) (f : Cluster → Cluster) : (s.modCluster c f).cdir = s.cdir := rfl
@[simp] theorem modCluster_cores (s : State) (c : Nat) (f : Cluster → Cluster) : (s.modCluster c f).cores = s.cores := rfl
@[simp] theorem modCluster_dies (s : State) (c : Nat) (f : Cluster → Cluster) : (s.modCluster c f).dies = s.dies := rfl
@[simp] theorem modCluster_links (s : State) (c : Nat) (f : Cluster → Cluster) : (s.modCluster c f).links = s.links := rfl
@[simp] theorem modCluster_dir (s : State) (c : Nat) (f : Cluster → Cluster) : (s.modCluster c f).dir = s.dir := rfl
@[simp] theorem modCluster_stamps (s : State) (c : Nat) (f : Cluster → Cluster) : (s.modCluster c f).stamps = s.stamps := rfl
@[simp] theorem modCluster_lost (s : State) (c : Nat) (f : Cluster → Cluster) : (s.modCluster c f).lost = s.lost := rfl
@[simp] theorem modCluster_seqs (s : State) (c : Nat) (f : Cluster → Cluster) : (s.modCluster c f).seqs = s.seqs := rfl
@[simp] theorem modCluster_tiles (s : State) (c : Nat) (f : Cluster → Cluster) : (s.modCluster c f).tiles = s.tiles := rfl
@[simp] theorem modCluster_blocks (s : State) (c : Nat) (f : Cluster → Cluster) : (s.modCluster c f).blocks = s.blocks := rfl
@[simp] theorem modCluster_launches (s : State) (c : Nat) (f : Cluster → Cluster) : (s.modCluster c f).launches = s.launches := rfl
@[simp] theorem modCluster_parts (s : State) (c : Nat) (f : Cluster → Cluster) : (s.modCluster c f).parts = s.parts := rfl
@[simp] theorem modCluster_sets (s : State) (c : Nat) (f : Cluster → Cluster) : (s.modCluster c f).sets = s.sets := rfl
@[simp] theorem modCluster_held (s : State) (c : Nat) (f : Cluster → Cluster) : (s.modCluster c f).held = s.held := rfl
@[simp] theorem modCluster_inlink (s : State) (c : Nat) (f : Cluster → Cluster) : (s.modCluster c f).inlink = s.inlink := rfl
@[simp] theorem modCluster_olds (s : State) (c : Nat) (f : Cluster → Cluster) : (s.modCluster c f).olds = s.olds := rfl
@[simp] theorem modCluster_inbox (s : State) (c : Nat) (f : Cluster → Cluster) : (s.modCluster c f).inbox = s.inbox := rfl
@[simp] theorem modCluster_gtime (s : State) (c : Nat) (f : Cluster → Cluster) : (s.modCluster c f).gtime = s.gtime := rfl
@[simp] theorem modCluster_sub (s : State) (c : Nat) (f : Cluster → Cluster) : (s.modCluster c f).sub = s.sub := rfl
@[simp] theorem modCluster_mode (s : State) (c : Nat) (f : Cluster → Cluster) : (s.modCluster c f).mode = s.mode := rfl
@[simp] theorem modCluster_bootStep (s : State) (c : Nat) (f : Cluster → Cluster) : (s.modCluster c f).bootStep = s.bootStep := rfl
@[simp] theorem modCluster_bootFail (s : State) (c : Nat) (f : Cluster → Cluster) : (s.modCluster c f).bootFail = s.bootFail := rfl
@[simp] theorem modCluster_bootReason (s : State) (c : Nat) (f : Cluster → Cluster) : (s.modCluster c f).bootReason = s.bootReason := rfl
@[simp] theorem modCluster_meas (s : State) (c : Nat) (f : Cluster → Cluster) : (s.modCluster c f).meas = s.meas := rfl
@[simp] theorem modCluster_flash (s : State) (c : Nat) (f : Cluster → Cluster) : (s.modCluster c f).flash = s.flash := rfl
@[simp] theorem modCluster_diefail (s : State) (c : Nat) (f : Cluster → Cluster) : (s.modCluster c f).diefail = s.diefail := rfl
@[simp] theorem modCluster_scrub (s : State) (c : Nat) (f : Cluster → Cluster) : (s.modCluster c f).scrub = s.scrub := rfl
@[simp] theorem modCluster_mailbox (s : State) (c : Nat) (f : Cluster → Cluster) : (s.modCluster c f).mailbox = s.mailbox := rfl
@[simp] theorem modCluster_launchIds (s : State) (c : Nat) (f : Cluster → Cluster) : (s.modCluster c f).launchIds = s.launchIds := rfl
@[simp] theorem modCluster_external (s : State) (c : Nat) (f : Cluster → Cluster) : (s.modCluster c f).external = s.external := rfl
@[simp] theorem modCluster_ptpRate (s : State) (c : Nat) (f : Cluster → Cluster) : (s.modCluster c f).ptpRate = s.ptpRate := rfl
@[simp] theorem modCluster_ptpFrac (s : State) (c : Nat) (f : Cluster → Cluster) : (s.modCluster c f).ptpFrac = s.ptpFrac := rfl
@[simp] theorem modCluster_ptpWaits (s : State) (c : Nat) (f : Cluster → Cluster) : (s.modCluster c f).ptpWaits = s.ptpWaits := rfl
@[simp] theorem modCluster_lockReports (s : State) (c : Nat) (f : Cluster → Cluster) : (s.modCluster c f).lockReports = s.lockReports := rfl
@[simp] theorem modCluster_fresh (s : State) (c : Nat) (f : Cluster → Cluster) : (s.modCluster c f).fresh = s.fresh := rfl

/-! ### A die is changed -/

@[simp] theorem modDie_th (s : State) (d : Nat) (f : Die → Die) : (s.modDie d f).th = s.th := rfl
@[simp] theorem modDie_cur (s : State) (d : Nat) (f : Die → Die) : (s.modDie d f).cur = s.cur := rfl
@[simp] theorem modDie_ipc (s : State) (d : Nat) (f : Die → Die) : (s.modDie d f).ipc = s.ipc := rfl
@[simp] theorem modDie_ienc (s : State) (d : Nat) (f : Die → Die) : (s.modDie d f).ienc = s.ienc := rfl
@[simp] theorem modDie_mem (s : State) (d : Nat) (f : Die → Die) : (s.modDie d f).mem = s.mem := rfl
@[simp] theorem modDie_cstore (s : State) (d : Nat) (f : Die → Die) : (s.modDie d f).cstore = s.cstore := rfl
@[simp] theorem modDie_poison (s : State) (d : Nat) (f : Die → Die) : (s.modDie d f).poison = s.poison := rfl
@[simp] theorem modDie_ctxs (s : State) (d : Nat) (f : Die → Die) : (s.modDie d f).ctxs = s.ctxs := rfl
@[simp] theorem modDie_cdir (s : State) (d : Nat) (f : Die → Die) : (s.modDie d f).cdir = s.cdir := rfl
@[simp] theorem modDie_cores (s : State) (d : Nat) (f : Die → Die) : (s.modDie d f).cores = s.cores := rfl
@[simp] theorem modDie_clusters (s : State) (d : Nat) (f : Die → Die) : (s.modDie d f).clusters = s.clusters := rfl
@[simp] theorem modDie_links (s : State) (d : Nat) (f : Die → Die) : (s.modDie d f).links = s.links := rfl
@[simp] theorem modDie_dir (s : State) (d : Nat) (f : Die → Die) : (s.modDie d f).dir = s.dir := rfl
@[simp] theorem modDie_stamps (s : State) (d : Nat) (f : Die → Die) : (s.modDie d f).stamps = s.stamps := rfl
@[simp] theorem modDie_lost (s : State) (d : Nat) (f : Die → Die) : (s.modDie d f).lost = s.lost := rfl
@[simp] theorem modDie_seqs (s : State) (d : Nat) (f : Die → Die) : (s.modDie d f).seqs = s.seqs := rfl
@[simp] theorem modDie_tiles (s : State) (d : Nat) (f : Die → Die) : (s.modDie d f).tiles = s.tiles := rfl
@[simp] theorem modDie_blocks (s : State) (d : Nat) (f : Die → Die) : (s.modDie d f).blocks = s.blocks := rfl
@[simp] theorem modDie_launches (s : State) (d : Nat) (f : Die → Die) : (s.modDie d f).launches = s.launches := rfl
@[simp] theorem modDie_parts (s : State) (d : Nat) (f : Die → Die) : (s.modDie d f).parts = s.parts := rfl
@[simp] theorem modDie_sets (s : State) (d : Nat) (f : Die → Die) : (s.modDie d f).sets = s.sets := rfl
@[simp] theorem modDie_held (s : State) (d : Nat) (f : Die → Die) : (s.modDie d f).held = s.held := rfl
@[simp] theorem modDie_inlink (s : State) (d : Nat) (f : Die → Die) : (s.modDie d f).inlink = s.inlink := rfl
@[simp] theorem modDie_olds (s : State) (d : Nat) (f : Die → Die) : (s.modDie d f).olds = s.olds := rfl
@[simp] theorem modDie_inbox (s : State) (d : Nat) (f : Die → Die) : (s.modDie d f).inbox = s.inbox := rfl
@[simp] theorem modDie_gtime (s : State) (d : Nat) (f : Die → Die) : (s.modDie d f).gtime = s.gtime := rfl
@[simp] theorem modDie_sub (s : State) (d : Nat) (f : Die → Die) : (s.modDie d f).sub = s.sub := rfl
@[simp] theorem modDie_mode (s : State) (d : Nat) (f : Die → Die) : (s.modDie d f).mode = s.mode := rfl
@[simp] theorem modDie_bootStep (s : State) (d : Nat) (f : Die → Die) : (s.modDie d f).bootStep = s.bootStep := rfl
@[simp] theorem modDie_bootFail (s : State) (d : Nat) (f : Die → Die) : (s.modDie d f).bootFail = s.bootFail := rfl
@[simp] theorem modDie_bootReason (s : State) (d : Nat) (f : Die → Die) : (s.modDie d f).bootReason = s.bootReason := rfl
@[simp] theorem modDie_meas (s : State) (d : Nat) (f : Die → Die) : (s.modDie d f).meas = s.meas := rfl
@[simp] theorem modDie_flash (s : State) (d : Nat) (f : Die → Die) : (s.modDie d f).flash = s.flash := rfl
@[simp] theorem modDie_diefail (s : State) (d : Nat) (f : Die → Die) : (s.modDie d f).diefail = s.diefail := rfl
@[simp] theorem modDie_scrub (s : State) (d : Nat) (f : Die → Die) : (s.modDie d f).scrub = s.scrub := rfl
@[simp] theorem modDie_mailbox (s : State) (d : Nat) (f : Die → Die) : (s.modDie d f).mailbox = s.mailbox := rfl
@[simp] theorem modDie_launchIds (s : State) (d : Nat) (f : Die → Die) : (s.modDie d f).launchIds = s.launchIds := rfl
@[simp] theorem modDie_external (s : State) (d : Nat) (f : Die → Die) : (s.modDie d f).external = s.external := rfl
@[simp] theorem modDie_ptpRate (s : State) (d : Nat) (f : Die → Die) : (s.modDie d f).ptpRate = s.ptpRate := rfl
@[simp] theorem modDie_ptpFrac (s : State) (d : Nat) (f : Die → Die) : (s.modDie d f).ptpFrac = s.ptpFrac := rfl
@[simp] theorem modDie_ptpWaits (s : State) (d : Nat) (f : Die → Die) : (s.modDie d f).ptpWaits = s.ptpWaits := rfl
@[simp] theorem modDie_lockReports (s : State) (d : Nat) (f : Die → Die) : (s.modDie d f).lockReports = s.lockReports := rfl
@[simp] theorem modDie_fresh (s : State) (d : Nat) (f : Die → Die) : (s.modDie d f).fresh = s.fresh := rfl

/-! ### An end of a link is changed -/

@[simp] theorem modLink_th (s : State) (d l : Nat) (f : LinkEnd → LinkEnd) : (s.modLink d l f).th = s.th := rfl
@[simp] theorem modLink_cur (s : State) (d l : Nat) (f : LinkEnd → LinkEnd) : (s.modLink d l f).cur = s.cur := rfl
@[simp] theorem modLink_ipc (s : State) (d l : Nat) (f : LinkEnd → LinkEnd) : (s.modLink d l f).ipc = s.ipc := rfl
@[simp] theorem modLink_ienc (s : State) (d l : Nat) (f : LinkEnd → LinkEnd) : (s.modLink d l f).ienc = s.ienc := rfl
@[simp] theorem modLink_mem (s : State) (d l : Nat) (f : LinkEnd → LinkEnd) : (s.modLink d l f).mem = s.mem := rfl
@[simp] theorem modLink_cstore (s : State) (d l : Nat) (f : LinkEnd → LinkEnd) : (s.modLink d l f).cstore = s.cstore := rfl
@[simp] theorem modLink_poison (s : State) (d l : Nat) (f : LinkEnd → LinkEnd) : (s.modLink d l f).poison = s.poison := rfl
@[simp] theorem modLink_ctxs (s : State) (d l : Nat) (f : LinkEnd → LinkEnd) : (s.modLink d l f).ctxs = s.ctxs := rfl
@[simp] theorem modLink_cdir (s : State) (d l : Nat) (f : LinkEnd → LinkEnd) : (s.modLink d l f).cdir = s.cdir := rfl
@[simp] theorem modLink_cores (s : State) (d l : Nat) (f : LinkEnd → LinkEnd) : (s.modLink d l f).cores = s.cores := rfl
@[simp] theorem modLink_clusters (s : State) (d l : Nat) (f : LinkEnd → LinkEnd) : (s.modLink d l f).clusters = s.clusters := rfl
@[simp] theorem modLink_dies (s : State) (d l : Nat) (f : LinkEnd → LinkEnd) : (s.modLink d l f).dies = s.dies := rfl
@[simp] theorem modLink_dir (s : State) (d l : Nat) (f : LinkEnd → LinkEnd) : (s.modLink d l f).dir = s.dir := rfl
@[simp] theorem modLink_stamps (s : State) (d l : Nat) (f : LinkEnd → LinkEnd) : (s.modLink d l f).stamps = s.stamps := rfl
@[simp] theorem modLink_lost (s : State) (d l : Nat) (f : LinkEnd → LinkEnd) : (s.modLink d l f).lost = s.lost := rfl
@[simp] theorem modLink_seqs (s : State) (d l : Nat) (f : LinkEnd → LinkEnd) : (s.modLink d l f).seqs = s.seqs := rfl
@[simp] theorem modLink_tiles (s : State) (d l : Nat) (f : LinkEnd → LinkEnd) : (s.modLink d l f).tiles = s.tiles := rfl
@[simp] theorem modLink_blocks (s : State) (d l : Nat) (f : LinkEnd → LinkEnd) : (s.modLink d l f).blocks = s.blocks := rfl
@[simp] theorem modLink_launches (s : State) (d l : Nat) (f : LinkEnd → LinkEnd) : (s.modLink d l f).launches = s.launches := rfl
@[simp] theorem modLink_parts (s : State) (d l : Nat) (f : LinkEnd → LinkEnd) : (s.modLink d l f).parts = s.parts := rfl
@[simp] theorem modLink_sets (s : State) (d l : Nat) (f : LinkEnd → LinkEnd) : (s.modLink d l f).sets = s.sets := rfl
@[simp] theorem modLink_held (s : State) (d l : Nat) (f : LinkEnd → LinkEnd) : (s.modLink d l f).held = s.held := rfl
@[simp] theorem modLink_inlink (s : State) (d l : Nat) (f : LinkEnd → LinkEnd) : (s.modLink d l f).inlink = s.inlink := rfl
@[simp] theorem modLink_olds (s : State) (d l : Nat) (f : LinkEnd → LinkEnd) : (s.modLink d l f).olds = s.olds := rfl
@[simp] theorem modLink_inbox (s : State) (d l : Nat) (f : LinkEnd → LinkEnd) : (s.modLink d l f).inbox = s.inbox := rfl
@[simp] theorem modLink_gtime (s : State) (d l : Nat) (f : LinkEnd → LinkEnd) : (s.modLink d l f).gtime = s.gtime := rfl
@[simp] theorem modLink_sub (s : State) (d l : Nat) (f : LinkEnd → LinkEnd) : (s.modLink d l f).sub = s.sub := rfl
@[simp] theorem modLink_mode (s : State) (d l : Nat) (f : LinkEnd → LinkEnd) : (s.modLink d l f).mode = s.mode := rfl
@[simp] theorem modLink_bootStep (s : State) (d l : Nat) (f : LinkEnd → LinkEnd) : (s.modLink d l f).bootStep = s.bootStep := rfl
@[simp] theorem modLink_bootFail (s : State) (d l : Nat) (f : LinkEnd → LinkEnd) : (s.modLink d l f).bootFail = s.bootFail := rfl
@[simp] theorem modLink_bootReason (s : State) (d l : Nat) (f : LinkEnd → LinkEnd) : (s.modLink d l f).bootReason = s.bootReason := rfl
@[simp] theorem modLink_meas (s : State) (d l : Nat) (f : LinkEnd → LinkEnd) : (s.modLink d l f).meas = s.meas := rfl
@[simp] theorem modLink_flash (s : State) (d l : Nat) (f : LinkEnd → LinkEnd) : (s.modLink d l f).flash = s.flash := rfl
@[simp] theorem modLink_diefail (s : State) (d l : Nat) (f : LinkEnd → LinkEnd) : (s.modLink d l f).diefail = s.diefail := rfl
@[simp] theorem modLink_scrub (s : State) (d l : Nat) (f : LinkEnd → LinkEnd) : (s.modLink d l f).scrub = s.scrub := rfl
@[simp] theorem modLink_mailbox (s : State) (d l : Nat) (f : LinkEnd → LinkEnd) : (s.modLink d l f).mailbox = s.mailbox := rfl
@[simp] theorem modLink_launchIds (s : State) (d l : Nat) (f : LinkEnd → LinkEnd) : (s.modLink d l f).launchIds = s.launchIds := rfl
@[simp] theorem modLink_external (s : State) (d l : Nat) (f : LinkEnd → LinkEnd) : (s.modLink d l f).external = s.external := rfl
@[simp] theorem modLink_ptpRate (s : State) (d l : Nat) (f : LinkEnd → LinkEnd) : (s.modLink d l f).ptpRate = s.ptpRate := rfl
@[simp] theorem modLink_ptpFrac (s : State) (d l : Nat) (f : LinkEnd → LinkEnd) : (s.modLink d l f).ptpFrac = s.ptpFrac := rfl
@[simp] theorem modLink_ptpWaits (s : State) (d l : Nat) (f : LinkEnd → LinkEnd) : (s.modLink d l f).ptpWaits = s.ptpWaits := rfl
@[simp] theorem modLink_lockReports (s : State) (d l : Nat) (f : LinkEnd → LinkEnd) : (s.modLink d l f).lockReports = s.lockReports := rfl
@[simp] theorem modLink_fresh (s : State) (d l : Nat) (f : LinkEnd → LinkEnd) : (s.modLink d l f).fresh = s.fresh := rfl

/-! ### A partition is changed -/

@[simp] theorem modPart_th (s : State) (p : Nat) (f : Partition → Partition) : (s.modPart p f).th = s.th := rfl
@[simp] theorem modPart_cur (s : State) (p : Nat) (f : Partition → Partition) : (s.modPart p f).cur = s.cur := rfl
@[simp] theorem modPart_ipc (s : State) (p : Nat) (f : Partition → Partition) : (s.modPart p f).ipc = s.ipc := rfl
@[simp] theorem modPart_ienc (s : State) (p : Nat) (f : Partition → Partition) : (s.modPart p f).ienc = s.ienc := rfl
@[simp] theorem modPart_mem (s : State) (p : Nat) (f : Partition → Partition) : (s.modPart p f).mem = s.mem := rfl
@[simp] theorem modPart_cstore (s : State) (p : Nat) (f : Partition → Partition) : (s.modPart p f).cstore = s.cstore := rfl
@[simp] theorem modPart_poison (s : State) (p : Nat) (f : Partition → Partition) : (s.modPart p f).poison = s.poison := rfl
@[simp] theorem modPart_ctxs (s : State) (p : Nat) (f : Partition → Partition) : (s.modPart p f).ctxs = s.ctxs := rfl
@[simp] theorem modPart_cdir (s : State) (p : Nat) (f : Partition → Partition) : (s.modPart p f).cdir = s.cdir := rfl
@[simp] theorem modPart_cores (s : State) (p : Nat) (f : Partition → Partition) : (s.modPart p f).cores = s.cores := rfl
@[simp] theorem modPart_clusters (s : State) (p : Nat) (f : Partition → Partition) : (s.modPart p f).clusters = s.clusters := rfl
@[simp] theorem modPart_dies (s : State) (p : Nat) (f : Partition → Partition) : (s.modPart p f).dies = s.dies := rfl
@[simp] theorem modPart_links (s : State) (p : Nat) (f : Partition → Partition) : (s.modPart p f).links = s.links := rfl
@[simp] theorem modPart_dir (s : State) (p : Nat) (f : Partition → Partition) : (s.modPart p f).dir = s.dir := rfl
@[simp] theorem modPart_stamps (s : State) (p : Nat) (f : Partition → Partition) : (s.modPart p f).stamps = s.stamps := rfl
@[simp] theorem modPart_lost (s : State) (p : Nat) (f : Partition → Partition) : (s.modPart p f).lost = s.lost := rfl
@[simp] theorem modPart_seqs (s : State) (p : Nat) (f : Partition → Partition) : (s.modPart p f).seqs = s.seqs := rfl
@[simp] theorem modPart_tiles (s : State) (p : Nat) (f : Partition → Partition) : (s.modPart p f).tiles = s.tiles := rfl
@[simp] theorem modPart_blocks (s : State) (p : Nat) (f : Partition → Partition) : (s.modPart p f).blocks = s.blocks := rfl
@[simp] theorem modPart_launches (s : State) (p : Nat) (f : Partition → Partition) : (s.modPart p f).launches = s.launches := rfl
@[simp] theorem modPart_sets (s : State) (p : Nat) (f : Partition → Partition) : (s.modPart p f).sets = s.sets := rfl
@[simp] theorem modPart_held (s : State) (p : Nat) (f : Partition → Partition) : (s.modPart p f).held = s.held := rfl
@[simp] theorem modPart_inlink (s : State) (p : Nat) (f : Partition → Partition) : (s.modPart p f).inlink = s.inlink := rfl
@[simp] theorem modPart_olds (s : State) (p : Nat) (f : Partition → Partition) : (s.modPart p f).olds = s.olds := rfl
@[simp] theorem modPart_inbox (s : State) (p : Nat) (f : Partition → Partition) : (s.modPart p f).inbox = s.inbox := rfl
@[simp] theorem modPart_gtime (s : State) (p : Nat) (f : Partition → Partition) : (s.modPart p f).gtime = s.gtime := rfl
@[simp] theorem modPart_sub (s : State) (p : Nat) (f : Partition → Partition) : (s.modPart p f).sub = s.sub := rfl
@[simp] theorem modPart_mode (s : State) (p : Nat) (f : Partition → Partition) : (s.modPart p f).mode = s.mode := rfl
@[simp] theorem modPart_bootStep (s : State) (p : Nat) (f : Partition → Partition) : (s.modPart p f).bootStep = s.bootStep := rfl
@[simp] theorem modPart_bootFail (s : State) (p : Nat) (f : Partition → Partition) : (s.modPart p f).bootFail = s.bootFail := rfl
@[simp] theorem modPart_bootReason (s : State) (p : Nat) (f : Partition → Partition) : (s.modPart p f).bootReason = s.bootReason := rfl
@[simp] theorem modPart_meas (s : State) (p : Nat) (f : Partition → Partition) : (s.modPart p f).meas = s.meas := rfl
@[simp] theorem modPart_flash (s : State) (p : Nat) (f : Partition → Partition) : (s.modPart p f).flash = s.flash := rfl
@[simp] theorem modPart_diefail (s : State) (p : Nat) (f : Partition → Partition) : (s.modPart p f).diefail = s.diefail := rfl
@[simp] theorem modPart_scrub (s : State) (p : Nat) (f : Partition → Partition) : (s.modPart p f).scrub = s.scrub := rfl
@[simp] theorem modPart_mailbox (s : State) (p : Nat) (f : Partition → Partition) : (s.modPart p f).mailbox = s.mailbox := rfl
@[simp] theorem modPart_launchIds (s : State) (p : Nat) (f : Partition → Partition) : (s.modPart p f).launchIds = s.launchIds := rfl
@[simp] theorem modPart_external (s : State) (p : Nat) (f : Partition → Partition) : (s.modPart p f).external = s.external := rfl
@[simp] theorem modPart_ptpRate (s : State) (p : Nat) (f : Partition → Partition) : (s.modPart p f).ptpRate = s.ptpRate := rfl
@[simp] theorem modPart_ptpFrac (s : State) (p : Nat) (f : Partition → Partition) : (s.modPart p f).ptpFrac = s.ptpFrac := rfl
@[simp] theorem modPart_ptpWaits (s : State) (p : Nat) (f : Partition → Partition) : (s.modPart p f).ptpWaits = s.ptpWaits := rfl
@[simp] theorem modPart_lockReports (s : State) (p : Nat) (f : Partition → Partition) : (s.modPart p f).lockReports = s.lockReports := rfl
@[simp] theorem modPart_fresh (s : State) (p : Nat) (f : Partition → Partition) : (s.modPart p f).fresh = s.fresh := rfl

/-! ### A die set is changed -/

@[simp] theorem modSet_th (s : State) (d : Nat) (f : DieSet → DieSet) : (s.modSet d f).th = s.th := rfl
@[simp] theorem modSet_cur (s : State) (d : Nat) (f : DieSet → DieSet) : (s.modSet d f).cur = s.cur := rfl
@[simp] theorem modSet_ipc (s : State) (d : Nat) (f : DieSet → DieSet) : (s.modSet d f).ipc = s.ipc := rfl
@[simp] theorem modSet_ienc (s : State) (d : Nat) (f : DieSet → DieSet) : (s.modSet d f).ienc = s.ienc := rfl
@[simp] theorem modSet_mem (s : State) (d : Nat) (f : DieSet → DieSet) : (s.modSet d f).mem = s.mem := rfl
@[simp] theorem modSet_cstore (s : State) (d : Nat) (f : DieSet → DieSet) : (s.modSet d f).cstore = s.cstore := rfl
@[simp] theorem modSet_poison (s : State) (d : Nat) (f : DieSet → DieSet) : (s.modSet d f).poison = s.poison := rfl
@[simp] theorem modSet_ctxs (s : State) (d : Nat) (f : DieSet → DieSet) : (s.modSet d f).ctxs = s.ctxs := rfl
@[simp] theorem modSet_cdir (s : State) (d : Nat) (f : DieSet → DieSet) : (s.modSet d f).cdir = s.cdir := rfl
@[simp] theorem modSet_cores (s : State) (d : Nat) (f : DieSet → DieSet) : (s.modSet d f).cores = s.cores := rfl
@[simp] theorem modSet_clusters (s : State) (d : Nat) (f : DieSet → DieSet) : (s.modSet d f).clusters = s.clusters := rfl
@[simp] theorem modSet_dies (s : State) (d : Nat) (f : DieSet → DieSet) : (s.modSet d f).dies = s.dies := rfl
@[simp] theorem modSet_links (s : State) (d : Nat) (f : DieSet → DieSet) : (s.modSet d f).links = s.links := rfl
@[simp] theorem modSet_dir (s : State) (d : Nat) (f : DieSet → DieSet) : (s.modSet d f).dir = s.dir := rfl
@[simp] theorem modSet_stamps (s : State) (d : Nat) (f : DieSet → DieSet) : (s.modSet d f).stamps = s.stamps := rfl
@[simp] theorem modSet_lost (s : State) (d : Nat) (f : DieSet → DieSet) : (s.modSet d f).lost = s.lost := rfl
@[simp] theorem modSet_seqs (s : State) (d : Nat) (f : DieSet → DieSet) : (s.modSet d f).seqs = s.seqs := rfl
@[simp] theorem modSet_tiles (s : State) (d : Nat) (f : DieSet → DieSet) : (s.modSet d f).tiles = s.tiles := rfl
@[simp] theorem modSet_blocks (s : State) (d : Nat) (f : DieSet → DieSet) : (s.modSet d f).blocks = s.blocks := rfl
@[simp] theorem modSet_launches (s : State) (d : Nat) (f : DieSet → DieSet) : (s.modSet d f).launches = s.launches := rfl
@[simp] theorem modSet_parts (s : State) (d : Nat) (f : DieSet → DieSet) : (s.modSet d f).parts = s.parts := rfl
@[simp] theorem modSet_held (s : State) (d : Nat) (f : DieSet → DieSet) : (s.modSet d f).held = s.held := rfl
@[simp] theorem modSet_inlink (s : State) (d : Nat) (f : DieSet → DieSet) : (s.modSet d f).inlink = s.inlink := rfl
@[simp] theorem modSet_olds (s : State) (d : Nat) (f : DieSet → DieSet) : (s.modSet d f).olds = s.olds := rfl
@[simp] theorem modSet_inbox (s : State) (d : Nat) (f : DieSet → DieSet) : (s.modSet d f).inbox = s.inbox := rfl
@[simp] theorem modSet_gtime (s : State) (d : Nat) (f : DieSet → DieSet) : (s.modSet d f).gtime = s.gtime := rfl
@[simp] theorem modSet_sub (s : State) (d : Nat) (f : DieSet → DieSet) : (s.modSet d f).sub = s.sub := rfl
@[simp] theorem modSet_mode (s : State) (d : Nat) (f : DieSet → DieSet) : (s.modSet d f).mode = s.mode := rfl
@[simp] theorem modSet_bootStep (s : State) (d : Nat) (f : DieSet → DieSet) : (s.modSet d f).bootStep = s.bootStep := rfl
@[simp] theorem modSet_bootFail (s : State) (d : Nat) (f : DieSet → DieSet) : (s.modSet d f).bootFail = s.bootFail := rfl
@[simp] theorem modSet_bootReason (s : State) (d : Nat) (f : DieSet → DieSet) : (s.modSet d f).bootReason = s.bootReason := rfl
@[simp] theorem modSet_meas (s : State) (d : Nat) (f : DieSet → DieSet) : (s.modSet d f).meas = s.meas := rfl
@[simp] theorem modSet_flash (s : State) (d : Nat) (f : DieSet → DieSet) : (s.modSet d f).flash = s.flash := rfl
@[simp] theorem modSet_diefail (s : State) (d : Nat) (f : DieSet → DieSet) : (s.modSet d f).diefail = s.diefail := rfl
@[simp] theorem modSet_scrub (s : State) (d : Nat) (f : DieSet → DieSet) : (s.modSet d f).scrub = s.scrub := rfl
@[simp] theorem modSet_mailbox (s : State) (d : Nat) (f : DieSet → DieSet) : (s.modSet d f).mailbox = s.mailbox := rfl
@[simp] theorem modSet_launchIds (s : State) (d : Nat) (f : DieSet → DieSet) : (s.modSet d f).launchIds = s.launchIds := rfl
@[simp] theorem modSet_external (s : State) (d : Nat) (f : DieSet → DieSet) : (s.modSet d f).external = s.external := rfl
@[simp] theorem modSet_ptpRate (s : State) (d : Nat) (f : DieSet → DieSet) : (s.modSet d f).ptpRate = s.ptpRate := rfl
@[simp] theorem modSet_ptpFrac (s : State) (d : Nat) (f : DieSet → DieSet) : (s.modSet d f).ptpFrac = s.ptpFrac := rfl
@[simp] theorem modSet_ptpWaits (s : State) (d : Nat) (f : DieSet → DieSet) : (s.modSet d f).ptpWaits = s.ptpWaits := rfl
@[simp] theorem modSet_lockReports (s : State) (d : Nat) (f : DieSet → DieSet) : (s.modSet d f).lockReports = s.lockReports := rfl
@[simp] theorem modSet_fresh (s : State) (d : Nat) (f : DieSet → DieSet) : (s.modSet d f).fresh = s.fresh := rfl

/-! ### A home's entry of a context line is changed -/

@[simp] theorem modEntry_th (s : State) (i : Nat) (f : CtxEntry → CtxEntry) : (s.modEntry i f).th = s.th := rfl
@[simp] theorem modEntry_cur (s : State) (i : Nat) (f : CtxEntry → CtxEntry) : (s.modEntry i f).cur = s.cur := rfl
@[simp] theorem modEntry_ipc (s : State) (i : Nat) (f : CtxEntry → CtxEntry) : (s.modEntry i f).ipc = s.ipc := rfl
@[simp] theorem modEntry_ienc (s : State) (i : Nat) (f : CtxEntry → CtxEntry) : (s.modEntry i f).ienc = s.ienc := rfl
@[simp] theorem modEntry_mem (s : State) (i : Nat) (f : CtxEntry → CtxEntry) : (s.modEntry i f).mem = s.mem := rfl
@[simp] theorem modEntry_cstore (s : State) (i : Nat) (f : CtxEntry → CtxEntry) : (s.modEntry i f).cstore = s.cstore := rfl
@[simp] theorem modEntry_poison (s : State) (i : Nat) (f : CtxEntry → CtxEntry) : (s.modEntry i f).poison = s.poison := rfl
@[simp] theorem modEntry_ctxs (s : State) (i : Nat) (f : CtxEntry → CtxEntry) : (s.modEntry i f).ctxs = s.ctxs := rfl
@[simp] theorem modEntry_cores (s : State) (i : Nat) (f : CtxEntry → CtxEntry) : (s.modEntry i f).cores = s.cores := rfl
@[simp] theorem modEntry_clusters (s : State) (i : Nat) (f : CtxEntry → CtxEntry) : (s.modEntry i f).clusters = s.clusters := rfl
@[simp] theorem modEntry_dies (s : State) (i : Nat) (f : CtxEntry → CtxEntry) : (s.modEntry i f).dies = s.dies := rfl
@[simp] theorem modEntry_links (s : State) (i : Nat) (f : CtxEntry → CtxEntry) : (s.modEntry i f).links = s.links := rfl
@[simp] theorem modEntry_dir (s : State) (i : Nat) (f : CtxEntry → CtxEntry) : (s.modEntry i f).dir = s.dir := rfl
@[simp] theorem modEntry_stamps (s : State) (i : Nat) (f : CtxEntry → CtxEntry) : (s.modEntry i f).stamps = s.stamps := rfl
@[simp] theorem modEntry_lost (s : State) (i : Nat) (f : CtxEntry → CtxEntry) : (s.modEntry i f).lost = s.lost := rfl
@[simp] theorem modEntry_seqs (s : State) (i : Nat) (f : CtxEntry → CtxEntry) : (s.modEntry i f).seqs = s.seqs := rfl
@[simp] theorem modEntry_tiles (s : State) (i : Nat) (f : CtxEntry → CtxEntry) : (s.modEntry i f).tiles = s.tiles := rfl
@[simp] theorem modEntry_blocks (s : State) (i : Nat) (f : CtxEntry → CtxEntry) : (s.modEntry i f).blocks = s.blocks := rfl
@[simp] theorem modEntry_launches (s : State) (i : Nat) (f : CtxEntry → CtxEntry) : (s.modEntry i f).launches = s.launches := rfl
@[simp] theorem modEntry_parts (s : State) (i : Nat) (f : CtxEntry → CtxEntry) : (s.modEntry i f).parts = s.parts := rfl
@[simp] theorem modEntry_sets (s : State) (i : Nat) (f : CtxEntry → CtxEntry) : (s.modEntry i f).sets = s.sets := rfl
@[simp] theorem modEntry_held (s : State) (i : Nat) (f : CtxEntry → CtxEntry) : (s.modEntry i f).held = s.held := rfl
@[simp] theorem modEntry_inlink (s : State) (i : Nat) (f : CtxEntry → CtxEntry) : (s.modEntry i f).inlink = s.inlink := rfl
@[simp] theorem modEntry_olds (s : State) (i : Nat) (f : CtxEntry → CtxEntry) : (s.modEntry i f).olds = s.olds := rfl
@[simp] theorem modEntry_inbox (s : State) (i : Nat) (f : CtxEntry → CtxEntry) : (s.modEntry i f).inbox = s.inbox := rfl
@[simp] theorem modEntry_gtime (s : State) (i : Nat) (f : CtxEntry → CtxEntry) : (s.modEntry i f).gtime = s.gtime := rfl
@[simp] theorem modEntry_sub (s : State) (i : Nat) (f : CtxEntry → CtxEntry) : (s.modEntry i f).sub = s.sub := rfl
@[simp] theorem modEntry_mode (s : State) (i : Nat) (f : CtxEntry → CtxEntry) : (s.modEntry i f).mode = s.mode := rfl
@[simp] theorem modEntry_bootStep (s : State) (i : Nat) (f : CtxEntry → CtxEntry) : (s.modEntry i f).bootStep = s.bootStep := rfl
@[simp] theorem modEntry_bootFail (s : State) (i : Nat) (f : CtxEntry → CtxEntry) : (s.modEntry i f).bootFail = s.bootFail := rfl
@[simp] theorem modEntry_bootReason (s : State) (i : Nat) (f : CtxEntry → CtxEntry) : (s.modEntry i f).bootReason = s.bootReason := rfl
@[simp] theorem modEntry_meas (s : State) (i : Nat) (f : CtxEntry → CtxEntry) : (s.modEntry i f).meas = s.meas := rfl
@[simp] theorem modEntry_flash (s : State) (i : Nat) (f : CtxEntry → CtxEntry) : (s.modEntry i f).flash = s.flash := rfl
@[simp] theorem modEntry_diefail (s : State) (i : Nat) (f : CtxEntry → CtxEntry) : (s.modEntry i f).diefail = s.diefail := rfl
@[simp] theorem modEntry_scrub (s : State) (i : Nat) (f : CtxEntry → CtxEntry) : (s.modEntry i f).scrub = s.scrub := rfl
@[simp] theorem modEntry_mailbox (s : State) (i : Nat) (f : CtxEntry → CtxEntry) : (s.modEntry i f).mailbox = s.mailbox := rfl
@[simp] theorem modEntry_launchIds (s : State) (i : Nat) (f : CtxEntry → CtxEntry) : (s.modEntry i f).launchIds = s.launchIds := rfl
@[simp] theorem modEntry_external (s : State) (i : Nat) (f : CtxEntry → CtxEntry) : (s.modEntry i f).external = s.external := rfl
@[simp] theorem modEntry_ptpRate (s : State) (i : Nat) (f : CtxEntry → CtxEntry) : (s.modEntry i f).ptpRate = s.ptpRate := rfl
@[simp] theorem modEntry_ptpFrac (s : State) (i : Nat) (f : CtxEntry → CtxEntry) : (s.modEntry i f).ptpFrac = s.ptpFrac := rfl
@[simp] theorem modEntry_ptpWaits (s : State) (i : Nat) (f : CtxEntry → CtxEntry) : (s.modEntry i f).ptpWaits = s.ptpWaits := rfl
@[simp] theorem modEntry_lockReports (s : State) (i : Nat) (f : CtxEntry → CtxEntry) : (s.modEntry i f).lockReports = s.lockReports := rfl
@[simp] theorem modEntry_fresh (s : State) (i : Nat) (f : CtxEntry → CtxEntry) : (s.modEntry i f).fresh = s.fresh := rfl

/-! ### A home's entry of a line is changed -/

@[simp] theorem modLine_th (s : State) (l : Nat) (f : DirEntry → DirEntry) : (s.modLine l f).th = s.th := rfl
@[simp] theorem modLine_cur (s : State) (l : Nat) (f : DirEntry → DirEntry) : (s.modLine l f).cur = s.cur := rfl
@[simp] theorem modLine_ipc (s : State) (l : Nat) (f : DirEntry → DirEntry) : (s.modLine l f).ipc = s.ipc := rfl
@[simp] theorem modLine_ienc (s : State) (l : Nat) (f : DirEntry → DirEntry) : (s.modLine l f).ienc = s.ienc := rfl
@[simp] theorem modLine_mem (s : State) (l : Nat) (f : DirEntry → DirEntry) : (s.modLine l f).mem = s.mem := rfl
@[simp] theorem modLine_cstore (s : State) (l : Nat) (f : DirEntry → DirEntry) : (s.modLine l f).cstore = s.cstore := rfl
@[simp] theorem modLine_poison (s : State) (l : Nat) (f : DirEntry → DirEntry) : (s.modLine l f).poison = s.poison := rfl
@[simp] theorem modLine_ctxs (s : State) (l : Nat) (f : DirEntry → DirEntry) : (s.modLine l f).ctxs = s.ctxs := rfl
@[simp] theorem modLine_cdir (s : State) (l : Nat) (f : DirEntry → DirEntry) : (s.modLine l f).cdir = s.cdir := rfl
@[simp] theorem modLine_cores (s : State) (l : Nat) (f : DirEntry → DirEntry) : (s.modLine l f).cores = s.cores := rfl
@[simp] theorem modLine_clusters (s : State) (l : Nat) (f : DirEntry → DirEntry) : (s.modLine l f).clusters = s.clusters := rfl
@[simp] theorem modLine_dies (s : State) (l : Nat) (f : DirEntry → DirEntry) : (s.modLine l f).dies = s.dies := rfl
@[simp] theorem modLine_links (s : State) (l : Nat) (f : DirEntry → DirEntry) : (s.modLine l f).links = s.links := rfl
@[simp] theorem modLine_stamps (s : State) (l : Nat) (f : DirEntry → DirEntry) : (s.modLine l f).stamps = s.stamps := rfl
@[simp] theorem modLine_lost (s : State) (l : Nat) (f : DirEntry → DirEntry) : (s.modLine l f).lost = s.lost := rfl
@[simp] theorem modLine_seqs (s : State) (l : Nat) (f : DirEntry → DirEntry) : (s.modLine l f).seqs = s.seqs := rfl
@[simp] theorem modLine_tiles (s : State) (l : Nat) (f : DirEntry → DirEntry) : (s.modLine l f).tiles = s.tiles := rfl
@[simp] theorem modLine_blocks (s : State) (l : Nat) (f : DirEntry → DirEntry) : (s.modLine l f).blocks = s.blocks := rfl
@[simp] theorem modLine_launches (s : State) (l : Nat) (f : DirEntry → DirEntry) : (s.modLine l f).launches = s.launches := rfl
@[simp] theorem modLine_parts (s : State) (l : Nat) (f : DirEntry → DirEntry) : (s.modLine l f).parts = s.parts := rfl
@[simp] theorem modLine_sets (s : State) (l : Nat) (f : DirEntry → DirEntry) : (s.modLine l f).sets = s.sets := rfl
@[simp] theorem modLine_held (s : State) (l : Nat) (f : DirEntry → DirEntry) : (s.modLine l f).held = s.held := rfl
@[simp] theorem modLine_inlink (s : State) (l : Nat) (f : DirEntry → DirEntry) : (s.modLine l f).inlink = s.inlink := rfl
@[simp] theorem modLine_olds (s : State) (l : Nat) (f : DirEntry → DirEntry) : (s.modLine l f).olds = s.olds := rfl
@[simp] theorem modLine_inbox (s : State) (l : Nat) (f : DirEntry → DirEntry) : (s.modLine l f).inbox = s.inbox := rfl
@[simp] theorem modLine_gtime (s : State) (l : Nat) (f : DirEntry → DirEntry) : (s.modLine l f).gtime = s.gtime := rfl
@[simp] theorem modLine_sub (s : State) (l : Nat) (f : DirEntry → DirEntry) : (s.modLine l f).sub = s.sub := rfl
@[simp] theorem modLine_mode (s : State) (l : Nat) (f : DirEntry → DirEntry) : (s.modLine l f).mode = s.mode := rfl
@[simp] theorem modLine_bootStep (s : State) (l : Nat) (f : DirEntry → DirEntry) : (s.modLine l f).bootStep = s.bootStep := rfl
@[simp] theorem modLine_bootFail (s : State) (l : Nat) (f : DirEntry → DirEntry) : (s.modLine l f).bootFail = s.bootFail := rfl
@[simp] theorem modLine_bootReason (s : State) (l : Nat) (f : DirEntry → DirEntry) : (s.modLine l f).bootReason = s.bootReason := rfl
@[simp] theorem modLine_meas (s : State) (l : Nat) (f : DirEntry → DirEntry) : (s.modLine l f).meas = s.meas := rfl
@[simp] theorem modLine_flash (s : State) (l : Nat) (f : DirEntry → DirEntry) : (s.modLine l f).flash = s.flash := rfl
@[simp] theorem modLine_diefail (s : State) (l : Nat) (f : DirEntry → DirEntry) : (s.modLine l f).diefail = s.diefail := rfl
@[simp] theorem modLine_scrub (s : State) (l : Nat) (f : DirEntry → DirEntry) : (s.modLine l f).scrub = s.scrub := rfl
@[simp] theorem modLine_mailbox (s : State) (l : Nat) (f : DirEntry → DirEntry) : (s.modLine l f).mailbox = s.mailbox := rfl
@[simp] theorem modLine_launchIds (s : State) (l : Nat) (f : DirEntry → DirEntry) : (s.modLine l f).launchIds = s.launchIds := rfl
@[simp] theorem modLine_external (s : State) (l : Nat) (f : DirEntry → DirEntry) : (s.modLine l f).external = s.external := rfl
@[simp] theorem modLine_ptpRate (s : State) (l : Nat) (f : DirEntry → DirEntry) : (s.modLine l f).ptpRate = s.ptpRate := rfl
@[simp] theorem modLine_ptpFrac (s : State) (l : Nat) (f : DirEntry → DirEntry) : (s.modLine l f).ptpFrac = s.ptpFrac := rfl
@[simp] theorem modLine_ptpWaits (s : State) (l : Nat) (f : DirEntry → DirEntry) : (s.modLine l f).ptpWaits = s.ptpWaits := rfl
@[simp] theorem modLine_lockReports (s : State) (l : Nat) (f : DirEntry → DirEntry) : (s.modLine l f).lockReports = s.lockReports := rfl
@[simp] theorem modLine_fresh (s : State) (l : Nat) (f : DirEntry → DirEntry) : (s.modLine l f).fresh = s.fresh := rfl

/-! ### A step is made due -/

@[simp] theorem post_th (s : State) (e : Ev) : (s.post e).th = s.th := rfl
@[simp] theorem post_cur (s : State) (e : Ev) : (s.post e).cur = s.cur := rfl
@[simp] theorem post_ipc (s : State) (e : Ev) : (s.post e).ipc = s.ipc := rfl
@[simp] theorem post_ienc (s : State) (e : Ev) : (s.post e).ienc = s.ienc := rfl
@[simp] theorem post_mem (s : State) (e : Ev) : (s.post e).mem = s.mem := rfl
@[simp] theorem post_cstore (s : State) (e : Ev) : (s.post e).cstore = s.cstore := rfl
@[simp] theorem post_poison (s : State) (e : Ev) : (s.post e).poison = s.poison := rfl
@[simp] theorem post_ctxs (s : State) (e : Ev) : (s.post e).ctxs = s.ctxs := rfl
@[simp] theorem post_cdir (s : State) (e : Ev) : (s.post e).cdir = s.cdir := rfl
@[simp] theorem post_cores (s : State) (e : Ev) : (s.post e).cores = s.cores := rfl
@[simp] theorem post_clusters (s : State) (e : Ev) : (s.post e).clusters = s.clusters := rfl
@[simp] theorem post_dies (s : State) (e : Ev) : (s.post e).dies = s.dies := rfl
@[simp] theorem post_links (s : State) (e : Ev) : (s.post e).links = s.links := rfl
@[simp] theorem post_dir (s : State) (e : Ev) : (s.post e).dir = s.dir := rfl
@[simp] theorem post_stamps (s : State) (e : Ev) : (s.post e).stamps = s.stamps := rfl
@[simp] theorem post_lost (s : State) (e : Ev) : (s.post e).lost = s.lost := rfl
@[simp] theorem post_seqs (s : State) (e : Ev) : (s.post e).seqs = s.seqs := rfl
@[simp] theorem post_tiles (s : State) (e : Ev) : (s.post e).tiles = s.tiles := rfl
@[simp] theorem post_blocks (s : State) (e : Ev) : (s.post e).blocks = s.blocks := rfl
@[simp] theorem post_launches (s : State) (e : Ev) : (s.post e).launches = s.launches := rfl
@[simp] theorem post_parts (s : State) (e : Ev) : (s.post e).parts = s.parts := rfl
@[simp] theorem post_sets (s : State) (e : Ev) : (s.post e).sets = s.sets := rfl
@[simp] theorem post_held (s : State) (e : Ev) : (s.post e).held = s.held := rfl
@[simp] theorem post_inlink (s : State) (e : Ev) : (s.post e).inlink = s.inlink := rfl
@[simp] theorem post_olds (s : State) (e : Ev) : (s.post e).olds = s.olds := rfl
@[simp] theorem post_gtime (s : State) (e : Ev) : (s.post e).gtime = s.gtime := rfl
@[simp] theorem post_sub (s : State) (e : Ev) : (s.post e).sub = s.sub := rfl
@[simp] theorem post_mode (s : State) (e : Ev) : (s.post e).mode = s.mode := rfl
@[simp] theorem post_bootStep (s : State) (e : Ev) : (s.post e).bootStep = s.bootStep := rfl
@[simp] theorem post_bootFail (s : State) (e : Ev) : (s.post e).bootFail = s.bootFail := rfl
@[simp] theorem post_bootReason (s : State) (e : Ev) : (s.post e).bootReason = s.bootReason := rfl
@[simp] theorem post_meas (s : State) (e : Ev) : (s.post e).meas = s.meas := rfl
@[simp] theorem post_flash (s : State) (e : Ev) : (s.post e).flash = s.flash := rfl
@[simp] theorem post_diefail (s : State) (e : Ev) : (s.post e).diefail = s.diefail := rfl
@[simp] theorem post_scrub (s : State) (e : Ev) : (s.post e).scrub = s.scrub := rfl
@[simp] theorem post_mailbox (s : State) (e : Ev) : (s.post e).mailbox = s.mailbox := rfl
@[simp] theorem post_launchIds (s : State) (e : Ev) : (s.post e).launchIds = s.launchIds := rfl
@[simp] theorem post_external (s : State) (e : Ev) : (s.post e).external = s.external := rfl
@[simp] theorem post_ptpRate (s : State) (e : Ev) : (s.post e).ptpRate = s.ptpRate := rfl
@[simp] theorem post_ptpFrac (s : State) (e : Ev) : (s.post e).ptpFrac = s.ptpFrac := rfl
@[simp] theorem post_ptpWaits (s : State) (e : Ev) : (s.post e).ptpWaits = s.ptpWaits := rfl
@[simp] theorem post_lockReports (s : State) (e : Ev) : (s.post e).lockReports = s.lockReports := rfl
@[simp] theorem post_fresh (s : State) (e : Ev) : (s.post e).fresh = s.fresh := rfl

/-! ### An instruction retires -/

@[simp] theorem retire_cur (s : State) (n : Nat) : (s.retire n).cur = s.cur := rfl
@[simp] theorem retire_ipc (s : State) (n : Nat) : (s.retire n).ipc = s.ipc := rfl
@[simp] theorem retire_ienc (s : State) (n : Nat) : (s.retire n).ienc = s.ienc := rfl
@[simp] theorem retire_mem (s : State) (n : Nat) : (s.retire n).mem = s.mem := rfl
@[simp] theorem retire_cstore (s : State) (n : Nat) : (s.retire n).cstore = s.cstore := rfl
@[simp] theorem retire_poison (s : State) (n : Nat) : (s.retire n).poison = s.poison := rfl
@[simp] theorem retire_ctxs (s : State) (n : Nat) : (s.retire n).ctxs = s.ctxs := rfl
@[simp] theorem retire_cdir (s : State) (n : Nat) : (s.retire n).cdir = s.cdir := rfl
@[simp] theorem retire_cores (s : State) (n : Nat) : (s.retire n).cores = s.cores := rfl
@[simp] theorem retire_clusters (s : State) (n : Nat) : (s.retire n).clusters = s.clusters := rfl
@[simp] theorem retire_dies (s : State) (n : Nat) : (s.retire n).dies = s.dies := rfl
@[simp] theorem retire_links (s : State) (n : Nat) : (s.retire n).links = s.links := rfl
@[simp] theorem retire_dir (s : State) (n : Nat) : (s.retire n).dir = s.dir := rfl
@[simp] theorem retire_stamps (s : State) (n : Nat) : (s.retire n).stamps = s.stamps := rfl
@[simp] theorem retire_lost (s : State) (n : Nat) : (s.retire n).lost = s.lost := rfl
@[simp] theorem retire_seqs (s : State) (n : Nat) : (s.retire n).seqs = s.seqs := rfl
@[simp] theorem retire_tiles (s : State) (n : Nat) : (s.retire n).tiles = s.tiles := rfl
@[simp] theorem retire_blocks (s : State) (n : Nat) : (s.retire n).blocks = s.blocks := rfl
@[simp] theorem retire_launches (s : State) (n : Nat) : (s.retire n).launches = s.launches := rfl
@[simp] theorem retire_parts (s : State) (n : Nat) : (s.retire n).parts = s.parts := rfl
@[simp] theorem retire_sets (s : State) (n : Nat) : (s.retire n).sets = s.sets := rfl
@[simp] theorem retire_held (s : State) (n : Nat) : (s.retire n).held = s.held := rfl
@[simp] theorem retire_inlink (s : State) (n : Nat) : (s.retire n).inlink = s.inlink := rfl
@[simp] theorem retire_olds (s : State) (n : Nat) : (s.retire n).olds = s.olds := rfl
@[simp] theorem retire_inbox (s : State) (n : Nat) : (s.retire n).inbox = s.inbox := rfl
@[simp] theorem retire_gtime (s : State) (n : Nat) : (s.retire n).gtime = s.gtime := rfl
@[simp] theorem retire_sub (s : State) (n : Nat) : (s.retire n).sub = s.sub := rfl
@[simp] theorem retire_mode (s : State) (n : Nat) : (s.retire n).mode = s.mode := rfl
@[simp] theorem retire_bootStep (s : State) (n : Nat) : (s.retire n).bootStep = s.bootStep := rfl
@[simp] theorem retire_bootFail (s : State) (n : Nat) : (s.retire n).bootFail = s.bootFail := rfl
@[simp] theorem retire_bootReason (s : State) (n : Nat) : (s.retire n).bootReason = s.bootReason := rfl
@[simp] theorem retire_meas (s : State) (n : Nat) : (s.retire n).meas = s.meas := rfl
@[simp] theorem retire_flash (s : State) (n : Nat) : (s.retire n).flash = s.flash := rfl
@[simp] theorem retire_diefail (s : State) (n : Nat) : (s.retire n).diefail = s.diefail := rfl
@[simp] theorem retire_scrub (s : State) (n : Nat) : (s.retire n).scrub = s.scrub := rfl
@[simp] theorem retire_mailbox (s : State) (n : Nat) : (s.retire n).mailbox = s.mailbox := rfl
@[simp] theorem retire_launchIds (s : State) (n : Nat) : (s.retire n).launchIds = s.launchIds := rfl
@[simp] theorem retire_external (s : State) (n : Nat) : (s.retire n).external = s.external := rfl
@[simp] theorem retire_ptpRate (s : State) (n : Nat) : (s.retire n).ptpRate = s.ptpRate := rfl
@[simp] theorem retire_ptpFrac (s : State) (n : Nat) : (s.retire n).ptpFrac = s.ptpFrac := rfl
@[simp] theorem retire_ptpWaits (s : State) (n : Nat) : (s.retire n).ptpWaits = s.ptpWaits := rfl
@[simp] theorem retire_lockReports (s : State) (n : Nat) : (s.retire n).lockReports = s.lockReports := rfl
@[simp] theorem retire_fresh (s : State) (n : Nat) : (s.retire n).fresh = s.fresh := rfl

/-! ### A short result is written -/

@[simp] theorem putW_cur (s : State) (d : Reg) (v : Word) (n : Nat) : (s.putW d v n).cur = s.cur := rfl
@[simp] theorem putW_ipc (s : State) (d : Reg) (v : Word) (n : Nat) : (s.putW d v n).ipc = s.ipc := rfl
@[simp] theorem putW_ienc (s : State) (d : Reg) (v : Word) (n : Nat) : (s.putW d v n).ienc = s.ienc := rfl
@[simp] theorem putW_mem (s : State) (d : Reg) (v : Word) (n : Nat) : (s.putW d v n).mem = s.mem := rfl
@[simp] theorem putW_cstore (s : State) (d : Reg) (v : Word) (n : Nat) : (s.putW d v n).cstore = s.cstore := rfl
@[simp] theorem putW_poison (s : State) (d : Reg) (v : Word) (n : Nat) : (s.putW d v n).poison = s.poison := rfl
@[simp] theorem putW_ctxs (s : State) (d : Reg) (v : Word) (n : Nat) : (s.putW d v n).ctxs = s.ctxs := rfl
@[simp] theorem putW_cdir (s : State) (d : Reg) (v : Word) (n : Nat) : (s.putW d v n).cdir = s.cdir := rfl
@[simp] theorem putW_cores (s : State) (d : Reg) (v : Word) (n : Nat) : (s.putW d v n).cores = s.cores := rfl
@[simp] theorem putW_clusters (s : State) (d : Reg) (v : Word) (n : Nat) : (s.putW d v n).clusters = s.clusters := rfl
@[simp] theorem putW_dies (s : State) (d : Reg) (v : Word) (n : Nat) : (s.putW d v n).dies = s.dies := rfl
@[simp] theorem putW_links (s : State) (d : Reg) (v : Word) (n : Nat) : (s.putW d v n).links = s.links := rfl
@[simp] theorem putW_dir (s : State) (d : Reg) (v : Word) (n : Nat) : (s.putW d v n).dir = s.dir := rfl
@[simp] theorem putW_stamps (s : State) (d : Reg) (v : Word) (n : Nat) : (s.putW d v n).stamps = s.stamps := rfl
@[simp] theorem putW_lost (s : State) (d : Reg) (v : Word) (n : Nat) : (s.putW d v n).lost = s.lost := rfl
@[simp] theorem putW_seqs (s : State) (d : Reg) (v : Word) (n : Nat) : (s.putW d v n).seqs = s.seqs := rfl
@[simp] theorem putW_tiles (s : State) (d : Reg) (v : Word) (n : Nat) : (s.putW d v n).tiles = s.tiles := rfl
@[simp] theorem putW_blocks (s : State) (d : Reg) (v : Word) (n : Nat) : (s.putW d v n).blocks = s.blocks := rfl
@[simp] theorem putW_launches (s : State) (d : Reg) (v : Word) (n : Nat) : (s.putW d v n).launches = s.launches := rfl
@[simp] theorem putW_parts (s : State) (d : Reg) (v : Word) (n : Nat) : (s.putW d v n).parts = s.parts := rfl
@[simp] theorem putW_sets (s : State) (d : Reg) (v : Word) (n : Nat) : (s.putW d v n).sets = s.sets := rfl
@[simp] theorem putW_held (s : State) (d : Reg) (v : Word) (n : Nat) : (s.putW d v n).held = s.held := rfl
@[simp] theorem putW_inlink (s : State) (d : Reg) (v : Word) (n : Nat) : (s.putW d v n).inlink = s.inlink := rfl
@[simp] theorem putW_olds (s : State) (d : Reg) (v : Word) (n : Nat) : (s.putW d v n).olds = s.olds := rfl
@[simp] theorem putW_inbox (s : State) (d : Reg) (v : Word) (n : Nat) : (s.putW d v n).inbox = s.inbox := rfl
@[simp] theorem putW_gtime (s : State) (d : Reg) (v : Word) (n : Nat) : (s.putW d v n).gtime = s.gtime := rfl
@[simp] theorem putW_sub (s : State) (d : Reg) (v : Word) (n : Nat) : (s.putW d v n).sub = s.sub := rfl
@[simp] theorem putW_mode (s : State) (d : Reg) (v : Word) (n : Nat) : (s.putW d v n).mode = s.mode := rfl
@[simp] theorem putW_bootStep (s : State) (d : Reg) (v : Word) (n : Nat) : (s.putW d v n).bootStep = s.bootStep := rfl
@[simp] theorem putW_bootFail (s : State) (d : Reg) (v : Word) (n : Nat) : (s.putW d v n).bootFail = s.bootFail := rfl
@[simp] theorem putW_bootReason (s : State) (d : Reg) (v : Word) (n : Nat) : (s.putW d v n).bootReason = s.bootReason := rfl
@[simp] theorem putW_meas (s : State) (d : Reg) (v : Word) (n : Nat) : (s.putW d v n).meas = s.meas := rfl
@[simp] theorem putW_flash (s : State) (d : Reg) (v : Word) (n : Nat) : (s.putW d v n).flash = s.flash := rfl
@[simp] theorem putW_diefail (s : State) (d : Reg) (v : Word) (n : Nat) : (s.putW d v n).diefail = s.diefail := rfl
@[simp] theorem putW_scrub (s : State) (d : Reg) (v : Word) (n : Nat) : (s.putW d v n).scrub = s.scrub := rfl
@[simp] theorem putW_mailbox (s : State) (d : Reg) (v : Word) (n : Nat) : (s.putW d v n).mailbox = s.mailbox := rfl
@[simp] theorem putW_launchIds (s : State) (d : Reg) (v : Word) (n : Nat) : (s.putW d v n).launchIds = s.launchIds := rfl
@[simp] theorem putW_external (s : State) (d : Reg) (v : Word) (n : Nat) : (s.putW d v n).external = s.external := rfl
@[simp] theorem putW_ptpRate (s : State) (d : Reg) (v : Word) (n : Nat) : (s.putW d v n).ptpRate = s.ptpRate := rfl
@[simp] theorem putW_ptpFrac (s : State) (d : Reg) (v : Word) (n : Nat) : (s.putW d v n).ptpFrac = s.ptpFrac := rfl
@[simp] theorem putW_ptpWaits (s : State) (d : Reg) (v : Word) (n : Nat) : (s.putW d v n).ptpWaits = s.ptpWaits := rfl
@[simp] theorem putW_lockReports (s : State) (d : Reg) (v : Word) (n : Nat) : (s.putW d v n).lockReports = s.lockReports := rfl
@[simp] theorem putW_fresh (s : State) (d : Reg) (v : Word) (n : Nat) : (s.putW d v n).fresh = s.fresh := rfl

/-! ### The predicate word is written -/

@[simp] theorem putPw_cur (s : State) (v : Word) : (s.putPw v).cur = s.cur := rfl
@[simp] theorem putPw_ipc (s : State) (v : Word) : (s.putPw v).ipc = s.ipc := rfl
@[simp] theorem putPw_ienc (s : State) (v : Word) : (s.putPw v).ienc = s.ienc := rfl
@[simp] theorem putPw_mem (s : State) (v : Word) : (s.putPw v).mem = s.mem := rfl
@[simp] theorem putPw_cstore (s : State) (v : Word) : (s.putPw v).cstore = s.cstore := rfl
@[simp] theorem putPw_poison (s : State) (v : Word) : (s.putPw v).poison = s.poison := rfl
@[simp] theorem putPw_ctxs (s : State) (v : Word) : (s.putPw v).ctxs = s.ctxs := rfl
@[simp] theorem putPw_cdir (s : State) (v : Word) : (s.putPw v).cdir = s.cdir := rfl
@[simp] theorem putPw_cores (s : State) (v : Word) : (s.putPw v).cores = s.cores := rfl
@[simp] theorem putPw_clusters (s : State) (v : Word) : (s.putPw v).clusters = s.clusters := rfl
@[simp] theorem putPw_dies (s : State) (v : Word) : (s.putPw v).dies = s.dies := rfl
@[simp] theorem putPw_links (s : State) (v : Word) : (s.putPw v).links = s.links := rfl
@[simp] theorem putPw_dir (s : State) (v : Word) : (s.putPw v).dir = s.dir := rfl
@[simp] theorem putPw_stamps (s : State) (v : Word) : (s.putPw v).stamps = s.stamps := rfl
@[simp] theorem putPw_lost (s : State) (v : Word) : (s.putPw v).lost = s.lost := rfl
@[simp] theorem putPw_seqs (s : State) (v : Word) : (s.putPw v).seqs = s.seqs := rfl
@[simp] theorem putPw_tiles (s : State) (v : Word) : (s.putPw v).tiles = s.tiles := rfl
@[simp] theorem putPw_blocks (s : State) (v : Word) : (s.putPw v).blocks = s.blocks := rfl
@[simp] theorem putPw_launches (s : State) (v : Word) : (s.putPw v).launches = s.launches := rfl
@[simp] theorem putPw_parts (s : State) (v : Word) : (s.putPw v).parts = s.parts := rfl
@[simp] theorem putPw_sets (s : State) (v : Word) : (s.putPw v).sets = s.sets := rfl
@[simp] theorem putPw_held (s : State) (v : Word) : (s.putPw v).held = s.held := rfl
@[simp] theorem putPw_inlink (s : State) (v : Word) : (s.putPw v).inlink = s.inlink := rfl
@[simp] theorem putPw_olds (s : State) (v : Word) : (s.putPw v).olds = s.olds := rfl
@[simp] theorem putPw_inbox (s : State) (v : Word) : (s.putPw v).inbox = s.inbox := rfl
@[simp] theorem putPw_gtime (s : State) (v : Word) : (s.putPw v).gtime = s.gtime := rfl
@[simp] theorem putPw_sub (s : State) (v : Word) : (s.putPw v).sub = s.sub := rfl
@[simp] theorem putPw_mode (s : State) (v : Word) : (s.putPw v).mode = s.mode := rfl
@[simp] theorem putPw_bootStep (s : State) (v : Word) : (s.putPw v).bootStep = s.bootStep := rfl
@[simp] theorem putPw_bootFail (s : State) (v : Word) : (s.putPw v).bootFail = s.bootFail := rfl
@[simp] theorem putPw_bootReason (s : State) (v : Word) : (s.putPw v).bootReason = s.bootReason := rfl
@[simp] theorem putPw_meas (s : State) (v : Word) : (s.putPw v).meas = s.meas := rfl
@[simp] theorem putPw_flash (s : State) (v : Word) : (s.putPw v).flash = s.flash := rfl
@[simp] theorem putPw_diefail (s : State) (v : Word) : (s.putPw v).diefail = s.diefail := rfl
@[simp] theorem putPw_scrub (s : State) (v : Word) : (s.putPw v).scrub = s.scrub := rfl
@[simp] theorem putPw_mailbox (s : State) (v : Word) : (s.putPw v).mailbox = s.mailbox := rfl
@[simp] theorem putPw_launchIds (s : State) (v : Word) : (s.putPw v).launchIds = s.launchIds := rfl
@[simp] theorem putPw_external (s : State) (v : Word) : (s.putPw v).external = s.external := rfl
@[simp] theorem putPw_ptpRate (s : State) (v : Word) : (s.putPw v).ptpRate = s.ptpRate := rfl
@[simp] theorem putPw_ptpFrac (s : State) (v : Word) : (s.putPw v).ptpFrac = s.ptpFrac := rfl
@[simp] theorem putPw_ptpWaits (s : State) (v : Word) : (s.putPw v).ptpWaits = s.ptpWaits := rfl
@[simp] theorem putPw_lockReports (s : State) (v : Word) : (s.putPw v).lockReports = s.lockReports := rfl
@[simp] theorem putPw_fresh (s : State) (v : Word) : (s.putPw v).fresh = s.fresh := rfl

/-! ### A long result is on its way -/

@[simp] theorem putLong_cur (s : State) (d : Reg) (v : Word) : (s.putLong d v).cur = s.cur := rfl
@[simp] theorem putLong_ipc (s : State) (d : Reg) (v : Word) : (s.putLong d v).ipc = s.ipc := rfl
@[simp] theorem putLong_ienc (s : State) (d : Reg) (v : Word) : (s.putLong d v).ienc = s.ienc := rfl
@[simp] theorem putLong_mem (s : State) (d : Reg) (v : Word) : (s.putLong d v).mem = s.mem := rfl
@[simp] theorem putLong_cstore (s : State) (d : Reg) (v : Word) : (s.putLong d v).cstore = s.cstore := rfl
@[simp] theorem putLong_poison (s : State) (d : Reg) (v : Word) : (s.putLong d v).poison = s.poison := rfl
@[simp] theorem putLong_ctxs (s : State) (d : Reg) (v : Word) : (s.putLong d v).ctxs = s.ctxs := rfl
@[simp] theorem putLong_cdir (s : State) (d : Reg) (v : Word) : (s.putLong d v).cdir = s.cdir := rfl
@[simp] theorem putLong_cores (s : State) (d : Reg) (v : Word) : (s.putLong d v).cores = s.cores := rfl
@[simp] theorem putLong_clusters (s : State) (d : Reg) (v : Word) : (s.putLong d v).clusters = s.clusters := rfl
@[simp] theorem putLong_dies (s : State) (d : Reg) (v : Word) : (s.putLong d v).dies = s.dies := rfl
@[simp] theorem putLong_links (s : State) (d : Reg) (v : Word) : (s.putLong d v).links = s.links := rfl
@[simp] theorem putLong_dir (s : State) (d : Reg) (v : Word) : (s.putLong d v).dir = s.dir := rfl
@[simp] theorem putLong_stamps (s : State) (d : Reg) (v : Word) : (s.putLong d v).stamps = s.stamps := rfl
@[simp] theorem putLong_lost (s : State) (d : Reg) (v : Word) : (s.putLong d v).lost = s.lost := rfl
@[simp] theorem putLong_seqs (s : State) (d : Reg) (v : Word) : (s.putLong d v).seqs = s.seqs := rfl
@[simp] theorem putLong_tiles (s : State) (d : Reg) (v : Word) : (s.putLong d v).tiles = s.tiles := rfl
@[simp] theorem putLong_blocks (s : State) (d : Reg) (v : Word) : (s.putLong d v).blocks = s.blocks := rfl
@[simp] theorem putLong_launches (s : State) (d : Reg) (v : Word) : (s.putLong d v).launches = s.launches := rfl
@[simp] theorem putLong_parts (s : State) (d : Reg) (v : Word) : (s.putLong d v).parts = s.parts := rfl
@[simp] theorem putLong_sets (s : State) (d : Reg) (v : Word) : (s.putLong d v).sets = s.sets := rfl
@[simp] theorem putLong_held (s : State) (d : Reg) (v : Word) : (s.putLong d v).held = s.held := rfl
@[simp] theorem putLong_inlink (s : State) (d : Reg) (v : Word) : (s.putLong d v).inlink = s.inlink := rfl
@[simp] theorem putLong_olds (s : State) (d : Reg) (v : Word) : (s.putLong d v).olds = s.olds := rfl
@[simp] theorem putLong_gtime (s : State) (d : Reg) (v : Word) : (s.putLong d v).gtime = s.gtime := rfl
@[simp] theorem putLong_sub (s : State) (d : Reg) (v : Word) : (s.putLong d v).sub = s.sub := rfl
@[simp] theorem putLong_mode (s : State) (d : Reg) (v : Word) : (s.putLong d v).mode = s.mode := rfl
@[simp] theorem putLong_bootStep (s : State) (d : Reg) (v : Word) : (s.putLong d v).bootStep = s.bootStep := rfl
@[simp] theorem putLong_bootFail (s : State) (d : Reg) (v : Word) : (s.putLong d v).bootFail = s.bootFail := rfl
@[simp] theorem putLong_bootReason (s : State) (d : Reg) (v : Word) : (s.putLong d v).bootReason = s.bootReason := rfl
@[simp] theorem putLong_meas (s : State) (d : Reg) (v : Word) : (s.putLong d v).meas = s.meas := rfl
@[simp] theorem putLong_flash (s : State) (d : Reg) (v : Word) : (s.putLong d v).flash = s.flash := rfl
@[simp] theorem putLong_diefail (s : State) (d : Reg) (v : Word) : (s.putLong d v).diefail = s.diefail := rfl
@[simp] theorem putLong_scrub (s : State) (d : Reg) (v : Word) : (s.putLong d v).scrub = s.scrub := rfl
@[simp] theorem putLong_mailbox (s : State) (d : Reg) (v : Word) : (s.putLong d v).mailbox = s.mailbox := rfl
@[simp] theorem putLong_launchIds (s : State) (d : Reg) (v : Word) : (s.putLong d v).launchIds = s.launchIds := rfl
@[simp] theorem putLong_external (s : State) (d : Reg) (v : Word) : (s.putLong d v).external = s.external := rfl
@[simp] theorem putLong_ptpRate (s : State) (d : Reg) (v : Word) : (s.putLong d v).ptpRate = s.ptpRate := rfl
@[simp] theorem putLong_ptpFrac (s : State) (d : Reg) (v : Word) : (s.putLong d v).ptpFrac = s.ptpFrac := rfl
@[simp] theorem putLong_ptpWaits (s : State) (d : Reg) (v : Word) : (s.putLong d v).ptpWaits = s.ptpWaits := rfl
@[simp] theorem putLong_lockReports (s : State) (d : Reg) (v : Word) : (s.putLong d v).lockReports = s.lockReports := rfl
@[simp] theorem putLong_fresh (s : State) (d : Reg) (v : Word) : (s.putLong d v).fresh = s.fresh := rfl

/-! ### A core forgets its L1 -/

@[simp] theorem forget_th (s : State) (c : Nat) : (s.forget c).th = s.th := rfl
@[simp] theorem forget_cur (s : State) (c : Nat) : (s.forget c).cur = s.cur := rfl
@[simp] theorem forget_ipc (s : State) (c : Nat) : (s.forget c).ipc = s.ipc := rfl
@[simp] theorem forget_ienc (s : State) (c : Nat) : (s.forget c).ienc = s.ienc := rfl
@[simp] theorem forget_mem (s : State) (c : Nat) : (s.forget c).mem = s.mem := rfl
@[simp] theorem forget_cstore (s : State) (c : Nat) : (s.forget c).cstore = s.cstore := rfl
@[simp] theorem forget_poison (s : State) (c : Nat) : (s.forget c).poison = s.poison := rfl
@[simp] theorem forget_ctxs (s : State) (c : Nat) : (s.forget c).ctxs = s.ctxs := rfl
@[simp] theorem forget_cdir (s : State) (c : Nat) : (s.forget c).cdir = s.cdir := rfl
@[simp] theorem forget_clusters (s : State) (c : Nat) : (s.forget c).clusters = s.clusters := rfl
@[simp] theorem forget_dies (s : State) (c : Nat) : (s.forget c).dies = s.dies := rfl
@[simp] theorem forget_links (s : State) (c : Nat) : (s.forget c).links = s.links := rfl
@[simp] theorem forget_dir (s : State) (c : Nat) : (s.forget c).dir = s.dir := rfl
@[simp] theorem forget_stamps (s : State) (c : Nat) : (s.forget c).stamps = s.stamps := rfl
@[simp] theorem forget_lost (s : State) (c : Nat) : (s.forget c).lost = s.lost := rfl
@[simp] theorem forget_seqs (s : State) (c : Nat) : (s.forget c).seqs = s.seqs := rfl
@[simp] theorem forget_tiles (s : State) (c : Nat) : (s.forget c).tiles = s.tiles := rfl
@[simp] theorem forget_blocks (s : State) (c : Nat) : (s.forget c).blocks = s.blocks := rfl
@[simp] theorem forget_launches (s : State) (c : Nat) : (s.forget c).launches = s.launches := rfl
@[simp] theorem forget_parts (s : State) (c : Nat) : (s.forget c).parts = s.parts := rfl
@[simp] theorem forget_sets (s : State) (c : Nat) : (s.forget c).sets = s.sets := rfl
@[simp] theorem forget_held (s : State) (c : Nat) : (s.forget c).held = s.held := rfl
@[simp] theorem forget_inlink (s : State) (c : Nat) : (s.forget c).inlink = s.inlink := rfl
@[simp] theorem forget_olds (s : State) (c : Nat) : (s.forget c).olds = s.olds := rfl
@[simp] theorem forget_inbox (s : State) (c : Nat) : (s.forget c).inbox = s.inbox := rfl
@[simp] theorem forget_gtime (s : State) (c : Nat) : (s.forget c).gtime = s.gtime := rfl
@[simp] theorem forget_sub (s : State) (c : Nat) : (s.forget c).sub = s.sub := rfl
@[simp] theorem forget_mode (s : State) (c : Nat) : (s.forget c).mode = s.mode := rfl
@[simp] theorem forget_bootStep (s : State) (c : Nat) : (s.forget c).bootStep = s.bootStep := rfl
@[simp] theorem forget_bootFail (s : State) (c : Nat) : (s.forget c).bootFail = s.bootFail := rfl
@[simp] theorem forget_bootReason (s : State) (c : Nat) : (s.forget c).bootReason = s.bootReason := rfl
@[simp] theorem forget_meas (s : State) (c : Nat) : (s.forget c).meas = s.meas := rfl
@[simp] theorem forget_flash (s : State) (c : Nat) : (s.forget c).flash = s.flash := rfl
@[simp] theorem forget_diefail (s : State) (c : Nat) : (s.forget c).diefail = s.diefail := rfl
@[simp] theorem forget_scrub (s : State) (c : Nat) : (s.forget c).scrub = s.scrub := rfl
@[simp] theorem forget_mailbox (s : State) (c : Nat) : (s.forget c).mailbox = s.mailbox := rfl
@[simp] theorem forget_launchIds (s : State) (c : Nat) : (s.forget c).launchIds = s.launchIds := rfl
@[simp] theorem forget_external (s : State) (c : Nat) : (s.forget c).external = s.external := rfl
@[simp] theorem forget_ptpRate (s : State) (c : Nat) : (s.forget c).ptpRate = s.ptpRate := rfl
@[simp] theorem forget_ptpFrac (s : State) (c : Nat) : (s.forget c).ptpFrac = s.ptpFrac := rfl
@[simp] theorem forget_ptpWaits (s : State) (c : Nat) : (s.forget c).ptpWaits = s.ptpWaits := rfl
@[simp] theorem forget_lockReports (s : State) (c : Nat) : (s.forget c).lockReports = s.lockReports := rfl
@[simp] theorem forget_fresh (s : State) (c : Nat) : (s.forget c).fresh = s.fresh := rfl

/-! ### A block is changed -/

@[simp] theorem modBlock_th (s : State) (b : Nat) (f : Block → Block) : (s.modBlock b f).th = s.th := by unfold State.modBlock; split <;> rfl
@[simp] theorem modBlock_cur (s : State) (b : Nat) (f : Block → Block) : (s.modBlock b f).cur = s.cur := by unfold State.modBlock; split <;> rfl
@[simp] theorem modBlock_ipc (s : State) (b : Nat) (f : Block → Block) : (s.modBlock b f).ipc = s.ipc := by unfold State.modBlock; split <;> rfl
@[simp] theorem modBlock_ienc (s : State) (b : Nat) (f : Block → Block) : (s.modBlock b f).ienc = s.ienc := by unfold State.modBlock; split <;> rfl
@[simp] theorem modBlock_mem (s : State) (b : Nat) (f : Block → Block) : (s.modBlock b f).mem = s.mem := by unfold State.modBlock; split <;> rfl
@[simp] theorem modBlock_cstore (s : State) (b : Nat) (f : Block → Block) : (s.modBlock b f).cstore = s.cstore := by unfold State.modBlock; split <;> rfl
@[simp] theorem modBlock_poison (s : State) (b : Nat) (f : Block → Block) : (s.modBlock b f).poison = s.poison := by unfold State.modBlock; split <;> rfl
@[simp] theorem modBlock_ctxs (s : State) (b : Nat) (f : Block → Block) : (s.modBlock b f).ctxs = s.ctxs := by unfold State.modBlock; split <;> rfl
@[simp] theorem modBlock_cdir (s : State) (b : Nat) (f : Block → Block) : (s.modBlock b f).cdir = s.cdir := by unfold State.modBlock; split <;> rfl
@[simp] theorem modBlock_cores (s : State) (b : Nat) (f : Block → Block) : (s.modBlock b f).cores = s.cores := by unfold State.modBlock; split <;> rfl
@[simp] theorem modBlock_clusters (s : State) (b : Nat) (f : Block → Block) : (s.modBlock b f).clusters = s.clusters := by unfold State.modBlock; split <;> rfl
@[simp] theorem modBlock_dies (s : State) (b : Nat) (f : Block → Block) : (s.modBlock b f).dies = s.dies := by unfold State.modBlock; split <;> rfl
@[simp] theorem modBlock_links (s : State) (b : Nat) (f : Block → Block) : (s.modBlock b f).links = s.links := by unfold State.modBlock; split <;> rfl
@[simp] theorem modBlock_dir (s : State) (b : Nat) (f : Block → Block) : (s.modBlock b f).dir = s.dir := by unfold State.modBlock; split <;> rfl
@[simp] theorem modBlock_stamps (s : State) (b : Nat) (f : Block → Block) : (s.modBlock b f).stamps = s.stamps := by unfold State.modBlock; split <;> rfl
@[simp] theorem modBlock_lost (s : State) (b : Nat) (f : Block → Block) : (s.modBlock b f).lost = s.lost := by unfold State.modBlock; split <;> rfl
@[simp] theorem modBlock_seqs (s : State) (b : Nat) (f : Block → Block) : (s.modBlock b f).seqs = s.seqs := by unfold State.modBlock; split <;> rfl
@[simp] theorem modBlock_tiles (s : State) (b : Nat) (f : Block → Block) : (s.modBlock b f).tiles = s.tiles := by unfold State.modBlock; split <;> rfl
@[simp] theorem modBlock_launches (s : State) (b : Nat) (f : Block → Block) : (s.modBlock b f).launches = s.launches := by unfold State.modBlock; split <;> rfl
@[simp] theorem modBlock_parts (s : State) (b : Nat) (f : Block → Block) : (s.modBlock b f).parts = s.parts := by unfold State.modBlock; split <;> rfl
@[simp] theorem modBlock_sets (s : State) (b : Nat) (f : Block → Block) : (s.modBlock b f).sets = s.sets := by unfold State.modBlock; split <;> rfl
@[simp] theorem modBlock_held (s : State) (b : Nat) (f : Block → Block) : (s.modBlock b f).held = s.held := by unfold State.modBlock; split <;> rfl
@[simp] theorem modBlock_inlink (s : State) (b : Nat) (f : Block → Block) : (s.modBlock b f).inlink = s.inlink := by unfold State.modBlock; split <;> rfl
@[simp] theorem modBlock_olds (s : State) (b : Nat) (f : Block → Block) : (s.modBlock b f).olds = s.olds := by unfold State.modBlock; split <;> rfl
@[simp] theorem modBlock_inbox (s : State) (b : Nat) (f : Block → Block) : (s.modBlock b f).inbox = s.inbox := by unfold State.modBlock; split <;> rfl
@[simp] theorem modBlock_gtime (s : State) (b : Nat) (f : Block → Block) : (s.modBlock b f).gtime = s.gtime := by unfold State.modBlock; split <;> rfl
@[simp] theorem modBlock_sub (s : State) (b : Nat) (f : Block → Block) : (s.modBlock b f).sub = s.sub := by unfold State.modBlock; split <;> rfl
@[simp] theorem modBlock_mode (s : State) (b : Nat) (f : Block → Block) : (s.modBlock b f).mode = s.mode := by unfold State.modBlock; split <;> rfl
@[simp] theorem modBlock_bootStep (s : State) (b : Nat) (f : Block → Block) : (s.modBlock b f).bootStep = s.bootStep := by unfold State.modBlock; split <;> rfl
@[simp] theorem modBlock_bootFail (s : State) (b : Nat) (f : Block → Block) : (s.modBlock b f).bootFail = s.bootFail := by unfold State.modBlock; split <;> rfl
@[simp] theorem modBlock_bootReason (s : State) (b : Nat) (f : Block → Block) : (s.modBlock b f).bootReason = s.bootReason := by unfold State.modBlock; split <;> rfl
@[simp] theorem modBlock_meas (s : State) (b : Nat) (f : Block → Block) : (s.modBlock b f).meas = s.meas := by unfold State.modBlock; split <;> rfl
@[simp] theorem modBlock_flash (s : State) (b : Nat) (f : Block → Block) : (s.modBlock b f).flash = s.flash := by unfold State.modBlock; split <;> rfl
@[simp] theorem modBlock_diefail (s : State) (b : Nat) (f : Block → Block) : (s.modBlock b f).diefail = s.diefail := by unfold State.modBlock; split <;> rfl
@[simp] theorem modBlock_scrub (s : State) (b : Nat) (f : Block → Block) : (s.modBlock b f).scrub = s.scrub := by unfold State.modBlock; split <;> rfl
@[simp] theorem modBlock_mailbox (s : State) (b : Nat) (f : Block → Block) : (s.modBlock b f).mailbox = s.mailbox := by unfold State.modBlock; split <;> rfl
@[simp] theorem modBlock_launchIds (s : State) (b : Nat) (f : Block → Block) : (s.modBlock b f).launchIds = s.launchIds := by unfold State.modBlock; split <;> rfl
@[simp] theorem modBlock_external (s : State) (b : Nat) (f : Block → Block) : (s.modBlock b f).external = s.external := by unfold State.modBlock; split <;> rfl
@[simp] theorem modBlock_ptpRate (s : State) (b : Nat) (f : Block → Block) : (s.modBlock b f).ptpRate = s.ptpRate := by unfold State.modBlock; split <;> rfl
@[simp] theorem modBlock_ptpFrac (s : State) (b : Nat) (f : Block → Block) : (s.modBlock b f).ptpFrac = s.ptpFrac := by unfold State.modBlock; split <;> rfl
@[simp] theorem modBlock_ptpWaits (s : State) (b : Nat) (f : Block → Block) : (s.modBlock b f).ptpWaits = s.ptpWaits := by unfold State.modBlock; split <;> rfl
@[simp] theorem modBlock_lockReports (s : State) (b : Nat) (f : Block → Block) : (s.modBlock b f).lockReports = s.lockReports := by unfold State.modBlock; split <;> rfl
@[simp] theorem modBlock_fresh (s : State) (b : Nat) (f : Block → Block) : (s.modBlock b f).fresh = s.fresh := by unfold State.modBlock; split <;> rfl

/-! ### A launch is changed -/

@[simp] theorem modLaunch_th (s : State) (l : Nat) (f : Launch → Launch) : (s.modLaunch l f).th = s.th := by unfold State.modLaunch; split <;> rfl
@[simp] theorem modLaunch_cur (s : State) (l : Nat) (f : Launch → Launch) : (s.modLaunch l f).cur = s.cur := by unfold State.modLaunch; split <;> rfl
@[simp] theorem modLaunch_ipc (s : State) (l : Nat) (f : Launch → Launch) : (s.modLaunch l f).ipc = s.ipc := by unfold State.modLaunch; split <;> rfl
@[simp] theorem modLaunch_ienc (s : State) (l : Nat) (f : Launch → Launch) : (s.modLaunch l f).ienc = s.ienc := by unfold State.modLaunch; split <;> rfl
@[simp] theorem modLaunch_mem (s : State) (l : Nat) (f : Launch → Launch) : (s.modLaunch l f).mem = s.mem := by unfold State.modLaunch; split <;> rfl
@[simp] theorem modLaunch_cstore (s : State) (l : Nat) (f : Launch → Launch) : (s.modLaunch l f).cstore = s.cstore := by unfold State.modLaunch; split <;> rfl
@[simp] theorem modLaunch_poison (s : State) (l : Nat) (f : Launch → Launch) : (s.modLaunch l f).poison = s.poison := by unfold State.modLaunch; split <;> rfl
@[simp] theorem modLaunch_ctxs (s : State) (l : Nat) (f : Launch → Launch) : (s.modLaunch l f).ctxs = s.ctxs := by unfold State.modLaunch; split <;> rfl
@[simp] theorem modLaunch_cdir (s : State) (l : Nat) (f : Launch → Launch) : (s.modLaunch l f).cdir = s.cdir := by unfold State.modLaunch; split <;> rfl
@[simp] theorem modLaunch_cores (s : State) (l : Nat) (f : Launch → Launch) : (s.modLaunch l f).cores = s.cores := by unfold State.modLaunch; split <;> rfl
@[simp] theorem modLaunch_clusters (s : State) (l : Nat) (f : Launch → Launch) : (s.modLaunch l f).clusters = s.clusters := by unfold State.modLaunch; split <;> rfl
@[simp] theorem modLaunch_dies (s : State) (l : Nat) (f : Launch → Launch) : (s.modLaunch l f).dies = s.dies := by unfold State.modLaunch; split <;> rfl
@[simp] theorem modLaunch_links (s : State) (l : Nat) (f : Launch → Launch) : (s.modLaunch l f).links = s.links := by unfold State.modLaunch; split <;> rfl
@[simp] theorem modLaunch_dir (s : State) (l : Nat) (f : Launch → Launch) : (s.modLaunch l f).dir = s.dir := by unfold State.modLaunch; split <;> rfl
@[simp] theorem modLaunch_stamps (s : State) (l : Nat) (f : Launch → Launch) : (s.modLaunch l f).stamps = s.stamps := by unfold State.modLaunch; split <;> rfl
@[simp] theorem modLaunch_lost (s : State) (l : Nat) (f : Launch → Launch) : (s.modLaunch l f).lost = s.lost := by unfold State.modLaunch; split <;> rfl
@[simp] theorem modLaunch_seqs (s : State) (l : Nat) (f : Launch → Launch) : (s.modLaunch l f).seqs = s.seqs := by unfold State.modLaunch; split <;> rfl
@[simp] theorem modLaunch_tiles (s : State) (l : Nat) (f : Launch → Launch) : (s.modLaunch l f).tiles = s.tiles := by unfold State.modLaunch; split <;> rfl
@[simp] theorem modLaunch_blocks (s : State) (l : Nat) (f : Launch → Launch) : (s.modLaunch l f).blocks = s.blocks := by unfold State.modLaunch; split <;> rfl
@[simp] theorem modLaunch_parts (s : State) (l : Nat) (f : Launch → Launch) : (s.modLaunch l f).parts = s.parts := by unfold State.modLaunch; split <;> rfl
@[simp] theorem modLaunch_sets (s : State) (l : Nat) (f : Launch → Launch) : (s.modLaunch l f).sets = s.sets := by unfold State.modLaunch; split <;> rfl
@[simp] theorem modLaunch_held (s : State) (l : Nat) (f : Launch → Launch) : (s.modLaunch l f).held = s.held := by unfold State.modLaunch; split <;> rfl
@[simp] theorem modLaunch_inlink (s : State) (l : Nat) (f : Launch → Launch) : (s.modLaunch l f).inlink = s.inlink := by unfold State.modLaunch; split <;> rfl
@[simp] theorem modLaunch_olds (s : State) (l : Nat) (f : Launch → Launch) : (s.modLaunch l f).olds = s.olds := by unfold State.modLaunch; split <;> rfl
@[simp] theorem modLaunch_inbox (s : State) (l : Nat) (f : Launch → Launch) : (s.modLaunch l f).inbox = s.inbox := by unfold State.modLaunch; split <;> rfl
@[simp] theorem modLaunch_gtime (s : State) (l : Nat) (f : Launch → Launch) : (s.modLaunch l f).gtime = s.gtime := by unfold State.modLaunch; split <;> rfl
@[simp] theorem modLaunch_sub (s : State) (l : Nat) (f : Launch → Launch) : (s.modLaunch l f).sub = s.sub := by unfold State.modLaunch; split <;> rfl
@[simp] theorem modLaunch_mode (s : State) (l : Nat) (f : Launch → Launch) : (s.modLaunch l f).mode = s.mode := by unfold State.modLaunch; split <;> rfl
@[simp] theorem modLaunch_bootStep (s : State) (l : Nat) (f : Launch → Launch) : (s.modLaunch l f).bootStep = s.bootStep := by unfold State.modLaunch; split <;> rfl
@[simp] theorem modLaunch_bootFail (s : State) (l : Nat) (f : Launch → Launch) : (s.modLaunch l f).bootFail = s.bootFail := by unfold State.modLaunch; split <;> rfl
@[simp] theorem modLaunch_bootReason (s : State) (l : Nat) (f : Launch → Launch) : (s.modLaunch l f).bootReason = s.bootReason := by unfold State.modLaunch; split <;> rfl
@[simp] theorem modLaunch_meas (s : State) (l : Nat) (f : Launch → Launch) : (s.modLaunch l f).meas = s.meas := by unfold State.modLaunch; split <;> rfl
@[simp] theorem modLaunch_flash (s : State) (l : Nat) (f : Launch → Launch) : (s.modLaunch l f).flash = s.flash := by unfold State.modLaunch; split <;> rfl
@[simp] theorem modLaunch_diefail (s : State) (l : Nat) (f : Launch → Launch) : (s.modLaunch l f).diefail = s.diefail := by unfold State.modLaunch; split <;> rfl
@[simp] theorem modLaunch_scrub (s : State) (l : Nat) (f : Launch → Launch) : (s.modLaunch l f).scrub = s.scrub := by unfold State.modLaunch; split <;> rfl
@[simp] theorem modLaunch_mailbox (s : State) (l : Nat) (f : Launch → Launch) : (s.modLaunch l f).mailbox = s.mailbox := by unfold State.modLaunch; split <;> rfl
@[simp] theorem modLaunch_launchIds (s : State) (l : Nat) (f : Launch → Launch) : (s.modLaunch l f).launchIds = s.launchIds := by unfold State.modLaunch; split <;> rfl
@[simp] theorem modLaunch_external (s : State) (l : Nat) (f : Launch → Launch) : (s.modLaunch l f).external = s.external := by unfold State.modLaunch; split <;> rfl
@[simp] theorem modLaunch_ptpRate (s : State) (l : Nat) (f : Launch → Launch) : (s.modLaunch l f).ptpRate = s.ptpRate := by unfold State.modLaunch; split <;> rfl
@[simp] theorem modLaunch_ptpFrac (s : State) (l : Nat) (f : Launch → Launch) : (s.modLaunch l f).ptpFrac = s.ptpFrac := by unfold State.modLaunch; split <;> rfl
@[simp] theorem modLaunch_ptpWaits (s : State) (l : Nat) (f : Launch → Launch) : (s.modLaunch l f).ptpWaits = s.ptpWaits := by unfold State.modLaunch; split <;> rfl
@[simp] theorem modLaunch_lockReports (s : State) (l : Nat) (f : Launch → Launch) : (s.modLaunch l f).lockReports = s.lockReports := by unfold State.modLaunch; split <;> rfl
@[simp] theorem modLaunch_fresh (s : State) (l : Nat) (f : Launch → Launch) : (s.modLaunch l f).fresh = s.fresh := by unfold State.modLaunch; split <;> rfl

/-! ### A context line is changed -/

@[simp] theorem modCtx_cur (s : State) (i : Nat) (f : Ctx → Ctx) : (s.modCtx i f).cur = s.cur := by unfold State.modCtx; (repeat' split) <;> rfl
@[simp] theorem modCtx_ipc (s : State) (i : Nat) (f : Ctx → Ctx) : (s.modCtx i f).ipc = s.ipc := by unfold State.modCtx; (repeat' split) <;> rfl
@[simp] theorem modCtx_ienc (s : State) (i : Nat) (f : Ctx → Ctx) : (s.modCtx i f).ienc = s.ienc := by unfold State.modCtx; (repeat' split) <;> rfl
@[simp] theorem modCtx_mem (s : State) (i : Nat) (f : Ctx → Ctx) : (s.modCtx i f).mem = s.mem := by unfold State.modCtx; (repeat' split) <;> rfl
@[simp] theorem modCtx_cstore (s : State) (i : Nat) (f : Ctx → Ctx) : (s.modCtx i f).cstore = s.cstore := by unfold State.modCtx; (repeat' split) <;> rfl
@[simp] theorem modCtx_poison (s : State) (i : Nat) (f : Ctx → Ctx) : (s.modCtx i f).poison = s.poison := by unfold State.modCtx; (repeat' split) <;> rfl
@[simp] theorem modCtx_cdir (s : State) (i : Nat) (f : Ctx → Ctx) : (s.modCtx i f).cdir = s.cdir := by unfold State.modCtx; (repeat' split) <;> rfl
@[simp] theorem modCtx_cores (s : State) (i : Nat) (f : Ctx → Ctx) : (s.modCtx i f).cores = s.cores := by unfold State.modCtx; (repeat' split) <;> rfl
@[simp] theorem modCtx_clusters (s : State) (i : Nat) (f : Ctx → Ctx) : (s.modCtx i f).clusters = s.clusters := by unfold State.modCtx; (repeat' split) <;> rfl
@[simp] theorem modCtx_dies (s : State) (i : Nat) (f : Ctx → Ctx) : (s.modCtx i f).dies = s.dies := by unfold State.modCtx; (repeat' split) <;> rfl
@[simp] theorem modCtx_links (s : State) (i : Nat) (f : Ctx → Ctx) : (s.modCtx i f).links = s.links := by unfold State.modCtx; (repeat' split) <;> rfl
@[simp] theorem modCtx_dir (s : State) (i : Nat) (f : Ctx → Ctx) : (s.modCtx i f).dir = s.dir := by unfold State.modCtx; (repeat' split) <;> rfl
@[simp] theorem modCtx_stamps (s : State) (i : Nat) (f : Ctx → Ctx) : (s.modCtx i f).stamps = s.stamps := by unfold State.modCtx; (repeat' split) <;> rfl
@[simp] theorem modCtx_lost (s : State) (i : Nat) (f : Ctx → Ctx) : (s.modCtx i f).lost = s.lost := by unfold State.modCtx; (repeat' split) <;> rfl
@[simp] theorem modCtx_seqs (s : State) (i : Nat) (f : Ctx → Ctx) : (s.modCtx i f).seqs = s.seqs := by unfold State.modCtx; (repeat' split) <;> rfl
@[simp] theorem modCtx_tiles (s : State) (i : Nat) (f : Ctx → Ctx) : (s.modCtx i f).tiles = s.tiles := by unfold State.modCtx; (repeat' split) <;> rfl
@[simp] theorem modCtx_blocks (s : State) (i : Nat) (f : Ctx → Ctx) : (s.modCtx i f).blocks = s.blocks := by unfold State.modCtx; (repeat' split) <;> rfl
@[simp] theorem modCtx_launches (s : State) (i : Nat) (f : Ctx → Ctx) : (s.modCtx i f).launches = s.launches := by unfold State.modCtx; (repeat' split) <;> rfl
@[simp] theorem modCtx_parts (s : State) (i : Nat) (f : Ctx → Ctx) : (s.modCtx i f).parts = s.parts := by unfold State.modCtx; (repeat' split) <;> rfl
@[simp] theorem modCtx_sets (s : State) (i : Nat) (f : Ctx → Ctx) : (s.modCtx i f).sets = s.sets := by unfold State.modCtx; (repeat' split) <;> rfl
@[simp] theorem modCtx_held (s : State) (i : Nat) (f : Ctx → Ctx) : (s.modCtx i f).held = s.held := by unfold State.modCtx; (repeat' split) <;> rfl
@[simp] theorem modCtx_inlink (s : State) (i : Nat) (f : Ctx → Ctx) : (s.modCtx i f).inlink = s.inlink := by unfold State.modCtx; (repeat' split) <;> rfl
@[simp] theorem modCtx_olds (s : State) (i : Nat) (f : Ctx → Ctx) : (s.modCtx i f).olds = s.olds := by unfold State.modCtx; (repeat' split) <;> rfl
@[simp] theorem modCtx_inbox (s : State) (i : Nat) (f : Ctx → Ctx) : (s.modCtx i f).inbox = s.inbox := by unfold State.modCtx; (repeat' split) <;> rfl
@[simp] theorem modCtx_gtime (s : State) (i : Nat) (f : Ctx → Ctx) : (s.modCtx i f).gtime = s.gtime := by unfold State.modCtx; (repeat' split) <;> rfl
@[simp] theorem modCtx_sub (s : State) (i : Nat) (f : Ctx → Ctx) : (s.modCtx i f).sub = s.sub := by unfold State.modCtx; (repeat' split) <;> rfl
@[simp] theorem modCtx_mode (s : State) (i : Nat) (f : Ctx → Ctx) : (s.modCtx i f).mode = s.mode := by unfold State.modCtx; (repeat' split) <;> rfl
@[simp] theorem modCtx_bootStep (s : State) (i : Nat) (f : Ctx → Ctx) : (s.modCtx i f).bootStep = s.bootStep := by unfold State.modCtx; (repeat' split) <;> rfl
@[simp] theorem modCtx_bootFail (s : State) (i : Nat) (f : Ctx → Ctx) : (s.modCtx i f).bootFail = s.bootFail := by unfold State.modCtx; (repeat' split) <;> rfl
@[simp] theorem modCtx_bootReason (s : State) (i : Nat) (f : Ctx → Ctx) : (s.modCtx i f).bootReason = s.bootReason := by unfold State.modCtx; (repeat' split) <;> rfl
@[simp] theorem modCtx_meas (s : State) (i : Nat) (f : Ctx → Ctx) : (s.modCtx i f).meas = s.meas := by unfold State.modCtx; (repeat' split) <;> rfl
@[simp] theorem modCtx_flash (s : State) (i : Nat) (f : Ctx → Ctx) : (s.modCtx i f).flash = s.flash := by unfold State.modCtx; (repeat' split) <;> rfl
@[simp] theorem modCtx_diefail (s : State) (i : Nat) (f : Ctx → Ctx) : (s.modCtx i f).diefail = s.diefail := by unfold State.modCtx; (repeat' split) <;> rfl
@[simp] theorem modCtx_scrub (s : State) (i : Nat) (f : Ctx → Ctx) : (s.modCtx i f).scrub = s.scrub := by unfold State.modCtx; (repeat' split) <;> rfl
@[simp] theorem modCtx_mailbox (s : State) (i : Nat) (f : Ctx → Ctx) : (s.modCtx i f).mailbox = s.mailbox := by unfold State.modCtx; (repeat' split) <;> rfl
@[simp] theorem modCtx_launchIds (s : State) (i : Nat) (f : Ctx → Ctx) : (s.modCtx i f).launchIds = s.launchIds := by unfold State.modCtx; (repeat' split) <;> rfl
@[simp] theorem modCtx_external (s : State) (i : Nat) (f : Ctx → Ctx) : (s.modCtx i f).external = s.external := by unfold State.modCtx; (repeat' split) <;> rfl
@[simp] theorem modCtx_ptpRate (s : State) (i : Nat) (f : Ctx → Ctx) : (s.modCtx i f).ptpRate = s.ptpRate := by unfold State.modCtx; (repeat' split) <;> rfl
@[simp] theorem modCtx_ptpFrac (s : State) (i : Nat) (f : Ctx → Ctx) : (s.modCtx i f).ptpFrac = s.ptpFrac := by unfold State.modCtx; (repeat' split) <;> rfl
@[simp] theorem modCtx_ptpWaits (s : State) (i : Nat) (f : Ctx → Ctx) : (s.modCtx i f).ptpWaits = s.ptpWaits := by unfold State.modCtx; (repeat' split) <;> rfl
@[simp] theorem modCtx_lockReports (s : State) (i : Nat) (f : Ctx → Ctx) : (s.modCtx i f).lockReports = s.lockReports := by unfold State.modCtx; (repeat' split) <;> rfl
@[simp] theorem modCtx_fresh (s : State) (i : Nat) (f : Ctx → Ctx) : (s.modCtx i f).fresh = s.fresh := by unfold State.modCtx; (repeat' split) <;> rfl

/-! ### A short write of a general register -/

@[simp] theorem setW_e (c : Ctx) (r : Reg) (v : Word) : (c.setW r v).e = c.e := rfl
@[simp] theorem setW_pc (c : Ctx) (r : Reg) (v : Word) : (c.setW r v).pc = c.pc := rfl
@[simp] theorem setW_pw (c : Ctx) (r : Reg) (v : Word) : (c.setW r v).pw = c.pw := rfl
@[simp] theorem setW_kind (c : Ctx) (r : Reg) (v : Word) : (c.setW r v).kind = c.kind := rfl
@[simp] theorem setW_warg (c : Ctx) (r : Reg) (v : Word) : (c.setW r v).warg = c.warg := rfl
@[simp] theorem setW_pend (c : Ctx) (r : Reg) (v : Word) : (c.setW r v).pend = c.pend := rfl
@[simp] theorem setW_cause (c : Ctx) (r : Reg) (v : Word) : (c.setW r v).cause = c.cause := rfl
@[simp] theorem setW_extneed (c : Ctx) (r : Reg) (v : Word) : (c.setW r v).extneed = c.extneed := rfl
@[simp] theorem setW_pair (c : Ctx) (r : Reg) (v : Word) : (c.setW r v).pair = c.pair := rfl
@[simp] theorem setW_prio (c : Ctx) (r : Reg) (v : Word) : (c.setW r v).prio = c.prio := rfl
@[simp] theorem setW_priv (c : Ctx) (r : Reg) (v : Word) : (c.setW r v).priv = c.priv := rfl
@[simp] theorem setW_cmds (c : Ctx) (r : Reg) (v : Word) : (c.setW r v).cmds = c.cmds := rfl
@[simp] theorem setW_pfxval (c : Ctx) (r : Reg) (v : Word) : (c.setW r v).pfxval = c.pfxval := rfl
@[simp] theorem setW_pfx (c : Ctx) (r : Reg) (v : Word) : (c.setW r v).pfx = c.pfx := rfl
@[simp] theorem setW_fee (c : Ctx) (r : Reg) (v : Word) : (c.setW r v).fee = c.fee := rfl
@[simp] theorem setW_cva (c : Ctx) (r : Reg) (v : Word) : (c.setW r v).cva = c.cva := rfl
@[simp] theorem setW_part (c : Ctx) (r : Reg) (v : Word) : (c.setW r v).part = c.part := rfl
@[simp] theorem setW_blk (c : Ctx) (r : Reg) (v : Word) : (c.setW r v).blk = c.blk := rfl
@[simp] theorem setW_tindex (c : Ctx) (r : Reg) (v : Word) : (c.setW r v).tindex = c.tindex := rfl
@[simp] theorem setW_pin (c : Ctx) (r : Reg) (v : Word) : (c.setW r v).pin = c.pin := rfl
@[simp] theorem setW_handler (c : Ctx) (r : Reg) (v : Word) : (c.setW r v).handler = c.handler := rfl
@[simp] theorem setW_lastCore (c : Ctx) (r : Reg) (v : Word) : (c.setW r v).lastCore = c.lastCore := rfl
@[simp] theorem setW_lastSlot (c : Ctx) (r : Reg) (v : Word) : (c.setW r v).lastSlot = c.lastSlot := rfl
@[simp] theorem setW_heldTraps (c : Ctx) (r : Reg) (v : Word) : (c.setW r v).heldTraps = c.heldTraps := rfl
@[simp] theorem setW_heldStop (c : Ctx) (r : Reg) (v : Word) : (c.setW r v).heldStop = c.heldStop := rfl
@[simp] theorem setW_stopSlot (c : Ctx) (r : Reg) (v : Word) : (c.setW r v).stopSlot = c.stopSlot := rfl
@[simp] theorem setW_bpExempt (c : Ctx) (r : Reg) (v : Word) : (c.setW r v).bpExempt = c.bpExempt := rfl
@[simp] theorem setW_inval (c : Ctx) (r : Reg) (v : Word) : (c.setW r v).inval = c.inval := rfl
@[simp] theorem setW_readyAt (c : Ctx) (r : Reg) (v : Word) : (c.setW r v).readyAt = c.readyAt := rfl
@[simp] theorem setW_runAt (c : Ctx) (r : Reg) (v : Word) : (c.setW r v).runAt = c.runAt := rfl
@[simp] theorem setW_lastIssue (c : Ctx) (r : Reg) (v : Word) : (c.setW r v).lastIssue = c.lastIssue := rfl
@[simp] theorem setW_issuedAt (c : Ctx) (r : Reg) (v : Word) : (c.setW r v).issuedAt = c.issuedAt := rfl
@[simp] theorem setW_level (c : Ctx) (r : Reg) (v : Word) : (c.setW r v).level = c.level := rfl
@[simp] theorem setW_peer (c : Ctx) (r : Reg) (v : Word) : (c.setW r v).peer = c.peer := rfl
@[simp] theorem setW_lvq (c : Ctx) (r : Reg) (v : Word) : (c.setW r v).lvq = c.lvq := rfl
@[simp] theorem setW_comparator (c : Ctx) (r : Reg) (v : Word) : (c.setW r v).comparator = c.comparator := rfl
@[simp] theorem setW_ahead (c : Ctx) (r : Reg) (v : Word) : (c.setW r v).ahead = c.ahead := rfl
@[simp] theorem setW_epend (c : Ctx) (r : Reg) (v : Word) : (c.setW r v).epend = c.epend := rfl
@[simp] theorem setW_stall (c : Ctx) (r : Reg) (v : Word) : (c.setW r v).stall = c.stall := rfl
@[simp] theorem setW_fenced (c : Ctx) (r : Reg) (v : Word) : (c.setW r v).fenced = c.fenced := rfl
@[simp] theorem setW_entryHi (c : Ctx) (r : Reg) (v : Word) : (c.setW r v).entryHi = c.entryHi := rfl
@[simp] theorem setW_badVa (c : Ctx) (r : Reg) (v : Word) : (c.setW r v).badVa = c.badVa := rfl
@[simp] theorem setW_marked (c : Ctx) (r : Reg) (v : Word) : (c.setW r v).marked = c.marked := rfl
@[simp] theorem setW_resend (c : Ctx) (r : Reg) (v : Word) : (c.setW r v).resend = c.resend := rfl
@[simp] theorem setW_pollAt (c : Ctx) (r : Reg) (v : Word) : (c.setW r v).pollAt = c.pollAt := rfl
@[simp] theorem setW_quest (c : Ctx) (r : Reg) (v : Word) : (c.setW r v).quest = c.quest := rfl
@[simp] theorem setW_seen (c : Ctx) (r : Reg) (v : Word) : (c.setW r v).seen = c.seen := rfl

/-! ### A short write of an extension register -/

@[simp] theorem setE_w (c : Ctx) (r : Nat) (v : Word) : (c.setE r v).w = c.w := rfl
@[simp] theorem setE_pc (c : Ctx) (r : Nat) (v : Word) : (c.setE r v).pc = c.pc := rfl
@[simp] theorem setE_pw (c : Ctx) (r : Nat) (v : Word) : (c.setE r v).pw = c.pw := rfl
@[simp] theorem setE_kind (c : Ctx) (r : Nat) (v : Word) : (c.setE r v).kind = c.kind := rfl
@[simp] theorem setE_warg (c : Ctx) (r : Nat) (v : Word) : (c.setE r v).warg = c.warg := rfl
@[simp] theorem setE_pend (c : Ctx) (r : Nat) (v : Word) : (c.setE r v).pend = c.pend := rfl
@[simp] theorem setE_epoch (c : Ctx) (r : Nat) (v : Word) : (c.setE r v).epoch = c.epoch := rfl
@[simp] theorem setE_cause (c : Ctx) (r : Nat) (v : Word) : (c.setE r v).cause = c.cause := rfl
@[simp] theorem setE_extneed (c : Ctx) (r : Nat) (v : Word) : (c.setE r v).extneed = c.extneed := rfl
@[simp] theorem setE_pair (c : Ctx) (r : Nat) (v : Word) : (c.setE r v).pair = c.pair := rfl
@[simp] theorem setE_prio (c : Ctx) (r : Nat) (v : Word) : (c.setE r v).prio = c.prio := rfl
@[simp] theorem setE_priv (c : Ctx) (r : Nat) (v : Word) : (c.setE r v).priv = c.priv := rfl
@[simp] theorem setE_cmds (c : Ctx) (r : Nat) (v : Word) : (c.setE r v).cmds = c.cmds := rfl
@[simp] theorem setE_pfxval (c : Ctx) (r : Nat) (v : Word) : (c.setE r v).pfxval = c.pfxval := rfl
@[simp] theorem setE_pfx (c : Ctx) (r : Nat) (v : Word) : (c.setE r v).pfx = c.pfx := rfl
@[simp] theorem setE_few (c : Ctx) (r : Nat) (v : Word) : (c.setE r v).few = c.few := rfl
@[simp] theorem setE_cva (c : Ctx) (r : Nat) (v : Word) : (c.setE r v).cva = c.cva := rfl
@[simp] theorem setE_part (c : Ctx) (r : Nat) (v : Word) : (c.setE r v).part = c.part := rfl
@[simp] theorem setE_blk (c : Ctx) (r : Nat) (v : Word) : (c.setE r v).blk = c.blk := rfl
@[simp] theorem setE_tindex (c : Ctx) (r : Nat) (v : Word) : (c.setE r v).tindex = c.tindex := rfl
@[simp] theorem setE_pin (c : Ctx) (r : Nat) (v : Word) : (c.setE r v).pin = c.pin := rfl
@[simp] theorem setE_handler (c : Ctx) (r : Nat) (v : Word) : (c.setE r v).handler = c.handler := rfl
@[simp] theorem setE_lastCore (c : Ctx) (r : Nat) (v : Word) : (c.setE r v).lastCore = c.lastCore := rfl
@[simp] theorem setE_lastSlot (c : Ctx) (r : Nat) (v : Word) : (c.setE r v).lastSlot = c.lastSlot := rfl
@[simp] theorem setE_heldTraps (c : Ctx) (r : Nat) (v : Word) : (c.setE r v).heldTraps = c.heldTraps := rfl
@[simp] theorem setE_heldStop (c : Ctx) (r : Nat) (v : Word) : (c.setE r v).heldStop = c.heldStop := rfl
@[simp] theorem setE_stopSlot (c : Ctx) (r : Nat) (v : Word) : (c.setE r v).stopSlot = c.stopSlot := rfl
@[simp] theorem setE_bpExempt (c : Ctx) (r : Nat) (v : Word) : (c.setE r v).bpExempt = c.bpExempt := rfl
@[simp] theorem setE_inval (c : Ctx) (r : Nat) (v : Word) : (c.setE r v).inval = c.inval := rfl
@[simp] theorem setE_readyAt (c : Ctx) (r : Nat) (v : Word) : (c.setE r v).readyAt = c.readyAt := rfl
@[simp] theorem setE_runAt (c : Ctx) (r : Nat) (v : Word) : (c.setE r v).runAt = c.runAt := rfl
@[simp] theorem setE_lastIssue (c : Ctx) (r : Nat) (v : Word) : (c.setE r v).lastIssue = c.lastIssue := rfl
@[simp] theorem setE_issuedAt (c : Ctx) (r : Nat) (v : Word) : (c.setE r v).issuedAt = c.issuedAt := rfl
@[simp] theorem setE_level (c : Ctx) (r : Nat) (v : Word) : (c.setE r v).level = c.level := rfl
@[simp] theorem setE_peer (c : Ctx) (r : Nat) (v : Word) : (c.setE r v).peer = c.peer := rfl
@[simp] theorem setE_lvq (c : Ctx) (r : Nat) (v : Word) : (c.setE r v).lvq = c.lvq := rfl
@[simp] theorem setE_comparator (c : Ctx) (r : Nat) (v : Word) : (c.setE r v).comparator = c.comparator := rfl
@[simp] theorem setE_void (c : Ctx) (r : Nat) (v : Word) : (c.setE r v).void = c.void := rfl
@[simp] theorem setE_ahead (c : Ctx) (r : Nat) (v : Word) : (c.setE r v).ahead = c.ahead := rfl
@[simp] theorem setE_epend (c : Ctx) (r : Nat) (v : Word) : (c.setE r v).epend = c.epend := rfl
@[simp] theorem setE_stall (c : Ctx) (r : Nat) (v : Word) : (c.setE r v).stall = c.stall := rfl
@[simp] theorem setE_fenced (c : Ctx) (r : Nat) (v : Word) : (c.setE r v).fenced = c.fenced := rfl
@[simp] theorem setE_entryHi (c : Ctx) (r : Nat) (v : Word) : (c.setE r v).entryHi = c.entryHi := rfl
@[simp] theorem setE_badVa (c : Ctx) (r : Nat) (v : Word) : (c.setE r v).badVa = c.badVa := rfl
@[simp] theorem setE_marked (c : Ctx) (r : Nat) (v : Word) : (c.setE r v).marked = c.marked := rfl
@[simp] theorem setE_resend (c : Ctx) (r : Nat) (v : Word) : (c.setE r v).resend = c.resend := rfl
@[simp] theorem setE_pollAt (c : Ctx) (r : Nat) (v : Word) : (c.setE r v).pollAt = c.pollAt := rfl
@[simp] theorem setE_quest (c : Ctx) (r : Nat) (v : Word) : (c.setE r v).quest = c.quest := rfl
@[simp] theorem setE_seen (c : Ctx) (r : Nat) (v : Word) : (c.setE r v).seen = c.seen := rfl

/-! ### A long write of a general register is issued -/

@[simp] theorem emptyW_w (c : Ctx) (r : Reg) : (c.emptyW r).w = c.w := rfl
@[simp] theorem emptyW_e (c : Ctx) (r : Reg) : (c.emptyW r).e = c.e := rfl
@[simp] theorem emptyW_pc (c : Ctx) (r : Reg) : (c.emptyW r).pc = c.pc := rfl
@[simp] theorem emptyW_pw (c : Ctx) (r : Reg) : (c.emptyW r).pw = c.pw := rfl
@[simp] theorem emptyW_kind (c : Ctx) (r : Reg) : (c.emptyW r).kind = c.kind := rfl
@[simp] theorem emptyW_warg (c : Ctx) (r : Reg) : (c.emptyW r).warg = c.warg := rfl
@[simp] theorem emptyW_cause (c : Ctx) (r : Reg) : (c.emptyW r).cause = c.cause := rfl
@[simp] theorem emptyW_extneed (c : Ctx) (r : Reg) : (c.emptyW r).extneed = c.extneed := rfl
@[simp] theorem emptyW_pair (c : Ctx) (r : Reg) : (c.emptyW r).pair = c.pair := rfl
@[simp] theorem emptyW_prio (c : Ctx) (r : Reg) : (c.emptyW r).prio = c.prio := rfl
@[simp] theorem emptyW_priv (c : Ctx) (r : Reg) : (c.emptyW r).priv = c.priv := rfl
@[simp] theorem emptyW_cmds (c : Ctx) (r : Reg) : (c.emptyW r).cmds = c.cmds := rfl
@[simp] theorem emptyW_pfxval (c : Ctx) (r : Reg) : (c.emptyW r).pfxval = c.pfxval := rfl
@[simp] theorem emptyW_pfx (c : Ctx) (r : Reg) : (c.emptyW r).pfx = c.pfx := rfl
@[simp] theorem emptyW_fee (c : Ctx) (r : Reg) : (c.emptyW r).fee = c.fee := rfl
@[simp] theorem emptyW_cva (c : Ctx) (r : Reg) : (c.emptyW r).cva = c.cva := rfl
@[simp] theorem emptyW_part (c : Ctx) (r : Reg) : (c.emptyW r).part = c.part := rfl
@[simp] theorem emptyW_blk (c : Ctx) (r : Reg) : (c.emptyW r).blk = c.blk := rfl
@[simp] theorem emptyW_tindex (c : Ctx) (r : Reg) : (c.emptyW r).tindex = c.tindex := rfl
@[simp] theorem emptyW_pin (c : Ctx) (r : Reg) : (c.emptyW r).pin = c.pin := rfl
@[simp] theorem emptyW_handler (c : Ctx) (r : Reg) : (c.emptyW r).handler = c.handler := rfl
@[simp] theorem emptyW_lastCore (c : Ctx) (r : Reg) : (c.emptyW r).lastCore = c.lastCore := rfl
@[simp] theorem emptyW_lastSlot (c : Ctx) (r : Reg) : (c.emptyW r).lastSlot = c.lastSlot := rfl
@[simp] theorem emptyW_heldTraps (c : Ctx) (r : Reg) : (c.emptyW r).heldTraps = c.heldTraps := rfl
@[simp] theorem emptyW_heldStop (c : Ctx) (r : Reg) : (c.emptyW r).heldStop = c.heldStop := rfl
@[simp] theorem emptyW_stopSlot (c : Ctx) (r : Reg) : (c.emptyW r).stopSlot = c.stopSlot := rfl
@[simp] theorem emptyW_bpExempt (c : Ctx) (r : Reg) : (c.emptyW r).bpExempt = c.bpExempt := rfl
@[simp] theorem emptyW_inval (c : Ctx) (r : Reg) : (c.emptyW r).inval = c.inval := rfl
@[simp] theorem emptyW_readyAt (c : Ctx) (r : Reg) : (c.emptyW r).readyAt = c.readyAt := rfl
@[simp] theorem emptyW_runAt (c : Ctx) (r : Reg) : (c.emptyW r).runAt = c.runAt := rfl
@[simp] theorem emptyW_lastIssue (c : Ctx) (r : Reg) : (c.emptyW r).lastIssue = c.lastIssue := rfl
@[simp] theorem emptyW_issuedAt (c : Ctx) (r : Reg) : (c.emptyW r).issuedAt = c.issuedAt := rfl
@[simp] theorem emptyW_level (c : Ctx) (r : Reg) : (c.emptyW r).level = c.level := rfl
@[simp] theorem emptyW_peer (c : Ctx) (r : Reg) : (c.emptyW r).peer = c.peer := rfl
@[simp] theorem emptyW_lvq (c : Ctx) (r : Reg) : (c.emptyW r).lvq = c.lvq := rfl
@[simp] theorem emptyW_comparator (c : Ctx) (r : Reg) : (c.emptyW r).comparator = c.comparator := rfl
@[simp] theorem emptyW_ahead (c : Ctx) (r : Reg) : (c.emptyW r).ahead = c.ahead := rfl
@[simp] theorem emptyW_epend (c : Ctx) (r : Reg) : (c.emptyW r).epend = c.epend := rfl
@[simp] theorem emptyW_stall (c : Ctx) (r : Reg) : (c.emptyW r).stall = c.stall := rfl
@[simp] theorem emptyW_fenced (c : Ctx) (r : Reg) : (c.emptyW r).fenced = c.fenced := rfl
@[simp] theorem emptyW_entryHi (c : Ctx) (r : Reg) : (c.emptyW r).entryHi = c.entryHi := rfl
@[simp] theorem emptyW_badVa (c : Ctx) (r : Reg) : (c.emptyW r).badVa = c.badVa := rfl
@[simp] theorem emptyW_marked (c : Ctx) (r : Reg) : (c.emptyW r).marked = c.marked := rfl
@[simp] theorem emptyW_resend (c : Ctx) (r : Reg) : (c.emptyW r).resend = c.resend := rfl
@[simp] theorem emptyW_pollAt (c : Ctx) (r : Reg) : (c.emptyW r).pollAt = c.pollAt := rfl
@[simp] theorem emptyW_quest (c : Ctx) (r : Reg) : (c.emptyW r).quest = c.quest := rfl
@[simp] theorem emptyW_seen (c : Ctx) (r : Reg) : (c.emptyW r).seen = c.seen := rfl

/-! ### A long write of an extension register is issued -/

@[simp] theorem emptyE_w (c : Ctx) (r : Nat) : (c.emptyE r).w = c.w := rfl
@[simp] theorem emptyE_e (c : Ctx) (r : Nat) : (c.emptyE r).e = c.e := rfl
@[simp] theorem emptyE_pc (c : Ctx) (r : Nat) : (c.emptyE r).pc = c.pc := rfl
@[simp] theorem emptyE_pw (c : Ctx) (r : Nat) : (c.emptyE r).pw = c.pw := rfl
@[simp] theorem emptyE_kind (c : Ctx) (r : Nat) : (c.emptyE r).kind = c.kind := rfl
@[simp] theorem emptyE_warg (c : Ctx) (r : Nat) : (c.emptyE r).warg = c.warg := rfl
@[simp] theorem emptyE_pend (c : Ctx) (r : Nat) : (c.emptyE r).pend = c.pend := rfl
@[simp] theorem emptyE_epoch (c : Ctx) (r : Nat) : (c.emptyE r).epoch = c.epoch := rfl
@[simp] theorem emptyE_cause (c : Ctx) (r : Nat) : (c.emptyE r).cause = c.cause := rfl
@[simp] theorem emptyE_extneed (c : Ctx) (r : Nat) : (c.emptyE r).extneed = c.extneed := rfl
@[simp] theorem emptyE_pair (c : Ctx) (r : Nat) : (c.emptyE r).pair = c.pair := rfl
@[simp] theorem emptyE_prio (c : Ctx) (r : Nat) : (c.emptyE r).prio = c.prio := rfl
@[simp] theorem emptyE_priv (c : Ctx) (r : Nat) : (c.emptyE r).priv = c.priv := rfl
@[simp] theorem emptyE_cmds (c : Ctx) (r : Nat) : (c.emptyE r).cmds = c.cmds := rfl
@[simp] theorem emptyE_pfxval (c : Ctx) (r : Nat) : (c.emptyE r).pfxval = c.pfxval := rfl
@[simp] theorem emptyE_pfx (c : Ctx) (r : Nat) : (c.emptyE r).pfx = c.pfx := rfl
@[simp] theorem emptyE_few (c : Ctx) (r : Nat) : (c.emptyE r).few = c.few := rfl
@[simp] theorem emptyE_cva (c : Ctx) (r : Nat) : (c.emptyE r).cva = c.cva := rfl
@[simp] theorem emptyE_part (c : Ctx) (r : Nat) : (c.emptyE r).part = c.part := rfl
@[simp] theorem emptyE_blk (c : Ctx) (r : Nat) : (c.emptyE r).blk = c.blk := rfl
@[simp] theorem emptyE_tindex (c : Ctx) (r : Nat) : (c.emptyE r).tindex = c.tindex := rfl
@[simp] theorem emptyE_pin (c : Ctx) (r : Nat) : (c.emptyE r).pin = c.pin := rfl
@[simp] theorem emptyE_handler (c : Ctx) (r : Nat) : (c.emptyE r).handler = c.handler := rfl
@[simp] theorem emptyE_lastCore (c : Ctx) (r : Nat) : (c.emptyE r).lastCore = c.lastCore := rfl
@[simp] theorem emptyE_lastSlot (c : Ctx) (r : Nat) : (c.emptyE r).lastSlot = c.lastSlot := rfl
@[simp] theorem emptyE_heldTraps (c : Ctx) (r : Nat) : (c.emptyE r).heldTraps = c.heldTraps := rfl
@[simp] theorem emptyE_heldStop (c : Ctx) (r : Nat) : (c.emptyE r).heldStop = c.heldStop := rfl
@[simp] theorem emptyE_stopSlot (c : Ctx) (r : Nat) : (c.emptyE r).stopSlot = c.stopSlot := rfl
@[simp] theorem emptyE_bpExempt (c : Ctx) (r : Nat) : (c.emptyE r).bpExempt = c.bpExempt := rfl
@[simp] theorem emptyE_inval (c : Ctx) (r : Nat) : (c.emptyE r).inval = c.inval := rfl
@[simp] theorem emptyE_readyAt (c : Ctx) (r : Nat) : (c.emptyE r).readyAt = c.readyAt := rfl
@[simp] theorem emptyE_runAt (c : Ctx) (r : Nat) : (c.emptyE r).runAt = c.runAt := rfl
@[simp] theorem emptyE_lastIssue (c : Ctx) (r : Nat) : (c.emptyE r).lastIssue = c.lastIssue := rfl
@[simp] theorem emptyE_issuedAt (c : Ctx) (r : Nat) : (c.emptyE r).issuedAt = c.issuedAt := rfl
@[simp] theorem emptyE_level (c : Ctx) (r : Nat) : (c.emptyE r).level = c.level := rfl
@[simp] theorem emptyE_peer (c : Ctx) (r : Nat) : (c.emptyE r).peer = c.peer := rfl
@[simp] theorem emptyE_lvq (c : Ctx) (r : Nat) : (c.emptyE r).lvq = c.lvq := rfl
@[simp] theorem emptyE_comparator (c : Ctx) (r : Nat) : (c.emptyE r).comparator = c.comparator := rfl
@[simp] theorem emptyE_void (c : Ctx) (r : Nat) : (c.emptyE r).void = c.void := rfl
@[simp] theorem emptyE_ahead (c : Ctx) (r : Nat) : (c.emptyE r).ahead = c.ahead := rfl
@[simp] theorem emptyE_stall (c : Ctx) (r : Nat) : (c.emptyE r).stall = c.stall := rfl
@[simp] theorem emptyE_fenced (c : Ctx) (r : Nat) : (c.emptyE r).fenced = c.fenced := rfl
@[simp] theorem emptyE_entryHi (c : Ctx) (r : Nat) : (c.emptyE r).entryHi = c.entryHi := rfl
@[simp] theorem emptyE_badVa (c : Ctx) (r : Nat) : (c.emptyE r).badVa = c.badVa := rfl
@[simp] theorem emptyE_marked (c : Ctx) (r : Nat) : (c.emptyE r).marked = c.marked := rfl
@[simp] theorem emptyE_resend (c : Ctx) (r : Nat) : (c.emptyE r).resend = c.resend := rfl
@[simp] theorem emptyE_pollAt (c : Ctx) (r : Nat) : (c.emptyE r).pollAt = c.pollAt := rfl
@[simp] theorem emptyE_quest (c : Ctx) (r : Nat) : (c.emptyE r).quest = c.quest := rfl
@[simp] theorem emptyE_seen (c : Ctx) (r : Nat) : (c.emptyE r).seen = c.seen := rfl

/-! ### The pc passes an instruction -/

@[simp] theorem advance_w (c : Ctx) (n : Nat) : (c.advance n).w = c.w := rfl
@[simp] theorem advance_e (c : Ctx) (n : Nat) : (c.advance n).e = c.e := rfl
@[simp] theorem advance_pw (c : Ctx) (n : Nat) : (c.advance n).pw = c.pw := rfl
@[simp] theorem advance_kind (c : Ctx) (n : Nat) : (c.advance n).kind = c.kind := rfl
@[simp] theorem advance_warg (c : Ctx) (n : Nat) : (c.advance n).warg = c.warg := rfl
@[simp] theorem advance_pend (c : Ctx) (n : Nat) : (c.advance n).pend = c.pend := rfl
@[simp] theorem advance_epoch (c : Ctx) (n : Nat) : (c.advance n).epoch = c.epoch := rfl
@[simp] theorem advance_cause (c : Ctx) (n : Nat) : (c.advance n).cause = c.cause := rfl
@[simp] theorem advance_extneed (c : Ctx) (n : Nat) : (c.advance n).extneed = c.extneed := rfl
@[simp] theorem advance_pair (c : Ctx) (n : Nat) : (c.advance n).pair = c.pair := rfl
@[simp] theorem advance_prio (c : Ctx) (n : Nat) : (c.advance n).prio = c.prio := rfl
@[simp] theorem advance_priv (c : Ctx) (n : Nat) : (c.advance n).priv = c.priv := rfl
@[simp] theorem advance_cmds (c : Ctx) (n : Nat) : (c.advance n).cmds = c.cmds := rfl
@[simp] theorem advance_pfxval (c : Ctx) (n : Nat) : (c.advance n).pfxval = c.pfxval := rfl
@[simp] theorem advance_pfx (c : Ctx) (n : Nat) : (c.advance n).pfx = c.pfx := rfl
@[simp] theorem advance_fee (c : Ctx) (n : Nat) : (c.advance n).fee = c.fee := rfl
@[simp] theorem advance_few (c : Ctx) (n : Nat) : (c.advance n).few = c.few := rfl
@[simp] theorem advance_cva (c : Ctx) (n : Nat) : (c.advance n).cva = c.cva := rfl
@[simp] theorem advance_part (c : Ctx) (n : Nat) : (c.advance n).part = c.part := rfl
@[simp] theorem advance_blk (c : Ctx) (n : Nat) : (c.advance n).blk = c.blk := rfl
@[simp] theorem advance_tindex (c : Ctx) (n : Nat) : (c.advance n).tindex = c.tindex := rfl
@[simp] theorem advance_pin (c : Ctx) (n : Nat) : (c.advance n).pin = c.pin := rfl
@[simp] theorem advance_handler (c : Ctx) (n : Nat) : (c.advance n).handler = c.handler := rfl
@[simp] theorem advance_lastCore (c : Ctx) (n : Nat) : (c.advance n).lastCore = c.lastCore := rfl
@[simp] theorem advance_lastSlot (c : Ctx) (n : Nat) : (c.advance n).lastSlot = c.lastSlot := rfl
@[simp] theorem advance_heldTraps (c : Ctx) (n : Nat) : (c.advance n).heldTraps = c.heldTraps := rfl
@[simp] theorem advance_heldStop (c : Ctx) (n : Nat) : (c.advance n).heldStop = c.heldStop := rfl
@[simp] theorem advance_stopSlot (c : Ctx) (n : Nat) : (c.advance n).stopSlot = c.stopSlot := rfl
@[simp] theorem advance_bpExempt (c : Ctx) (n : Nat) : (c.advance n).bpExempt = c.bpExempt := rfl
@[simp] theorem advance_inval (c : Ctx) (n : Nat) : (c.advance n).inval = c.inval := rfl
@[simp] theorem advance_readyAt (c : Ctx) (n : Nat) : (c.advance n).readyAt = c.readyAt := rfl
@[simp] theorem advance_runAt (c : Ctx) (n : Nat) : (c.advance n).runAt = c.runAt := rfl
@[simp] theorem advance_lastIssue (c : Ctx) (n : Nat) : (c.advance n).lastIssue = c.lastIssue := rfl
@[simp] theorem advance_issuedAt (c : Ctx) (n : Nat) : (c.advance n).issuedAt = c.issuedAt := rfl
@[simp] theorem advance_level (c : Ctx) (n : Nat) : (c.advance n).level = c.level := rfl
@[simp] theorem advance_peer (c : Ctx) (n : Nat) : (c.advance n).peer = c.peer := rfl
@[simp] theorem advance_lvq (c : Ctx) (n : Nat) : (c.advance n).lvq = c.lvq := rfl
@[simp] theorem advance_comparator (c : Ctx) (n : Nat) : (c.advance n).comparator = c.comparator := rfl
@[simp] theorem advance_void (c : Ctx) (n : Nat) : (c.advance n).void = c.void := rfl
@[simp] theorem advance_ahead (c : Ctx) (n : Nat) : (c.advance n).ahead = c.ahead := rfl
@[simp] theorem advance_epend (c : Ctx) (n : Nat) : (c.advance n).epend = c.epend := rfl
@[simp] theorem advance_fenced (c : Ctx) (n : Nat) : (c.advance n).fenced = c.fenced := rfl
@[simp] theorem advance_entryHi (c : Ctx) (n : Nat) : (c.advance n).entryHi = c.entryHi := rfl
@[simp] theorem advance_resend (c : Ctx) (n : Nat) : (c.advance n).resend = c.resend := rfl
@[simp] theorem advance_pollAt (c : Ctx) (n : Nat) : (c.advance n).pollAt = c.pollAt := rfl

/-! ### The wait tag is set -/

@[simp] theorem setTag_w (c : Ctx) (t : Word) : (c.setTag t).w = c.w := rfl
@[simp] theorem setTag_e (c : Ctx) (t : Word) : (c.setTag t).e = c.e := rfl
@[simp] theorem setTag_pc (c : Ctx) (t : Word) : (c.setTag t).pc = c.pc := rfl
@[simp] theorem setTag_pw (c : Ctx) (t : Word) : (c.setTag t).pw = c.pw := rfl
@[simp] theorem setTag_pend (c : Ctx) (t : Word) : (c.setTag t).pend = c.pend := rfl
@[simp] theorem setTag_epoch (c : Ctx) (t : Word) : (c.setTag t).epoch = c.epoch := rfl
@[simp] theorem setTag_cause (c : Ctx) (t : Word) : (c.setTag t).cause = c.cause := rfl
@[simp] theorem setTag_extneed (c : Ctx) (t : Word) : (c.setTag t).extneed = c.extneed := rfl
@[simp] theorem setTag_pair (c : Ctx) (t : Word) : (c.setTag t).pair = c.pair := rfl
@[simp] theorem setTag_prio (c : Ctx) (t : Word) : (c.setTag t).prio = c.prio := rfl
@[simp] theorem setTag_priv (c : Ctx) (t : Word) : (c.setTag t).priv = c.priv := rfl
@[simp] theorem setTag_cmds (c : Ctx) (t : Word) : (c.setTag t).cmds = c.cmds := rfl
@[simp] theorem setTag_pfxval (c : Ctx) (t : Word) : (c.setTag t).pfxval = c.pfxval := rfl
@[simp] theorem setTag_pfx (c : Ctx) (t : Word) : (c.setTag t).pfx = c.pfx := rfl
@[simp] theorem setTag_fee (c : Ctx) (t : Word) : (c.setTag t).fee = c.fee := rfl
@[simp] theorem setTag_few (c : Ctx) (t : Word) : (c.setTag t).few = c.few := rfl
@[simp] theorem setTag_cva (c : Ctx) (t : Word) : (c.setTag t).cva = c.cva := rfl
@[simp] theorem setTag_part (c : Ctx) (t : Word) : (c.setTag t).part = c.part := rfl
@[simp] theorem setTag_blk (c : Ctx) (t : Word) : (c.setTag t).blk = c.blk := rfl
@[simp] theorem setTag_tindex (c : Ctx) (t : Word) : (c.setTag t).tindex = c.tindex := rfl
@[simp] theorem setTag_pin (c : Ctx) (t : Word) : (c.setTag t).pin = c.pin := rfl
@[simp] theorem setTag_handler (c : Ctx) (t : Word) : (c.setTag t).handler = c.handler := rfl
@[simp] theorem setTag_lastCore (c : Ctx) (t : Word) : (c.setTag t).lastCore = c.lastCore := rfl
@[simp] theorem setTag_lastSlot (c : Ctx) (t : Word) : (c.setTag t).lastSlot = c.lastSlot := rfl
@[simp] theorem setTag_heldTraps (c : Ctx) (t : Word) : (c.setTag t).heldTraps = c.heldTraps := rfl
@[simp] theorem setTag_heldStop (c : Ctx) (t : Word) : (c.setTag t).heldStop = c.heldStop := rfl
@[simp] theorem setTag_stopSlot (c : Ctx) (t : Word) : (c.setTag t).stopSlot = c.stopSlot := rfl
@[simp] theorem setTag_bpExempt (c : Ctx) (t : Word) : (c.setTag t).bpExempt = c.bpExempt := rfl
@[simp] theorem setTag_inval (c : Ctx) (t : Word) : (c.setTag t).inval = c.inval := rfl
@[simp] theorem setTag_readyAt (c : Ctx) (t : Word) : (c.setTag t).readyAt = c.readyAt := rfl
@[simp] theorem setTag_runAt (c : Ctx) (t : Word) : (c.setTag t).runAt = c.runAt := rfl
@[simp] theorem setTag_lastIssue (c : Ctx) (t : Word) : (c.setTag t).lastIssue = c.lastIssue := rfl
@[simp] theorem setTag_issuedAt (c : Ctx) (t : Word) : (c.setTag t).issuedAt = c.issuedAt := rfl
@[simp] theorem setTag_level (c : Ctx) (t : Word) : (c.setTag t).level = c.level := rfl
@[simp] theorem setTag_peer (c : Ctx) (t : Word) : (c.setTag t).peer = c.peer := rfl
@[simp] theorem setTag_lvq (c : Ctx) (t : Word) : (c.setTag t).lvq = c.lvq := rfl
@[simp] theorem setTag_comparator (c : Ctx) (t : Word) : (c.setTag t).comparator = c.comparator := rfl
@[simp] theorem setTag_void (c : Ctx) (t : Word) : (c.setTag t).void = c.void := rfl
@[simp] theorem setTag_ahead (c : Ctx) (t : Word) : (c.setTag t).ahead = c.ahead := rfl
@[simp] theorem setTag_epend (c : Ctx) (t : Word) : (c.setTag t).epend = c.epend := rfl
@[simp] theorem setTag_stall (c : Ctx) (t : Word) : (c.setTag t).stall = c.stall := rfl
@[simp] theorem setTag_fenced (c : Ctx) (t : Word) : (c.setTag t).fenced = c.fenced := rfl
@[simp] theorem setTag_entryHi (c : Ctx) (t : Word) : (c.setTag t).entryHi = c.entryHi := rfl
@[simp] theorem setTag_badVa (c : Ctx) (t : Word) : (c.setTag t).badVa = c.badVa := rfl
@[simp] theorem setTag_marked (c : Ctx) (t : Word) : (c.setTag t).marked = c.marked := rfl
@[simp] theorem setTag_resend (c : Ctx) (t : Word) : (c.setTag t).resend = c.resend := rfl
@[simp] theorem setTag_pollAt (c : Ctx) (t : Word) : (c.setTag t).pollAt = c.pollAt := rfl
@[simp] theorem setTag_quest (c : Ctx) (t : Word) : (c.setTag t).quest = c.quest := rfl
@[simp] theorem setTag_seen (c : Ctx) (t : Word) : (c.setTag t).seen = c.seen := rfl

end Sys2Proof.Laws
end

