-- ==== Sys2Proof/Laws/Issue.lean ====
section
/-! SUPPORT. Laws of issuing: when an instruction acts (06 R153), and the states that the shared results give. -/

set_option Elab.async false

namespace Sys2Proof.Laws

open Sys2Proof Sys2Proof.Machine

/-! ### Emptiness -/

theorem lowestReg_none {l : List Nat} : lowestReg l = none ↔ l = [] := by
  cases l with
  | nil => simp [lowestReg]
  | cons a t => simp only [lowestReg]; split <;> simp

theorem lowestReg_filter_none {l : List Nat} {p : Nat → Bool} (h : ∀ r ∈ l, p r = false) : lowestReg (l.filter p) = none := by
  rw [lowestReg_none, List.filter_eq_nil_iff]
  intro r hr
  simp [h r hr]

/-- Of a list of sources that are full, none is empty under a policy. -/
theorem no_empty {l : List (Nat × Bool)} {c : Ctx} (h : ∀ x ∈ l, c.full x.1 = true) (p : Bool) :
    lowestReg ((l.filter fun x => x.2 == p && !c.full x.1).map (·.1)) = none := by
  have : l.filter (fun x => x.2 == p && !c.full x.1) = [] := by
    rw [List.filter_eq_nil_iff]
    intro x hx
    simp [h x hx]
  simp [this, lowestReg]

/-! ### When an instruction acts -/

/-- An instruction that is legal, privileged enough, accepts the pending prefix, finds its sources full and waits for no
fill is handed to its pair, or acts. -/
theorem issue_paired {q : Issue} {s : State} {act : State → Out} (hok : q.ok = true)
    (hx : s.th.pfx = true → q.pfx.accepts s.th.pfxval = true) (hp : q.priv ≤ s.th.priv.toNat)
    (hf : ∀ x ∈ q.srcs, s.th.full x.1 = true) (hl : ∀ r ∈ q.long, s.th.pend.getLsbD r = false)
    (he : ∀ r ∈ q.eout, s.th.epend.getLsbD r = false) : issue q s act = paired q s act := by
  have h1 : (!q.ok || (s.th.pfx && !q.pfx.accepts s.th.pfxval)) = false := by
    cases hpf : s.th.pfx <;> simp_all
  simp only [issue, h1, no_empty hf, lowestReg_filter_none hl, lowestReg_filter_none he]
  rw [if_neg (by simp), if_neg (by omega)]

/-- The same for a context that is not one of a pair: it acts. -/
theorem issue_runs {q : Issue} {s : State} {act : State → Out} (hpair : s.th.pair = 0) (hok : q.ok = true)
    (hx : s.th.pfx = true → q.pfx.accepts s.th.pfxval = true) (hp : q.priv ≤ s.th.priv.toNat)
    (hf : ∀ x ∈ q.srcs, s.th.full x.1 = true) (hl : ∀ r ∈ q.long, s.th.pend.getLsbD r = false)
    (he : ∀ r ∈ q.eout, s.th.epend.getLsbD r = false) : issue q s act = act s := by
  rw [issue_paired hok hx hp hf hl he]
  simp [paired, hpair]

/-- Misuse of a prefix, or illegality, comes first (06 R153). -/
theorem issue_illegal {q : Issue} {s : State} {act : State → Out}
    (h : q.ok = false ∨ s.th.pfx = true ∧ q.pfx.accepts s.th.pfxval = false) : issue q s act = s.fault 1 s.ienc := by
  have h1 : (!q.ok || (s.th.pfx && !q.pfx.accepts s.th.pfxval)) = true := by
    rcases h with h | ⟨h, h'⟩ <;> simp_all
  simp [issue, h1]

/-- Then privilege. -/
theorem issue_priv {q : Issue} {s : State} {act : State → Out} (hok : q.ok = true)
    (hx : s.th.pfx = true → q.pfx.accepts s.th.pfxval = true) (hp : s.th.priv.toNat < q.priv) :
    issue q s act = s.fault 3 s.ienc := by
  have h1 : (!q.ok || (s.th.pfx && !q.pfx.accepts s.th.pfxval)) = false := by
    cases hpf : s.th.pfx <;> simp_all
  simp [issue, h1, hp]

/-- A trap of a context that is not one of a pair. -/
theorem fault_unpaired {s : State} {c : Nat} {i : Word} (h : s.th.pair = 0) : s.fault c i = .next (s.trapAt c i s.th.pc) := by
  simp [State.fault, State.raise, h]

theorem raise_unpaired {s : State} {c : Nat} {i : Word} {pc : BitVec 57} (h : s.th.pair = 0) :
    s.raise c i pc = .next (s.trapAt c i pc) := by
  simp [State.raise, h]

/-- The leading context of a pair executes an instruction of its own registers and counts as one further ahead (17 R397). -/
theorem paired_leads {q : Issue} {s t : State} {act : State → Out} {p : Nat} (hu : q.use = .own) (hl : s.th.pair = 1)
    (hp : s.th.peer = some p) (ha : act s = .next t) : paired q s act = .next (t.led s.th.pc) := by
  simp [paired, hl, hp, leadPart, hu, ha]

/-- The trailing context executes what the leading one has retired (17 R397). -/
theorem paired_follows {q : Issue} {s t : State} {act : State → Out} {p : Nat} (hu : q.use = .own) (h0 : s.th.pair ≠ 0)
    (h1 : s.th.pair ≠ 1) (hp : s.th.peer = some p) (hd : (s.ctx p).ahead ≠ 0) (ha : act s = .next t) :
    paired q s act = .next (t.followed p s.th.pc) := by
  simp only [paired, beq_iff_eq, if_neg h0, if_neg h1, hp]
  simp [trailPart, hd, hu, ha]

/-- Until the leading one has retired an instruction or stands at it, the trailing one waits (17 R397). -/
theorem paired_waits {q : Issue} {s : State} {act : State → Out} {p : Nat} (h0 : s.th.pair ≠ 0)
    (h1 : s.th.pair ≠ 1) (hp : s.th.peer = some p) (hd : (s.ctx p).ahead = 0) (hc : (s.ctx p).comparator = []) :
    paired q s act = s.idle 0 := by
  simp only [paired, beq_iff_eq, if_neg h0, if_neg h1, hp]
  simp [trailPart, hd, hc]

/-- An instruction that takes no prefix, with none pending, in a context that is none of a pair. -/
theorem issue_plain {q : Issue} {s : State} {act : State → Out} (hpair : s.th.pair = 0) (hx : s.th.pfx = false)
    (hf : ∀ x ∈ q.srcs, s.th.full x.1 = true) (hl : ∀ r ∈ q.long, s.th.pend.getLsbD r = false)
    (he : ∀ r ∈ q.eout, s.th.epend.getLsbD r = false) (hok : q.ok = true := by rfl)
    (hp : q.priv = 0 := by rfl) : issue q s act = act s :=
  issue_runs hpair hok (by simp [hx]) (by omega) hf hl he

/-! ### The shared shapes of an instruction -/

theorem alu1_runs {n : Nat} {h : Bool} {a d : Reg} {f : Word → Word} {s : State} (hpair : s.th.pair = 0) (hx : s.th.pfx = false)
    (ha : s.th.full a.toNat = true) : alu1 n h a d f s = .next (s.putW d (f (s.th.wv a)) n) := by
  unfold alu1
  rw [issue_plain hpair hx (by simpa using ha) (by simp) (by simp)]

theorem alu2_runs {n : Nat} {g h : Bool} {b a d : Reg} {f : Word → Word → Word} {s : State}
    (hpair : s.th.pair = 0) (hx : s.th.pfx = false) (ha : s.th.full a.toNat = true) (hb : s.th.full b.toNat = true) :
    alu2 n g b h a d f s = .next (s.putW d (f (s.th.wv a) (s.th.wv b)) n) := by
  unfold alu2
  rw [issue_plain hpair hx (by simp [ha, hb]) (by simp) (by simp)]

theorem alu2Long_runs {g h : Bool} {b a d : Reg} {f : Word → Word → Word} {s : State}
    (hpair : s.th.pair = 0) (hx : s.th.pfx = false) (ha : s.th.full a.toNat = true) (hb : s.th.full b.toNat = true)
    (hd : s.th.pend.getLsbD d.toNat = false) :
    alu2Long g b h a d f s = .next (s.putLong d (f (s.th.wv a) (s.th.wv b))) := by
  unfold alu2Long
  rw [issue_plain hpair hx (by simp [ha, hb]) (by simpa using hd) (by simp)]

end Sys2Proof.Laws
end

