-- ==== Sys2Proof/Laws/Memory.lean ====
section
/-! SUPPORT. Laws of the byte memories: every write keeps the canonical form; a byte written reads as written, and every other byte
as before. Laws of the maps: a value put reads back, and every other key as before. -/

set_option Elab.async false

namespace Sys2Proof.Laws

open Sys2Proof Sys2Proof.Machine

/-! ### The canonical form -/

theorem memOkFrom_weaken {lo hi : Nat} (hle : lo ≤ hi) : ∀ {m : Memory}, memOkFrom (some hi) m = true → memOkFrom (some lo) m = true
  | [], _ => rfl
  | (a, b) :: r, h => by
    simp only [memOkFrom, Bool.and_eq_true, decide_eq_true_eq] at h ⊢
    exact ⟨⟨by omega, h.1.2⟩, h.2⟩

theorem memOkFrom_none {lo : Nat} : ∀ {m : Memory}, memOkFrom (some lo) m = true → memOkFrom none m = true
  | [], _ => rfl
  | (a, b) :: r, h => by
    simp only [memOkFrom, Bool.and_eq_true, decide_eq_true_eq] at h ⊢
    exact ⟨⟨trivial, h.1.2⟩, h.2⟩

theorem writeByte_okFrom (a : Nat) (v : Byte) {lo : Nat} (hlo : lo < a) :
    ∀ {m : Memory}, memOkFrom (some lo) m = true → memOkFrom (some lo) (writeByte m a v) = true
  | [], _ => by
    unfold writeByte
    split
    · rfl
    · next h => simp_all [memOkFrom]
  | (k, w) :: r, h => by
    simp only [memOkFrom, Bool.and_eq_true, decide_eq_true_eq, bne_iff_ne, ne_eq] at h
    obtain ⟨⟨hk, hw⟩, hr⟩ := h
    unfold writeByte
    split
    · next hak =>
      split
      · simp_all [memOkFrom]
      · next hv => simp_all [memOkFrom]
    · next hak =>
      split
      · next he =>
        subst he
        split
        · exact memOkFrom_weaken (Nat.le_of_lt hlo) hr
        · next hv => simp_all [memOkFrom]
      · next hne =>
        have := writeByte_okFrom a v (lo := k) (by omega) hr
        simp_all [memOkFrom]

/-- Writing one byte keeps the canonical form. -/
theorem writeByte_wf (m : Memory) (a : Nat) (v : Byte) (h : m.wf = true) : (writeByte m a v).wf = true := by
  unfold Memory.wf at h ⊢
  match m with
  | [] =>
    unfold writeByte
    split
    · rfl
    · next hv => simp_all [memOkFrom]
  | (k, w) :: r =>
    simp only [memOkFrom, Bool.and_eq_true, bne_iff_ne, ne_eq] at h
    obtain ⟨⟨-, hw⟩, hr⟩ := h
    unfold writeByte
    split
    · next hak =>
      split
      · simp_all [memOkFrom]
      · next hv => simp_all [memOkFrom]
    · next hak =>
      split
      · next he =>
        subst he
        split
        · exact memOkFrom_none hr
        · next hv => simp_all [memOkFrom]
      · next hne =>
        have := writeByte_okFrom a v (lo := k) (by omega) hr
        simp_all [memOkFrom]

theorem writeNat_wf : ∀ (n : Nat) (m : Memory) (a v : Nat), m.wf = true → (writeNat m a v n).wf = true
  | 0, _, _, _, h => h
  | n + 1, m, a, _, h => writeNat_wf n _ _ _ (writeByte_wf m a _ h)

theorem writeList_wf : ∀ (l : List Byte) (m : Memory) (a : Nat), m.wf = true → (writeList m a l).wf = true
  | [], _, _, h => h
  | b :: r, m, a, h => writeList_wf r _ _ (writeByte_wf m a b h)

theorem writePlaces_wf : ∀ (l : List (Nat × Byte)) (m : Memory), m.wf = true → (writePlaces m l).wf = true
  | [], _, h => h
  | (a, b) :: r, m, h => writePlaces_wf r _ (writeByte_wf m a b h)

/-- Dropping listed bytes keeps the canonical form. -/
theorem filter_okFrom (p : Nat × Byte → Bool) : ∀ (lo : Option Nat) (m : Memory), memOkFrom lo m = true → memOkFrom lo (m.filter p) = true
  | _, [], _ => rfl
  | lo, (a, b) :: r, h => by
    simp only [memOkFrom, Bool.and_eq_true] at h
    have ih := filter_okFrom p (some a) r h.2
    simp only [List.filter_cons]
    split
    · simp only [memOkFrom, Bool.and_eq_true]
      exact ⟨h.1, ih⟩
    · match lo with
      | none => exact memOkFrom_none ih
      | some l => exact memOkFrom_weaken (by have := h.1.1; simp at this; omega) ih

theorem filter_wf (p : Nat × Byte → Bool) (m : Memory) (h : m.wf = true) : Memory.wf (m.filter p) = true := filter_okFrom p none m h

/-! ### Reading after writing -/

theorem readByte_below : ∀ {m : Memory} {lo a : Nat}, memOkFrom (some lo) m = true → a ≤ lo → readByte m a = 0
  | [], _, _, _, _ => rfl
  | (k, w) :: r, lo, a, h, hle => by
    simp only [memOkFrom, Bool.and_eq_true, decide_eq_true_eq] at h
    unfold readByte
    rw [if_neg (by omega), if_pos (by omega)]

/-- A byte written reads as written. -/
theorem readByte_writeByte_same : ∀ (lo : Option Nat) (m : Memory) (a : Nat) (v : Byte), memOkFrom lo m = true →
    readByte (writeByte m a v) a = v
  | _, [], a, v, _ => by
    unfold writeByte
    split
    · next h => simp [readByte, h]
    · simp [readByte]
  | lo, (k, w) :: r, a, v, h => by
    simp only [memOkFrom, Bool.and_eq_true] at h
    unfold writeByte
    split
    · next hak =>
      split
      · next hv => simp [readByte, hv, hak, Nat.ne_of_gt hak]
      · simp [readByte]
    · next hak =>
      split
      · next he =>
        subst he
        split
        · next hv => rw [readByte_below h.2 (Nat.le_refl _), hv]
        · simp [readByte]
      · next hne =>
        rw [readByte, if_neg (by omega), if_neg hak]
        exact readByte_writeByte_same (some k) r a v h.2

/-- Every other byte reads as before. -/
theorem readByte_writeByte_other : ∀ (lo : Option Nat) (m : Memory) (a : Nat) (v : Byte) (x : Nat), memOkFrom lo m = true → x ≠ a →
    readByte (writeByte m a v) x = readByte m x
  | _, [], a, v, x, _, hx => by
    unfold writeByte
    split
    · rfl
    · simp [readByte, Ne.symm hx]
  | lo, (k, w) :: r, a, v, x, h, hx => by
    simp only [memOkFrom, Bool.and_eq_true] at h
    unfold writeByte
    split
    · next hak =>
      split
      · rfl
      · rw [readByte, if_neg (Ne.symm hx)]
        split
        · next hxa => rw [readByte, if_neg (by omega), if_pos (by omega)]
        · rfl
    · next hak =>
      split
      · next he =>
        subst he
        split
        · rw [readByte, if_neg (Ne.symm hx)]
          split
          · next hxa => exact readByte_below h.2 (by omega)
          · rfl
        · rw [readByte, if_neg (Ne.symm hx), readByte, if_neg (Ne.symm hx)]
      · next hne =>
        rw [readByte, readByte]
        split
        · rfl
        · split
          · rfl
          · exact readByte_writeByte_other (some k) r a v x h.2 hx

theorem readByte_writeNat_other : ∀ (n : Nat) (m : Memory) (a v x : Nat), m.wf = true → (x < a ∨ a + n ≤ x) →
    readByte (writeNat m a v n) x = readByte m x
  | 0, _, _, _, _, _, _ => rfl
  | n + 1, m, a, v, x, h, hx => by
    rw [writeNat, readByte_writeNat_other n _ _ _ _ (writeByte_wf m a _ h) (by omega)]
    exact readByte_writeByte_other none m a _ x h (by omega)

theorem readNat_congr : ∀ (n : Nat) (m m' : Memory) (a : Nat), (∀ i, i < n → readByte m (a + i) = readByte m' (a + i)) →
    readNat m a n = readNat m' a n
  | 0, _, _, _, _ => rfl
  | n + 1, m, m', a, h => by
    rw [readNat, readNat, show readByte m a = readByte m' a from h 0 (by omega),
      readNat_congr n m m' (a + 1) fun i hi => by have := h (i + 1) (by omega); rwa [Nat.add_assoc, Nat.add_comm 1 i]]

/-- A value written reads back, modulo its width. -/
theorem readNat_writeNat_same : ∀ (n : Nat) (m : Memory) (a v : Nat), m.wf = true → readNat (writeNat m a v n) a n = v % 256 ^ n
  | 0, _, _, v, _ => by simp [readNat, Nat.mod_one]
  | n + 1, m, a, v, h => by
    have h' := writeByte_wf m a (BitVec.ofNat 8 v) h
    rw [readNat, writeNat, readNat_writeNat_same n _ _ _ h',
      readByte_writeNat_other n _ _ _ _ h' (by omega), readByte_writeByte_same none m a _ h]
    rw [BitVec.toNat_ofNat, show (256 : Nat) ^ (n + 1) = 256 * 256 ^ n from by rw [Nat.pow_succ, Nat.mul_comm], Nat.mod_mul]

/-! ### Maps -/

theorem get?_put_same {α : Type} : ∀ (m : FMap α) (k : Nat) (x : α), get? (put m k x) k = some x
  | [], k, x => by simp [put, get?]
  | (a, v) :: r, k, x => by
    unfold put
    split
    · simp [get?]
    · split
      · next h => simp [get?]
      · rw [get?, if_neg (by omega)]
        exact get?_put_same r k x

theorem get?_put_other {α : Type} : ∀ (m : FMap α) (k j : Nat) (x : α), j ≠ k → get? (put m k x) j = get? m j
  | [], k, j, x, h => by simp [put, get?, Ne.symm h]
  | (a, v) :: r, k, j, x, h => by
    unfold put
    split
    · simp [get?, Ne.symm h]
    · split
      · next e => subst e; simp [get?, Ne.symm h]
      · simp only [get?, get?_put_other r k j x h]

theorem get?_del_same {α : Type} : ∀ (m : FMap α) (k : Nat), get? (del m k) k = none
  | [], k => rfl
  | (a, v) :: r, k => by
    by_cases h : a = k
    · simpa [del, h] using get?_del_same r k
    · simpa [del, get?, h] using get?_del_same r k

theorem get?_del_other {α : Type} : ∀ (m : FMap α) (k j : Nat), j ≠ k → get? (del m k) j = get? m j
  | [], k, j, _ => rfl
  | (a, v) :: r, k, j, h => by
    by_cases e : a = k
    · simpa [del, e, get?, Ne.symm h] using get?_del_other r k j h
    · have := get?_del_other r k j h
      simp only [del, get?] at this ⊢
      simp [e, get?, this]

@[simp] theorem getD_put_same {α : Type} (m : FMap α) (k : Nat) (x d : α) : getD (put m k x) k d = x := by
  simp [getD, get?_put_same]

theorem getD_put_other {α : Type} (m : FMap α) (k j : Nat) (x d : α) (h : j ≠ k) : getD (put m k x) j d = getD m j d := by
  simp [getD, get?_put_other m k j x h]

end Sys2Proof.Laws
end

