-- ==== Sys2Proof/Laws/PerInstr.lean ====
section
/-! SUPPORT. Laws of the decoder and the encoder: the fields of a packed word, and for every constructor of Instr that decoding its
encoding gives it back. -/

set_option Elab.async false

namespace Sys2Proof.Laws

open Sys2Proof

set_option linter.unusedSimpArgs false

/-! ### Fields -/

theorem sub_all {n : Nat} (x : BitVec n) : sub x 0 n = x := by simp [sub]

theorem sub_skip {m n : Nat} (x : BitVec m) (y : BitVec n) (lo len : Nat) (h : n ≤ lo) : sub (x ++ y) lo len = sub x (lo - n) len := by
  apply BitVec.eq_of_getLsbD_eq
  intro i hi
  simp only [sub, BitVec.getLsbD_extractLsb', BitVec.getLsbD_append]
  rw [if_neg (by omega), show lo + i - n = lo - n + i by omega]

theorem sub_within {m n : Nat} (x : BitVec m) (y : BitVec n) (lo len : Nat) (h : lo + len ≤ n) : sub (x ++ y) lo len = sub y lo len := by
  apply BitVec.eq_of_getLsbD_eq
  intro i hi
  simp only [sub, BitVec.getLsbD_extractLsb', BitVec.getLsbD_append]
  rw [if_pos (by omega)]

theorem bit_skip {m n : Nat} (x : BitVec m) (y : BitVec n) (i : Nat) (h : n ≤ i) : bit (x ++ y) i = bit x (i - n) := by
  simp only [bit, BitVec.getLsbD_append]
  rw [if_neg (by omega)]

theorem bit_within {m n : Nat} (x : BitVec m) (y : BitVec n) (i : Nat) (h : i < n) : bit (x ++ y) i = bit y i := by
  simp only [bit, BitVec.getLsbD_append]
  rw [if_pos (by omega)]

theorem bit_ofB (b : Bool) : bit (ofB b) 0 = b := by cases b <;> rfl

theorem fieldsA_packA (f : FmtA) : fieldsA (packA f) = f := by simp (disch := decide) only [fieldsA, packA, sub_skip, sub_within, sub_all, bit_skip, bit_within, bit_ofB, Nat.reduceSub]
theorem fieldsI_packI (f : FmtI) : fieldsI (packI f) = f := by simp (disch := decide) only [fieldsI, packI, sub_skip, sub_within, sub_all, bit_skip, bit_within, bit_ofB, Nat.reduceSub]
theorem fieldsM_packM (f : FmtM) : fieldsM (packM f) = f := by simp (disch := decide) only [fieldsM, packM, sub_skip, sub_within, sub_all, bit_skip, bit_within, bit_ofB, Nat.reduceSub]
theorem major_packA (f : FmtA) : sub (packA f) 2 5 = f.major := by simp (disch := decide) only [packA, sub_skip, sub_within, sub_all, bit_skip, bit_within, bit_ofB, Nat.reduceSub]
theorem major_packI (f : FmtI) : sub (packI f) 2 5 = f.major := by simp (disch := decide) only [packI, sub_skip, sub_within, sub_all, bit_skip, bit_within, bit_ofB, Nat.reduceSub]
theorem major_packM (f : FmtM) : sub (packM f) 2 5 = f.major := by simp (disch := decide) only [packM, sub_skip, sub_within, sub_all, bit_skip, bit_within, bit_ofB, Nat.reduceSub]

/-! ### The decoder's branches -/

theorem keep_eq {c : Bool} {i j : Instr} (hc : c = true) (hi : i = j) : keep c i = .ok j := by subst hc hi; rfl
theorem then_eq {c : Bool} {i j : Instr} {r : Decoded} (hc : c = true) (hi : i = j) : (if c then .ok i else r) = .ok j := by subst hc hi; rfl
theorem else_eq {c : Bool} {l r : Decoded} {j : Instr} (hc : c = false) (h : r = .ok j) : (if c then l else r) = .ok j := by subst hc; exact h
theorem ok_eq {i j : Instr} (hi : i = j) : Decoded.ok i = .ok j := by rw [hi]

theorem decode_word {w : BitVec 32} {i : Instr} (h : decodeMajor w = .ok i) (wf : i.wellFormed = true) : decode (.word w) = .ok i := by
  simp [decode, h, wf]

theorem decode_half {w : BitVec 16} {i : Instr} (h0 : w ≠ 0) (h : decodeQuadrant w = .ok i) (wf : i.wellFormed = true) :
    decode (.half w) = .ok i := by
  have h1 : (w == 0) = false := by simpa using h0
  simp only [decode, h1, h]
  simp [wf]

theorem major_INT (md fn : BitVec 7) (g : Bool) (b : Reg) (h : Bool) (a d : Reg) :
    decodeMajor (packA ⟨md, fn, g, b, h, a, d, 0⟩) = decodeINT ⟨md, fn, g, b, h, a, d, 0⟩ := by
  simp only [decodeMajor, major_packA, fieldsA_packA]; rfl
theorem major_PACK (md fn : BitVec 7) (g : Bool) (b : Reg) (h : Bool) (a d : Reg) :
    decodeMajor (packA ⟨md, fn, g, b, h, a, d, 6⟩) = decodePACK ⟨md, fn, g, b, h, a, d, 6⟩ := by
  simp only [decodeMajor, major_packA, fieldsA_packA]; rfl
theorem major_FP (md fn : BitVec 7) (g : Bool) (b : Reg) (h : Bool) (a d : Reg) :
    decodeMajor (packA ⟨md, fn, g, b, h, a, d, 7⟩) = decodeFP ⟨md, fn, g, b, h, a, d, 7⟩ := by
  simp only [decodeMajor, major_packA, fieldsA_packA]; rfl
theorem major_PRED (md fn : BitVec 7) (g : Bool) (b : Reg) (h : Bool) (a d : Reg) :
    decodeMajor (packA ⟨md, fn, g, b, h, a, d, 8⟩) = decodePRED ⟨md, fn, g, b, h, a, d, 8⟩ := by
  simp only [decodeMajor, major_packA, fieldsA_packA]; rfl
theorem major_AMO (md fn : BitVec 7) (g : Bool) (b : Reg) (h : Bool) (a d : Reg) :
    decodeMajor (packA ⟨md, fn, g, b, h, a, d, 12⟩) = decodeAMO ⟨md, fn, g, b, h, a, d, 12⟩ := by
  simp only [decodeMajor, major_packA, fieldsA_packA]; rfl
theorem major_MEMX (md fn : BitVec 7) (g : Bool) (b : Reg) (h : Bool) (a d : Reg) :
    decodeMajor (packA ⟨md, fn, g, b, h, a, d, 13⟩) = decodeMEMX ⟨md, fn, g, b, h, a, d, 13⟩ := by
  simp only [decodeMajor, major_packA, fieldsA_packA]; rfl
theorem major_SYNC (md fn : BitVec 7) (g : Bool) (b : Reg) (h : Bool) (a d : Reg) :
    decodeMajor (packA ⟨md, fn, g, b, h, a, d, 14⟩) = decodeSYNC ⟨md, fn, g, b, h, a, d, 14⟩ := by
  simp only [decodeMajor, major_packA, fieldsA_packA]; rfl
theorem major_TILE (md fn : BitVec 7) (g : Bool) (b : Reg) (h : Bool) (a d : Reg) :
    decodeMajor (packA ⟨md, fn, g, b, h, a, d, 15⟩) = decodeTILE ⟨md, fn, g, b, h, a, d, 15⟩ := by
  simp only [decodeMajor, major_packA, fieldsA_packA]; rfl
theorem major_TASK (md fn : BitVec 7) (g : Bool) (b : Reg) (h : Bool) (a d : Reg) :
    decodeMajor (packA ⟨md, fn, g, b, h, a, d, 16⟩) = decodeTASK ⟨md, fn, g, b, h, a, d, 16⟩ := by
  simp only [decodeMajor, major_packA, fieldsA_packA]; rfl
theorem major_TRACE (md fn : BitVec 7) (g : Bool) (b : Reg) (h : Bool) (a d : Reg) :
    decodeMajor (packA ⟨md, fn, g, b, h, a, d, 17⟩) = decodeTRACE ⟨md, fn, g, b, h, a, d, 17⟩ := by
  simp only [decodeMajor, major_packA, fieldsA_packA]; rfl
theorem major_SYS (md fn : BitVec 7) (g : Bool) (b : Reg) (h : Bool) (a d : Reg) :
    decodeMajor (packA ⟨md, fn, g, b, h, a, d, 18⟩) = decodeSYS ⟨md, fn, g, b, h, a, d, 18⟩ := by
  simp only [decodeMajor, major_packA, fieldsA_packA]; rfl
theorem major_CTRL (md fn : BitVec 7) (g : Bool) (b : Reg) (h : Bool) (a d : Reg) :
    decodeMajor (packA ⟨md, fn, g, b, h, a, d, 19⟩) = decodeCTRL ⟨md, fn, g, b, h, a, d, 19⟩ := by
  simp only [decodeMajor, major_packA, fieldsA_packA]; rfl
theorem major_F64 (md fn : BitVec 7) (g : Bool) (b : Reg) (h : Bool) (a d : Reg) :
    decodeMajor (packA ⟨md, fn, g, b, h, a, d, 28⟩) = decodeF64 ⟨md, fn, g, b, h, a, d, 28⟩ := by
  simp only [decodeMajor, major_packA, fieldsA_packA]; rfl
theorem major_Bits (md fn : BitVec 7) (g : Bool) (b : Reg) (h : Bool) (a d : Reg) :
    decodeMajor (packA ⟨md, fn, g, b, h, a, d, 29⟩) = decodeBits ⟨md, fn, g, b, h, a, d, 29⟩ := by
  simp only [decodeMajor, major_packA, fieldsA_packA]; rfl
theorem major_INTI (imm : BitVec 18) (h : Bool) (a d : Reg) : decodeMajor (packI ⟨imm, h, a, d, 5⟩) = decodeINTI ⟨imm, h, a, d, 5⟩ := by
  simp only [decodeMajor, major_packI, fieldsI_packI]; rfl
theorem major_BR (imm : BitVec 18) (h : Bool) (a d : Reg) : decodeMajor (packI ⟨imm, h, a, d, 22⟩) = decodeBR ⟨imm, h, a, d, 22⟩ := by
  simp only [decodeMajor, major_packI, fieldsI_packI]; rfl

/-! ### Every constructor -/

namespace RoundTrip

/-- Decoding an instruction's encoding gives the instruction; a step of another unit has no encoding. -/
def Statement (i : Instr) : Prop := i.wellFormed = true → ∀ e, encode i = some e → decode e = .ok i

/-- A step of another unit has no encoding. -/
theorem none_encoded {i : Instr} (h : encode i = none) : Statement i := fun _ e he => by rw [h] at he; cases he

theorem add (w : Bool) (g : Bool) (b : Reg) (h : Bool) (a : Reg) (d : Reg) : Statement (.add w g b h a d) := by
  intro wf e he; cases he; refine decode_word ?_ wf; rw [major_INT]
  exact keep_eq (by dsimp only; (clear wf; revert w; decide)) (by first | rfl | simp (disch := decide) only [sub_skip, sub_within, sub_all, bit_skip, bit_within, bit_ofB, Nat.reduceSub])
theorem sub (w : Bool) (g : Bool) (b : Reg) (h : Bool) (a : Reg) (d : Reg) : Statement (.sub w g b h a d) := by
  intro wf e he; cases he; refine decode_word ?_ wf; rw [major_INT]
  exact keep_eq (by dsimp only; (clear wf; revert w; decide)) (by first | rfl | simp (disch := decide) only [sub_skip, sub_within, sub_all, bit_skip, bit_within, bit_ofB, Nat.reduceSub])
theorem mul (w : Bool) (g : Bool) (b : Reg) (h : Bool) (a : Reg) (d : Reg) : Statement (.mul w g b h a d) := by
  intro wf e he; cases he; refine decode_word ?_ wf; rw [major_INT]
  exact keep_eq (by dsimp only; (clear wf; revert w; decide)) (by first | rfl | simp (disch := decide) only [sub_skip, sub_within, sub_all, bit_skip, bit_within, bit_ofB, Nat.reduceSub])
theorem mulh (z : Bool) (w : Bool) (g : Bool) (b : Reg) (h : Bool) (a : Reg) (d : Reg) : Statement (.mulh z w g b h a d) := by
  intro wf e he; cases he; refine decode_word ?_ wf; rw [major_INT]
  exact keep_eq (by dsimp only; (clear wf; revert z w; decide)) (by first | rfl | simp (disch := decide) only [sub_skip, sub_within, sub_all, bit_skip, bit_within, bit_ofB, Nat.reduceSub])
theorem div (z : Bool) (w : Bool) (g : Bool) (b : Reg) (h : Bool) (a : Reg) (d : Reg) : Statement (.div z w g b h a d) := by
  intro wf e he; cases he; refine decode_word ?_ wf; rw [major_INT]
  exact keep_eq (by dsimp only; (clear wf; revert z w; decide)) (by first | rfl | simp (disch := decide) only [sub_skip, sub_within, sub_all, bit_skip, bit_within, bit_ofB, Nat.reduceSub])
theorem rem (z : Bool) (w : Bool) (g : Bool) (b : Reg) (h : Bool) (a : Reg) (d : Reg) : Statement (.rem z w g b h a d) := by
  intro wf e he; cases he; refine decode_word ?_ wf; rw [major_INT]
  exact keep_eq (by dsimp only; (clear wf; revert z w; decide)) (by first | rfl | simp (disch := decide) only [sub_skip, sub_within, sub_all, bit_skip, bit_within, bit_ofB, Nat.reduceSub])
theorem and (w : Bool) (g : Bool) (b : Reg) (h : Bool) (a : Reg) (d : Reg) : Statement (.and w g b h a d) := by
  intro wf e he; cases he; refine decode_word ?_ wf; rw [major_INT]
  exact keep_eq (by dsimp only; (clear wf; revert w; decide)) (by first | rfl | simp (disch := decide) only [sub_skip, sub_within, sub_all, bit_skip, bit_within, bit_ofB, Nat.reduceSub])
theorem or (w : Bool) (g : Bool) (b : Reg) (h : Bool) (a : Reg) (d : Reg) : Statement (.or w g b h a d) := by
  intro wf e he; cases he; refine decode_word ?_ wf; rw [major_INT]
  exact keep_eq (by dsimp only; (clear wf; revert w; decide)) (by first | rfl | simp (disch := decide) only [sub_skip, sub_within, sub_all, bit_skip, bit_within, bit_ofB, Nat.reduceSub])
theorem xor (w : Bool) (g : Bool) (b : Reg) (h : Bool) (a : Reg) (d : Reg) : Statement (.xor w g b h a d) := by
  intro wf e he; cases he; refine decode_word ?_ wf; rw [major_INT]
  exact keep_eq (by dsimp only; (clear wf; revert w; decide)) (by first | rfl | simp (disch := decide) only [sub_skip, sub_within, sub_all, bit_skip, bit_within, bit_ofB, Nat.reduceSub])
theorem andn (w : Bool) (g : Bool) (b : Reg) (h : Bool) (a : Reg) (d : Reg) : Statement (.andn w g b h a d) := by
  intro wf e he; cases he; refine decode_word ?_ wf; rw [major_INT]
  exact keep_eq (by dsimp only; (clear wf; revert w; decide)) (by first | rfl | simp (disch := decide) only [sub_skip, sub_within, sub_all, bit_skip, bit_within, bit_ofB, Nat.reduceSub])
theorem orn (w : Bool) (g : Bool) (b : Reg) (h : Bool) (a : Reg) (d : Reg) : Statement (.orn w g b h a d) := by
  intro wf e he; cases he; refine decode_word ?_ wf; rw [major_INT]
  exact keep_eq (by dsimp only; (clear wf; revert w; decide)) (by first | rfl | simp (disch := decide) only [sub_skip, sub_within, sub_all, bit_skip, bit_within, bit_ofB, Nat.reduceSub])
theorem shl (w : Bool) (g : Bool) (b : Reg) (h : Bool) (a : Reg) (d : Reg) : Statement (.shl w g b h a d) := by
  intro wf e he; cases he; refine decode_word ?_ wf; rw [major_INT]
  exact keep_eq (by dsimp only; (clear wf; revert w; decide)) (by first | rfl | simp (disch := decide) only [sub_skip, sub_within, sub_all, bit_skip, bit_within, bit_ofB, Nat.reduceSub])
theorem shr (w : Bool) (g : Bool) (b : Reg) (h : Bool) (a : Reg) (d : Reg) : Statement (.shr w g b h a d) := by
  intro wf e he; cases he; refine decode_word ?_ wf; rw [major_INT]
  exact keep_eq (by dsimp only; (clear wf; revert w; decide)) (by first | rfl | simp (disch := decide) only [sub_skip, sub_within, sub_all, bit_skip, bit_within, bit_ofB, Nat.reduceSub])
theorem sar (w : Bool) (g : Bool) (b : Reg) (h : Bool) (a : Reg) (d : Reg) : Statement (.sar w g b h a d) := by
  intro wf e he; cases he; refine decode_word ?_ wf; rw [major_INT]
  exact keep_eq (by dsimp only; (clear wf; revert w; decide)) (by first | rfl | simp (disch := decide) only [sub_skip, sub_within, sub_all, bit_skip, bit_within, bit_ofB, Nat.reduceSub])
theorem rol (w : Bool) (g : Bool) (b : Reg) (h : Bool) (a : Reg) (d : Reg) : Statement (.rol w g b h a d) := by
  intro wf e he; cases he; refine decode_word ?_ wf; rw [major_INT]
  exact keep_eq (by dsimp only; (clear wf; revert w; decide)) (by first | rfl | simp (disch := decide) only [sub_skip, sub_within, sub_all, bit_skip, bit_within, bit_ofB, Nat.reduceSub])
theorem ror (w : Bool) (g : Bool) (b : Reg) (h : Bool) (a : Reg) (d : Reg) : Statement (.ror w g b h a d) := by
  intro wf e he; cases he; refine decode_word ?_ wf; rw [major_INT]
  exact keep_eq (by dsimp only; (clear wf; revert w; decide)) (by first | rfl | simp (disch := decide) only [sub_skip, sub_within, sub_all, bit_skip, bit_within, bit_ofB, Nat.reduceSub])
theorem clz (w : Bool) (h : Bool) (a : Reg) (d : Reg) : Statement (.clz w h a d) := by
  intro wf e he; cases he; refine decode_word ?_ wf; rw [major_INT]
  exact keep_eq (by dsimp only; (clear wf; revert w; decide)) (by first | rfl | simp (disch := decide) only [sub_skip, sub_within, sub_all, bit_skip, bit_within, bit_ofB, Nat.reduceSub])
theorem ctz (w : Bool) (h : Bool) (a : Reg) (d : Reg) : Statement (.ctz w h a d) := by
  intro wf e he; cases he; refine decode_word ?_ wf; rw [major_INT]
  exact keep_eq (by dsimp only; (clear wf; revert w; decide)) (by first | rfl | simp (disch := decide) only [sub_skip, sub_within, sub_all, bit_skip, bit_within, bit_ofB, Nat.reduceSub])
theorem popc (w : Bool) (h : Bool) (a : Reg) (d : Reg) : Statement (.popc w h a d) := by
  intro wf e he; cases he; refine decode_word ?_ wf; rw [major_INT]
  exact keep_eq (by dsimp only; (clear wf; revert w; decide)) (by first | rfl | simp (disch := decide) only [sub_skip, sub_within, sub_all, bit_skip, bit_within, bit_ofB, Nat.reduceSub])
theorem bext (z : Bool) (w : Bool) (g : Bool) (b : Reg) (h : Bool) (a : Reg) (d : Reg) : Statement (.bext z w g b h a d) := by
  intro wf e he; cases he; refine decode_word ?_ wf; rw [major_INT]
  exact keep_eq (by dsimp only; (clear wf; revert z w; decide)) (by first | rfl | simp (disch := decide) only [sub_skip, sub_within, sub_all, bit_skip, bit_within, bit_ofB, Nat.reduceSub])
theorem bins (w : Bool) (g : Bool) (b : Reg) (h : Bool) (a : Reg) (d : Reg) : Statement (.bins w g b h a d) := by
  intro wf e he; cases he; refine decode_word ?_ wf; rw [major_INT]
  exact keep_eq (by dsimp only; (clear wf; revert w; decide)) (by first | rfl | simp (disch := decide) only [sub_skip, sub_within, sub_all, bit_skip, bit_within, bit_ofB, Nat.reduceSub])
theorem sext (s : BitVec 2) (w : Bool) (h : Bool) (a : Reg) (d : Reg) : Statement (.sext s w h a d) := by
  intro wf e he; cases he; refine decode_word ?_ wf; rw [major_INT]
  exact keep_eq (by dsimp only; (clear wf; revert s w; decide)) (by first | rfl | simp (disch := decide) only [sub_skip, sub_within, sub_all, bit_skip, bit_within, bit_ofB, Nat.reduceSub])
theorem zext (s : BitVec 2) (w : Bool) (h : Bool) (a : Reg) (d : Reg) : Statement (.zext s w h a d) := by
  intro wf e he; cases he; refine decode_word ?_ wf; rw [major_INT]
  exact keep_eq (by dsimp only; (clear wf; revert s w; decide)) (by first | rfl | simp (disch := decide) only [sub_skip, sub_within, sub_all, bit_skip, bit_within, bit_ofB, Nat.reduceSub])
theorem min (z : Bool) (w : Bool) (g : Bool) (b : Reg) (h : Bool) (a : Reg) (d : Reg) : Statement (.min z w g b h a d) := by
  intro wf e he; cases he; refine decode_word ?_ wf; rw [major_INT]
  exact keep_eq (by dsimp only; (clear wf; revert z w; decide)) (by first | rfl | simp (disch := decide) only [sub_skip, sub_within, sub_all, bit_skip, bit_within, bit_ofB, Nat.reduceSub])
theorem max (z : Bool) (w : Bool) (g : Bool) (b : Reg) (h : Bool) (a : Reg) (d : Reg) : Statement (.max z w g b h a d) := by
  intro wf e he; cases he; refine decode_word ?_ wf; rw [major_INT]
  exact keep_eq (by dsimp only; (clear wf; revert z w; decide)) (by first | rfl | simp (disch := decide) only [sub_skip, sub_within, sub_all, bit_skip, bit_within, bit_ofB, Nat.reduceSub])
theorem abs (w : Bool) (h : Bool) (a : Reg) (d : Reg) : Statement (.abs w h a d) := by
  intro wf e he; cases he; refine decode_word ?_ wf; rw [major_INT]
  exact keep_eq (by dsimp only; (clear wf; revert w; decide)) (by first | rfl | simp (disch := decide) only [sub_skip, sub_within, sub_all, bit_skip, bit_within, bit_ofB, Nat.reduceSub])
theorem mov (w : Bool) (h : Bool) (a : Reg) (d : Reg) : Statement (.mov w h a d) := by
  intro wf e he; cases he; refine decode_word ?_ wf; rw [major_INT]
  exact keep_eq (by dsimp only; (clear wf; revert w; decide)) (by first | rfl | simp (disch := decide) only [sub_skip, sub_within, sub_all, bit_skip, bit_within, bit_ofB, Nat.reduceSub])
theorem sel (p : BitVec 6) (g : Bool) (b : Reg) (h : Bool) (a : Reg) (d : Reg) : Statement (.sel p g b h a d) := by
  intro wf e he; cases he; refine decode_word ?_ wf; rw [major_INT]
  exact keep_eq (by dsimp only; (clear wf; revert p; decide)) (by first | rfl | simp (disch := decide) only [sub_skip, sub_within, sub_all, bit_skip, bit_within, bit_ofB, Nat.reduceSub])
theorem cmp (w : Bool) (p : BitVec 6) (g : Bool) (b : Reg) (h : Bool) (a : Reg) (c : BitVec 3) : Statement (.cmp w p g b h a c) := by
  intro wf e he; cases he; refine decode_word ?_ wf; rw [major_INT]
  exact keep_eq (by dsimp only) (by first | rfl | simp (disch := decide) only [sub_skip, sub_within, sub_all, bit_skip, bit_within, bit_ofB, Nat.reduceSub])
theorem xset (h : Bool) (a : Reg) (d : Reg) : Statement (.xset h a d) := by
  intro wf e he; cases he; refine decode_word ?_ wf; rw [major_INT]
  exact keep_eq (by dsimp only; (clear wf; decide)) (by rfl)
theorem xget (h : Bool) (a : Reg) (d : Reg) : Statement (.xget h a d) := by
  intro wf e he; cases he; refine decode_word ?_ wf; rw [major_INT]
  exact keep_eq (by dsimp only; (clear wf; decide)) (by rfl)
theorem andi (w : Bool) (i : BitVec 12) (h : Bool) (a : Reg) (d : Reg) : Statement (.andi w i h a d) := by
  intro wf e he; cases he; refine decode_word ?_ wf; rw [major_INTI]; simp (disch := decide) only [decodeINTI, keep, sub_skip, sub_within, sub_all, bit_skip, bit_within, bit_ofB, Nat.reduceSub]; rfl
theorem ori (w : Bool) (i : BitVec 12) (h : Bool) (a : Reg) (d : Reg) : Statement (.ori w i h a d) := by
  intro wf e he; cases he; refine decode_word ?_ wf; rw [major_INTI]; simp (disch := decide) only [decodeINTI, keep, sub_skip, sub_within, sub_all, bit_skip, bit_within, bit_ofB, Nat.reduceSub]; rfl
theorem xori (w : Bool) (i : BitVec 12) (h : Bool) (a : Reg) (d : Reg) : Statement (.xori w i h a d) := by
  intro wf e he; cases he; refine decode_word ?_ wf; rw [major_INTI]; simp (disch := decide) only [decodeINTI, keep, sub_skip, sub_within, sub_all, bit_skip, bit_within, bit_ofB, Nat.reduceSub]; rfl
theorem shli (w : Bool) (i : BitVec 8) (h : Bool) (a : Reg) (d : Reg) : Statement (.shli w i h a d) := by
  intro wf e he; cases he; refine decode_word ?_ wf; rw [major_INTI]; simp (disch := decide) only [decodeINTI, keep, sub_skip, sub_within, sub_all, bit_skip, bit_within, bit_ofB, Nat.reduceSub]; rfl
theorem shri (w : Bool) (i : BitVec 8) (h : Bool) (a : Reg) (d : Reg) : Statement (.shri w i h a d) := by
  intro wf e he; cases he; refine decode_word ?_ wf; rw [major_INTI]; simp (disch := decide) only [decodeINTI, keep, sub_skip, sub_within, sub_all, bit_skip, bit_within, bit_ofB, Nat.reduceSub]; rfl
theorem sari (w : Bool) (i : BitVec 8) (h : Bool) (a : Reg) (d : Reg) : Statement (.sari w i h a d) := by
  intro wf e he; cases he; refine decode_word ?_ wf; rw [major_INTI]; simp (disch := decide) only [decodeINTI, keep, sub_skip, sub_within, sub_all, bit_skip, bit_within, bit_ofB, Nat.reduceSub]; rfl
theorem roli (w : Bool) (i : BitVec 8) (h : Bool) (a : Reg) (d : Reg) : Statement (.roli w i h a d) := by
  intro wf e he; cases he; refine decode_word ?_ wf; rw [major_INTI]; simp (disch := decide) only [decodeINTI, keep, sub_skip, sub_within, sub_all, bit_skip, bit_within, bit_ofB, Nat.reduceSub]; rfl
theorem rori (w : Bool) (i : BitVec 8) (h : Bool) (a : Reg) (d : Reg) : Statement (.rori w i h a d) := by
  intro wf e he; cases he; refine decode_word ?_ wf; rw [major_INTI]; simp (disch := decide) only [decodeINTI, keep, sub_skip, sub_within, sub_all, bit_skip, bit_within, bit_ofB, Nat.reduceSub]; rfl
theorem muli (w : Bool) (i : BitVec 12) (h : Bool) (a : Reg) (d : Reg) : Statement (.muli w i h a d) := by
  intro wf e he; cases he; refine decode_word ?_ wf; rw [major_INTI]; simp (disch := decide) only [decodeINTI, keep, sub_skip, sub_within, sub_all, bit_skip, bit_within, bit_ofB, Nat.reduceSub]; rfl
theorem addi (i : BitVec 18) (h : Bool) (a : Reg) (d : Reg) : Statement (.addi i h a d) := by
  intro wf e he; cases he; exact decode_word (by simp (disch := decide) only [decodeMajor, keep, fieldsI_packI, major_packI, sub_skip, sub_within, sub_all, bit_skip, bit_within, bit_ofB, Nat.reduceSub]; rfl) wf
theorem movi (i : BitVec 18) (d : Reg) : Statement (.movi i d) := by
  intro wf e he; cases he; exact decode_word (by simp (disch := decide) only [decodeMajor, keep, fieldsI_packI, major_packI, sub_skip, sub_within, sub_all, bit_skip, bit_within, bit_ofB, Nat.reduceSub]; rfl) wf
theorem movh (i : BitVec 18) (h : Bool) (a : Reg) (d : Reg) : Statement (.movh i h a d) := by
  intro wf e he; cases he; exact decode_word (by simp (disch := decide) only [decodeMajor, keep, fieldsI_packI, major_packI, sub_skip, sub_within, sub_all, bit_skip, bit_within, bit_ofB, Nat.reduceSub]; rfl) wf
theorem cmpi (p : BitVec 6) (i : BitVec 12) (h : Bool) (a : Reg) (c : BitVec 3) : Statement (.cmpi p i h a c) := by
  intro wf e he; cases he; exact decode_word (by simp (disch := decide) only [decodeMajor, keep, fieldsI_packI, major_packI, sub_skip, sub_within, sub_all, bit_skip, bit_within, bit_ofB, Nat.reduceSub]; rfl) wf
theorem padd (l : BitVec 2) (g : Bool) (b : Reg) (h : Bool) (a : Reg) (d : Reg) : Statement (.padd l g b h a d) := by
  intro wf e he; cases he; refine decode_word ?_ wf; rw [major_PACK]
  exact keep_eq (by dsimp only; (clear wf; revert l; decide)) (by first | rfl | simp (disch := decide) only [sub_skip, sub_within, sub_all, bit_skip, bit_within, bit_ofB, Nat.reduceSub])
theorem psub (l : BitVec 2) (g : Bool) (b : Reg) (h : Bool) (a : Reg) (d : Reg) : Statement (.psub l g b h a d) := by
  intro wf e he; cases he; refine decode_word ?_ wf; rw [major_PACK]
  exact keep_eq (by dsimp only; (clear wf; revert l; decide)) (by first | rfl | simp (disch := decide) only [sub_skip, sub_within, sub_all, bit_skip, bit_within, bit_ofB, Nat.reduceSub])
theorem padds (z : Bool) (l : BitVec 2) (g : Bool) (b : Reg) (h : Bool) (a : Reg) (d : Reg) : Statement (.padds z l g b h a d) := by
  intro wf e he; cases he; refine decode_word ?_ wf; rw [major_PACK]
  exact keep_eq (by dsimp only; (clear wf; revert z l; decide)) (by first | rfl | simp (disch := decide) only [sub_skip, sub_within, sub_all, bit_skip, bit_within, bit_ofB, Nat.reduceSub])
theorem psubs (z : Bool) (l : BitVec 2) (g : Bool) (b : Reg) (h : Bool) (a : Reg) (d : Reg) : Statement (.psubs z l g b h a d) := by
  intro wf e he; cases he; refine decode_word ?_ wf; rw [major_PACK]
  exact keep_eq (by dsimp only; (clear wf; revert z l; decide)) (by first | rfl | simp (disch := decide) only [sub_skip, sub_within, sub_all, bit_skip, bit_within, bit_ofB, Nat.reduceSub])
theorem pmul (l : BitVec 2) (g : Bool) (b : Reg) (h : Bool) (a : Reg) (d : Reg) : Statement (.pmul l g b h a d) := by
  intro wf e he; cases he; refine decode_word ?_ wf; rw [major_PACK]
  exact keep_eq (by dsimp only; (clear wf; revert l; decide)) (by first | rfl | simp (disch := decide) only [sub_skip, sub_within, sub_all, bit_skip, bit_within, bit_ofB, Nat.reduceSub])
theorem pmulh (z : Bool) (l : BitVec 2) (g : Bool) (b : Reg) (h : Bool) (a : Reg) (d : Reg) : Statement (.pmulh z l g b h a d) := by
  intro wf e he; cases he; refine decode_word ?_ wf; rw [major_PACK]
  exact keep_eq (by dsimp only; (clear wf; revert z l; decide)) (by first | rfl | simp (disch := decide) only [sub_skip, sub_within, sub_all, bit_skip, bit_within, bit_ofB, Nat.reduceSub])
theorem pdot (z : Bool) (l : BitVec 2) (g : Bool) (b : Reg) (h : Bool) (a : Reg) (d : Reg) : Statement (.pdot z l g b h a d) := by
  intro wf e he; cases he; refine decode_word ?_ wf; rw [major_PACK]
  exact keep_eq (by dsimp only; (clear wf; revert z l; decide)) (by first | rfl | simp (disch := decide) only [sub_skip, sub_within, sub_all, bit_skip, bit_within, bit_ofB, Nat.reduceSub])
theorem pavg (z : Bool) (l : BitVec 2) (g : Bool) (b : Reg) (h : Bool) (a : Reg) (d : Reg) : Statement (.pavg z l g b h a d) := by
  intro wf e he; cases he; refine decode_word ?_ wf; rw [major_PACK]
  exact keep_eq (by dsimp only; (clear wf; revert z l; decide)) (by first | rfl | simp (disch := decide) only [sub_skip, sub_within, sub_all, bit_skip, bit_within, bit_ofB, Nat.reduceSub])
theorem pmin (z : Bool) (l : BitVec 2) (g : Bool) (b : Reg) (h : Bool) (a : Reg) (d : Reg) : Statement (.pmin z l g b h a d) := by
  intro wf e he; cases he; refine decode_word ?_ wf; rw [major_PACK]
  exact keep_eq (by dsimp only; (clear wf; revert z l; decide)) (by first | rfl | simp (disch := decide) only [sub_skip, sub_within, sub_all, bit_skip, bit_within, bit_ofB, Nat.reduceSub])
theorem pmax (z : Bool) (l : BitVec 2) (g : Bool) (b : Reg) (h : Bool) (a : Reg) (d : Reg) : Statement (.pmax z l g b h a d) := by
  intro wf e he; cases he; refine decode_word ?_ wf; rw [major_PACK]
  exact keep_eq (by dsimp only; (clear wf; revert z l; decide)) (by first | rfl | simp (disch := decide) only [sub_skip, sub_within, sub_all, bit_skip, bit_within, bit_ofB, Nat.reduceSub])
theorem pabs (l : BitVec 2) (h : Bool) (a : Reg) (d : Reg) : Statement (.pabs l h a d) := by
  intro wf e he; cases he; refine decode_word ?_ wf; rw [major_PACK]
  exact keep_eq (by dsimp only; (clear wf; revert l; decide)) (by first | rfl | simp (disch := decide) only [sub_skip, sub_within, sub_all, bit_skip, bit_within, bit_ofB, Nat.reduceSub])
theorem psad (z : Bool) (l : BitVec 2) (g : Bool) (b : Reg) (h : Bool) (a : Reg) (d : Reg) : Statement (.psad z l g b h a d) := by
  intro wf e he; cases he; refine decode_word ?_ wf; rw [major_PACK]
  exact keep_eq (by dsimp only; (clear wf; revert z l; decide)) (by first | rfl | simp (disch := decide) only [sub_skip, sub_within, sub_all, bit_skip, bit_within, bit_ofB, Nat.reduceSub])
theorem pclip (z : Bool) (l : BitVec 2) (g : Bool) (b : Reg) (h : Bool) (a : Reg) (d : Reg) : Statement (.pclip z l g b h a d) := by
  intro wf e he; cases he; refine decode_word ?_ wf; rw [major_PACK]
  exact keep_eq (by dsimp only; (clear wf; revert z l; decide)) (by first | rfl | simp (disch := decide) only [sub_skip, sub_within, sub_all, bit_skip, bit_within, bit_ofB, Nat.reduceSub])
theorem pshl (l : BitVec 2) (g : Bool) (b : Reg) (h : Bool) (a : Reg) (d : Reg) : Statement (.pshl l g b h a d) := by
  intro wf e he; cases he; refine decode_word ?_ wf; rw [major_PACK]
  exact keep_eq (by dsimp only; (clear wf; revert l; decide)) (by first | rfl | simp (disch := decide) only [sub_skip, sub_within, sub_all, bit_skip, bit_within, bit_ofB, Nat.reduceSub])
theorem pshr (l : BitVec 2) (g : Bool) (b : Reg) (h : Bool) (a : Reg) (d : Reg) : Statement (.pshr l g b h a d) := by
  intro wf e he; cases he; refine decode_word ?_ wf; rw [major_PACK]
  exact keep_eq (by dsimp only; (clear wf; revert l; decide)) (by first | rfl | simp (disch := decide) only [sub_skip, sub_within, sub_all, bit_skip, bit_within, bit_ofB, Nat.reduceSub])
theorem psar (l : BitVec 2) (g : Bool) (b : Reg) (h : Bool) (a : Reg) (d : Reg) : Statement (.psar l g b h a d) := by
  intro wf e he; cases he; refine decode_word ?_ wf; rw [major_PACK]
  exact keep_eq (by dsimp only; (clear wf; revert l; decide)) (by first | rfl | simp (disch := decide) only [sub_skip, sub_within, sub_all, bit_skip, bit_within, bit_ofB, Nat.reduceSub])
theorem pvshl (l : BitVec 2) (g : Bool) (b : Reg) (h : Bool) (a : Reg) (d : Reg) : Statement (.pvshl l g b h a d) := by
  intro wf e he; cases he; refine decode_word ?_ wf; rw [major_PACK]
  exact keep_eq (by dsimp only; (clear wf; revert l; decide)) (by first | rfl | simp (disch := decide) only [sub_skip, sub_within, sub_all, bit_skip, bit_within, bit_ofB, Nat.reduceSub])
theorem pvshr (l : BitVec 2) (g : Bool) (b : Reg) (h : Bool) (a : Reg) (d : Reg) : Statement (.pvshr l g b h a d) := by
  intro wf e he; cases he; refine decode_word ?_ wf; rw [major_PACK]
  exact keep_eq (by dsimp only; (clear wf; revert l; decide)) (by first | rfl | simp (disch := decide) only [sub_skip, sub_within, sub_all, bit_skip, bit_within, bit_ofB, Nat.reduceSub])
theorem pvsar (l : BitVec 2) (g : Bool) (b : Reg) (h : Bool) (a : Reg) (d : Reg) : Statement (.pvsar l g b h a d) := by
  intro wf e he; cases he; refine decode_word ?_ wf; rw [major_PACK]
  exact keep_eq (by dsimp only; (clear wf; revert l; decide)) (by first | rfl | simp (disch := decide) only [sub_skip, sub_within, sub_all, bit_skip, bit_within, bit_ofB, Nat.reduceSub])
theorem pcmp (k : BitVec 3) (l : BitVec 2) (g : Bool) (b : Reg) (h : Bool) (a : Reg) (c : BitVec 3) : Statement (.pcmp k l g b h a c) := by
  intro wf e he; cases he; refine decode_word ?_ wf; rw [major_PACK]
  exact keep_eq (by dsimp only; (clear wf; revert k l; decide)) (by first | rfl | simp (disch := decide) only [sub_skip, sub_within, sub_all, bit_skip, bit_within, bit_ofB, Nat.reduceSub])
theorem psel (k : BitVec 3) (l : BitVec 2) (g : Bool) (b : Reg) (h : Bool) (a : Reg) (d : Reg) : Statement (.psel k l g b h a d) := by
  intro wf e he; cases he; refine decode_word ?_ wf; rw [major_PACK]
  exact keep_eq (by dsimp only; (clear wf; revert k l; decide)) (by first | rfl | simp (disch := decide) only [sub_skip, sub_within, sub_all, bit_skip, bit_within, bit_ofB, Nat.reduceSub])
theorem pperm (g : Bool) (b : Reg) (h : Bool) (a : Reg) (d : Reg) : Statement (.pperm g b h a d) := by
  intro wf e he; cases he; refine decode_word ?_ wf; rw [major_PACK]
  exact keep_eq (by dsimp only; (clear wf; decide)) (by rfl)
theorem pnarrow (z : Bool) (l : BitVec 2) (g : Bool) (b : Reg) (h : Bool) (a : Reg) (d : Reg) : Statement (.pnarrow z l g b h a d) := by
  intro wf e he; cases he; refine decode_word ?_ wf; rw [major_PACK]
  exact keep_eq (by dsimp only; (clear wf; revert z l; decide)) (by first | rfl | simp (disch := decide) only [sub_skip, sub_within, sub_all, bit_skip, bit_within, bit_ofB, Nat.reduceSub])
theorem pwiden (z : Bool) (l : BitVec 2) (u : Bool) (h : Bool) (a : Reg) (d : Reg) : Statement (.pwiden z l u h a d) := by
  intro wf e he; cases he; refine decode_word ?_ wf; rw [major_PACK]
  exact keep_eq (by dsimp only; (clear wf; revert z l u; decide)) (by first | rfl | simp (disch := decide) only [sub_skip, sub_within, sub_all, bit_skip, bit_within, bit_ofB, Nat.reduceSub])
theorem fadd (g : Bool) (b : Reg) (h : Bool) (a : Reg) (d : Reg) : Statement (.fadd g b h a d) := by
  intro wf e he; cases he; refine decode_word ?_ wf; rw [major_FP]
  exact keep_eq (by dsimp only; (clear wf; decide)) (by rfl)
theorem fsub (g : Bool) (b : Reg) (h : Bool) (a : Reg) (d : Reg) : Statement (.fsub g b h a d) := by
  intro wf e he; cases he; refine decode_word ?_ wf; rw [major_FP]
  exact keep_eq (by dsimp only; (clear wf; decide)) (by rfl)
theorem fmul (g : Bool) (b : Reg) (h : Bool) (a : Reg) (d : Reg) : Statement (.fmul g b h a d) := by
  intro wf e he; cases he; refine decode_word ?_ wf; rw [major_FP]
  exact keep_eq (by dsimp only; (clear wf; decide)) (by rfl)
theorem fma (g : Bool) (b : Reg) (h : Bool) (a : Reg) (d : Reg) : Statement (.fma g b h a d) := by
  intro wf e he; cases he; refine decode_word ?_ wf; rw [major_FP]
  exact keep_eq (by dsimp only; (clear wf; decide)) (by rfl)
theorem fdiv (g : Bool) (b : Reg) (h : Bool) (a : Reg) (d : Reg) : Statement (.fdiv g b h a d) := by
  intro wf e he; cases he; refine decode_word ?_ wf; rw [major_FP]
  exact keep_eq (by dsimp only; (clear wf; decide)) (by rfl)
theorem fsqrt (h : Bool) (a : Reg) (d : Reg) : Statement (.fsqrt h a d) := by
  intro wf e he; cases he; refine decode_word ?_ wf; rw [major_FP]
  exact keep_eq (by dsimp only; (clear wf; decide)) (by rfl)
theorem fmin (g : Bool) (b : Reg) (h : Bool) (a : Reg) (d : Reg) : Statement (.fmin g b h a d) := by
  intro wf e he; cases he; refine decode_word ?_ wf; rw [major_FP]
  exact keep_eq (by dsimp only; (clear wf; decide)) (by rfl)
theorem fmax (g : Bool) (b : Reg) (h : Bool) (a : Reg) (d : Reg) : Statement (.fmax g b h a d) := by
  intro wf e he; cases he; refine decode_word ?_ wf; rw [major_FP]
  exact keep_eq (by dsimp only; (clear wf; decide)) (by rfl)
theorem fcmp (p : BitVec 6) (g : Bool) (b : Reg) (h : Bool) (a : Reg) (c : BitVec 3) : Statement (.fcmp p g b h a c) := by
  intro wf e he; cases he; refine decode_word ?_ wf; rw [major_FP]
  exact keep_eq (by dsimp only; (clear wf; revert p; decide)) (by first | rfl | simp (disch := decide) only [sub_skip, sub_within, sub_all, bit_skip, bit_within, bit_ofB, Nat.reduceSub])
theorem fcvt (f : BitVec 4) (h : Bool) (a : Reg) (d : Reg) : Statement (.fcvt f h a d) := by
  intro wf e he; cases he; refine decode_word ?_ wf; rw [major_FP]
  exact keep_eq (by dsimp only; (clear wf; revert f; decide)) (by first | rfl | simp (disch := decide) only [sub_skip, sub_within, sub_all, bit_skip, bit_within, bit_ofB, Nat.reduceSub])
theorem fclass (p : BitVec 6) (g : Bool) (b : Reg) (h : Bool) (a : Reg) : Statement (.fclass p g b h a) := by
  intro wf e he; cases he; refine decode_word ?_ wf; rw [major_FP]
  exact keep_eq (by dsimp only; (clear wf; revert p; decide)) (by first | rfl | simp (disch := decide) only [sub_skip, sub_within, sub_all, bit_skip, bit_within, bit_ofB, Nat.reduceSub])
theorem pset (n : BitVec 6) : Statement (.pset n) := by
  intro wf e he; cases he; refine decode_word ?_ wf; rw [major_PRED]
  exact keep_eq (by dsimp only; (clear wf; revert n; decide)) (by first | rfl | simp (disch := decide) only [sub_skip, sub_within, sub_all, bit_skip, bit_within, bit_ofB, Nat.reduceSub])
theorem pclr (n : BitVec 6) : Statement (.pclr n) := by
  intro wf e he; cases he; refine decode_word ?_ wf; rw [major_PRED]
  exact keep_eq (by dsimp only; (clear wf; revert n; decide)) (by first | rfl | simp (disch := decide) only [sub_skip, sub_within, sub_all, bit_skip, bit_within, bit_ofB, Nat.reduceSub])
theorem pnot (a : Reg) (d : Reg) : Statement (.pnot a d) := by
  intro wf e he; cases he; refine decode_word ?_ wf; rw [major_PRED]
  exact keep_eq (by dsimp only; (clear wf; decide)) (by rfl)
theorem pand (b : Reg) (a : Reg) (d : Reg) : Statement (.pand b a d) := by
  intro wf e he; cases he; refine decode_word ?_ wf; rw [major_PRED]
  exact keep_eq (by dsimp only; (clear wf; decide)) (by rfl)
theorem por (b : Reg) (a : Reg) (d : Reg) : Statement (.por b a d) := by
  intro wf e he; cases he; refine decode_word ?_ wf; rw [major_PRED]
  exact keep_eq (by dsimp only; (clear wf; decide)) (by rfl)
theorem pxor (b : Reg) (a : Reg) (d : Reg) : Statement (.pxor b a d) := by
  intro wf e he; cases he; refine decode_word ?_ wf; rw [major_PRED]
  exact keep_eq (by dsimp only; (clear wf; decide)) (by rfl)
theorem pwr (d : Reg) : Statement (.pwr d) := by
  intro wf e he; cases he; refine decode_word ?_ wf; rw [major_PRED]
  exact keep_eq (by dsimp only; (clear wf; decide)) (by rfl)
theorem pww (g : Bool) (b : Reg) (h : Bool) (a : Reg) : Statement (.pww g b h a) := by
  intro wf e he; cases he; refine decode_word ?_ wf; rw [major_PRED]
  exact keep_eq (by dsimp only; (clear wf; decide)) (by rfl)
theorem pcnt (h : Bool) (a : Reg) (d : Reg) : Statement (.pcnt h a d) := by
  intro wf e he; cases he; refine decode_word ?_ wf; rw [major_PRED]
  exact keep_eq (by dsimp only; (clear wf; decide)) (by rfl)
theorem ld (k : BitVec 11) (s : BitVec 3) (z : BitVec 3) (h : Bool) (a : Reg) (t : Reg) : Statement (.ld k s z h a t) := by
  intro wf e he; cases he; exact decode_word (by simp (disch := decide) only [decodeMajor, keep, fieldsM_packM, major_packM, sub_skip, sub_within, sub_all, bit_skip, bit_within, bit_ofB, Nat.reduceSub]; rfl) wf
theorem st (k : BitVec 11) (s : BitVec 3) (z : BitVec 3) (f : Bool) (h : Bool) (a : Reg) (t : Reg) : Statement (.st k s z f h a t) := by
  intro wf e he; cases he; exact decode_word (by simp (disch := decide) only [decodeMajor, keep, fieldsM_packM, major_packM, sub_skip, sub_within, sub_all, bit_skip, bit_within, bit_ofB, Nat.reduceSub]; rfl) wf
theorem ldAnchorRel (x : BitVec 5) (y : BitVec 5) (s : BitVec 3) (z : BitVec 3) (h : Bool) (a : Reg) (t : Reg) : Statement (.ldAnchorRel x y s z h a t) := by
  intro wf e he; cases he; exact decode_word (by simp (disch := decide) only [decodeMajor, keep, fieldsM_packM, major_packM, sub_skip, sub_within, sub_all, bit_skip, bit_within, bit_ofB, Nat.reduceSub]; rfl) wf
theorem stAnchorRel (x : BitVec 5) (y : BitVec 5) (s : BitVec 3) (z : BitVec 3) (f : Bool) (h : Bool) (a : Reg) (t : Reg) : Statement (.stAnchorRel x y s z f h a t) := by
  intro wf e he; cases he; exact decode_word (by simp (disch := decide) only [decodeMajor, keep, fieldsM_packM, major_packM, sub_skip, sub_within, sub_all, bit_skip, bit_within, bit_ofB, Nat.reduceSub]; rfl) wf
theorem amoAdd (e : Bool) (o : BitVec 3) (s : BitVec 3) (g : Bool) (b : Reg) (h : Bool) (a : Reg) (d : Reg) : Statement (.amoAdd e o s g b h a d) := by
  intro wf e he; cases he; refine decode_word ?_ wf; rw [major_AMO]
  exact ok_eq (by first | rfl | simp (disch := decide) only [sub_skip, sub_within, sub_all, bit_skip, bit_within, bit_ofB, Nat.reduceSub])
theorem amoAnd (e : Bool) (o : BitVec 3) (s : BitVec 3) (g : Bool) (b : Reg) (h : Bool) (a : Reg) (d : Reg) : Statement (.amoAnd e o s g b h a d) := by
  intro wf e he; cases he; refine decode_word ?_ wf; rw [major_AMO]
  exact ok_eq (by first | rfl | simp (disch := decide) only [sub_skip, sub_within, sub_all, bit_skip, bit_within, bit_ofB, Nat.reduceSub])
theorem amoOr (e : Bool) (o : BitVec 3) (s : BitVec 3) (g : Bool) (b : Reg) (h : Bool) (a : Reg) (d : Reg) : Statement (.amoOr e o s g b h a d) := by
  intro wf e he; cases he; refine decode_word ?_ wf; rw [major_AMO]
  exact ok_eq (by first | rfl | simp (disch := decide) only [sub_skip, sub_within, sub_all, bit_skip, bit_within, bit_ofB, Nat.reduceSub])
theorem amoXor (e : Bool) (o : BitVec 3) (s : BitVec 3) (g : Bool) (b : Reg) (h : Bool) (a : Reg) (d : Reg) : Statement (.amoXor e o s g b h a d) := by
  intro wf e he; cases he; refine decode_word ?_ wf; rw [major_AMO]
  exact ok_eq (by first | rfl | simp (disch := decide) only [sub_skip, sub_within, sub_all, bit_skip, bit_within, bit_ofB, Nat.reduceSub])
theorem amoMinS (e : Bool) (o : BitVec 3) (s : BitVec 3) (g : Bool) (b : Reg) (h : Bool) (a : Reg) (d : Reg) : Statement (.amoMinS e o s g b h a d) := by
  intro wf e he; cases he; refine decode_word ?_ wf; rw [major_AMO]
  exact ok_eq (by first | rfl | simp (disch := decide) only [sub_skip, sub_within, sub_all, bit_skip, bit_within, bit_ofB, Nat.reduceSub])
theorem amoMaxS (e : Bool) (o : BitVec 3) (s : BitVec 3) (g : Bool) (b : Reg) (h : Bool) (a : Reg) (d : Reg) : Statement (.amoMaxS e o s g b h a d) := by
  intro wf e he; cases he; refine decode_word ?_ wf; rw [major_AMO]
  exact ok_eq (by first | rfl | simp (disch := decide) only [sub_skip, sub_within, sub_all, bit_skip, bit_within, bit_ofB, Nat.reduceSub])
theorem amoSwp (e : Bool) (o : BitVec 3) (s : BitVec 3) (g : Bool) (b : Reg) (h : Bool) (a : Reg) (d : Reg) : Statement (.amoSwp e o s g b h a d) := by
  intro wf e he; cases he; refine decode_word ?_ wf; rw [major_AMO]
  exact ok_eq (by first | rfl | simp (disch := decide) only [sub_skip, sub_within, sub_all, bit_skip, bit_within, bit_ofB, Nat.reduceSub])
theorem amoCas (e : Bool) (o : BitVec 3) (s : BitVec 3) (g : Bool) (b : Reg) (h : Bool) (a : Reg) (d : Reg) : Statement (.amoCas e o s g b h a d) := by
  intro wf e he; cases he; refine decode_word ?_ wf; rw [major_AMO]
  exact ok_eq (by first | rfl | simp (disch := decide) only [sub_skip, sub_within, sub_all, bit_skip, bit_within, bit_ofB, Nat.reduceSub])
theorem amoFadd (e : Bool) (o : BitVec 3) (s : BitVec 3) (g : Bool) (b : Reg) (h : Bool) (a : Reg) (d : Reg) : Statement (.amoFadd e o s g b h a d) := by
  intro wf e he; cases he; refine decode_word ?_ wf; rw [major_AMO]
  exact ok_eq (by first | rfl | simp (disch := decide) only [sub_skip, sub_within, sub_all, bit_skip, bit_within, bit_ofB, Nat.reduceSub])
theorem amoMinZ (e : Bool) (o : BitVec 3) (s : BitVec 3) (g : Bool) (b : Reg) (h : Bool) (a : Reg) (d : Reg) : Statement (.amoMinZ e o s g b h a d) := by
  intro wf e he; cases he; refine decode_word ?_ wf; rw [major_AMO]
  exact ok_eq (by first | rfl | simp (disch := decide) only [sub_skip, sub_within, sub_all, bit_skip, bit_within, bit_ofB, Nat.reduceSub])
theorem amoMaxZ (e : Bool) (o : BitVec 3) (s : BitVec 3) (g : Bool) (b : Reg) (h : Bool) (a : Reg) (d : Reg) : Statement (.amoMaxZ e o s g b h a d) := by
  intro wf e he; cases he; refine decode_word ?_ wf; rw [major_AMO]
  exact ok_eq (by first | rfl | simp (disch := decide) only [sub_skip, sub_within, sub_all, bit_skip, bit_within, bit_ofB, Nat.reduceSub])
theorem amoAddPost (e : Bool) (o : BitVec 3) (s : BitVec 3) (g : Bool) (b : Reg) (h : Bool) (a : Reg) : Statement (.amoAddPost e o s g b h a) := by
  intro wf e he; cases he; refine decode_word ?_ wf; rw [major_AMO]
  exact keep_eq (by dsimp only; (clear wf; revert e o s; decide)) (by first | rfl | simp (disch := decide) only [sub_skip, sub_within, sub_all, bit_skip, bit_within, bit_ofB, Nat.reduceSub])
theorem amoAndPost (e : Bool) (o : BitVec 3) (s : BitVec 3) (g : Bool) (b : Reg) (h : Bool) (a : Reg) : Statement (.amoAndPost e o s g b h a) := by
  intro wf e he; cases he; refine decode_word ?_ wf; rw [major_AMO]
  exact keep_eq (by dsimp only; (clear wf; revert e o s; decide)) (by first | rfl | simp (disch := decide) only [sub_skip, sub_within, sub_all, bit_skip, bit_within, bit_ofB, Nat.reduceSub])
theorem amoOrPost (e : Bool) (o : BitVec 3) (s : BitVec 3) (g : Bool) (b : Reg) (h : Bool) (a : Reg) : Statement (.amoOrPost e o s g b h a) := by
  intro wf e he; cases he; refine decode_word ?_ wf; rw [major_AMO]
  exact keep_eq (by dsimp only; (clear wf; revert e o s; decide)) (by first | rfl | simp (disch := decide) only [sub_skip, sub_within, sub_all, bit_skip, bit_within, bit_ofB, Nat.reduceSub])
theorem amoXorPost (e : Bool) (o : BitVec 3) (s : BitVec 3) (g : Bool) (b : Reg) (h : Bool) (a : Reg) : Statement (.amoXorPost e o s g b h a) := by
  intro wf e he; cases he; refine decode_word ?_ wf; rw [major_AMO]
  exact keep_eq (by dsimp only; (clear wf; revert e o s; decide)) (by first | rfl | simp (disch := decide) only [sub_skip, sub_within, sub_all, bit_skip, bit_within, bit_ofB, Nat.reduceSub])
theorem amoMinSPost (e : Bool) (o : BitVec 3) (s : BitVec 3) (g : Bool) (b : Reg) (h : Bool) (a : Reg) : Statement (.amoMinSPost e o s g b h a) := by
  intro wf e he; cases he; refine decode_word ?_ wf; rw [major_AMO]
  exact keep_eq (by dsimp only; (clear wf; revert e o s; decide)) (by first | rfl | simp (disch := decide) only [sub_skip, sub_within, sub_all, bit_skip, bit_within, bit_ofB, Nat.reduceSub])
theorem amoMaxSPost (e : Bool) (o : BitVec 3) (s : BitVec 3) (g : Bool) (b : Reg) (h : Bool) (a : Reg) : Statement (.amoMaxSPost e o s g b h a) := by
  intro wf e he; cases he; refine decode_word ?_ wf; rw [major_AMO]
  exact keep_eq (by dsimp only; (clear wf; revert e o s; decide)) (by first | rfl | simp (disch := decide) only [sub_skip, sub_within, sub_all, bit_skip, bit_within, bit_ofB, Nat.reduceSub])
theorem amoSwpPost (e : Bool) (o : BitVec 3) (s : BitVec 3) (g : Bool) (b : Reg) (h : Bool) (a : Reg) : Statement (.amoSwpPost e o s g b h a) := by
  intro wf e he; cases he; refine decode_word ?_ wf; rw [major_AMO]
  exact keep_eq (by dsimp only; (clear wf; revert e o s; decide)) (by first | rfl | simp (disch := decide) only [sub_skip, sub_within, sub_all, bit_skip, bit_within, bit_ofB, Nat.reduceSub])
theorem amoCasPost (e : Bool) (o : BitVec 3) (s : BitVec 3) (g : Bool) (b : Reg) (h : Bool) (a : Reg) : Statement (.amoCasPost e o s g b h a) := by
  intro wf e he; cases he; refine decode_word ?_ wf; rw [major_AMO]
  exact keep_eq (by dsimp only; (clear wf; revert e o s; decide)) (by first | rfl | simp (disch := decide) only [sub_skip, sub_within, sub_all, bit_skip, bit_within, bit_ofB, Nat.reduceSub])
theorem amoFaddPost (e : Bool) (o : BitVec 3) (s : BitVec 3) (g : Bool) (b : Reg) (h : Bool) (a : Reg) : Statement (.amoFaddPost e o s g b h a) := by
  intro wf e he; cases he; refine decode_word ?_ wf; rw [major_AMO]
  exact keep_eq (by dsimp only; (clear wf; revert e o s; decide)) (by first | rfl | simp (disch := decide) only [sub_skip, sub_within, sub_all, bit_skip, bit_within, bit_ofB, Nat.reduceSub])
theorem amoMinZPost (e : Bool) (o : BitVec 3) (s : BitVec 3) (g : Bool) (b : Reg) (h : Bool) (a : Reg) : Statement (.amoMinZPost e o s g b h a) := by
  intro wf e he; cases he; refine decode_word ?_ wf; rw [major_AMO]
  exact keep_eq (by dsimp only; (clear wf; revert e o s; decide)) (by first | rfl | simp (disch := decide) only [sub_skip, sub_within, sub_all, bit_skip, bit_within, bit_ofB, Nat.reduceSub])
theorem amoMaxZPost (e : Bool) (o : BitVec 3) (s : BitVec 3) (g : Bool) (b : Reg) (h : Bool) (a : Reg) : Statement (.amoMaxZPost e o s g b h a) := by
  intro wf e he; cases he; refine decode_word ?_ wf; rw [major_AMO]
  exact keep_eq (by dsimp only; (clear wf; revert e o s; decide)) (by first | rfl | simp (disch := decide) only [sub_skip, sub_within, sub_all, bit_skip, bit_within, bit_ofB, Nat.reduceSub])
theorem ldN (z : Bool) (u : Bool) (h : Bool) (a : Reg) (d : Reg) : Statement (.ldN z u h a d) := by
  intro wf e he; cases he; refine decode_word ?_ wf; rw [major_MEMX]
  exact keep_eq (by dsimp only; (clear wf; revert z u; decide)) (by first | rfl | simp (disch := decide) only [sub_skip, sub_within, sub_all, bit_skip, bit_within, bit_ofB, Nat.reduceSub])
theorem stN (u : Bool) (g : Bool) (b : Reg) (h : Bool) (a : Reg) : Statement (.stN u g b h a) := by
  intro wf e he; cases he; refine decode_word ?_ wf; rw [major_MEMX]
  exact keep_eq (by dsimp only; (clear wf; revert u; decide)) (by first | rfl | simp (disch := decide) only [sub_skip, sub_within, sub_all, bit_skip, bit_within, bit_ofB, Nat.reduceSub])
theorem pf (l : BitVec 2) (h : Bool) (a : Reg) : Statement (.pf l h a) := by
  intro wf e he; cases he; refine decode_word ?_ wf; rw [major_MEMX]
  exact keep_eq (by dsimp only; (clear wf; revert l; decide)) (by first | rfl | simp (disch := decide) only [sub_skip, sub_within, sub_all, bit_skip, bit_within, bit_ofB, Nat.reduceSub])
theorem cflush (h : Bool) (a : Reg) : Statement (.cflush h a) := by
  intro wf e he; cases he; refine decode_word ?_ wf; rw [major_MEMX]
  exact keep_eq (by dsimp only; (clear wf; decide)) (by rfl)
theorem cinval (h : Bool) (a : Reg) : Statement (.cinval h a) := by
  intro wf e he; cases he; refine decode_word ?_ wf; rw [major_MEMX]
  exact then_eq (by dsimp only; (clear wf; decide)) (by rfl)
theorem cinvalAll : Statement .cinvalAll := by
  intro wf e he; cases he; refine decode_word ?_ wf; rw [major_MEMX]
  exact rfl
theorem fence (k : BitVec 2) (s : BitVec 3) : Statement (.fence k s) := by
  intro wf e he; cases he; refine decode_word ?_ wf; rw [major_MEMX]
  exact keep_eq (by dsimp only; (clear wf; revert k s; decide)) (by first | rfl | simp (disch := decide) only [sub_skip, sub_within, sub_all, bit_skip, bit_within, bit_ofB, Nat.reduceSub])
theorem stv (z : BitVec 2) (g : Bool) (b : Reg) (h : Bool) (a : Reg) (d : Reg) : Statement (.stv z g b h a d) := by
  intro wf e he; cases he; refine decode_word ?_ wf; rw [major_MEMX]
  exact keep_eq (by dsimp only; (clear wf; revert z; decide)) (by first | rfl | simp (disch := decide) only [sub_skip, sub_within, sub_all, bit_skip, bit_within, bit_ofB, Nat.reduceSub])
theorem twait (h : Bool) (a : Reg) : Statement (.twait h a) := by
  intro wf e he; cases he; refine decode_word ?_ wf; rw [major_MEMX]
  exact keep_eq (by dsimp only; (clear wf; decide)) (by rfl)
theorem xld (k : BitVec 7) (h : Bool) (a : Reg) (d : Reg) : Statement (.xld k h a d) := by
  intro wf e he; cases he; refine decode_word ?_ wf; rw [major_MEMX]
  exact keep_eq (by dsimp only; (clear wf; decide)) (by first | rfl | simp (disch := decide) only [sub_skip, sub_within, sub_all, bit_skip, bit_within, bit_ofB, Nat.reduceSub])
theorem semV (s : BitVec 3) (h : Bool) (a : Reg) : Statement (.semV s h a) := by
  intro wf e he; cases he; refine decode_word ?_ wf; rw [major_SYNC]
  exact keep_eq (by dsimp only; (clear wf; revert s; decide)) (by first | rfl | simp (disch := decide) only [sub_skip, sub_within, sub_all, bit_skip, bit_within, bit_ofB, Nat.reduceSub])
theorem semP (s : BitVec 3) (h : Bool) (a : Reg) : Statement (.semP s h a) := by
  intro wf e he; cases he; refine decode_word ?_ wf; rw [major_SYNC]
  exact keep_eq (by dsimp only; (clear wf; revert s; decide)) (by first | rfl | simp (disch := decide) only [sub_skip, sub_within, sub_all, bit_skip, bit_within, bit_ofB, Nat.reduceSub])
theorem jcAdd (s : BitVec 3) (g : Bool) (b : Reg) (h : Bool) (a : Reg) : Statement (.jcAdd s g b h a) := by
  intro wf e he; cases he; refine decode_word ?_ wf; rw [major_SYNC]
  exact keep_eq (by dsimp only; (clear wf; revert s; decide)) (by first | rfl | simp (disch := decide) only [sub_skip, sub_within, sub_all, bit_skip, bit_within, bit_ofB, Nat.reduceSub])
theorem jcWait (g : Bool) (b : Reg) (h : Bool) (a : Reg) : Statement (.jcWait g b h a) := by
  intro wf e he; cases he; refine decode_word ?_ wf; rw [major_SYNC]
  exact keep_eq (by dsimp only; (clear wf; decide)) (by rfl)
theorem waitMem (t : BitVec 4) (g : Bool) (b : Reg) (h : Bool) (a : Reg) (d : Reg) : Statement (.waitMem t g b h a d) := by
  intro wf e he; cases he; refine decode_word ?_ wf; rw [major_SYNC]
  exact keep_eq (by dsimp only; (clear wf; revert t; decide)) (by first | rfl | simp (disch := decide) only [sub_skip, sub_within, sub_all, bit_skip, bit_within, bit_ofB, Nat.reduceSub])
theorem yield : Statement .yield := by
  intro wf e he; cases he; refine decode_word ?_ wf; rw [major_SYNC]
  exact keep_eq (by dsimp only; (clear wf; decide)) (by rfl)
theorem exit : Statement .exit := by
  intro wf e he; cases he; refine decode_word ?_ wf; rw [major_SYNC]
  exact keep_eq (by dsimp only; (clear wf; decide)) (by rfl)
theorem spawn (g : Bool) (b : Reg) (h : Bool) (a : Reg) (d : Reg) : Statement (.spawn g b h a d) := by
  intro wf e he; cases he; refine decode_word ?_ wf; rw [major_SYNC]
  exact then_eq (by dsimp only; (clear wf; decide)) (by rfl)
theorem spawnDef (g : Bool) (b : Reg) (h : Bool) (a : Reg) (d : Reg) : Statement (.spawnDef g b h a d) := by
  intro wf e he; cases he; refine decode_word ?_ wf; rw [major_SYNC]
  exact else_eq (by dsimp only; (clear wf; decide)) (keep_eq (by dsimp only; (clear wf; decide)) (by rfl))
theorem chunkInit (c : BitVec 4) (g : Bool) (b : Reg) (h : Bool) (a : Reg) : Statement (.chunkInit c g b h a) := by
  intro wf e he; cases he; refine decode_word ?_ wf; rw [major_SYNC]
  exact keep_eq (by dsimp only; (clear wf; revert c; decide)) (by first | rfl | simp (disch := decide) only [sub_skip, sub_within, sub_all, bit_skip, bit_within, bit_ofB, Nat.reduceSub])
theorem chunk (c : BitVec 4) (d : Reg) : Statement (.chunk c d) := by
  intro wf e he; cases he; refine decode_word ?_ wf; rw [major_SYNC]
  exact keep_eq (by dsimp only; (clear wf; revert c; decide)) (by first | rfl | simp (disch := decide) only [sub_skip, sub_within, sub_all, bit_skip, bit_within, bit_ofB, Nat.reduceSub])
theorem barCfg (n : BitVec 2) (g : Bool) (b : Reg) (h : Bool) (a : Reg) : Statement (.barCfg n g b h a) := by
  intro wf e he; cases he; refine decode_word ?_ wf; rw [major_SYNC]
  exact keep_eq (by dsimp only; (clear wf; revert n; decide)) (by first | rfl | simp (disch := decide) only [sub_skip, sub_within, sub_all, bit_skip, bit_within, bit_ofB, Nat.reduceSub])
theorem barArr (n : BitVec 2) (d : Reg) : Statement (.barArr n d) := by
  intro wf e he; cases he; refine decode_word ?_ wf; rw [major_SYNC]
  exact keep_eq (by dsimp only; (clear wf; revert n; decide)) (by first | rfl | simp (disch := decide) only [sub_skip, sub_within, sub_all, bit_skip, bit_within, bit_ofB, Nat.reduceSub])
theorem barWait (n : BitVec 2) (h : Bool) (a : Reg) : Statement (.barWait n h a) := by
  intro wf e he; cases he; refine decode_word ?_ wf; rw [major_SYNC]
  exact keep_eq (by dsimp only; (clear wf; revert n; decide)) (by first | rfl | simp (disch := decide) only [sub_skip, sub_within, sub_all, bit_skip, bit_within, bit_ofB, Nat.reduceSub])
theorem barTest (f : Bool) (n : BitVec 2) (h : Bool) (a : Reg) (d : Reg) : Statement (.barTest f n h a d) := by
  intro wf e he; cases he; refine decode_word ?_ wf; rw [major_SYNC]
  exact keep_eq (by dsimp only; (clear wf; revert f n; decide)) (by first | rfl | simp (disch := decide) only [sub_skip, sub_within, sub_all, bit_skip, bit_within, bit_ofB, Nat.reduceSub])
theorem ksend (n : BitVec 2) (g : Bool) (b : Reg) (h : Bool) (a : Reg) : Statement (.ksend n g b h a) := by
  intro wf e he; cases he; refine decode_word ?_ wf; rw [major_SYNC]
  exact keep_eq (by dsimp only; (clear wf; revert n; decide)) (by first | rfl | simp (disch := decide) only [sub_skip, sub_within, sub_all, bit_skip, bit_within, bit_ofB, Nat.reduceSub])
theorem kbinCfg (n : BitVec 2) (g : Bool) (b : Reg) (h : Bool) (a : Reg) : Statement (.kbinCfg n g b h a) := by
  intro wf e he; cases he; refine decode_word ?_ wf; rw [major_SYNC]
  exact keep_eq (by dsimp only; (clear wf; revert n; decide)) (by first | rfl | simp (disch := decide) only [sub_skip, sub_within, sub_all, bit_skip, bit_within, bit_ofB, Nat.reduceSub])
theorem idr (s : BitVec 3) (d : Reg) : Statement (.idr s d) := by
  intro wf e he; cases he; refine decode_word ?_ wf; rw [major_SYNC]
  exact keep_eq (by dsimp only; (clear wf; revert s; decide)) (by first | rfl | simp (disch := decide) only [sub_skip, sub_within, sub_all, bit_skip, bit_within, bit_ofB, Nat.reduceSub])
theorem gtime (d : Reg) : Statement (.gtime d) := by
  intro wf e he; cases he; refine decode_word ?_ wf; rw [major_SYNC]
  exact then_eq (by dsimp only; (clear wf; decide)) (by rfl)
theorem gtimeLk (d : Reg) : Statement (.gtimeLk d) := by
  intro wf e he; cases he; refine decode_word ?_ wf; rw [major_SYNC]
  exact else_eq (by dsimp only; (clear wf; decide)) (keep_eq (by dsimp only; (clear wf; decide)) (by rfl))
theorem cyc (d : Reg) : Statement (.cyc d) := by
  intro wf e he; cases he; refine decode_word ?_ wf; rw [major_SYNC]
  exact then_eq (by dsimp only; (clear wf; decide)) (by rfl)
theorem cycT (d : Reg) : Statement (.cycT d) := by
  intro wf e he; cases he; refine decode_word ?_ wf; rw [major_SYNC]
  exact else_eq (by dsimp only; (clear wf; decide)) (keep_eq (by dsimp only; (clear wf; decide)) (by rfl))
theorem launch (h : Bool) (a : Reg) (d : Reg) : Statement (.launch h a d) := by
  intro wf e he; cases he; refine decode_word ?_ wf; rw [major_SYNC]
  exact keep_eq (by dsimp only; (clear wf; decide)) (by rfl)
theorem talloc (h : Bool) (a : Reg) (d : Reg) : Statement (.talloc h a d) := by
  intro wf e he; cases he; refine decode_word ?_ wf; rw [major_TILE]
  exact keep_eq (by dsimp only; (clear wf; decide)) (by rfl)
theorem tfree (h : Bool) (a : Reg) : Statement (.tfree h a) := by
  intro wf e he; cases he; refine decode_word ?_ wf; rw [major_TILE]
  exact keep_eq (by dsimp only; (clear wf; decide)) (by rfl)
theorem tview (g : Bool) (b : Reg) (h : Bool) (a : Reg) (d : Reg) : Statement (.tview g b h a d) := by
  intro wf e he; cases he; refine decode_word ?_ wf; rw [major_TILE]
  exact keep_eq (by dsimp only; (clear wf; decide)) (by rfl)
theorem tinfo (h : Bool) (a : Reg) (d : Reg) : Statement (.tinfo h a d) := by
  intro wf e he; cases he; refine decode_word ?_ wf; rw [major_TILE]
  exact keep_eq (by dsimp only; (clear wf; decide)) (by rfl)
theorem tget (h : Bool) (a : Reg) (d : Reg) : Statement (.tget h a d) := by
  intro wf e he; cases he; refine decode_word ?_ wf; rw [major_TILE]
  exact keep_eq (by dsimp only; (clear wf; decide)) (by rfl)
theorem tset (g : Bool) (b : Reg) (h : Bool) (a : Reg) : Statement (.tset g b h a) := by
  intro wf e he; cases he; refine decode_word ?_ wf; rw [major_TILE]
  exact keep_eq (by dsimp only; (clear wf; decide)) (by rfl)
theorem vfence : Statement .vfence := by
  intro wf e he; cases he; refine decode_word ?_ wf; rw [major_TILE]
  exact keep_eq (by dsimp only; (clear wf; decide)) (by rfl)
theorem vbusy (d : Reg) : Statement (.vbusy d) := by
  intro wf e he; cases he; refine decode_word ?_ wf; rw [major_TILE]
  exact keep_eq (by dsimp only; (clear wf; decide)) (by rfl)
theorem vadd (g : Bool) (b : Reg) (h : Bool) (a : Reg) (j : Bool) (f : Bool) : Statement (.vadd g b h a j f) := by
  intro wf e he; cases he; refine decode_word ?_ wf; rw [major_TASK]
  exact keep_eq (by dsimp only; (clear wf; revert j f; decide)) (by first | rfl | simp (disch := decide) only [sub_skip, sub_within, sub_all, bit_skip, bit_within, bit_ofB, Nat.reduceSub])
theorem vsub (g : Bool) (b : Reg) (h : Bool) (a : Reg) (j : Bool) (f : Bool) : Statement (.vsub g b h a j f) := by
  intro wf e he; cases he; refine decode_word ?_ wf; rw [major_TASK]
  exact keep_eq (by dsimp only; (clear wf; revert j f; decide)) (by first | rfl | simp (disch := decide) only [sub_skip, sub_within, sub_all, bit_skip, bit_within, bit_ofB, Nat.reduceSub])
theorem vmul (g : Bool) (b : Reg) (h : Bool) (a : Reg) (j : Bool) (f : Bool) : Statement (.vmul g b h a j f) := by
  intro wf e he; cases he; refine decode_word ?_ wf; rw [major_TASK]
  exact keep_eq (by dsimp only; (clear wf; revert j f; decide)) (by first | rfl | simp (disch := decide) only [sub_skip, sub_within, sub_all, bit_skip, bit_within, bit_ofB, Nat.reduceSub])
theorem vfma (g : Bool) (b : Reg) (h : Bool) (a : Reg) (j : Bool) (f : Bool) : Statement (.vfma g b h a j f) := by
  intro wf e he; cases he; refine decode_word ?_ wf; rw [major_TASK]
  exact keep_eq (by dsimp only; (clear wf; revert j f; decide)) (by first | rfl | simp (disch := decide) only [sub_skip, sub_within, sub_all, bit_skip, bit_within, bit_ofB, Nat.reduceSub])
theorem vmin (g : Bool) (b : Reg) (h : Bool) (a : Reg) (j : Bool) (f : Bool) : Statement (.vmin g b h a j f) := by
  intro wf e he; cases he; refine decode_word ?_ wf; rw [major_TASK]
  exact keep_eq (by dsimp only; (clear wf; revert j f; decide)) (by first | rfl | simp (disch := decide) only [sub_skip, sub_within, sub_all, bit_skip, bit_within, bit_ofB, Nat.reduceSub])
theorem vmax (g : Bool) (b : Reg) (h : Bool) (a : Reg) (j : Bool) (f : Bool) : Statement (.vmax g b h a j f) := by
  intro wf e he; cases he; refine decode_word ?_ wf; rw [major_TASK]
  exact keep_eq (by dsimp only; (clear wf; revert j f; decide)) (by first | rfl | simp (disch := decide) only [sub_skip, sub_within, sub_all, bit_skip, bit_within, bit_ofB, Nat.reduceSub])
theorem vabs (h : Bool) (a : Reg) (j : Bool) (f : Bool) : Statement (.vabs h a j f) := by
  intro wf e he; cases he; refine decode_word ?_ wf; rw [major_TASK]
  exact keep_eq (by dsimp only; (clear wf; revert j f; decide)) (by first | rfl | simp (disch := decide) only [sub_skip, sub_within, sub_all, bit_skip, bit_within, bit_ofB, Nat.reduceSub])
theorem vneg (h : Bool) (a : Reg) (j : Bool) (f : Bool) : Statement (.vneg h a j f) := by
  intro wf e he; cases he; refine decode_word ?_ wf; rw [major_TASK]
  exact keep_eq (by dsimp only; (clear wf; revert j f; decide)) (by first | rfl | simp (disch := decide) only [sub_skip, sub_within, sub_all, bit_skip, bit_within, bit_ofB, Nat.reduceSub])
theorem vexp2 (h : Bool) (a : Reg) (j : Bool) (f : Bool) : Statement (.vexp2 h a j f) := by
  intro wf e he; cases he; refine decode_word ?_ wf; rw [major_TASK]
  exact keep_eq (by dsimp only; (clear wf; revert j f; decide)) (by first | rfl | simp (disch := decide) only [sub_skip, sub_within, sub_all, bit_skip, bit_within, bit_ofB, Nat.reduceSub])
theorem vlog2 (h : Bool) (a : Reg) (j : Bool) (f : Bool) : Statement (.vlog2 h a j f) := by
  intro wf e he; cases he; refine decode_word ?_ wf; rw [major_TASK]
  exact keep_eq (by dsimp only; (clear wf; revert j f; decide)) (by first | rfl | simp (disch := decide) only [sub_skip, sub_within, sub_all, bit_skip, bit_within, bit_ofB, Nat.reduceSub])
theorem vrcp (h : Bool) (a : Reg) (j : Bool) (f : Bool) : Statement (.vrcp h a j f) := by
  intro wf e he; cases he; refine decode_word ?_ wf; rw [major_TASK]
  exact keep_eq (by dsimp only; (clear wf; revert j f; decide)) (by first | rfl | simp (disch := decide) only [sub_skip, sub_within, sub_all, bit_skip, bit_within, bit_ofB, Nat.reduceSub])
theorem vrsqrt (h : Bool) (a : Reg) (j : Bool) (f : Bool) : Statement (.vrsqrt h a j f) := by
  intro wf e he; cases he; refine decode_word ?_ wf; rw [major_TASK]
  exact keep_eq (by dsimp only; (clear wf; revert j f; decide)) (by first | rfl | simp (disch := decide) only [sub_skip, sub_within, sub_all, bit_skip, bit_within, bit_ofB, Nat.reduceSub])
theorem vtanh (h : Bool) (a : Reg) (j : Bool) (f : Bool) : Statement (.vtanh h a j f) := by
  intro wf e he; cases he; refine decode_word ?_ wf; rw [major_TASK]
  exact keep_eq (by dsimp only; (clear wf; revert j f; decide)) (by first | rfl | simp (disch := decide) only [sub_skip, sub_within, sub_all, bit_skip, bit_within, bit_ofB, Nat.reduceSub])
theorem vcvt (h : Bool) (a : Reg) (j : Bool) (f : Bool) : Statement (.vcvt h a j f) := by
  intro wf e he; cases he; refine decode_word ?_ wf; rw [major_TASK]
  exact keep_eq (by dsimp only; (clear wf; revert j f; decide)) (by first | rfl | simp (disch := decide) only [sub_skip, sub_within, sub_all, bit_skip, bit_within, bit_ofB, Nat.reduceSub])
theorem vcmp (c : BitVec 3) (g : Bool) (b : Reg) (h : Bool) (a : Reg) (j : Bool) (f : Bool) : Statement (.vcmp c g b h a j f) := by
  intro wf e he; cases he; refine decode_word ?_ wf; rw [major_TASK]
  exact keep_eq (by dsimp only; (clear wf; revert c j f; decide)) (by first | rfl | simp (disch := decide) only [sub_skip, sub_within, sub_all, bit_skip, bit_within, bit_ofB, Nat.reduceSub])
theorem vsel (g : Bool) (b : Reg) (h : Bool) (a : Reg) (j : Bool) (f : Bool) : Statement (.vsel g b h a j f) := by
  intro wf e he; cases he; refine decode_word ?_ wf; rw [major_TASK]
  exact keep_eq (by dsimp only; (clear wf; revert j f; decide)) (by first | rfl | simp (disch := decide) only [sub_skip, sub_within, sub_all, bit_skip, bit_within, bit_ofB, Nat.reduceSub])
theorem vrowred (r : BitVec 2) (h : Bool) (a : Reg) (j : Bool) (f : Bool) : Statement (.vrowred r h a j f) := by
  intro wf e he; cases he; refine decode_word ?_ wf; rw [major_TASK]
  exact keep_eq (by dsimp only; (clear wf; revert r j f; decide)) (by first | rfl | simp (disch := decide) only [sub_skip, sub_within, sub_all, bit_skip, bit_within, bit_ofB, Nat.reduceSub])
theorem vcolred (r : BitVec 2) (h : Bool) (a : Reg) (j : Bool) (f : Bool) : Statement (.vcolred r h a j f) := by
  intro wf e he; cases he; refine decode_word ?_ wf; rw [major_TASK]
  exact keep_eq (by dsimp only; (clear wf; revert r j f; decide)) (by first | rfl | simp (disch := decide) only [sub_skip, sub_within, sub_all, bit_skip, bit_within, bit_ofB, Nat.reduceSub])
theorem vbcast (w : Bool) (h : Bool) (a : Reg) (j : Bool) (f : Bool) : Statement (.vbcast w h a j f) := by
  intro wf e he; cases he; refine decode_word ?_ wf; rw [major_TASK]
  exact keep_eq (by dsimp only; (clear wf; revert w j f; decide)) (by first | rfl | simp (disch := decide) only [sub_skip, sub_within, sub_all, bit_skip, bit_within, bit_ofB, Nat.reduceSub])
theorem vtrans (h : Bool) (a : Reg) (j : Bool) (f : Bool) : Statement (.vtrans h a j f) := by
  intro wf e he; cases he; refine decode_word ?_ wf; rw [major_TASK]
  exact keep_eq (by dsimp only; (clear wf; revert j f; decide)) (by first | rfl | simp (disch := decide) only [sub_skip, sub_within, sub_all, bit_skip, bit_within, bit_ofB, Nat.reduceSub])
theorem vscale (x : Bool) (h : Bool) (a : Reg) (j : Bool) (f : Bool) : Statement (.vscale x h a j f) := by
  intro wf e he; cases he; refine decode_word ?_ wf; rw [major_TASK]
  exact keep_eq (by dsimp only; (clear wf; revert x j f; decide)) (by first | rfl | simp (disch := decide) only [sub_skip, sub_within, sub_all, bit_skip, bit_within, bit_ofB, Nat.reduceSub])
theorem vquant (h : Bool) (a : Reg) (j : Bool) (f : Bool) : Statement (.vquant h a j f) := by
  intro wf e he; cases he; refine decode_word ?_ wf; rw [major_TASK]
  exact keep_eq (by dsimp only; (clear wf; revert j f; decide)) (by first | rfl | simp (disch := decide) only [sub_skip, sub_within, sub_all, bit_skip, bit_within, bit_ofB, Nat.reduceSub])
theorem vshl (v : Bool) (g : Bool) (b : Reg) (h : Bool) (a : Reg) (j : Bool) (f : Bool) : Statement (.vshl v g b h a j f) := by
  intro wf e he; cases he; refine decode_word ?_ wf; rw [major_TASK]
  exact keep_eq (by dsimp only; (change (v || (!g && b == 0)) = true at wf; revert v g b j f; decide)) (by first | rfl | simp (disch := decide) only [sub_skip, sub_within, sub_all, bit_skip, bit_within, bit_ofB, Nat.reduceSub])
theorem vshr (v : Bool) (g : Bool) (b : Reg) (h : Bool) (a : Reg) (j : Bool) (f : Bool) : Statement (.vshr v g b h a j f) := by
  intro wf e he; cases he; refine decode_word ?_ wf; rw [major_TASK]
  exact keep_eq (by dsimp only; (change (v || (!g && b == 0)) = true at wf; revert v g b j f; decide)) (by first | rfl | simp (disch := decide) only [sub_skip, sub_within, sub_all, bit_skip, bit_within, bit_ofB, Nat.reduceSub])
theorem vsar (v : Bool) (g : Bool) (b : Reg) (h : Bool) (a : Reg) (j : Bool) (f : Bool) : Statement (.vsar v g b h a j f) := by
  intro wf e he; cases he; refine decode_word ?_ wf; rw [major_TASK]
  exact keep_eq (by dsimp only; (change (v || (!g && b == 0)) = true at wf; revert v g b j f; decide)) (by first | rfl | simp (disch := decide) only [sub_skip, sub_within, sub_all, bit_skip, bit_within, bit_ofB, Nat.reduceSub])
theorem vclamp (h : Bool) (a : Reg) (j : Bool) (f : Bool) : Statement (.vclamp h a j f) := by
  intro wf e he; cases he; refine decode_word ?_ wf; rw [major_TASK]
  exact keep_eq (by dsimp only; (clear wf; revert j f; decide)) (by first | rfl | simp (disch := decide) only [sub_skip, sub_within, sub_all, bit_skip, bit_within, bit_ofB, Nat.reduceSub])
theorem vmov (h : Bool) (a : Reg) (j : Bool) (f : Bool) : Statement (.vmov h a j f) := by
  intro wf e he; cases he; refine decode_word ?_ wf; rw [major_TASK]
  exact keep_eq (by dsimp only; (clear wf; revert j f; decide)) (by first | rfl | simp (disch := decide) only [sub_skip, sub_within, sub_all, bit_skip, bit_within, bit_ofB, Nat.reduceSub])
theorem vfill (h : Bool) (a : Reg) (j : Bool) (f : Bool) : Statement (.vfill h a j f) := by
  intro wf e he; cases he; refine decode_word ?_ wf; rw [major_TASK]
  exact keep_eq (by dsimp only; (clear wf; revert j f; decide)) (by first | rfl | simp (disch := decide) only [sub_skip, sub_within, sub_all, bit_skip, bit_within, bit_ofB, Nat.reduceSub])
theorem vmask (t : Bool) (h : Bool) (a : Reg) (j : Bool) (f : Bool) : Statement (.vmask t h a j f) := by
  intro wf e he; cases he; refine decode_word ?_ wf; rw [major_TASK]
  exact keep_eq (by dsimp only; (clear wf; revert t j f; decide)) (by first | rfl | simp (disch := decide) only [sub_skip, sub_within, sub_all, bit_skip, bit_within, bit_ofB, Nat.reduceSub])
theorem mma (r : Bool) (s : Bool) (y : Bool) (x : Bool) (g : Bool) (b : Reg) (h : Bool) (a : Reg) (j : Bool) (f : Bool) : Statement (.mma r s y x g b h a j f) := by
  intro wf e he; cases he; refine decode_word ?_ wf; rw [major_TASK]
  exact keep_eq (by dsimp only; (clear wf; revert r s y x j f; decide)) (by first | rfl | simp (disch := decide) only [sub_skip, sub_within, sub_all, bit_skip, bit_within, bit_ofB, Nat.reduceSub])
theorem mdrain (g : Bool) (b : Reg) (h : Bool) (a : Reg) (j : Bool) (f : Bool) : Statement (.mdrain g b h a j f) := by
  intro wf e he; cases he; refine decode_word ?_ wf; rw [major_TASK]
  exact keep_eq (by dsimp only; (clear wf; revert j f; decide)) (by first | rfl | simp (disch := decide) only [sub_skip, sub_within, sub_all, bit_skip, bit_within, bit_ofB, Nat.reduceSub])
theorem cpyMt (g : Bool) (b : Reg) (h : Bool) (a : Reg) (j : Bool) (f : Bool) : Statement (.cpyMt g b h a j f) := by
  intro wf e he; cases he; refine decode_word ?_ wf; rw [major_TASK]
  exact then_eq (by dsimp only; (clear wf; revert j f; decide)) (by first | rfl | simp (disch := decide) only [sub_skip, sub_within, sub_all, bit_skip, bit_within, bit_ofB, Nat.reduceSub])
theorem cpyTm (g : Bool) (b : Reg) (h : Bool) (a : Reg) (j : Bool) (f : Bool) : Statement (.cpyTm g b h a j f) := by
  intro wf e he; cases he; refine decode_word ?_ wf; rw [major_TASK]
  exact else_eq (by dsimp only; (clear wf; revert j f; decide)) (then_eq (by dsimp only; (clear wf; revert j f; decide)) (by first | rfl | simp (disch := decide) only [sub_skip, sub_within, sub_all, bit_skip, bit_within, bit_ofB, Nat.reduceSub]))
theorem cpyMm (g : Bool) (b : Reg) (h : Bool) (a : Reg) (j : Bool) (f : Bool) : Statement (.cpyMm g b h a j f) := by
  intro wf e he; cases he; refine decode_word ?_ wf; rw [major_TASK]
  exact else_eq (by dsimp only; (clear wf; revert j f; decide)) (else_eq (by dsimp only; (clear wf; revert j f; decide)) (keep_eq (by dsimp only; (clear wf; revert j f; decide)) (by first | rfl | simp (disch := decide) only [sub_skip, sub_within, sub_all, bit_skip, bit_within, bit_ofB, Nat.reduceSub])))
theorem gath (g : Bool) (b : Reg) (h : Bool) (a : Reg) (j : Bool) (f : Bool) : Statement (.gath g b h a j f) := by
  intro wf e he; cases he; refine decode_word ?_ wf; rw [major_TASK]
  exact keep_eq (by dsimp only; (clear wf; revert j f; decide)) (by first | rfl | simp (disch := decide) only [sub_skip, sub_within, sub_all, bit_skip, bit_within, bit_ofB, Nat.reduceSub])
theorem scat (g : Bool) (b : Reg) (h : Bool) (a : Reg) (j : Bool) (f : Bool) : Statement (.scat g b h a j f) := by
  intro wf e he; cases he; refine decode_word ?_ wf; rw [major_TASK]
  exact keep_eq (by dsimp only; (clear wf; revert j f; decide)) (by first | rfl | simp (disch := decide) only [sub_skip, sub_within, sub_all, bit_skip, bit_within, bit_ofB, Nat.reduceSub])
theorem trgen (d : Reg) : Statement (.trgen d) := by
  intro wf e he; cases he; refine decode_word ?_ wf; rw [major_TRACE]
  exact keep_eq (by dsimp only; (clear wf; decide)) (by rfl)
theorem relaunch (g : Bool) (b : Reg) (h : Bool) (a : Reg) (d : Reg) : Statement (.relaunch g b h a d) := by
  intro wf e he; cases he; refine decode_word ?_ wf; rw [major_TRACE]
  exact keep_eq (by dsimp only; (clear wf; decide)) (by rfl)
theorem relaunchRepair (g : Bool) (b : Reg) (h : Bool) (a : Reg) (d : Reg) : Statement (.relaunchRepair g b h a d) := by
  intro wf e he; cases he; refine decode_word ?_ wf; rw [major_TRACE]
  exact keep_eq (by dsimp only; (clear wf; decide)) (by rfl)
theorem trstat (d : Reg) : Statement (.trstat d) := by
  intro wf e he; cases he; refine decode_word ?_ wf; rw [major_TRACE]
  exact keep_eq (by dsimp only; (clear wf; decide)) (by rfl)
theorem dmread (h : Bool) (a : Reg) (d : Reg) : Statement (.dmread h a d) := by
  intro wf e he; cases he; refine decode_word ?_ wf; rw [major_TRACE]
  exact keep_eq (by dsimp only; (clear wf; decide)) (by rfl)
theorem dmmark (p : Bool) (l : Bool) (g : Bool) (b : Reg) (h : Bool) (a : Reg) : Statement (.dmmark p l g b h a) := by
  intro wf e he; cases he; refine decode_word ?_ wf; rw [major_TRACE]
  exact keep_eq (by dsimp only; (clear wf; revert p l; decide)) (by first | rfl | simp (disch := decide) only [sub_skip, sub_within, sub_all, bit_skip, bit_within, bit_ofB, Nat.reduceSub])
theorem sys (n : BitVec 7) : Statement (.sys n) := by
  intro wf e he; cases he; refine decode_word ?_ wf; rw [major_SYS]
  exact keep_eq (by dsimp only; (clear wf; revert n; decide)) (by first | rfl | simp (disch := decide) only [sub_skip, sub_within, sub_all, bit_skip, bit_within, bit_ofB, Nat.reduceSub])
theorem eret : Statement .eret := by
  intro wf e he; cases he; refine decode_word ?_ wf; rw [major_SYS]
  exact keep_eq (by dsimp only; (clear wf; decide)) (by rfl)
theorem srd (n : BitVec 7) (d : Reg) : Statement (.srd n d) := by
  intro wf e he; cases he; refine decode_word ?_ wf; rw [major_SYS]
  exact keep_eq (by dsimp only; (clear wf; revert n; decide)) (by first | rfl | simp (disch := decide) only [sub_skip, sub_within, sub_all, bit_skip, bit_within, bit_ofB, Nat.reduceSub])
theorem swr (n : BitVec 7) (h : Bool) (a : Reg) : Statement (.swr n h a) := by
  intro wf e he; cases he; refine decode_word ?_ wf; rw [major_SYS]
  exact keep_eq (by dsimp only; (clear wf; revert n; decide)) (by first | rfl | simp (disch := decide) only [sub_skip, sub_within, sub_all, bit_skip, bit_within, bit_ofB, Nat.reduceSub])
theorem ctxLd (i : BitVec 4) (h : Bool) (a : Reg) (d : Reg) : Statement (.ctxLd i h a d) := by
  intro wf e he; cases he; refine decode_word ?_ wf; rw [major_SYS]
  exact keep_eq (by dsimp only; (clear wf; revert i; decide)) (by first | rfl | simp (disch := decide) only [sub_skip, sub_within, sub_all, bit_skip, bit_within, bit_ofB, Nat.reduceSub])
theorem ctxSt (i : BitVec 4) (g : Bool) (b : Reg) (h : Bool) (a : Reg) (d : Reg) : Statement (.ctxSt i g b h a d) := by
  intro wf e he; cases he; refine decode_word ?_ wf; rw [major_SYS]
  exact keep_eq (by dsimp only; (clear wf; revert i; decide)) (by first | rfl | simp (disch := decide) only [sub_skip, sub_within, sub_all, bit_skip, bit_within, bit_ofB, Nat.reduceSub])
theorem ctxReady (h : Bool) (a : Reg) (d : Reg) : Statement (.ctxReady h a d) := by
  intro wf e he; cases he; refine decode_word ?_ wf; rw [major_SYS]
  exact keep_eq (by dsimp only; (clear wf; decide)) (by rfl)
theorem ctxEvict (l : Bool) (h : Bool) (a : Reg) (d : Reg) : Statement (.ctxEvict l h a d) := by
  intro wf e he; cases he; refine decode_word ?_ wf; rw [major_SYS]
  exact keep_eq (by dsimp only; (clear wf; revert l; decide)) (by first | rfl | simp (disch := decide) only [sub_skip, sub_within, sub_all, bit_skip, bit_within, bit_ofB, Nat.reduceSub])
theorem ctxPark (h : Bool) (a : Reg) (d : Reg) : Statement (.ctxPark h a d) := by
  intro wf e he; cases he; refine decode_word ?_ wf; rw [major_SYS]
  exact then_eq (by dsimp only; (clear wf; decide)) (by rfl)
theorem ctxParkKill (h : Bool) (a : Reg) (d : Reg) : Statement (.ctxParkKill h a d) := by
  intro wf e he; cases he; refine decode_word ?_ wf; rw [major_SYS]
  exact else_eq (by dsimp only; (clear wf; decide)) (keep_eq (by dsimp only; (clear wf; decide)) (by rfl))
theorem tlbi (k : BitVec 2) (s : BitVec 3) (g : Bool) (b : Reg) (h : Bool) (a : Reg) : Statement (.tlbi k s g b h a) := by
  intro wf e he; cases he; refine decode_word ?_ wf; rw [major_SYS]
  exact keep_eq (by dsimp only; (clear wf; revert k s; decide)) (by first | rfl | simp (disch := decide) only [sub_skip, sub_within, sub_all, bit_skip, bit_within, bit_ofB, Nat.reduceSub])
theorem bmode (g : Bool) (b : Reg) (h : Bool) (a : Reg) (d : Reg) : Statement (.bmode g b h a d) := by
  intro wf e he; cases he; refine decode_word ?_ wf; rw [major_SYS]
  exact keep_eq (by dsimp only; (clear wf; decide)) (by rfl)
theorem slotPark (h : Bool) (a : Reg) : Statement (.slotPark h a) := by
  intro wf e he; cases he; refine decode_word ?_ wf; rw [major_SYS]
  exact keep_eq (by dsimp only; (clear wf; decide)) (by rfl)
theorem slotFree (h : Bool) (a : Reg) : Statement (.slotFree h a) := by
  intro wf e he; cases he; refine decode_word ?_ wf; rw [major_SYS]
  exact keep_eq (by dsimp only; (clear wf; decide)) (by rfl)
theorem dstop (h : Bool) (a : Reg) (d : Reg) : Statement (.dstop h a d) := by
  intro wf e he; cases he; refine decode_word ?_ wf; rw [major_SYS]
  exact keep_eq (by dsimp only; (clear wf; decide)) (by rfl)
theorem halt : Statement .halt := by
  intro wf e he; cases he; refine decode_word ?_ wf; rw [major_SYS]
  exact keep_eq (by dsimp only; (clear wf; decide)) (by rfl)
theorem jr (h : Bool) (a : Reg) : Statement (.jr h a) := by
  intro wf e he; cases he; refine decode_word ?_ wf; rw [major_CTRL]
  exact keep_eq (by dsimp only; (clear wf; decide)) (by rfl)
theorem jrL (h : Bool) (a : Reg) : Statement (.jrL h a) := by
  intro wf e he; cases he; refine decode_word ?_ wf; rw [major_CTRL]
  exact keep_eq (by dsimp only; (clear wf; decide)) (by rfl)
theorem nop : Statement .nop := by
  intro wf e he; cases he; refine decode_word ?_ wf; rw [major_CTRL]
  exact keep_eq (by dsimp only; (clear wf; decide)) (by rfl)
theorem b (k : BitVec 25) : Statement (.b k) := by
  intro wf e he; cases he; exact decode_word (by simp (disch := decide) only [decodeMajor, keep, fieldsI, fieldsM_packM, major_packM, sub_skip, sub_within, sub_all, bit_skip, bit_within, bit_ofB, Nat.reduceSub]; rfl) wf
theorem bl (k : BitVec 25) : Statement (.bl k) := by
  intro wf e he; cases he; exact decode_word (by simp (disch := decide) only [decodeMajor, keep, fieldsI, fieldsM_packM, major_packM, sub_skip, sub_within, sub_all, bit_skip, bit_within, bit_ofB, Nat.reduceSub]; rfl) wf
theorem bz (k : BitVec 18) (h : Bool) (a : Reg) : Statement (.bz k h a) := by
  intro wf e he; cases he; refine decode_word ?_ wf; rw [major_BR]; simp (disch := decide) only [decodeBR, keep, sub_skip, sub_within, sub_all, bit_skip, bit_within, bit_ofB, Nat.reduceSub]; rfl
theorem bnz (k : BitVec 18) (h : Bool) (a : Reg) : Statement (.bnz k h a) := by
  intro wf e he; cases he; refine decode_word ?_ wf; rw [major_BR]; simp (disch := decide) only [decodeBR, keep, sub_skip, sub_within, sub_all, bit_skip, bit_within, bit_ofB, Nat.reduceSub]; rfl
theorem bany (k : BitVec 18) (a : Reg) : Statement (.bany k a) := by
  intro wf e he; cases he; refine decode_word ?_ wf; rw [major_BR]; simp (disch := decide) only [decodeBR, keep, sub_skip, sub_within, sub_all, bit_skip, bit_within, bit_ofB, Nat.reduceSub]; rfl
theorem ball (k : BitVec 18) (a : Reg) : Statement (.ball k a) := by
  intro wf e he; cases he; refine decode_word ?_ wf; rw [major_BR]; simp (disch := decide) only [decodeBR, keep, sub_skip, sub_within, sub_all, bit_skip, bit_within, bit_ofB, Nat.reduceSub]; rfl
theorem bnone (k : BitVec 18) (a : Reg) : Statement (.bnone k a) := by
  intro wf e he; cases he; refine decode_word ?_ wf; rw [major_BR]; simp (disch := decide) only [decodeBR, keep, sub_skip, sub_within, sub_all, bit_skip, bit_within, bit_ofB, Nat.reduceSub]; rfl
theorem loop (k : BitVec 18) (h : Bool) (a : Reg) : Statement (.loop k h a) := by
  intro wf e he; cases he; refine decode_word ?_ wf; rw [major_BR]; simp (disch := decide) only [decodeBR, keep, sub_skip, sub_within, sub_all, bit_skip, bit_within, bit_ofB, Nat.reduceSub]; rfl
theorem bpt (k : BitVec 18) (p : BitVec 6) : Statement (.bpt k p) := by
  intro wf e he; cases he; exact decode_word (by simp (disch := decide) only [decodeMajor, keep, fieldsI, fieldsM_packM, major_packM, sub_skip, sub_within, sub_all, bit_skip, bit_within, bit_ofB, Nat.reduceSub]; rfl) wf
theorem bpf (k : BitVec 18) (p : BitVec 6) : Statement (.bpf k p) := by
  intro wf e he; cases he; exact decode_word (by simp (disch := decide) only [decodeMajor, keep, fieldsI, fieldsM_packM, major_packM, sub_skip, sub_within, sub_all, bit_skip, bit_within, bit_ofB, Nat.reduceSub]; rfl) wf
theorem dadd (g : Bool) (b : Reg) (h : Bool) (a : Reg) (d : Reg) : Statement (.dadd g b h a d) := by
  intro wf e he; cases he; refine decode_word ?_ wf; rw [major_F64]
  exact keep_eq (by dsimp only; (clear wf; decide)) (by rfl)
theorem dsub (g : Bool) (b : Reg) (h : Bool) (a : Reg) (d : Reg) : Statement (.dsub g b h a d) := by
  intro wf e he; cases he; refine decode_word ?_ wf; rw [major_F64]
  exact keep_eq (by dsimp only; (clear wf; decide)) (by rfl)
theorem dmul (g : Bool) (b : Reg) (h : Bool) (a : Reg) (d : Reg) : Statement (.dmul g b h a d) := by
  intro wf e he; cases he; refine decode_word ?_ wf; rw [major_F64]
  exact keep_eq (by dsimp only; (clear wf; decide)) (by rfl)
theorem dfma (g : Bool) (b : Reg) (h : Bool) (a : Reg) (d : Reg) : Statement (.dfma g b h a d) := by
  intro wf e he; cases he; refine decode_word ?_ wf; rw [major_F64]
  exact keep_eq (by dsimp only; (clear wf; decide)) (by rfl)
theorem ddiv (g : Bool) (b : Reg) (h : Bool) (a : Reg) (d : Reg) : Statement (.ddiv g b h a d) := by
  intro wf e he; cases he; refine decode_word ?_ wf; rw [major_F64]
  exact keep_eq (by dsimp only; (clear wf; decide)) (by rfl)
theorem dsqrt (h : Bool) (a : Reg) (d : Reg) : Statement (.dsqrt h a d) := by
  intro wf e he; cases he; refine decode_word ?_ wf; rw [major_F64]
  exact keep_eq (by dsimp only; (clear wf; decide)) (by rfl)
theorem dcvtTo (f : BitVec 4) (h : Bool) (a : Reg) (d : Reg) : Statement (.dcvtTo f h a d) := by
  intro wf e he; cases he; refine decode_word ?_ wf; rw [major_F64]
  exact then_eq (by dsimp only; (clear wf; revert f; decide)) (by first | rfl | simp (disch := decide) only [sub_skip, sub_within, sub_all, bit_skip, bit_within, bit_ofB, Nat.reduceSub])
theorem dcvtFrom (f : BitVec 4) (h : Bool) (a : Reg) (d : Reg) : Statement (.dcvtFrom f h a d) := by
  intro wf e he; cases he; refine decode_word ?_ wf; rw [major_F64]
  exact else_eq (by dsimp only; (clear wf; revert f; decide)) (keep_eq (by dsimp only; (clear wf; revert f; decide)) (by first | rfl | simp (disch := decide) only [sub_skip, sub_within, sub_all, bit_skip, bit_within, bit_ofB, Nat.reduceSub]))
theorem dcmp (p : BitVec 6) (g : Bool) (b : Reg) (h : Bool) (a : Reg) (c : BitVec 3) : Statement (.dcmp p g b h a c) := by
  intro wf e he; cases he; refine decode_word ?_ wf; rw [major_F64]
  exact keep_eq (by dsimp only; (clear wf; revert p; decide)) (by first | rfl | simp (disch := decide) only [sub_skip, sub_within, sub_all, bit_skip, bit_within, bit_ofB, Nat.reduceSub])
theorem bsopen (g : Bool) (b : Reg) (h : Bool) (a : Reg) : Statement (.bsopen g b h a) := by
  intro wf e he; cases he; refine decode_word ?_ wf; rw [major_Bits]
  exact keep_eq (by dsimp only; (clear wf; decide)) (by rfl)
theorem getb (g : Bool) (b : Reg) (d : Reg) : Statement (.getb g b d) := by
  intro wf e he; cases he; refine decode_word ?_ wf; rw [major_Bits]
  exact then_eq (by dsimp only; (clear wf; decide)) (by rfl)
theorem getbImm (n : BitVec 6) (d : Reg) : Statement (.getbImm n d) := by
  intro wf e he; cases he; refine decode_word ?_ wf; rw [major_Bits]
  exact else_eq (by dsimp only; (clear wf; revert n; decide)) (keep_eq (by dsimp only; (clear wf; revert n; decide)) (by first | rfl | simp (disch := decide) only [sub_skip, sub_within, sub_all, bit_skip, bit_within, bit_ofB, Nat.reduceSub]))
theorem peekb (g : Bool) (b : Reg) (d : Reg) : Statement (.peekb g b d) := by
  intro wf e he; cases he; refine decode_word ?_ wf; rw [major_Bits]
  exact then_eq (by dsimp only; (clear wf; decide)) (by rfl)
theorem peekbImm (n : BitVec 6) (d : Reg) : Statement (.peekbImm n d) := by
  intro wf e he; cases he; refine decode_word ?_ wf; rw [major_Bits]
  exact else_eq (by dsimp only; (clear wf; revert n; decide)) (keep_eq (by dsimp only; (clear wf; revert n; decide)) (by first | rfl | simp (disch := decide) only [sub_skip, sub_within, sub_all, bit_skip, bit_within, bit_ofB, Nat.reduceSub]))
theorem skipb (g : Bool) (b : Reg) : Statement (.skipb g b) := by
  intro wf e he; cases he; refine decode_word ?_ wf; rw [major_Bits]
  exact then_eq (by dsimp only; (clear wf; decide)) (by rfl)
theorem skipbImm (n : BitVec 6) : Statement (.skipbImm n) := by
  intro wf e he; cases he; refine decode_word ?_ wf; rw [major_Bits]
  exact else_eq (by dsimp only; (clear wf; revert n; decide)) (keep_eq (by dsimp only; (clear wf; revert n; decide)) (by first | rfl | simp (disch := decide) only [sub_skip, sub_within, sub_all, bit_skip, bit_within, bit_ofB, Nat.reduceSub]))
theorem getue (d : Reg) : Statement (.getue d) := by
  intro wf e he; cases he; refine decode_word ?_ wf; rw [major_Bits]
  exact keep_eq (by dsimp only; (clear wf; decide)) (by rfl)
theorem getse (d : Reg) : Statement (.getse d) := by
  intro wf e he; cases he; refine decode_word ?_ wf; rw [major_Bits]
  exact keep_eq (by dsimp only; (clear wf; decide)) (by rfl)
theorem bsalign : Statement .bsalign := by
  intro wf e he; cases he; refine decode_word ?_ wf; rw [major_Bits]
  exact keep_eq (by dsimp only; (clear wf; decide)) (by rfl)
theorem crc (p : Bool) (c : BitVec 3) (g : Bool) (b : Reg) (h : Bool) (a : Reg) (d : Reg) : Statement (.crc p c g b h a d) := by
  intro wf e he; cases he; refine decode_word ?_ wf; rw [major_Bits]
  exact keep_eq (by dsimp only; (clear wf; revert p c; decide)) (by first | rfl | simp (disch := decide) only [sub_skip, sub_within, sub_all, bit_skip, bit_within, bit_ofB, Nat.reduceSub])
theorem addiC16 (d : Reg) (a : Reg) (i : BitVec 5) : Statement (.addiC16 d a i) := by
  intro wf e he; cases he; exact decode_half (fun h => by have t := congrArg (fun x : BitVec 16 => (Sys2Proof.sub x 10 3, Sys2Proof.sub x 7 3, Sys2Proof.sub x 2 5)) h; simp (disch := decide) only [sub_skip, sub_within, sub_all, bit_skip, bit_within, bit_ofB, Nat.reduceSub] at t; cases t; exact absurd wf (by decide)) (by simp (disch := decide) only [decodeQuadrant, keep, sub_skip, sub_within, sub_all, bit_skip, bit_within, bit_ofB, Nat.reduceSub]; rfl) wf
theorem andiC16 (d : Reg) (a : Reg) (i : BitVec 5) : Statement (.andiC16 d a i) := by
  intro wf e he; cases he; exact decode_half (fun h => by have t := congrArg (fun x : BitVec 16 => (Sys2Proof.sub x 13 3, Sys2Proof.sub x 0 2)) h; simp (disch := decide) only [sub_skip, sub_within, sub_all, bit_skip, bit_within, bit_ofB, Nat.reduceSub] at t; revert t; clear wf h; decide) (by simp (disch := decide) only [decodeQuadrant, keep, sub_skip, sub_within, sub_all, bit_skip, bit_within, bit_ofB, Nat.reduceSub]; rfl) wf
theorem shliC16 (d : Reg) (a : Reg) (i : BitVec 5) : Statement (.shliC16 d a i) := by
  intro wf e he; cases he; exact decode_half (fun h => by have t := congrArg (fun x : BitVec 16 => (Sys2Proof.sub x 13 3, Sys2Proof.sub x 0 2)) h; simp (disch := decide) only [sub_skip, sub_within, sub_all, bit_skip, bit_within, bit_ofB, Nat.reduceSub] at t; revert t; clear wf h; decide) (by simp (disch := decide) only [decodeQuadrant, keep, sub_skip, sub_within, sub_all, bit_skip, bit_within, bit_ofB, Nat.reduceSub]; rfl) wf
theorem shriC16 (d : Reg) (a : Reg) (i : BitVec 5) : Statement (.shriC16 d a i) := by
  intro wf e he; cases he; exact decode_half (fun h => by have t := congrArg (fun x : BitVec 16 => (Sys2Proof.sub x 13 3, Sys2Proof.sub x 0 2)) h; simp (disch := decide) only [sub_skip, sub_within, sub_all, bit_skip, bit_within, bit_ofB, Nat.reduceSub] at t; revert t; clear wf h; decide) (by simp (disch := decide) only [decodeQuadrant, keep, sub_skip, sub_within, sub_all, bit_skip, bit_within, bit_ofB, Nat.reduceSub]; rfl) wf
theorem sariC16 (d : Reg) (a : Reg) (i : BitVec 5) : Statement (.sariC16 d a i) := by
  intro wf e he; cases he; exact decode_half (fun h => by have t := congrArg (fun x : BitVec 16 => (Sys2Proof.sub x 13 3, Sys2Proof.sub x 0 2)) h; simp (disch := decide) only [sub_skip, sub_within, sub_all, bit_skip, bit_within, bit_ofB, Nat.reduceSub] at t; revert t; clear wf h; decide) (by simp (disch := decide) only [decodeQuadrant, keep, sub_skip, sub_within, sub_all, bit_skip, bit_within, bit_ofB, Nat.reduceSub]; rfl) wf
theorem ldDC16 (d : Reg) (a : Reg) (i : BitVec 5) : Statement (.ldDC16 d a i) := by
  intro wf e he; cases he; exact decode_half (fun h => by have t := congrArg (fun x : BitVec 16 => (Sys2Proof.sub x 13 3, Sys2Proof.sub x 0 2)) h; simp (disch := decide) only [sub_skip, sub_within, sub_all, bit_skip, bit_within, bit_ofB, Nat.reduceSub] at t; revert t; clear wf h; decide) (by simp (disch := decide) only [decodeQuadrant, keep, sub_skip, sub_within, sub_all, bit_skip, bit_within, bit_ofB, Nat.reduceSub]; rfl) wf
theorem stDC16 (d : Reg) (a : Reg) (i : BitVec 5) : Statement (.stDC16 d a i) := by
  intro wf e he; cases he; exact decode_half (fun h => by have t := congrArg (fun x : BitVec 16 => (Sys2Proof.sub x 13 3, Sys2Proof.sub x 0 2)) h; simp (disch := decide) only [sub_skip, sub_within, sub_all, bit_skip, bit_within, bit_ofB, Nat.reduceSub] at t; revert t; clear wf h; decide) (by simp (disch := decide) only [decodeQuadrant, keep, sub_skip, sub_within, sub_all, bit_skip, bit_within, bit_ofB, Nat.reduceSub]; rfl) wf
theorem moviC16 (d : Reg) (i : BitVec 8) : Statement (.moviC16 d i) := by
  intro wf e he; cases he; exact decode_half (fun h => by have t := congrArg (fun x : BitVec 16 => (Sys2Proof.sub x 13 3, Sys2Proof.sub x 0 2)) h; simp (disch := decide) only [sub_skip, sub_within, sub_all, bit_skip, bit_within, bit_ofB, Nat.reduceSub] at t; revert t; clear wf h; decide) (by simp (disch := decide) only [decodeQuadrant, keep, sub_skip, sub_within, sub_all, bit_skip, bit_within, bit_ofB, Nat.reduceSub]; rfl) wf
theorem addC16 (d : Reg) (a : Reg) (b : Reg) : Statement (.addC16 d a b) := by
  intro wf e he; cases he; exact decode_half (fun h => by have t := congrArg (fun x : BitVec 16 => (Sys2Proof.sub x 13 3, Sys2Proof.sub x 0 2)) h; simp (disch := decide) only [sub_skip, sub_within, sub_all, bit_skip, bit_within, bit_ofB, Nat.reduceSub] at t; revert t; clear wf h; decide) (by simp (disch := decide) only [decodeQuadrant, keep, sub_skip, sub_within, sub_all, bit_skip, bit_within, bit_ofB, Nat.reduceSub]; rfl) wf
theorem subC16 (d : Reg) (a : Reg) (b : Reg) : Statement (.subC16 d a b) := by
  intro wf e he; cases he; exact decode_half (fun h => by have t := congrArg (fun x : BitVec 16 => (Sys2Proof.sub x 13 3, Sys2Proof.sub x 0 2)) h; simp (disch := decide) only [sub_skip, sub_within, sub_all, bit_skip, bit_within, bit_ofB, Nat.reduceSub] at t; revert t; clear wf h; decide) (by simp (disch := decide) only [decodeQuadrant, keep, sub_skip, sub_within, sub_all, bit_skip, bit_within, bit_ofB, Nat.reduceSub]; rfl) wf
theorem andC16 (d : Reg) (a : Reg) (b : Reg) : Statement (.andC16 d a b) := by
  intro wf e he; cases he; exact decode_half (fun h => by have t := congrArg (fun x : BitVec 16 => (Sys2Proof.sub x 13 3, Sys2Proof.sub x 0 2)) h; simp (disch := decide) only [sub_skip, sub_within, sub_all, bit_skip, bit_within, bit_ofB, Nat.reduceSub] at t; revert t; clear wf h; decide) (by simp (disch := decide) only [decodeQuadrant, keep, sub_skip, sub_within, sub_all, bit_skip, bit_within, bit_ofB, Nat.reduceSub]; rfl) wf
theorem orC16 (d : Reg) (a : Reg) (b : Reg) : Statement (.orC16 d a b) := by
  intro wf e he; cases he; exact decode_half (fun h => by have t := congrArg (fun x : BitVec 16 => (Sys2Proof.sub x 13 3, Sys2Proof.sub x 0 2)) h; simp (disch := decide) only [sub_skip, sub_within, sub_all, bit_skip, bit_within, bit_ofB, Nat.reduceSub] at t; revert t; clear wf h; decide) (by simp (disch := decide) only [decodeQuadrant, keep, sub_skip, sub_within, sub_all, bit_skip, bit_within, bit_ofB, Nat.reduceSub]; rfl) wf
theorem xorC16 (d : Reg) (a : Reg) (b : Reg) : Statement (.xorC16 d a b) := by
  intro wf e he; cases he; exact decode_half (fun h => by have t := congrArg (fun x : BitVec 16 => (Sys2Proof.sub x 13 3, Sys2Proof.sub x 0 2)) h; simp (disch := decide) only [sub_skip, sub_within, sub_all, bit_skip, bit_within, bit_ofB, Nat.reduceSub] at t; revert t; clear wf h; decide) (by simp (disch := decide) only [decodeQuadrant, keep, sub_skip, sub_within, sub_all, bit_skip, bit_within, bit_ofB, Nat.reduceSub]; rfl) wf
theorem andnC16 (d : Reg) (a : Reg) (b : Reg) : Statement (.andnC16 d a b) := by
  intro wf e he; cases he; exact decode_half (fun h => by have t := congrArg (fun x : BitVec 16 => (Sys2Proof.sub x 13 3, Sys2Proof.sub x 0 2)) h; simp (disch := decide) only [sub_skip, sub_within, sub_all, bit_skip, bit_within, bit_ofB, Nat.reduceSub] at t; revert t; clear wf h; decide) (by simp (disch := decide) only [decodeQuadrant, keep, sub_skip, sub_within, sub_all, bit_skip, bit_within, bit_ofB, Nat.reduceSub]; rfl) wf
theorem mulC16 (d : Reg) (a : Reg) (b : Reg) : Statement (.mulC16 d a b) := by
  intro wf e he; cases he; exact decode_half (fun h => by have t := congrArg (fun x : BitVec 16 => (Sys2Proof.sub x 13 3, Sys2Proof.sub x 0 2)) h; simp (disch := decide) only [sub_skip, sub_within, sub_all, bit_skip, bit_within, bit_ofB, Nat.reduceSub] at t; revert t; clear wf h; decide) (by simp (disch := decide) only [decodeQuadrant, keep, sub_skip, sub_within, sub_all, bit_skip, bit_within, bit_ofB, Nat.reduceSub]; rfl) wf
theorem movC16 (d : Reg) (a : Reg) : Statement (.movC16 d a) := by
  intro wf e he; cases he; exact decode_half (fun h => by have t := congrArg (fun x : BitVec 16 => (Sys2Proof.sub x 13 3, Sys2Proof.sub x 0 2)) h; simp (disch := decide) only [sub_skip, sub_within, sub_all, bit_skip, bit_within, bit_ofB, Nat.reduceSub] at t; revert t; clear wf h; decide) (by simp (disch := decide) only [decodeQuadrant, keep, sub_skip, sub_within, sub_all, bit_skip, bit_within, bit_ofB, Nat.reduceSub]; rfl) wf
theorem shlC16 (d : Reg) (a : Reg) (b : Reg) : Statement (.shlC16 d a b) := by
  intro wf e he; cases he; exact decode_half (fun h => by have t := congrArg (fun x : BitVec 16 => (Sys2Proof.sub x 13 3, Sys2Proof.sub x 0 2)) h; simp (disch := decide) only [sub_skip, sub_within, sub_all, bit_skip, bit_within, bit_ofB, Nat.reduceSub] at t; revert t; clear wf h; decide) (by simp (disch := decide) only [decodeQuadrant, keep, sub_skip, sub_within, sub_all, bit_skip, bit_within, bit_ofB, Nat.reduceSub]; rfl) wf
theorem shrC16 (d : Reg) (a : Reg) (b : Reg) : Statement (.shrC16 d a b) := by
  intro wf e he; cases he; exact decode_half (fun h => by have t := congrArg (fun x : BitVec 16 => (Sys2Proof.sub x 13 3, Sys2Proof.sub x 0 2)) h; simp (disch := decide) only [sub_skip, sub_within, sub_all, bit_skip, bit_within, bit_ofB, Nat.reduceSub] at t; revert t; clear wf h; decide) (by simp (disch := decide) only [decodeQuadrant, keep, sub_skip, sub_within, sub_all, bit_skip, bit_within, bit_ofB, Nat.reduceSub]; rfl) wf
theorem sarC16 (d : Reg) (a : Reg) (b : Reg) : Statement (.sarC16 d a b) := by
  intro wf e he; cases he; exact decode_half (fun h => by have t := congrArg (fun x : BitVec 16 => (Sys2Proof.sub x 13 3, Sys2Proof.sub x 0 2)) h; simp (disch := decide) only [sub_skip, sub_within, sub_all, bit_skip, bit_within, bit_ofB, Nat.reduceSub] at t; revert t; clear wf h; decide) (by simp (disch := decide) only [decodeQuadrant, keep, sub_skip, sub_within, sub_all, bit_skip, bit_within, bit_ofB, Nat.reduceSub]; rfl) wf
theorem ldWC16 (d : Reg) (a : Reg) (i : BitVec 5) : Statement (.ldWC16 d a i) := by
  intro wf e he; cases he; exact decode_half (fun h => by have t := congrArg (fun x : BitVec 16 => (Sys2Proof.sub x 13 3, Sys2Proof.sub x 0 2)) h; simp (disch := decide) only [sub_skip, sub_within, sub_all, bit_skip, bit_within, bit_ofB, Nat.reduceSub] at t; revert t; clear wf h; decide) (by simp (disch := decide) only [decodeQuadrant, keep, sub_skip, sub_within, sub_all, bit_skip, bit_within, bit_ofB, Nat.reduceSub]; rfl) wf
theorem stWC16 (d : Reg) (a : Reg) (i : BitVec 5) : Statement (.stWC16 d a i) := by
  intro wf e he; cases he; exact decode_half (fun h => by have t := congrArg (fun x : BitVec 16 => (Sys2Proof.sub x 13 3, Sys2Proof.sub x 0 2)) h; simp (disch := decide) only [sub_skip, sub_within, sub_all, bit_skip, bit_within, bit_ofB, Nat.reduceSub] at t; revert t; clear wf h; decide) (by simp (disch := decide) only [decodeQuadrant, keep, sub_skip, sub_within, sub_all, bit_skip, bit_within, bit_ofB, Nat.reduceSub]; rfl) wf
theorem jrC16 (a : Reg) : Statement (.jrC16 a) := by
  intro wf e he; cases he; exact decode_half (fun h => by have t := congrArg (fun x : BitVec 16 => (Sys2Proof.sub x 13 3, Sys2Proof.sub x 0 2)) h; simp (disch := decide) only [sub_skip, sub_within, sub_all, bit_skip, bit_within, bit_ofB, Nat.reduceSub] at t; revert t; clear wf h; decide) (by simp (disch := decide) only [decodeQuadrant, keep, sub_skip, sub_within, sub_all, bit_skip, bit_within, bit_ofB, Nat.reduceSub]; rfl) wf
theorem exitC16 : Statement .exitC16 := by
  intro wf e he; cases he; exact decode_half (by decide) (by simp (disch := decide) only [decodeQuadrant, keep, sub_skip, sub_within, sub_all, bit_skip, bit_within, bit_ofB, Nat.reduceSub]; rfl) wf
theorem yieldC16 : Statement .yieldC16 := by
  intro wf e he; cases he; exact decode_half (by decide) (by simp (disch := decide) only [decodeQuadrant, keep, sub_skip, sub_within, sub_all, bit_skip, bit_within, bit_ofB, Nat.reduceSub]; rfl) wf
theorem nopC16 : Statement .nopC16 := by
  intro wf e he; cases he; exact decode_half (by decide) (by simp (disch := decide) only [decodeQuadrant, keep, sub_skip, sub_within, sub_all, bit_skip, bit_within, bit_ofB, Nat.reduceSub]; rfl) wf
theorem bzC16 (k : BitVec 3) (a : Reg) (k2 : BitVec 5) : Statement (.bzC16 k a k2) := by
  intro wf e he; cases he; exact decode_half (fun h => by have t := congrArg (fun x : BitVec 16 => (Sys2Proof.sub x 13 3, Sys2Proof.sub x 0 2)) h; simp (disch := decide) only [sub_skip, sub_within, sub_all, bit_skip, bit_within, bit_ofB, Nat.reduceSub] at t; revert t; clear wf h; decide) (by simp (disch := decide) only [decodeQuadrant, keep, sub_skip, sub_within, sub_all, bit_skip, bit_within, bit_ofB, Nat.reduceSub]; rfl) wf
theorem bnzC16 (k : BitVec 3) (a : Reg) (k2 : BitVec 5) : Statement (.bnzC16 k a k2) := by
  intro wf e he; cases he; exact decode_half (fun h => by have t := congrArg (fun x : BitVec 16 => (Sys2Proof.sub x 13 3, Sys2Proof.sub x 0 2)) h; simp (disch := decide) only [sub_skip, sub_within, sub_all, bit_skip, bit_within, bit_ofB, Nat.reduceSub] at t; revert t; clear wf h; decide) (by simp (disch := decide) only [decodeQuadrant, keep, sub_skip, sub_within, sub_all, bit_skip, bit_within, bit_ofB, Nat.reduceSub]; rfl) wf
theorem bC16 (k : BitVec 11) : Statement (.bC16 k) := by
  intro wf e he; cases he; exact decode_half (fun h => by have t := congrArg (fun x : BitVec 16 => (Sys2Proof.sub x 13 3, Sys2Proof.sub x 0 2)) h; simp (disch := decide) only [sub_skip, sub_within, sub_all, bit_skip, bit_within, bit_ofB, Nat.reduceSub] at t; revert t; clear wf h; decide) (by simp (disch := decide) only [decodeQuadrant, keep, sub_skip, sub_within, sub_all, bit_skip, bit_within, bit_ofB, Nat.reduceSub]; rfl) wf
theorem bptC16 (p : BitVec 6) (k : BitVec 5) : Statement (.bptC16 p k) := by
  intro wf e he; cases he; exact decode_half (fun h => by have t := congrArg (fun x : BitVec 16 => (Sys2Proof.sub x 13 3, Sys2Proof.sub x 0 2)) h; simp (disch := decide) only [sub_skip, sub_within, sub_all, bit_skip, bit_within, bit_ofB, Nat.reduceSub] at t; revert t; clear wf h; decide) (by simp (disch := decide) only [decodeQuadrant, keep, sub_skip, sub_within, sub_all, bit_skip, bit_within, bit_ofB, Nat.reduceSub]; rfl) wf
theorem bpfC16 (p : BitVec 6) (k : BitVec 5) : Statement (.bpfC16 p k) := by
  intro wf e he; cases he; exact decode_half (fun h => by have t := congrArg (fun x : BitVec 16 => (Sys2Proof.sub x 13 3, Sys2Proof.sub x 0 2)) h; simp (disch := decide) only [sub_skip, sub_within, sub_all, bit_skip, bit_within, bit_ofB, Nat.reduceSub] at t; revert t; clear wf h; decide) (by simp (disch := decide) only [decodeQuadrant, keep, sub_skip, sub_within, sub_all, bit_skip, bit_within, bit_ofB, Nat.reduceSub]; rfl) wf
theorem fmt (f : BitVec 4) (r : BitVec 3) (s : Bool) : Statement (.fmt f r s) := by
  intro wf e he; cases he; exact decode_half (fun h => by have t := congrArg (fun x : BitVec 16 => (Sys2Proof.sub x 13 3, Sys2Proof.sub x 0 2)) h; simp (disch := decide) only [sub_skip, sub_within, sub_all, bit_skip, bit_within, bit_ofB, Nat.reduceSub] at t; revert t; clear wf h; decide) (by simp (disch := decide) only [decodeQuadrant, keep, sub_skip, sub_within, sub_all, bit_skip, bit_within, bit_ofB, Nat.reduceSub]; rfl) wf
theorem registerFill (ctx reg : Nat) (tag : Bool) (val : Word) (poison : Bool) (info : Word) (unit : Holder) (wake : Nat) : Statement (.registerFill ctx reg tag val poison info unit wake) := none_encoded rfl
theorem idleContextReplace (core slot : Nat) : Statement (.idleContextReplace core slot) := none_encoded rfl
theorem quantumExpiry (core slot : Nat) : Statement (.quantumExpiry core slot) := none_encoded rfl
theorem agingPromotion (ctx : Nat) : Statement (.agingPromotion ctx) := none_encoded rfl
theorem launchAccept (part : Nat) (desc : Word) (ctx reg : Nat) (tag : Bool) (priv : Nat) (res : Word) : Statement (.launchAccept part desc ctx reg tag priv res) := none_encoded rfl
theorem blockStart (launch : Nat) : Statement (.blockStart launch) := none_encoded rfl
theorem launchCompletion (launch : Nat) : Statement (.launchCompletion launch) := none_encoded rfl
theorem semVExecute (loc ctx scope : Nat) (tx : Option Nat) : Statement (.semVExecute loc ctx scope tx) := none_encoded rfl
theorem semPExecute (loc ctx scope : Nat) (tx : Option Nat) : Statement (.semPExecute loc ctx scope tx) := none_encoded rfl
theorem semPResend (ctx : Nat) : Statement (.semPResend ctx) := none_encoded rfl
theorem jcUpdate (loc : Nat) (addend : Word) (flt : Nat) (ctx : Nat) (tx : Option Nat) : Statement (.jcUpdate loc addend flt ctx tx) := none_encoded rfl
theorem chunkInitRequest (cluster c n p m core : Nat) : Statement (.chunkInitRequest cluster c n p m core) := none_encoded rfl
theorem chunkRequest (cluster c ctx reg : Nat) (tag : Bool) (core : Nat) : Statement (.chunkRequest cluster c ctx reg tag core) := none_encoded rfl
theorem spawnPoolRequest (blk ctx reg : Nat) (tag : Bool) (entry arg : Word) (jc : Option Nat) (unit : Nat) : Statement (.spawnPoolRequest blk ctx reg tag entry arg jc unit) := none_encoded rfl
theorem wakeupApply (ctx kind : Nat) (arg : BitVec 60) (acq : Bool) (unit : Holder) : Statement (.wakeupApply ctx kind arg acq unit) := none_encoded rfl
theorem coreStoreAccess (r : Req) : Statement (.coreStoreAccess r) := none_encoded rfl
theorem storeVisible (r : Req) : Statement (.storeVisible r) := none_encoded rfl
theorem nibbleStoreExecute (r : Req) : Statement (.nibbleStoreExecute r) := none_encoded rfl
theorem atomicExecute (op : AtomOp) (posted inCore : Bool) (cmp : Word) (r : Req) : Statement (.atomicExecute op posted inCore cmp r) := none_encoded rfl
theorem fenceTokenArrival (die link round : Nat) : Statement (.fenceTokenArrival die link round) := none_encoded rfl
theorem fenceEchoArrival (die link round : Nat) : Statement (.fenceEchoArrival die link round) := none_encoded rfl
theorem postedTokenRound (die link : Nat) : Statement (.postedTokenRound die link) := none_encoded rfl
theorem heldReleaseSend (idx : Nat) : Statement (.heldReleaseSend idx) := none_encoded rfl
theorem barrierSignal (core n : Nat) (column : Bool) : Statement (.barrierSignal core n column) := none_encoded rfl
theorem barrierRelease (core n : Nat) : Statement (.barrierRelease core n) := none_encoded rfl
theorem barrierTimeout (core n : Nat) : Statement (.barrierTimeout core n) := none_encoded rfl
theorem barrierAbort (core n : Nat) (mask : Word) : Statement (.barrierAbort core n mask) := none_encoded rfl
theorem ksendAccumulate (loc : Nat) (fp : Bool) (val : BitVec 32) (ctx : Nat) (tx : Option Nat) : Statement (.ksendAccumulate loc fp val ctx tx) := none_encoded rfl
theorem commandAccept (c : Cmd) : Statement (.commandAccept c) := none_encoded rfl
theorem commandRetry (ctx : Nat) : Statement (.commandRetry ctx) := none_encoded rfl
theorem commandReply (ctx : Nat) (op : Nat) (kind : Nat) (cause : Nat) (info : Word) (reg : Nat) : Statement (.commandReply ctx op kind cause info reg) := none_encoded rfl
theorem tallocServe (cluster ctx reg : Nat) (tag : Bool) (blk : Nat) (desc : Word) (unit : Nat) : Statement (.tallocServe cluster ctx reg tag blk desc unit) := none_encoded rfl
theorem taskAdmit (cluster : Nat) : Statement (.taskAdmit cluster) := none_encoded rfl
theorem mmaFragmentDone (cluster task : Nat) : Statement (.mmaFragmentDone cluster task) := none_encoded rfl
theorem streamerPartStart (cluster task part : Nat) : Statement (.streamerPartStart cluster task part) := none_encoded rfl
theorem streamerPush (cluster task part : Nat) : Statement (.streamerPush cluster task part) := none_encoded rfl
theorem streamerPartDone (cluster task part : Nat) : Statement (.streamerPartDone cluster task part) := none_encoded rfl
theorem taskComplete (cluster task : Nat) : Statement (.taskComplete cluster task) := none_encoded rfl
theorem cmdsDecrement (ctx : Nat) (flt : Option Word) (unit : Holder) : Statement (.cmdsDecrement ctx flt unit) := none_encoded rfl
theorem traceReport (blk patch : Nat) (wr : Bool) (icause pc : Nat) : Statement (.traceReport blk patch wr icause pc) := none_encoded rfl
theorem blockRecordWrite (blk : Nat) : Statement (.blockRecordWrite blk) := none_encoded rfl
theorem generationBroadcast (set unit gen : Nat) : Statement (.generationBroadcast set unit gen) := none_encoded rfl
theorem generationAdvanceDone (set : Nat) : Statement (.generationAdvanceDone set) := none_encoded rfl
theorem restampRequest (set line : Nat) (from_ : Sender) : Statement (.restampRequest set line from_) := none_encoded rfl
theorem relaunchAccept (part : Nat) (region comp : Word) (ctx reg : Nat) (tag : Bool) (priv : Nat) (repair : Bool) (res : Word) : Statement (.relaunchAccept part region comp ctx reg tag priv repair res) := none_encoded rfl
theorem relaunchComplete (launch : Nat) : Statement (.relaunchComplete launch) := none_encoded rfl
theorem watchArm (inCore : Bool) (addr : Nat) (expected : Word) (ctx reg : Nat) (tag : Bool) (timeout : Nat) (from_ : Sender) : Statement (.watchArm inCore addr expected ctx reg tag timeout from_) := none_encoded rfl
theorem watchTimeout (ctx : Nat) : Statement (.watchTimeout ctx) := none_encoded rfl
theorem watchCancel (ctx : Nat) : Statement (.watchCancel ctx) := none_encoded rfl
theorem timeDeadline (ctx : Nat) : Statement (.timeDeadline ctx) := none_encoded rfl
theorem contextClaim (core ctx : Nat) : Statement (.contextClaim core ctx) := none_encoded rfl
theorem contextLineArrival (ctx : Nat) (dst : Holder) : Statement (.contextLineArrival ctx dst) := none_encoded rfl
theorem contextTransferAck (ctx : Nat) : Statement (.contextTransferAck ctx) := none_encoded rfl
theorem messageReturn (ctx : Nat) (msg : Ev) : Statement (.messageReturn ctx msg) := none_encoded rfl
theorem carouselRingClaim (core : Nat) : Statement (.carouselRingClaim core) := none_encoded rfl
theorem ringPost (ctx : Nat) : Statement (.ringPost ctx) := none_encoded rfl
theorem ringPostRetry (ctx : Nat) : Statement (.ringPostRetry ctx) := none_encoded rfl
theorem ringmasterSteal (cluster part : Nat) : Statement (.ringmasterSteal cluster part) := none_encoded rfl
theorem preemptRequest (die part : Nat) : Statement (.preemptRequest die part) := none_encoded rfl
theorem preemptResume (die part : Nat) : Statement (.preemptResume die part) := none_encoded rfl
theorem partitionSwap (die old new : Nat) : Statement (.partitionSwap die old new) := none_encoded rfl
theorem walkComplete (die : Nat) (page : Nat) : Statement (.walkComplete die page) := none_encoded rfl
theorem walkQueueRetry (die : Nat) : Statement (.walkQueueRetry die) := none_encoded rfl
theorem regionMigrationStart (set region : Nat) (entry : Word) : Statement (.regionMigrationStart set region entry) := none_encoded rfl
theorem migrationLineMove (set : Nat) : Statement (.migrationLineMove set) := none_encoded rfl
theorem homeNackRetry (msg : Ev) : Statement (.homeNackRetry msg) := none_encoded rfl
theorem bankDrainDone (cluster bank : Nat) : Statement (.bankDrainDone cluster bank) := none_encoded rfl
theorem bankNackRetry (msg : Ev) : Statement (.bankNackRetry msg) := none_encoded rfl
theorem flitReceive (die link : Nat) : Statement (.flitReceive die link) := none_encoded rfl
theorem linkNak (die link seq : Nat) : Statement (.linkNak die link seq) := none_encoded rfl
theorem linkAck (die link seq : Nat) : Statement (.linkAck die link seq) := none_encoded rfl
theorem replayTimeout (die link : Nat) : Statement (.replayTimeout die link) := none_encoded rfl
theorem laneFaultReport (die link lower upper : Nat) : Statement (.laneFaultReport die link lower upper) := none_encoded rfl
theorem linkRetrainDone (die link : Nat) : Statement (.linkRetrainDone die link) := none_encoded rfl
theorem classAgePromotion (die link cls : Nat) : Statement (.classAgePromotion die link cls) := none_encoded rfl
theorem homeReadRequest (r : Req) : Statement (.homeReadRequest r) := none_encoded rfl
theorem ownershipRequest (line : Nat) (from_ : Sender) : Statement (.ownershipRequest line from_) := none_encoded rfl
theorem ownershipGrant (line cluster : Nat) : Statement (.ownershipGrant line cluster) := none_encoded rfl
theorem dieRecall (line die : Nat) (keep : Bool) : Statement (.dieRecall line die keep) := none_encoded rfl
theorem writeBackArrival (line die sectors : Nat) : Statement (.writeBackArrival line die sectors) := none_encoded rfl
theorem calliopeExchange (die : Nat) : Statement (.calliopeExchange die) := none_encoded rfl
theorem calliopeResult (die : Nat) (t1 t2 t3 t4 : Nat) : Statement (.calliopeResult die t1 t2 t3 t4) := none_encoded rfl
theorem exchangeMissing (die : Nat) : Statement (.exchangeMissing die) := none_encoded rfl
theorem ptpEventMessage (msg : PtpMessage) (ticks : Nat) : Statement (.ptpEventMessage msg ticks) := none_encoded rfl
theorem heartbeatTimeout (die : Nat) : Statement (.heartbeatTimeout die) := none_encoded rfl
theorem dieFailureBroadcast (die failed : Nat) : Statement (.dieFailureBroadcast die failed) := none_encoded rfl
theorem homeFailureProcess (mdie failed : Nat) : Statement (.homeFailureProcess mdie failed) := none_encoded rfl
theorem scrubRead (mdie sector err : Nat) : Statement (.scrubRead mdie sector err) := none_encoded rfl
theorem scrubWrite (mdie sector seq : Nat) : Statement (.scrubWrite mdie sector seq) := none_encoded rfl
theorem contextLoss (ctx : Nat) : Statement (.contextLoss ctx) := none_encoded rfl
theorem rasPop (die : Nat) : Statement (.rasPop die) := none_encoded rfl
theorem mcheckClear (core : Nat) (val : Word) : Statement (.mcheckClear core val) := none_encoded rfl
theorem handlerInstall (core : Nat) (lvlM : Bool) (cva : Word) : Statement (.handlerInstall core lvlM cva) := none_encoded rfl
theorem lnkRetrainForce (die link : Nat) : Statement (.lnkRetrainForce die link) := none_encoded rfl
theorem lnkInject (die link : Nat) : Statement (.lnkInject die link) := none_encoded rfl
theorem dlogBaseWrite (die : Nat) (val : Word) : Statement (.dlogBaseWrite die val) := none_encoded rfl
theorem linkCounterSnapshot (die : Nat) : Statement (.linkCounterSnapshot die) := none_encoded rfl
theorem pcSample (core : Nat) : Statement (.pcSample core) := none_encoded rfl
theorem pctDisableSpill (part : Nat) : Statement (.pctDisableSpill part) := none_encoded rfl
theorem rplCtlWrite (part : Nat) (val : Word) : Statement (.rplCtlWrite part val) := none_encoded rfl
theorem replayDivergence (unit loc : Nat) : Statement (.replayDivergence unit loc) := none_encoded rfl
theorem operatingPointChange (die mhz : Nat) : Statement (.operatingPointChange die mhz) := none_encoded rfl
theorem pwrCapWrite (die : Nat) (val : Word) : Statement (.pwrCapWrite die val) := none_encoded rfl
theorem packageReset : Statement .packageReset := none_encoded rfl
theorem bootStepAdvance : Statement .bootStepAdvance := none_encoded rfl
theorem dieReset (die : Nat) : Statement (.dieReset die) := none_encoded rfl
theorem hostAccess (wr : Bool) (addr size data : Nat) : Statement (.hostAccess wr addr size data) := none_encoded rfl
theorem scaleUpAccess (peer : Nat) (wr : Bool) (addr size data : Nat) : Statement (.scaleUpAccess peer wr addr size data) := none_encoded rfl
theorem portLaunch (part : Nat) (arg0 arg1 res : Word) : Statement (.portLaunch part arg0 arg1 res) := none_encoded rfl
theorem portRelaunch (part : Nat) (arg0 arg1 res : Word) : Statement (.portRelaunch part arg0 arg1 res) := none_encoded rfl
theorem portRepair (part : Nat) (arg0 arg1 res : Word) : Statement (.portRepair part arg0 arg1 res) := none_encoded rfl
theorem setmode (mode res : Word) : Statement (.setmode mode res) := none_encoded rfl
theorem create (set share res : Word) : Statement (.create set share res) := none_encoded rfl
theorem destroy (set idx res : Word) : Statement (.destroy set idx res) := none_encoded rfl
theorem swap (set idx res : Word) : Statement (.swap set idx res) := none_encoded rfl
theorem slice (set us res : Word) : Statement (.slice set us res) := none_encoded rfl
theorem preempt (set res : Word) : Statement (.preempt set res) := none_encoded rfl
theorem resume (set res : Word) : Statement (.resume set res) := none_encoded rfl
theorem attest (nonce buf res : Word) : Statement (.attest nonce buf res) := none_encoded rfl
theorem timeSliceExpiry (set : Nat) : Statement (.timeSliceExpiry set) := none_encoded rfl
theorem nonInstructionEncoding (enc : BitVec 32) : Statement (.nonInstructionEncoding enc) := none_encoded rfl
theorem jcWaitRepoll (ctx : Nat) : Statement (.jcWaitRepoll ctx) := none_encoded rfl
theorem flitSend (die link : Nat) : Statement (.flitSend die link) := none_encoded rfl
theorem unrecoverableFaultReport (die : Nat) : Statement (.unrecoverableFaultReport die) := none_encoded rfl
theorem launchPortWriteRefused (part : Nat) : Statement (.launchPortWriteRefused part) := none_encoded rfl
theorem mailboxWriteRefused (part : Nat) : Statement (.mailboxWriteRefused part) := none_encoded rfl

end RoundTrip

end Sys2Proof.Laws
end

