-- ==== Sys2Proof/Tests/Slice0.lean ====
section
/-! SUPPORT. Tests: ill-formed terms that the check refuses, words written out from the encoding tables, worked examples of the
spec on small states, and for every statement with hypotheses a state and operands that meet them, clause by clause. -/

namespace Sys2Proof.Tests

open Sys2Proof Claims Machine

set_option linter.unusedVariables false
set_option Elab.async false

/-! ### Ill-formed terms -/

theorem test_ill_formed_int_0 :
    [
     (.sext 3 false false 0 0 : Instr),
     (.zext 3 false false 0 0),
     (.cmp false 0 false 0 false 0 6),
     (.xset false 0 4),
     (.xget false 4 0),
     (.cmpi 0 0 false 0 6),
     (.fcmp 0 false 0 false 0 5),
     (.xld 0 false 0 4),
     (.vcmp 6 false 0 false 0 false false),
     (.dcmp 0 false 0 false 0 5),
     (.addiC16 0 0 0)].all (fun i => !i.wellFormed) = true := by decide +kernel

theorem test_ill_formed_pack_0 :
    [
     (.padd 3 false 0 false 0 0 : Instr),
     (.psub 3 false 0 false 0 0),
     (.padds false 3 false 0 false 0 0),
     (.psubs false 3 false 0 false 0 0),
     (.pmul 3 false 0 false 0 0),
     (.pmulh false 3 false 0 false 0 0),
     (.pdot false 3 false 0 false 0 0),
     (.pavg false 3 false 0 false 0 0),
     (.pmin false 3 false 0 false 0 0),
     (.pmax false 3 false 0 false 0 0),
     (.pabs 3 false 0 0),
     (.psad false 3 false 0 false 0 0),
     (.pclip false 3 false 0 false 0 0),
     (.pshl 3 false 0 false 0 0),
     (.pshr 3 false 0 false 0 0),
     (.psar 3 false 0 false 0 0),
     (.pvshl 3 false 0 false 0 0),
     (.pvshr 3 false 0 false 0 0),
     (.pvsar 3 false 0 false 0 0),
     (.pcmp 0 3 false 0 false 0 0),
     (.pcmp 0 1 false 0 false 0 6),
     (.psel 0 3 false 0 false 0 0),
     (.pnarrow false 0 false 0 false 0 0),
     (.pnarrow false 3 false 0 false 0 0),
     (.pwiden false 3 false false 0 0)].all (fun i => !i.wellFormed) = true := by decide +kernel

theorem test_ill_formed_mem_0 :
    [
     (.ld 0 6 0 false 0 0 : Instr),
     (.ld 0 0 7 false 0 3),
     (.st 0 6 0 false false 0 0),
     (.st 0 0 4 false false 0 0),
     (.st 0 0 7 false false 0 3),
     (.ldAnchorRel 0 0 6 0 false 0 0),
     (.ldAnchorRel 0 0 0 7 false 0 3),
     (.stAnchorRel 0 0 6 0 false false 0 0),
     (.stAnchorRel 0 0 0 4 false false 0 0),
     (.stAnchorRel 0 0 0 7 false false 0 3),
     (.pf 3 false 0),
     (.fence 0 6),
     (.semV 6 false 0),
     (.semP 6 false 0),
     (.jcAdd 6 false 0 false 0),
     (.idr 6 0),
     (.tlbi 0 0 false 0 false 0),
     (.tlbi 0 6 false 0 false 0)].all (fun i => !i.wellFormed) = true := by decide +kernel

theorem test_ill_formed_amo_0 :
    [
     (.amoAdd false 0 1 false 0 false 0 0 : Instr),
     (.amoAdd false 2 0 false 0 false 0 0),
     (.amoAdd false 5 1 false 0 false 0 0),
     (.amoAdd false 2 6 false 0 false 0 0),
     (.amoAnd false 0 1 false 0 false 0 0),
     (.amoAnd false 2 0 false 0 false 0 0),
     (.amoAnd false 5 1 false 0 false 0 0),
     (.amoAnd false 2 6 false 0 false 0 0),
     (.amoOr false 0 1 false 0 false 0 0),
     (.amoOr false 2 0 false 0 false 0 0),
     (.amoOr false 5 1 false 0 false 0 0),
     (.amoOr false 2 6 false 0 false 0 0),
     (.amoXor false 0 1 false 0 false 0 0),
     (.amoXor false 2 0 false 0 false 0 0),
     (.amoXor false 5 1 false 0 false 0 0),
     (.amoXor false 2 6 false 0 false 0 0),
     (.amoMinS false 0 1 false 0 false 0 0),
     (.amoMinS false 2 0 false 0 false 0 0),
     (.amoMinS false 5 1 false 0 false 0 0),
     (.amoMinS false 2 6 false 0 false 0 0),
     (.amoMaxS false 0 1 false 0 false 0 0),
     (.amoMaxS false 2 0 false 0 false 0 0),
     (.amoMaxS false 5 1 false 0 false 0 0),
     (.amoMaxS false 2 6 false 0 false 0 0),
     (.amoSwp false 0 1 false 0 false 0 0)].all (fun i => !i.wellFormed) = true := by decide +kernel

theorem test_ill_formed_amo_1 :
    [
     (.amoSwp false 2 0 false 0 false 0 0 : Instr),
     (.amoSwp false 5 1 false 0 false 0 0),
     (.amoSwp false 2 6 false 0 false 0 0),
     (.amoCas false 0 1 false 0 false 0 0),
     (.amoCas false 2 0 false 0 false 0 0),
     (.amoCas false 5 1 false 0 false 0 0),
     (.amoCas false 2 6 false 0 false 0 0),
     (.amoFadd false 0 1 false 0 false 0 0),
     (.amoFadd false 2 0 false 0 false 0 0),
     (.amoFadd false 5 1 false 0 false 0 0),
     (.amoFadd false 2 6 false 0 false 0 0),
     (.amoMinZ false 0 1 false 0 false 0 0),
     (.amoMinZ false 2 0 false 0 false 0 0),
     (.amoMinZ false 5 1 false 0 false 0 0),
     (.amoMinZ false 2 6 false 0 false 0 0),
     (.amoMaxZ false 0 1 false 0 false 0 0),
     (.amoMaxZ false 2 0 false 0 false 0 0),
     (.amoMaxZ false 5 1 false 0 false 0 0),
     (.amoMaxZ false 2 6 false 0 false 0 0),
     (.amoAddPost false 0 1 false 0 false 0),
     (.amoAddPost false 2 0 false 0 false 0),
     (.amoAddPost false 5 1 false 0 false 0),
     (.amoAddPost false 2 6 false 0 false 0),
     (.amoAddPost false 1 1 false 0 false 0),
     (.amoAndPost false 0 1 false 0 false 0)].all (fun i => !i.wellFormed) = true := by decide +kernel

theorem test_ill_formed_amo_2 :
    [
     (.amoAndPost false 2 0 false 0 false 0 : Instr),
     (.amoAndPost false 5 1 false 0 false 0),
     (.amoAndPost false 2 6 false 0 false 0),
     (.amoAndPost false 1 1 false 0 false 0),
     (.amoOrPost false 0 1 false 0 false 0),
     (.amoOrPost false 2 0 false 0 false 0),
     (.amoOrPost false 5 1 false 0 false 0),
     (.amoOrPost false 2 6 false 0 false 0),
     (.amoOrPost false 1 1 false 0 false 0),
     (.amoXorPost false 0 1 false 0 false 0),
     (.amoXorPost false 2 0 false 0 false 0),
     (.amoXorPost false 5 1 false 0 false 0),
     (.amoXorPost false 2 6 false 0 false 0),
     (.amoXorPost false 1 1 false 0 false 0),
     (.amoMinSPost false 0 1 false 0 false 0),
     (.amoMinSPost false 2 0 false 0 false 0),
     (.amoMinSPost false 5 1 false 0 false 0),
     (.amoMinSPost false 2 6 false 0 false 0),
     (.amoMinSPost false 1 1 false 0 false 0),
     (.amoMaxSPost false 0 1 false 0 false 0),
     (.amoMaxSPost false 2 0 false 0 false 0),
     (.amoMaxSPost false 5 1 false 0 false 0),
     (.amoMaxSPost false 2 6 false 0 false 0),
     (.amoMaxSPost false 1 1 false 0 false 0),
     (.amoSwpPost false 0 1 false 0 false 0)].all (fun i => !i.wellFormed) = true := by decide +kernel

theorem test_ill_formed_amo_3 :
    [
     (.amoSwpPost false 2 0 false 0 false 0 : Instr),
     (.amoSwpPost false 5 1 false 0 false 0),
     (.amoSwpPost false 2 6 false 0 false 0),
     (.amoSwpPost false 1 1 false 0 false 0),
     (.amoCasPost false 0 1 false 0 false 0),
     (.amoCasPost false 2 0 false 0 false 0),
     (.amoCasPost false 5 1 false 0 false 0),
     (.amoCasPost false 2 6 false 0 false 0),
     (.amoCasPost false 1 1 false 0 false 0),
     (.amoFaddPost false 0 1 false 0 false 0),
     (.amoFaddPost false 2 0 false 0 false 0),
     (.amoFaddPost false 5 1 false 0 false 0),
     (.amoFaddPost false 2 6 false 0 false 0),
     (.amoFaddPost false 1 1 false 0 false 0),
     (.amoMinZPost false 0 1 false 0 false 0),
     (.amoMinZPost false 2 0 false 0 false 0),
     (.amoMinZPost false 5 1 false 0 false 0),
     (.amoMinZPost false 2 6 false 0 false 0),
     (.amoMinZPost false 1 1 false 0 false 0),
     (.amoMaxZPost false 0 1 false 0 false 0),
     (.amoMaxZPost false 2 0 false 0 false 0),
     (.amoMaxZPost false 5 1 false 0 false 0),
     (.amoMaxZPost false 2 6 false 0 false 0),
     (.amoMaxZPost false 1 1 false 0 false 0)].all (fun i => !i.wellFormed) = true := by decide +kernel

theorem test_ill_formed_shift :
    [
     (.vshl false false 3 false 2 false false : Instr),
     (.vshl false true 0 false 2 false false),
     (.vshr false false 3 false 2 false false),
     (.vshr false true 0 false 2 false false),
     (.vsar false false 3 false 2 false false),
     (.vsar false true 0 false 2 false false)].all (fun i => !i.wellFormed) = true := by decide +kernel

/-! ### Words of the encoding tables -/

theorem test_decode_major_00_0 :
    decode (.word 0x0202EA83#32) = .ok (.add true true 3 true 2 5) ∧
    decode (.word 0x0204CA83#32) = .ok (.sub true false 3 false 2 5) ∧
    decode (.word 0x020AEA83#32) = .ok (.mul true true 3 true 2 5) ∧
    decode (.word 0x040EEA83#32) = .ok (.mulh true false true 3 true 2 5) ∧
    decode (.word 0x0610CA83#32) = .ok (.div true true false 3 false 2 5) ∧
    decode (.word 0x0416EA83#32) = .ok (.rem true false true 3 true 2 5) ∧
    decode (.word 0x021AEA83#32) = .ok (.and true true 3 true 2 5) ∧
    decode (.word 0x021CCA83#32) = .ok (.or true false 3 false 2 5) ∧
    decode (.word 0x0222EA83#32) = .ok (.xor true true 3 true 2 5) ∧
    decode (.word 0x0224CA83#32) = .ok (.andn true false 3 false 2 5) ∧
    decode (.word 0x022AEA83#32) = .ok (.orn true true 3 true 2 5) ∧
    decode (.word 0x022CCA83#32) = .ok (.shl true false 3 false 2 5) ∧
    decode (.word 0x0232EA83#32) = .ok (.shr true true 3 true 2 5) ∧
    decode (.word 0x0234CA83#32) = .ok (.sar true false 3 false 2 5) := by decide +kernel

theorem test_decode_major_00_1 :
    decode (.word 0x023AEA83#32) = .ok (.rol true true 3 true 2 5) ∧
    decode (.word 0x023CCA83#32) = .ok (.ror true false 3 false 2 5) ∧
    decode (.word 0x02402A83#32) = .ok (.clz true true 2 5) ∧
    decode (.word 0x02440A83#32) = .ok (.ctz true false 2 5) ∧
    decode (.word 0x02482A83#32) = .ok (.popc true true 2 5) ∧
    decode (.word 0x044EEA83#32) = .ok (.bext true false true 3 true 2 5) ∧
    decode (.word 0x0252EA83#32) = .ok (.bins true true 3 true 2 5) ∧
    decode (.word 0x08542A83#32) = .ok (.sext 1 false true 2 5) ∧
    decode (.word 0x0A580A83#32) = .ok (.zext 1 true false 2 5) ∧
    decode (.word 0x045EEA83#32) = .ok (.min true false true 3 true 2 5) ∧
    decode (.word 0x0660CA83#32) = .ok (.max true true false 3 false 2 5) ∧
    decode (.word 0x02640A83#32) = .ok (.abs true false 2 5) ∧
    decode (.word 0x02682A83#32) = .ok (.mov true true 2 5) ∧
    decode (.word 0x746CCA83#32) = .ok (.sel 58 false 3 false 2 5) := by decide +kernel

theorem test_decode_major_00_2 :
    decode (.word 0x9470C983#32) = .ok (.cmp true 10 false 3 false 2 3) ∧
    decode (.word 0x00742903#32) = .ok (.xset true 2 2) ∧
    decode (.word 0x00782A83#32) = .ok (.xget true 2 5) := by decide +kernel

theorem test_decode_major_05_0 :
    decode (.word 0x83F6EA97#32) = .ok (.andi true 4059 true 2 5) ∧
    decode (.word 0x87FD8A97#32) = .ok (.ori true 4086 false 2 5) ∧
    decode (.word 0x8BE36A97#32) = .ok (.xori true 3981 true 2 5) ∧
    decode (.word 0x8C2A0A97#32) = .ok (.shli true 168 false 2 5) ∧
    decode (.word 0x9011EA97#32) = .ok (.shri true 71 true 2 5) ∧
    decode (.word 0x94188A97#32) = .ok (.sari true 98 false 2 5) ∧
    decode (.word 0x980E6A97#32) = .ok (.roli true 57 true 2 5) ∧
    decode (.word 0x9C350A97#32) = .ok (.rori true 212 false 2 5) ∧
    decode (.word 0xA3BCEA97#32) = .ok (.muli true 3827 true 2 5) := by decide +kernel

theorem test_decode_major_01_0 :
    decode (.word 0x9BA56A87#32) = .ok (.addi 159381 true 2 5) := by decide +kernel

theorem test_decode_major_02_0 :
    decode (.word 0x9BAC028B#32) = .ok (.movi 159408 5) := by decide +kernel

theorem test_decode_major_03_0 :
    decode (.word 0x9B53EA8F#32) = .ok (.movh 159055 true 2 5) := by decide +kernel

theorem test_decode_major_04_0 :
    decode (.word 0xAB47E993#32) = .ok (.cmpi 42 3359 true 2 3) := by decide +kernel

theorem test_decode_major_06_0 :
    decode (.word 0x0202EA9B#32) = .ok (.padd 1 true 3 true 2 5) ∧
    decode (.word 0x0204CA9B#32) = .ok (.psub 1 false 3 false 2 5) ∧
    decode (.word 0x0A08CA9B#32) = .ok (.padds true 1 false 3 false 2 5) ∧
    decode (.word 0x0A0EEA9B#32) = .ok (.psubs true 1 true 3 true 2 5) ∧
    decode (.word 0x0212EA9B#32) = .ok (.pmul 1 true 3 true 2 5) ∧
    decode (.word 0x0A16EA9B#32) = .ok (.pmulh true 1 true 3 true 2 5) ∧
    decode (.word 0x0A18CA9B#32) = .ok (.pdot true 1 false 3 false 2 5) ∧
    decode (.word 0x0A1EEA9B#32) = .ok (.pavg true 1 true 3 true 2 5) ∧
    decode (.word 0x0A20CA9B#32) = .ok (.pmin true 1 false 3 false 2 5) ∧
    decode (.word 0x0A26EA9B#32) = .ok (.pmax true 1 true 3 true 2 5) ∧
    decode (.word 0x02282A9B#32) = .ok (.pabs 1 true 2 5) ∧
    decode (.word 0x0A2EEA9B#32) = .ok (.psad true 1 true 3 true 2 5) ∧
    decode (.word 0x0A30CA9B#32) = .ok (.pclip true 1 false 3 false 2 5) ∧
    decode (.word 0x0234CA9B#32) = .ok (.pshl 1 false 3 false 2 5) := by decide +kernel

theorem test_decode_major_06_1 :
    decode (.word 0x023AEA9B#32) = .ok (.pshr 1 true 3 true 2 5) ∧
    decode (.word 0x023CCA9B#32) = .ok (.psar 1 false 3 false 2 5) ∧
    decode (.word 0x0242EA9B#32) = .ok (.pvshl 1 true 3 true 2 5) ∧
    decode (.word 0x0244CA9B#32) = .ok (.pvshr 1 false 3 false 2 5) ∧
    decode (.word 0x024AEA9B#32) = .ok (.pvsar 1 true 3 true 2 5) ∧
    decode (.word 0x624EE99B#32) = .ok (.pcmp 6 1 true 3 true 2 3) ∧
    decode (.word 0x5250CA9B#32) = .ok (.psel 5 1 false 3 false 2 5) ∧
    decode (.word 0x0056EA9B#32) = .ok (.pperm true 3 true 2 5) ∧
    decode (.word 0x0A58CA9B#32) = .ok (.pnarrow true 1 false 3 false 2 5) ∧
    decode (.word 0x0A5C4A9B#32) = .ok (.pwiden true 1 true false 2 5) := by decide +kernel

theorem test_decode_major_07_0 :
    decode (.word 0x0002CA9F#32) = .ok (.fadd true 3 false 2 5) ∧
    decode (.word 0x0006EA9F#32) = .ok (.fsub true 3 true 2 5) ∧
    decode (.word 0x000ACA9F#32) = .ok (.fmul true 3 false 2 5) ∧
    decode (.word 0x000EEA9F#32) = .ok (.fma true 3 true 2 5) ∧
    decode (.word 0x0012CA9F#32) = .ok (.fdiv true 3 false 2 5) ∧
    decode (.word 0x00142A9F#32) = .ok (.fsqrt true 2 5) ∧
    decode (.word 0x001ACA9F#32) = .ok (.fmin true 3 false 2 5) ∧
    decode (.word 0x001EEA9F#32) = .ok (.fmax true 3 true 2 5) ∧
    decode (.word 0x4222E99F#32) = .ok (.fcmp 33 true 3 true 2 3) ∧
    decode (.word 0x18240A9F#32) = .ok (.fcvt 12 false 2 5) ∧
    decode (.word 0x362AE81F#32) = .ok (.fclass 27 true 3 true 2) := by decide +kernel

theorem test_decode_major_08_0 :
    decode (.word 0x6C000023#32) = .ok (.pset 54) ∧
    decode (.word 0x1A040023#32) = .ok (.pclr 13) ∧
    decode (.word 0x00080AA3#32) = .ok (.pnot 2 5) ∧
    decode (.word 0x000CCAA3#32) = .ok (.pand 3 2 5) ∧
    decode (.word 0x0010CAA3#32) = .ok (.por 3 2 5) ∧
    decode (.word 0x0014CAA3#32) = .ok (.pxor 3 2 5) ∧
    decode (.word 0x001802A3#32) = .ok (.pwr 5) ∧
    decode (.word 0x001EC823#32) = .ok (.pww true 3 false 2) ∧
    decode (.word 0x00202AA3#32) = .ok (.pcnt true 2 5) := by decide +kernel

theorem test_decode_major_09_0 :
    decode (.word 0xFCB1AA27#32) = .ok (.ld 2021 4 3 true 2 4) := by decide +kernel

theorem test_decode_major_0a_0 :
    decode (.word 0xF011AA2B#32) = .ok (.st 1920 4 3 false true 2 4) := by decide +kernel

theorem test_decode_major_0b_0 :
    decode (.word 0xFC118A2F#32) = .ok (.ldAnchorRel 31 16 4 3 false 2 4) ∧
    decode (.word 0xD3F1CA2F#32) = .ok (.stAnchorRel 26 15 4 3 true false 2 4) := by decide +kernel

theorem test_decode_major_0c_0 :
    decode (.word 0xA802EAB3#32) = .ok (.amoAdd true 2 4 true 3 true 2 5) ∧
    decode (.word 0xA804CAB3#32) = .ok (.amoAnd true 2 4 false 3 false 2 5) ∧
    decode (.word 0xA80AEAB3#32) = .ok (.amoOr true 2 4 true 3 true 2 5) ∧
    decode (.word 0xA80CCAB3#32) = .ok (.amoXor true 2 4 false 3 false 2 5) ∧
    decode (.word 0xA812EAB3#32) = .ok (.amoMinS true 2 4 true 3 true 2 5) ∧
    decode (.word 0xA814CAB3#32) = .ok (.amoMaxS true 2 4 false 3 false 2 5) ∧
    decode (.word 0xA81AEAB3#32) = .ok (.amoSwp true 2 4 true 3 true 2 5) ∧
    decode (.word 0xA81CCAB3#32) = .ok (.amoCas true 2 4 false 3 false 2 5) ∧
    decode (.word 0xA822EAB3#32) = .ok (.amoFadd true 2 4 true 3 true 2 5) ∧
    decode (.word 0xA824CAB3#32) = .ok (.amoMinZ true 2 4 false 3 false 2 5) ∧
    decode (.word 0xA82AEAB3#32) = .ok (.amoMaxZ true 2 4 true 3 true 2 5) ∧
    decode (.word 0xA900C833#32) = .ok (.amoAddPost true 2 4 false 3 false 2) ∧
    decode (.word 0xA906E833#32) = .ok (.amoAndPost true 2 4 true 3 true 2) ∧
    decode (.word 0xA908C833#32) = .ok (.amoOrPost true 2 4 false 3 false 2) := by decide +kernel

theorem test_decode_major_0c_1 :
    decode (.word 0xA90EE833#32) = .ok (.amoXorPost true 2 4 true 3 true 2) ∧
    decode (.word 0xA910C833#32) = .ok (.amoMinSPost true 2 4 false 3 false 2) ∧
    decode (.word 0xA916E833#32) = .ok (.amoMaxSPost true 2 4 true 3 true 2) ∧
    decode (.word 0xA918C833#32) = .ok (.amoSwpPost true 2 4 false 3 false 2) ∧
    decode (.word 0xA91EE833#32) = .ok (.amoCasPost true 2 4 true 3 true 2) ∧
    decode (.word 0xA920C833#32) = .ok (.amoFaddPost true 2 4 false 3 false 2) ∧
    decode (.word 0xA926E833#32) = .ok (.amoMinZPost true 2 4 true 3 true 2) ∧
    decode (.word 0xA928C833#32) = .ok (.amoMaxZPost true 2 4 false 3 false 2) := by decide +kernel

theorem test_decode_major_0d_0 :
    decode (.word 0x06000AB7#32) = .ok (.ldN true true false 2 5) ∧
    decode (.word 0x0204C837#32) = .ok (.stN true false 3 false 2) ∧
    decode (.word 0x02082837#32) = .ok (.pf 1 true 2) ∧
    decode (.word 0x000C2837#32) = .ok (.cflush true 2) ∧
    decode (.word 0x00102837#32) = .ok (.cinval true 2) ∧
    decode (.word 0x02100037#32) = .ok (.cinvalAll) ∧
    decode (.word 0x18140037#32) = .ok (.fence 1 4) ∧
    decode (.word 0x0018CAB7#32) = .ok (.stv 0 false 3 false 2 5) ∧
    decode (.word 0x001C2837#32) = .ok (.twait true 2) ∧
    decode (.word 0x34200937#32) = .ok (.xld 26 false 2 2) := by decide +kernel

theorem test_decode_major_0e_0 :
    decode (.word 0x0800283B#32) = .ok (.semV 4 true 2) ∧
    decode (.word 0x0804083B#32) = .ok (.semP 4 false 2) ∧
    decode (.word 0x080AE83B#32) = .ok (.jcAdd 4 true 3 true 2) ∧
    decode (.word 0x000EE83B#32) = .ok (.jcWait true 3 true 2) ∧
    decode (.word 0x0812EABB#32) = .ok (.waitMem 4 true 3 true 2 5) ∧
    decode (.word 0x0014003B#32) = .ok (.yield) ∧
    decode (.word 0x0018003B#32) = .ok (.exit) ∧
    decode (.word 0x001EEABB#32) = .ok (.spawn true 3 true 2 5) ∧
    decode (.word 0x021ECABB#32) = .ok (.spawnDef true 3 false 2 5) ∧
    decode (.word 0x0820C83B#32) = .ok (.chunkInit 4 false 3 false 2) ∧
    decode (.word 0x062402BB#32) = .ok (.chunk 3 5) ∧
    decode (.word 0x0428C83B#32) = .ok (.barCfg 2 false 3 false 2) ∧
    decode (.word 0x022C02BB#32) = .ok (.barArr 1 5) ∧
    decode (.word 0x0030083B#32) = .ok (.barWait 0 false 2) := by decide +kernel

theorem test_decode_major_0e_1 :
    decode (.word 0x08340ABB#32) = .ok (.barTest true 0 false 2 5) ∧
    decode (.word 0x0438C83B#32) = .ok (.ksend 2 false 3 false 2) ∧
    decode (.word 0x023EE83B#32) = .ok (.kbinCfg 1 true 3 true 2) ∧
    decode (.word 0x084002BB#32) = .ok (.idr 4 5) ∧
    decode (.word 0x004402BB#32) = .ok (.gtime 5) ∧
    decode (.word 0x024402BB#32) = .ok (.gtimeLk 5) ∧
    decode (.word 0x004802BB#32) = .ok (.cyc 5) ∧
    decode (.word 0x024802BB#32) = .ok (.cycT 5) ∧
    decode (.word 0x004C2ABB#32) = .ok (.launch true 2 5) := by decide +kernel

theorem test_decode_major_0f_0 :
    decode (.word 0x00002ABF#32) = .ok (.talloc true 2 5) ∧
    decode (.word 0x0004283F#32) = .ok (.tfree true 2) ∧
    decode (.word 0x000AEABF#32) = .ok (.tview true 3 true 2 5) ∧
    decode (.word 0x000C2ABF#32) = .ok (.tinfo true 2 5) ∧
    decode (.word 0x00102ABF#32) = .ok (.tget true 2 5) ∧
    decode (.word 0x0016C83F#32) = .ok (.tset true 3 false 2) ∧
    decode (.word 0x0018003F#32) = .ok (.vfence) ∧
    decode (.word 0x001C02BF#32) = .ok (.vbusy 5) := by decide +kernel

theorem test_decode_major_10_0 :
    decode (.word 0x0002EA43#32) = .ok (.vadd true 3 true 2 true false) ∧
    decode (.word 0x0202C943#32) = .ok (.vsub true 3 false 2 false true) ∧
    decode (.word 0x0402EA43#32) = .ok (.vmul true 3 true 2 true false) ∧
    decode (.word 0x0602C943#32) = .ok (.vfma true 3 false 2 false true) ∧
    decode (.word 0x0802EA43#32) = .ok (.vmin true 3 true 2 true false) ∧
    decode (.word 0x0A02C943#32) = .ok (.vmax true 3 false 2 false true) ∧
    decode (.word 0x0C002A43#32) = .ok (.vabs true 2 true false) ∧
    decode (.word 0x0E002943#32) = .ok (.vneg true 2 false true) ∧
    decode (.word 0x10002A43#32) = .ok (.vexp2 true 2 true false) ∧
    decode (.word 0x12002943#32) = .ok (.vlog2 true 2 false true) ∧
    decode (.word 0x14002A43#32) = .ok (.vrcp true 2 true false) ∧
    decode (.word 0x16002943#32) = .ok (.vrsqrt true 2 false true) ∧
    decode (.word 0x18002A43#32) = .ok (.vtanh true 2 true false) ∧
    decode (.word 0x1A002943#32) = .ok (.vcvt true 2 false true) := by decide +kernel

theorem test_decode_major_10_1 :
    decode (.word 0x1C0CC943#32) = .ok (.vcmp 3 false 3 false 2 false true) ∧
    decode (.word 0x1E02C943#32) = .ok (.vsel true 3 false 2 false true) ∧
    decode (.word 0x20080943#32) = .ok (.vrowred 2 false 2 false true) ∧
    decode (.word 0x22042A43#32) = .ok (.vcolred 1 true 2 true false) ∧
    decode (.word 0x24040943#32) = .ok (.vbcast true false 2 false true) ∧
    decode (.word 0x26002943#32) = .ok (.vtrans true 2 false true) ∧
    decode (.word 0x28040943#32) = .ok (.vscale true false 2 false true) ∧
    decode (.word 0x2A002943#32) = .ok (.vquant true 2 false true) ∧
    decode (.word 0x2C04C943#32) = .ok (.vshl true false 3 false 2 false true) ∧
    decode (.word 0x2E06EA43#32) = .ok (.vshr true true 3 true 2 true false) ∧
    decode (.word 0x3004C943#32) = .ok (.vsar true false 3 false 2 false true) ∧
    decode (.word 0x32002943#32) = .ok (.vclamp true 2 false true) ∧
    decode (.word 0x34002A43#32) = .ok (.vmov true 2 true false) ∧
    decode (.word 0x36002943#32) = .ok (.vfill true 2 false true) := by decide +kernel

theorem test_decode_major_10_2 :
    decode (.word 0x38040943#32) = .ok (.vmask true false 2 false true) ∧
    decode (.word 0x4034C943#32) = .ok (.mma true true false true false 3 false 2 false true) ∧
    decode (.word 0x4202EA43#32) = .ok (.mdrain true 3 true 2 true false) ∧
    decode (.word 0x5002C943#32) = .ok (.cpyMt true 3 false 2 false true) ∧
    decode (.word 0x5006EA43#32) = .ok (.cpyTm true 3 true 2 true false) ∧
    decode (.word 0x500AC943#32) = .ok (.cpyMm true 3 false 2 false true) ∧
    decode (.word 0x5202EA43#32) = .ok (.gath true 3 true 2 true false) ∧
    decode (.word 0x5402C943#32) = .ok (.scat true 3 false 2 false true) := by decide +kernel

theorem test_decode_major_11_0 :
    decode (.word 0x000002C7#32) = .ok (.trgen 5) ∧
    decode (.word 0x0006CAC7#32) = .ok (.relaunch true 3 false 2 5) ∧
    decode (.word 0x000AEAC7#32) = .ok (.relaunchRepair true 3 true 2 5) ∧
    decode (.word 0x000C02C7#32) = .ok (.trstat 5) ∧
    decode (.word 0x00102AC7#32) = .ok (.dmread true 2 5) ∧
    decode (.word 0x0614C847#32) = .ok (.dmmark true true false 3 false 2) := by decide +kernel

theorem test_decode_major_12_0 :
    decode (.word 0x4800004B#32) = .ok (.sys 36) ∧
    decode (.word 0x0004004B#32) = .ok (.eret) ∧
    decode (.word 0x3C0802CB#32) = .ok (.srd 30 5) ∧
    decode (.word 0x6A0C284B#32) = .ok (.swr 53 true 2) ∧
    decode (.word 0x00100ACB#32) = .ok (.ctxLd 0 false 2 5) ∧
    decode (.word 0x1E16EACB#32) = .ok (.ctxSt 15 true 3 true 2 5) ∧
    decode (.word 0x00182ACB#32) = .ok (.ctxReady true 2 5) ∧
    decode (.word 0x021C2ACB#32) = .ok (.ctxEvict true true 2 5) ∧
    decode (.word 0x00202ACB#32) = .ok (.ctxPark true 2 5) ∧
    decode (.word 0x02202ACB#32) = .ok (.ctxParkKill true 2 5) ∧
    decode (.word 0x2626E84B#32) = .ok (.tlbi 2 3 true 3 true 2) ∧
    decode (.word 0x002ACACB#32) = .ok (.bmode true 3 false 2 5) ∧
    decode (.word 0x002C284B#32) = .ok (.slotPark true 2) ∧
    decode (.word 0x0030284B#32) = .ok (.slotFree true 2) := by decide +kernel

theorem test_decode_major_12_1 :
    decode (.word 0x00342ACB#32) = .ok (.dstop true 2 5) ∧
    decode (.word 0x0038004B#32) = .ok (.halt) := by decide +kernel

theorem test_decode_major_13_0 :
    decode (.word 0x0000284F#32) = .ok (.jr true 2) ∧
    decode (.word 0x0004284F#32) = .ok (.jrL true 2) ∧
    decode (.word 0x0008004F#32) = .ok (.nop) := by decide +kernel

theorem test_decode_major_14_0 :
    decode (.word 0x053A32D3#32) = .ok (.b 685157) := by decide +kernel

theorem test_decode_major_15_0 :
    decode (.word 0x053A0057#32) = .ok (.bl 685056) := by decide +kernel

theorem test_decode_major_16_0 :
    decode (.word 0x9D37E85B#32) = .ok (.bz 160991 true 2) ∧
    decode (.word 0x9D3E88DB#32) = .ok (.bnz 161018 false 2) ∧
    decode (.word 0x9D24495B#32) = .ok (.bany 160913 2) ∧
    decode (.word 0x9D2B09DB#32) = .ok (.ball 160940 2) ∧
    decode (.word 0x92D2CA5B#32) = .ok (.bnone 150347 2) ∧
    decode (.word 0x92D98ADB#32) = .ok (.loop 150374 false 2) := by decide +kernel

theorem test_decode_major_17_0 :
    decode (.word 0x92CF5B5F#32) = .ok (.bpt 150333 54) ∧
    decode (.word 0x92F626DF#32) = .ok (.bpf 150488 13) := by decide +kernel

theorem test_decode_major_1c_0 :
    decode (.word 0x0002CAF3#32) = .ok (.dadd true 3 false 2 5) ∧
    decode (.word 0x0006EAF3#32) = .ok (.dsub true 3 true 2 5) ∧
    decode (.word 0x000ACAF3#32) = .ok (.dmul true 3 false 2 5) ∧
    decode (.word 0x000EEAF3#32) = .ok (.dfma true 3 true 2 5) ∧
    decode (.word 0x0012CAF3#32) = .ok (.ddiv true 3 false 2 5) ∧
    decode (.word 0x00142AF3#32) = .ok (.dsqrt true 2 5) ∧
    decode (.word 0x14182AF3#32) = .ok (.dcvtTo 5 true 2 5) ∧
    decode (.word 0x02180AF3#32) = .ok (.dcvtFrom 0 false 2 5) ∧
    decode (.word 0x1E1EE9F3#32) = .ok (.dcmp 15 true 3 true 2 3) := by decide +kernel

theorem test_decode_major_1d_0 :
    decode (.word 0x0002E877#32) = .ok (.bsopen true 3 true 2) ∧
    decode (.word 0x0006C2F7#32) = .ok (.getb true 3 5) ∧
    decode (.word 0xB80402F7#32) = .ok (.getbImm 28 5) ∧
    decode (.word 0x000AC2F7#32) = .ok (.peekb true 3 5) ∧
    decode (.word 0xAC0802F7#32) = .ok (.peekbImm 22 5) ∧
    decode (.word 0x000EC077#32) = .ok (.skipb true 3) ∧
    decode (.word 0x900C0077#32) = .ok (.skipbImm 8) ∧
    decode (.word 0x001002F7#32) = .ok (.getue 5) ∧
    decode (.word 0x001402F7#32) = .ok (.getse 5) ∧
    decode (.word 0x00180077#32) = .ok (.bsalign) ∧
    decode (.word 0x161EEAF7#32) = .ok (.crc true 3 true 3 true 2 5) := by decide +kernel

theorem test_decode_c16_q0_0 :
    decode (.half 0x1564#16) = .ok (.addiC16 5 2 25) ∧
    decode (.half 0x3550#16) = .ok (.andiC16 5 2 20) ∧
    decode (.half 0x554C#16) = .ok (.shliC16 5 2 19) ∧
    decode (.half 0x7538#16) = .ok (.shriC16 5 2 14) ∧
    decode (.half 0x9514#16) = .ok (.sariC16 5 2 5) ∧
    decode (.half 0xB500#16) = .ok (.ldDC16 5 2 0) ∧
    decode (.half 0xD57C#16) = .ok (.stDC16 5 2 31) ∧
    decode (.half 0xF704#16) = .ok (.moviC16 5 193) := by decide +kernel

theorem test_decode_c16_q1_0 :
    decode (.half 0x1531#16) = .ok (.addC16 5 2 3) ∧
    decode (.half 0x1535#16) = .ok (.subC16 5 2 3) ∧
    decode (.half 0x1539#16) = .ok (.andC16 5 2 3) ∧
    decode (.half 0x153D#16) = .ok (.orC16 5 2 3) ∧
    decode (.half 0x3531#16) = .ok (.xorC16 5 2 3) ∧
    decode (.half 0x3535#16) = .ok (.andnC16 5 2 3) ∧
    decode (.half 0x3539#16) = .ok (.mulC16 5 2 3) ∧
    decode (.half 0x350D#16) = .ok (.movC16 5 2) ∧
    decode (.half 0x5531#16) = .ok (.shlC16 5 2 3) ∧
    decode (.half 0x5535#16) = .ok (.shrC16 5 2 3) ∧
    decode (.half 0x5539#16) = .ok (.sarC16 5 2 3) ∧
    decode (.half 0x7579#16) = .ok (.ldWC16 5 2 30) ∧
    decode (.half 0x9555#16) = .ok (.stWC16 5 2 21) ∧
    decode (.half 0xE101#16) = .ok (.jrC16 2) := by decide +kernel

theorem test_decode_c16_q1_1 :
    decode (.half 0xE005#16) = .ok (.exitC16) ∧
    decode (.half 0xE009#16) = .ok (.yieldC16) ∧
    decode (.half 0xE00D#16) = .ok (.nopC16) := by decide +kernel

theorem test_decode_c16_q2_0 :
    decode (.half 0x1972#16) = .ok (.bzC16 6 2 28) ∧
    decode (.half 0x356E#16) = .ok (.bnzC16 5 2 27) ∧
    decode (.half 0x50A2#16) = .ok (.bC16 1064) ∧
    decode (.half 0x63E2#16) = .ok (.bptC16 7 24) ∧
    decode (.half 0x915E#16) = .ok (.bpfC16 34 23) ∧
    decode (.half 0xF282#16) = .ok (.fmt 9 2 false) := by decide +kernel

/-- 06 R135, 09 Table 9-3: without PER a shift has no operand B, and its field is reserved. -/
theorem test_decode_shift_b :
    decode (.word (22#7 ++ 0#7 ++ 0#1 ++ 0#3 ++ 0#1 ++ 2#3 ++ 2#3 ++ 16#5 ++ 3#2)) = .ok (.vshl false false 0 false 2 false true) ∧
    decode (.word (22#7 ++ 0#7 ++ 0#1 ++ 3#3 ++ 0#1 ++ 2#3 ++ 2#3 ++ 16#5 ++ 3#2)) = .err .reservedField ∧
    decode (.word (23#7 ++ 0#7 ++ 1#1 ++ 0#3 ++ 0#1 ++ 2#3 ++ 2#3 ++ 16#5 ++ 3#2)) = .err .reservedField ∧
    decode (.word (24#7 ++ 0#7 ++ 0#1 ++ 7#3 ++ 0#1 ++ 2#3 ++ 2#3 ++ 16#5 ++ 3#2)) = .err .reservedField := by decide +kernel

/-! ### The words of the spec's worked examples -/

/-- 06 after R144 and R146, 07 after R169, R172, R177, R178 and R181. -/
theorem test_example_words_scalar :
    decode (.word 0x0202C883) = .ok (.add true true 3 false 2 1) ∧
    decode (.half 0x14E5) = .ok (.subC16 5 1 6) ∧
    decode (.half 0xEF42) = .ok (.fmt 7 5 false) ∧
    decode (.word 0x00C68D8F) = .ok (.movh 0x31A false 3 3) ∧
    decode (.word 0x17FF4913) = .ok (.cmpi 5 0xFFD false 2 2) ∧
    decode (.word 0x04119503) = .ok (.div true false false 6 false 5 2) ∧
    decode (.word 0x0A08859B) = .ok (.padds true 1 false 2 false 1 3) ∧
    decode (.word 0x224C851B) = .ok (.pcmp 2 1 false 2 false 1 2) ∧
    decode (.word 0x000CC8F3) = .ok (.dfma false 3 false 2 1) ∧
    decode (.word 0xFFFE96DB) = .ok (.loop (-6) false 5) := by decide +kernel

/-- 06 after R142, 08 after R193, R200, R203 and R208. -/
theorem test_example_words_memory :
    decode (.word 0x00490A27) = .ok (.ld 2 2 2 false 2 4) ∧
    decode (.word 0xFFD19AAB) = .ok (.st (-2) 4 3 false false 6 5) ∧
    decode (.word 0x17E10E2F) = .ok (.stAnchorRel 2 (-1) 0 2 false false 3 4) ∧
    decode (.word 0xB800CA33) = .ok (.amoAdd true 3 4 false 3 false 2 4) ∧
    decode (.word 0x18140037) = .ok (.fence 1 4) ∧
    decode (.word 0x08040C3B) = .ok (.semP 4 false 3) := by decide +kernel

/-- 09 after R237 and R245, and 10 after R278. -/
theorem test_example_words_tile :
    decode (.word 0x00015243) = .ok (.vadd false 5 false 4 true false) ∧
    decode (.word 0x00015043) = .ok (.vadd false 5 false 4 false false) ∧
    decode (.word 0x4034CA43) = .ok (.mma true true false true false 3 false 2 true false) ∧
    decode (.word 0x000000C7) = .ok (.trgen 1) ∧
    decode (.word 0x0004CA47) = .ok (.relaunch false 3 false 2 4) ∧
    decode (.word 0x0008CA47) = .ok (.relaunchRepair false 3 false 2 4) ∧
    decode (.word 0x000C02C7) = .ok (.trstat 5) ∧
    decode (.word 0x00100B47) = .ok (.dmread false 2 6) ∧
    decode (.word 0x0014C847) = .ok (.dmmark false false false 3 false 2) ∧
    decode (.word 0x0214C847) = .ok (.dmmark false true false 3 false 2) := by decide +kernel

/-- 13 after R318 and Table 13-2. -/
theorem test_example_words_system :
    decode (.word 0x0A00004B) = .ok (.sys 5) ∧
    decode (.word 0x020801CB) = .ok (.srd 1 3) ∧
    decode (.word 0x022000CB) = .ok (.ctxParkKill false 0 1) ∧
    decode (.word 0x061582CB) = .ok (.ctxSt 3 false 6 false 0 5) ∧
    decode (.word 0x001802CB) = .ok (.ctxReady false 0 5) ∧
    decode (.word 0x0004004B) = .ok .eret := by decide +kernel

/-- 06 Table 6-10: the zero halfword, two reserved majors, a reserved 16-bit slot, an unassigned SYS function, reserved bits of
`fence` and of `fmt`, and a reserved scope of `fence`. -/
theorem test_decode_refuses :
    decode (.half 0x0000) = .err .zeroHalfword ∧ decode (.word 0x00000063) = .err .reservedMajor ∧
    decode (.word 0x0000007F) = .err .reservedMajor ∧ decode (.half 0xA001) = .err .reservedMajor ∧
    decode (.word 0x01FC004B) = .err .unassigned ∧ decode (.word 0x58140037) = .err .reservedField ∧
    decode (.half 0xEF46) = .err .reservedField ∧ decode (.word 0x1C140037) = .err .reservedValue := by decide +kernel

/-! ### Small states -/

/-- A context of partition 0 whose general registers hold the numbers of a list and 0 after it, every register full. -/
def regs (l : List Nat) : Ctx :=
  { w := Vector.ofFn fun i => BitVec.ofNat 64 (nth l i.val 0), few := 0xFF, fee := 0xF, lastCore := some 0, blk := 3 }
/-- A page table of partition 0: virtual page 0 of the low half and of the context window map to physical page 0. -/
def tables : Memory :=
  [(12288, 1), (12290, 2), (24576, 1), (24578, 3), (36864, 1), (36866, 4), (49152, 15),
   (61440, 1), (61442, 6), (73728, 1), (73730, 7), (86016, 1), (86018, 8), (98304, 63)]
/-- The translation of that page of the low half, as a TLB holds it. -/
def page0 : TlbEntry := ⟨0, false, 4, 0, 0, true, true, true, true⟩
/-- A started block of launch 7. -/
def block : Block := { launch := 7, index := 2, cluster := 0, anchor := 0, banks := [3, 4], pool := [], live := [1152] }
/-- A thread of block 3 issues at slot 0 of core 0; nothing is in flight. -/
def base : State :=
  { th := { regs [] with cva := 2 ^ 56 + 1152 }, cur := some ⟨0, 0, 1152⟩, mem := tables, gtime := 10000000,
    ctxs := [(1280, { regs [] with cva := 2 ^ 56 + 1280 }), (1408, regs [])],
    cdir := [(1152, { holder := .core 0 }), (1280, { holder := .core 0 }), (1408, { holder := .core 0 })],
    cores := [(0, { slots := [{ ctx := some 1152, fence := some [] }] ++ List.replicate 15 {}, tlb := [page0], resident := [1152, 1280, 1408] })],
    clusters := [(0, { tlb := [page0] })],
    blocks := [(3, block)],
    parts := [(0, { ptHi := BitVec.ofNat 64 (2 ^ 63 + 1), ptLo := BitVec.ofNat 64 (2 ^ 63 + 5) })] }
/-- The same with die sets of one die. -/
def small : State := { base with mode := 2 }
/-- The state with the issuing thread changed. -/
def th (f : Ctx → Ctx) (s : State) : State := { s with th := f s.th }
/-- The state with the issuing thread's general registers at the numbers of a list. -/
def w (l : List Nat) : State → State := th fun c => { c with w := (regs l).w }
/-- The state with its extension registers at the numbers of a list. -/
def e (l : List Nat) : State → State := th fun c => { c with e := Vector.ofFn fun i => BitVec.ofNat 64 (nth l i.val 0) }
/-- The state with another context changed. -/
def cx (id : Nat) (f : Ctx → Ctx) (s : State) : State := { s with ctxs := put s.ctxs id (f (s.ctx id)) }
/-- The state with the home's entry of a context line changed. -/
def en (id : Nat) (f : CtxEntry → CtxEntry) (s : State) : State := { s with cdir := put s.cdir id (f (s.centry id)) }
/-- The state with core 0 changed. -/
def core (f : Core → Core) (s : State) : State := { s with cores := put s.cores 0 (f (s.core 0)) }
/-- The state with cluster 0 changed. -/
def clus (f : Cluster → Cluster) (s : State) : State := { s with clusters := put s.clusters 0 (f (s.cluster 0)) }
/-- The state with a die changed. -/
def die (n : Nat) (f : Die → Die) (s : State) : State := { s with dies := put s.dies n (f (s.die n)) }
/-- The state with partition 0 changed. -/
def part (f : Partition → Partition) (s : State) : State := { s with parts := put s.parts 0 (f (s.part 0)) }
/-- The state with die set 0 changed. -/
def set (f : DieSet → DieSet) (s : State) : State := { s with sets := put s.sets 0 (f (s.set 0)) }
/-- The state with an end of a link changed. -/
def lnk (d l : Nat) (f : LinkEnd → LinkEnd) (s : State) : State := { s with links := put s.links (32 * d + l) (f (s.link d l)) }
/-- The state with the directory entry of a line given. -/
def dirE (n : Nat) (x : DirEntry) (s : State) : State := { s with dir := put s.dir n x }
/-- The state with a number of 8 bytes in the core stores. -/
def store (a v : Nat) (s : State) : State := { s with cstore := writeNat s.cstore a v 8 }
/-- The state with a number of some bytes in memory. -/
def memo (a v n : Nat) (s : State) : State := { s with mem := writeNat s.mem a v n }
/-- The outcome of a look-up that finds a page. -/
def hit : Look → Option (Nat × State)
  | .ok pa u => some (pa, u)
  | _ => none
/-- A launch. -/
def launch : Launch :=
  { id := 5, part := 0, entry := 0x122, blocks := 3, threads := 1, tiles := 0, place := 0, flags := 32, anchorPos := 0, seed := 99, args := 0x77,
    comp := 4096, pool := 2, rectDie := 0, rect := (0, 0, 0, 0), region := 5120, summary := 0, cap := 4, toStart := [], livePkg := 1 }
/-- A memory with a launch descriptor (02 Table 2-6) of some blocks of some threads at an address. -/
def desc (m : Memory) (a blocks threads : Nat) : Memory :=
  [(0, 0x100, 8), (8, blocks, 4), (12, threads, 2), (16, 32, 4), (0x18, 77, 8), (0x20, 0x4444, 8), (0x28, 4096, 8), (0x30, 3, 2)].foldl
    (fun m x => writeNat m (a + x.1) x.2.1 x.2.2) m
/-- What a relaunch of five blocks of which two run remembers. -/
def relaunch : Relaunch := { region := 9216, n := 5, full := 0, selected := 2, skipped := 1, old := [(2, some [(10, 4)]), (5, none)], repair := false }
/-- A tile of 4 rows of 4 elements of FP8 in the entry 3 of cluster 0. -/
def tile : Tile := { desc := 7 + 16 * 31 + 2048 * 3, launch := 5, block := 2, base := 0, granules := 4, seed := 3 }
/-- A command of context 1280 on that tile. -/
def cmd (op : Nat) : Cmd :=
  { ctx := 1280, core := 0, cluster := 0, blk := 3, op := op, mods := 0, j := false, f := false, wa := BitVec.ofNat 64 (8192 * 3), wb := 5,
    e0 := 0, e1 := 48, e2 := 0, e3 := 0, pfx := none, priv := 0, enc := 0, pc := 4 }
/-- The task of that command. -/
def task (op : Nat) : Task :=
  { cmd := cmd op, part := 0, seed := 5, order := 1,
    refs := [{ slot := 0, handle := 24576, key := 3, seed := 3, row0 := 0, rows := 1, desc := 7 + 16 * 31 + 2048 * 3, scale := false }] }
/-- An image of the package flash. -/
def image : Image := { bytes := [1, 2], signature := [], key := [] }
/-- A message from die 8 to a die in a class. -/
def message (dst cls : Nat) : LinkMsg :=
  { src := 8, dst := dst, cls := cls, bytes := 100, posted := false, tx := none, ev := .commandRetry 7, since := 100 }
/-- The state with all but four lines of the context window's page in use. -/
def crowded (s : State) : State := { s with ctxs := (List.range 92).map fun i => (128 * i, regs []) }

/-! ### Worked examples of the spec -/

/-- A value of the next state, where there is one. -/
def after {α : Type} (o : Out) (f : State → α) : Option α :=
  match o with
  | .next t => some (f t)
  | _ => none
/-- A general register of the issuing thread in the next state. -/
def reg (r : Reg) (o : Out) : Option Word := after o fun t => t.th.wv r
/-- The value of the last fill that is on its way in the next state. -/
def filled (o : Out) : Option Word :=
  after o fun t => match t.inbox.getLast? with
    | some (.registerFill _ _ _ v _ _ _ _) => v
    | _ => 0

/-- 07, after R170: `cmpi.lt.s pw.5, w2, #-3` sets the bit for −7 and clears it for 2. -/
theorem test_cmpi : after (execCmpi 5 0xFFD false 2 2 (w [0, 0, 2 ^ 64 - 7] base)) (·.th.pw) = some 0x20 ∧
    after (execCmpi 5 0xFFD false 2 2 (base |> w [0, 0, 2] |> th fun c => { c with pw := 0x21 })) (·.th.pw) = some 1 := by decide +kernel
/-- 07, after R169: 100 divided by 0 gives all ones, with remainder 100. -/
theorem test_div_zero : filled (execDiv true false false 6 false 5 2 (w [0, 0, 0, 0, 0, 100, 0] base)) = some 0xFFFFFFFFFFFFFFFF ∧
    filled (execRem true false false 6 false 5 2 (w [0, 0, 0, 0, 0, 100, 0] base)) = some 100 := by decide +kernel
/-- 07, after R169: −2^63 divided by −1 gives −2^63, with remainder 0. -/
theorem test_div_overflow :
    filled (execDiv false false false 6 false 5 2 (w [0, 0, 0, 0, 0, 2 ^ 63, 2 ^ 64 - 1] base)) = some 0x8000000000000000 ∧
    filled (execRem false false false 6 false 5 2 (w [0, 0, 0, 0, 0, 2 ^ 63, 2 ^ 64 - 1] base)) = some 0 := by decide +kernel
/-- 07, after R172: `padds.h`, unsigned and signed. -/
theorem test_padds :
    reg 3 (execPadds true 1 false 2 false 1 3 (w [0, 0xFFF0001080000001, 0x002000058000FFFF] base)) = some 0xFFFF0015FFFFFFFF ∧
    reg 3 (execPadds false 1 false 2 false 1 3 (w [0, 0xFFF0001080000001, 0x002000058000FFFF] base)) = some 0x0010001580000000 := by decide +kernel
/-- 07, after R177: under `fmt s8, rne` 127.5 becomes 127 and −200.7 becomes −128; without a prefix FP32 stays as it is. -/
theorem test_fcvt_s8 :
    reg 4 (execFcvt 6 false 3 4 (base |> w [0, 0, 0, 0x42FF0000] |> th fun c => { c with pfx := true, pfxval := 0 })) = some 0x7F ∧
    reg 4 (execFcvt 6 false 3 4 (base |> w [0, 0, 0, 0xC348B333] |> th fun c => { c with pfx := true, pfxval := 0 })) = some 0xFFFFFFFFFFFFFF80 ∧
    reg 4 (execFcvt 6 false 3 4 (w [0, 0, 0, 0x42FF0000] base)) = some 0x42FF0000 := by decide +kernel
/-- 03, before R68: 100.0, −0.3 and 2,560 in MK8. -/
theorem test_mk8 :
    convert (.flt fp32) (fmtOf 14) 0 false false 0 0x42C80000 = 0x79 ∧ convert (.flt fp32) (fmtOf 14) 0 false false 0 0xBE99999A = 0xA3 ∧
    convert (.flt fp32) (fmtOf 14) 0 false false 0 0x45200000 = 0x7E := by decide +kernel
/-- 07, after R181: `loop` back by 12 bytes counts 3 down to 2, and wraps from 0, branching. -/
theorem test_loop :
    after (execLoop (BitVec.ofInt 18 (-6)) false 5 (base |> w [0, 0, 0, 0, 0, 3] |> th fun c => { c with pc := 100 })) (fun t => (t.th.wv 5, t.th.pc)) = some (2, 88) ∧
    after (execLoop (BitVec.ofInt 18 (-6)) false 5 (base |> th fun c => { c with pc := 100 })) (fun t => (t.th.wv 5, t.th.pc)) =
      some (0xFFFFFFFFFFFFFFFF, 88) := by decide +kernel
/-- A thread whose stream of 07 Table 7-11 lies at the start of its core store, at a bit position. -/
def stream (p : Nat) : State := base |> e [8 * meshBase + p, 8 * meshBase + 16] |> store 0 0x40A6
/-- 07 Table 7-11, the rows of `getue`. -/
theorem test_getue :
    after (execGetue 4 (stream 0)) (fun t => (t.th.wv 4, t.th.ev 0)) = some (0, BitVec.ofNat 64 (8 * meshBase + 1)) ∧
    after (execGetue 4 (stream 1)) (fun t => (t.th.wv 4, t.th.ev 0)) = some (1, BitVec.ofNat 64 (8 * meshBase + 4)) ∧
    after (execGetue 4 (stream 4)) (fun t => (t.th.wv 4, t.th.ev 0)) = some (2, BitVec.ofNat 64 (8 * meshBase + 7)) := by decide +kernel
/-- 07 Table 7-11, `getse`, and `getue` at the end of the stream, which traps with cause 0x0F and the position. -/
theorem test_getse :
    after (execGetse 5 (stream 7)) (fun t => (t.th.wv 5, t.th.ev 0)) = some (2, BitVec.ofNat 64 (8 * meshBase + 12)) ∧
    after (execGetue 6 (stream 12)) (fun t => ((t.ctx 1152).cause, (t.ctx 1152).warg, (t.ctx 1152).few)) =
      some (0x0F, BitVec.ofNat 60 (8 * meshBase + 12), 0xFF) := by decide +kernel
/-- 04, after R93: from an anchor at d3:(8,4) the offsets +2 and −1 name core d3:(10,3). -/
theorem test_anchor_relative :
    anchored ({ base with blocks := [(3, { block with anchor := coreAt 3 8 4 })] }) 2 (-1) 0x100 = some 0x00FF00000C6A0100 := by decide +kernel
/-- 09, after R226: a view of a tile of 16 rows, and one past the end of a view of 4 rows. -/
theorem test_tview :
    reg 5 (execTview false 7 false 4 5 (w [0, 0, 0, 0, 0x5500C000, 0, 0, 0x408] base)) = some 0x5500C204 ∧
    after (execTview false 7 false 4 5 (w [0, 0, 0, 0, 0x5500C204, 0, 0, 0x402] base)) (fun t => ((t.ctx 1152).cause)) = some 0x0A := by
  decide +kernel
/-- 02, after R55: with N = 1,000, P = 4 and m = 8 the first four requests return starts 0, 63, 122 and 177. -/
theorem test_chunk :
    filled (execChunkRequest 0 0 1152 4 true 0 (clus (fun c => { c with chunks := [{ total := 1000, remaining := 1000, parts := 4, least := 8 }] }) base)) =
      some 0x0000003F00000000 ∧
    filled (execChunkRequest 0 0 1152 4 true 0 (clus (fun c => { c with chunks := [{ total := 1000, remaining := 937, parts := 4, least := 8 }] }) base)) =
      some 0x0000003B0000003F := by decide +kernel
/-- 02, after R43: a fill of an older epoch is discarded. -/
theorem test_stale_fill :
    after (execRegisterFill 1280 3 true 7 false 0 (.core 0) 0 (cx 1280 (fun c => { c with w := (regs [0, 0, 0, 9]).w, pend := 8, epoch := 0 }) base))
      (fun t => ((t.ctx 1280).wv 3, (t.ctx 1280).pend)) = some (9, 0) := by decide +kernel
/-- 08, after R202: an atomic add of 1 to 7 returns 7 and leaves 8. -/
theorem test_amo_add :
    after (execAtomicExecute .add false true 0 { ctx := 1280, core := 0, kind := .store, addr := 64, size := 8, data := 1, reg := 4 } (store 64 7 base))
      (fun t => readNat t.cstore 64 8) = some 8 ∧
    filled (execAtomicExecute .add false true 0 { ctx := 1280, core := 0, kind := .store, addr := 64, size := 8, data := 1, reg := 4 } (store 64 7 base)) = some 7 := by
  decide +kernel
/-- 04, after R103: a nibble store of 5 to the low half of 0x30 leaves 0x35. -/
theorem test_nibble :
    after (execNibbleStoreExecute { ctx := 1280, core := 0, kind := .nibStore false, addr := 4096, size := 1, data := 5 } (memo 4096 0x30 1 base))
      (fun t => readByte t.mem 4096) = some 0x35 := by decide +kernel
/-- 08, after R219: key 1,000 of a 4 by 4 rectangle at (8,8) with 256 bins lands at offset 0x4F8 of core (10,9). -/
theorem test_ksend :
    after (execKsend 0 false 2 false 1 (base |> w [0, 1000, 5] |> fun s => { s with blocks := [(3, { block with
        kbins := [(0, (BitVec.ofNat 64 (4 * 2 ^ 16 + 4 * 2 ^ 10 + 8 * 2 ^ 5 + 8), BitVec.ofNat 64 (256 * 2 ^ 16 + 0x400)))] })] }))
      (fun t => t.flying.any fun e => e == .ksendAccumulate (65536 * coreAt 0 10 9 + 0x4F8) false 5 1152 none) = some true := by decide +kernel
/-- 16, after R383: θ = 4 keeps a locked die locked; θ = 17 makes it lose lock. -/
theorem test_calliope :
    after (execCalliopeResult 0 1000000 1000044 1000100 1000136 (die 0 (fun d => { d with locked := true }) base))
      (fun t => ((t.die 0).theta, (t.die 0).locked)) = some (4, true) ∧
    after (execCalliopeResult 0 1000000 1000070 1000100 1000136 (die 0 (fun d => { d with locked := true }) base))
      (fun t => ((t.die 0).theta, (t.die 0).locked)) = some (17, false) := by decide +kernel
/-- 13, after R316: `add w1, w2, w3!` with w3 empty hands the dormant S handler T's CVA, cause 4, register 3 and a wait tag of 0. -/
theorem test_empty_source :
    after (execAdd false true 3 false 2 1 (base |> th (fun c => { c with few := 0xF7 }) |> core (fun c => { c with hctxS := some 1280, tdeleg := 0x10 }) |>
        cx 1280 (fun c => { c with kind := 11, handler := 1 })))
      (fun t => ((t.ctx 1280).wv 0, (t.ctx 1280).wv 1, (t.ctx 1280).wv 2, (t.ctx 1280).wv 3)) = some (BitVec.ofNat 64 (2 ^ 56 + 1152), 4, 3, 0) := by
  decide +kernel
/-- 15, after R363: physical address 12,292,096 in mode 0 is homed on md8. -/
theorem test_home : base.homeDie 0 12292096 = 8 + 8 := by decide +kernel

/-! ### Witnesses: each conjunct meets the hypotheses of one clause of the statement named -/

theorem witness_IntegerArithmetic :
    (let s := base; let a : Reg := 7; let b : Reg := 7; NoPrefix s ∧ Full s [a.toNat, b.toNat] ∧ (s.th.pair = 0 ∨ s.th.peer = none)) ∧
    (let s := base |> (th fun c => { c with pair := 1, peer := some 1280 }); let a : Reg := 0; let b : Reg := 3; NoPrefix s ∧ Full s [a.toNat, b.toNat] ∧
       s.th.pair ≠ 0 ∧ s.th.peer = some 1280 ∧ s.th.pair = 1 ∧ s.th.kind = 0) ∧
    (let s := base |> (fun s => s |> th (fun c => { c with pair := 2, peer := some 1280 }) |> cx 1280 (fun c => { c with ahead := 1 })); let a : Reg := 4;
       let b : Reg := 7; NoPrefix s ∧ Full s [a.toNat, b.toNat] ∧ s.th.pair ≠ 0 ∧ s.th.peer = some 1280 ∧ s.th.pair ≠ 1 ∧ (s.ctx 1280).ahead ≠ 0 ∧
       s.th.kind = 0) ∧
    (let s := base |> (fun s => s |> th (fun c => { c with pair := 2, peer := some 1280 })); let a : Reg := 1; let b : Reg := 7; NoPrefix s ∧
       Full s [a.toNat, b.toNat] ∧ s.th.pair ≠ 0 ∧ s.th.peer = some 1280 ∧ s.th.pair ≠ 1 ∧ (s.ctx 1280).ahead = 0 ∧ (s.ctx 1280).comparator = []) ∧
    (let s := base; let a : Reg := 2; NoPrefix s ∧ Full s [a.toNat] ∧ (s.th.pair = 0 ∨ s.th.peer = none)) ∧
    (let s := base; NoPrefix s ∧ (s.th.pair = 0 ∨ s.th.peer = none)) := by
  delta Claims.Full Claims.NoPrefix; refine ⟨?_, ?_, ?_, ?_, ?_, ?_⟩ <;> decide +kernel

theorem witness_IntegerLogic :
    (let s := base; let a : Reg := 1; let b : Reg := 3; NoPrefix s ∧ Full s [a.toNat, b.toNat] ∧ (s.th.pair = 0 ∨ s.th.peer = none)) ∧
    (let s := base |> (th fun c => { c with pair := 1, peer := some 1280 }); let a : Reg := 7; let b : Reg := 1; NoPrefix s ∧ Full s [a.toNat, b.toNat] ∧
       s.th.pair ≠ 0 ∧ s.th.peer = some 1280 ∧ s.th.pair = 1 ∧ s.th.kind = 0) ∧
    (let s := base |> (fun s => s |> th (fun c => { c with pair := 2, peer := some 1280 }) |> cx 1280 (fun c => { c with ahead := 1 })); let a : Reg := 0;
       let b : Reg := 0; NoPrefix s ∧ Full s [a.toNat, b.toNat] ∧ s.th.pair ≠ 0 ∧ s.th.peer = some 1280 ∧ s.th.pair ≠ 1 ∧ (s.ctx 1280).ahead ≠ 0 ∧
       s.th.kind = 0) ∧
    (let s := base |> (fun s => s |> th (fun c => { c with pair := 2, peer := some 1280 })); let a : Reg := 0; let b : Reg := 2; NoPrefix s ∧
       Full s [a.toNat, b.toNat] ∧ s.th.pair ≠ 0 ∧ s.th.peer = some 1280 ∧ s.th.pair ≠ 1 ∧ (s.ctx 1280).ahead = 0 ∧ (s.ctx 1280).comparator = []) ∧
    (let s := base; let a : Reg := 7; NoPrefix s ∧ Full s [a.toNat] ∧ (s.th.pair = 0 ∨ s.th.peer = none)) := by
  delta Claims.Full Claims.NoPrefix; refine ⟨?_, ?_, ?_, ?_, ?_⟩ <;> decide +kernel

theorem witness_IntegerShifts :
    (let s := base; let a : Reg := 4; let b : Reg := 1; NoPrefix s ∧ Full s [a.toNat, b.toNat] ∧ (s.th.pair = 0 ∨ s.th.peer = none)) ∧
    (let s := base |> (th fun c => { c with pair := 1, peer := some 1280 }); let a : Reg := 3; let b : Reg := 2; NoPrefix s ∧ Full s [a.toNat, b.toNat] ∧
       s.th.pair ≠ 0 ∧ s.th.peer = some 1280 ∧ s.th.pair = 1 ∧ s.th.kind = 0) ∧
    (let s := base |> (fun s => s |> th (fun c => { c with pair := 2, peer := some 1280 }) |> cx 1280 (fun c => { c with ahead := 1 })); let a : Reg := 1;
       let b : Reg := 3; NoPrefix s ∧ Full s [a.toNat, b.toNat] ∧ s.th.pair ≠ 0 ∧ s.th.peer = some 1280 ∧ s.th.pair ≠ 1 ∧ (s.ctx 1280).ahead ≠ 0 ∧
       s.th.kind = 0) ∧
    (let s := base |> (fun s => s |> th (fun c => { c with pair := 2, peer := some 1280 })); let a : Reg := 4; let b : Reg := 7; NoPrefix s ∧
       Full s [a.toNat, b.toNat] ∧ s.th.pair ≠ 0 ∧ s.th.peer = some 1280 ∧ s.th.pair ≠ 1 ∧ (s.ctx 1280).ahead = 0 ∧ (s.ctx 1280).comparator = []) ∧
    (let s := base; let a : Reg := 3; NoPrefix s ∧ Full s [a.toNat] ∧ (s.th.pair = 0 ∨ s.th.peer = none)) := by
  delta Claims.Full Claims.NoPrefix; refine ⟨?_, ?_, ?_, ?_, ?_⟩ <;> decide +kernel

theorem witness_IntegerSelect :
    (let s := base; let a : Reg := 2; let sz : BitVec 2 := 2; NoPrefix s ∧ sz ≠ 3 ∧ Full s [a.toNat] ∧ (s.th.pair = 0 ∨ s.th.peer = none)) ∧
    (let s := base |> (th fun c => { c with pair := 1, peer := some 1280 }); let a : Reg := 4; let sz : BitVec 2 := 2; NoPrefix s ∧ sz ≠ 3 ∧
       Full s [a.toNat] ∧ s.th.pair ≠ 0 ∧ s.th.peer = some 1280 ∧ s.th.pair = 1 ∧ s.th.kind = 0) ∧
    (let s := base |> (fun s => s |> th (fun c => { c with pair := 2, peer := some 1280 }) |> cx 1280 (fun c => { c with ahead := 1 })); let a : Reg := 3;
       let sz : BitVec 2 := 1; NoPrefix s ∧ sz ≠ 3 ∧ Full s [a.toNat] ∧ s.th.pair ≠ 0 ∧ s.th.peer = some 1280 ∧ s.th.pair ≠ 1 ∧ (s.ctx 1280).ahead ≠ 0 ∧
       s.th.kind = 0) ∧
    (let s := base |> (fun s => s |> th (fun c => { c with pair := 2, peer := some 1280 })); let a : Reg := 1; let sz : BitVec 2 := 2; NoPrefix s ∧
       sz ≠ 3 ∧ Full s [a.toNat] ∧ s.th.pair ≠ 0 ∧ s.th.peer = some 1280 ∧ s.th.pair ≠ 1 ∧ (s.ctx 1280).ahead = 0 ∧ (s.ctx 1280).comparator = []) ∧
    (let s := base; let a : Reg := 7; let b : Reg := 2; let sz : BitVec 2 := 2; NoPrefix s ∧ sz ≠ 3 ∧ Full s [a.toNat, b.toNat] ∧
       (s.th.pair = 0 ∨ s.th.peer = none)) := by
  delta Claims.Full Claims.NoPrefix; refine ⟨?_, ?_, ?_, ?_, ?_⟩ <;> decide +kernel

theorem witness_BitFields :
    (let s := base; let b : Reg := 2; let a : Reg := 3; NoPrefix s ∧ Full s [a.toNat, b.toNat] ∧ (s.th.pair = 0 ∨ s.th.peer = none)) ∧
    (let s := base |> (th fun c => { c with pair := 1, peer := some 1280 }); let b : Reg := 0; let a : Reg := 7; NoPrefix s ∧ Full s [a.toNat, b.toNat] ∧
       s.th.pair ≠ 0 ∧ s.th.peer = some 1280 ∧ s.th.pair = 1 ∧ s.th.kind = 0) ∧
    (let s := base |> (fun s => s |> th (fun c => { c with pair := 2, peer := some 1280 }) |> cx 1280 (fun c => { c with ahead := 1 })); let b : Reg := 2;
       let a : Reg := 3; NoPrefix s ∧ Full s [a.toNat, b.toNat] ∧ s.th.pair ≠ 0 ∧ s.th.peer = some 1280 ∧ s.th.pair ≠ 1 ∧ (s.ctx 1280).ahead ≠ 0 ∧
       s.th.kind = 0) ∧
    (let s := base |> (fun s => s |> th (fun c => { c with pair := 2, peer := some 1280 })); let b : Reg := 0; let a : Reg := 1; NoPrefix s ∧
       Full s [a.toNat, b.toNat] ∧ s.th.pair ≠ 0 ∧ s.th.peer = some 1280 ∧ s.th.pair ≠ 1 ∧ (s.ctx 1280).ahead = 0 ∧ (s.ctx 1280).comparator = []) ∧
    (let s := base; let b : Reg := 0; let a : Reg := 4; let d : Reg := 3; NoPrefix s ∧ Full s [a.toNat, b.toNat] ∧ Full s [d.toNat] ∧
       (s.th.pair = 0 ∨ s.th.peer = none)) := by
  delta Claims.Full Claims.NoPrefix; refine ⟨?_, ?_, ?_, ?_, ?_⟩ <;> decide +kernel

theorem witness_IntegerDivision :
    (let s := base; let b : Reg := 0; let a : Reg := 3; let d : Reg := 0; NoPrefix s ∧ Full s [a.toNat, b.toNat] ∧ NoPend s [d] ∧
       (s.th.pair = 0 ∨ s.th.peer = none)) ∧
    (let s := base |> (th fun c => { c with pair := 1, peer := some 1280 }); let b : Reg := 1; let a : Reg := 7; let d : Reg := 3; NoPrefix s ∧
       Full s [a.toNat, b.toNat] ∧ NoPend s [d] ∧ s.th.pair ≠ 0 ∧ s.th.peer = some 1280 ∧ s.th.pair = 1 ∧ s.th.kind = 0) ∧
    (let s := base |> (fun s => s |> th (fun c => { c with pair := 2, peer := some 1280 }) |> cx 1280 (fun c => { c with ahead := 1 })); let b : Reg := 2;
       let a : Reg := 2; let d : Reg := 4; NoPrefix s ∧ Full s [a.toNat, b.toNat] ∧ NoPend s [d] ∧ s.th.pair ≠ 0 ∧ s.th.peer = some 1280 ∧ s.th.pair ≠ 1 ∧
       (s.ctx 1280).ahead ≠ 0 ∧ s.th.kind = 0) ∧
    (let s := base |> (fun s => s |> th (fun c => { c with pair := 2, peer := some 1280 })); let b : Reg := 4; let a : Reg := 0; let d : Reg := 7;
       NoPrefix s ∧ Full s [a.toNat, b.toNat] ∧ NoPend s [d] ∧ s.th.pair ≠ 0 ∧ s.th.peer = some 1280 ∧ s.th.pair ≠ 1 ∧ (s.ctx 1280).ahead = 0 ∧
       (s.ctx 1280).comparator = []) := by
  delta Claims.Full Claims.NoPend Claims.NoPrefix; refine ⟨?_, ?_, ?_, ?_⟩ <;> decide +kernel

theorem witness_ExtensionMoves :
    (let s := base; let a : Reg := 4; let e : Reg := 3; NoPrefix s ∧ e.toNat < 4 ∧ Full s [a.toNat] ∧ s.th.epend.getLsbD e.toNat = false ∧
       (s.th.pair = 0 ∨ s.th.peer = none)) ∧
    (let s := base |> (th fun c => { c with pair := 1, peer := some 1280 }); let a : Reg := 4; let e : Reg := 2; NoPrefix s ∧ e.toNat < 4 ∧
       Full s [a.toNat] ∧ s.th.epend.getLsbD e.toNat = false ∧ s.th.pair ≠ 0 ∧ s.th.peer = some 1280 ∧ s.th.pair = 1 ∧ s.th.kind = 0) ∧
    (let s := base |> (fun s => s |> th (fun c => { c with pair := 2, peer := some 1280 }) |> cx 1280 (fun c => { c with ahead := 1 })); let a : Reg := 4;
       let e : Reg := 2; NoPrefix s ∧ e.toNat < 4 ∧ Full s [a.toNat] ∧ s.th.epend.getLsbD e.toNat = false ∧ s.th.pair ≠ 0 ∧ s.th.peer = some 1280 ∧
       s.th.pair ≠ 1 ∧ (s.ctx 1280).ahead ≠ 0 ∧ s.th.kind = 0) ∧
    (let s := base |> (fun s => s |> th (fun c => { c with pair := 2, peer := some 1280 })); let a : Reg := 2; let e : Reg := 2; NoPrefix s ∧ e.toNat < 4 ∧
       Full s [a.toNat] ∧ s.th.epend.getLsbD e.toNat = false ∧ s.th.pair ≠ 0 ∧ s.th.peer = some 1280 ∧ s.th.pair ≠ 1 ∧ (s.ctx 1280).ahead = 0 ∧
       (s.ctx 1280).comparator = []) ∧
    (let s := base; let e : Reg := 0; NoPrefix s ∧ e.toNat < 4 ∧ Full s [8 + e.toNat] ∧ (s.th.pair = 0 ∨ s.th.peer = none)) := by
  delta Claims.Full Claims.NoPrefix; refine ⟨?_, ?_, ?_, ?_, ?_⟩ <;> decide +kernel

theorem witness_Comparisons :
    (let s := base; let a : Reg := 4; let b : Reg := 2; let c : BitVec 3 := 4; NoPrefix s ∧ c.toNat < 6 ∧ Full s [a.toNat, b.toNat] ∧
       (s.th.pair = 0 ∨ s.th.peer = none)) ∧
    (let s := base |> (th fun c => { c with pair := 1, peer := some 1280 }); let a : Reg := 7; let b : Reg := 7; let c : BitVec 3 := 2; NoPrefix s ∧
       c.toNat < 6 ∧ Full s [a.toNat, b.toNat] ∧ s.th.pair ≠ 0 ∧ s.th.peer = some 1280 ∧ s.th.pair = 1 ∧ s.th.kind = 0) ∧
    (let s := base |> (fun s => s |> th (fun c => { c with pair := 2, peer := some 1280 }) |> cx 1280 (fun c => { c with ahead := 1 })); let a : Reg := 1;
       let b : Reg := 2; let c : BitVec 3 := 4; NoPrefix s ∧ c.toNat < 6 ∧ Full s [a.toNat, b.toNat] ∧ s.th.pair ≠ 0 ∧ s.th.peer = some 1280 ∧
       s.th.pair ≠ 1 ∧ (s.ctx 1280).ahead ≠ 0 ∧ s.th.kind = 0) ∧
    (let s := base |> (fun s => s |> th (fun c => { c with pair := 2, peer := some 1280 })); let a : Reg := 7; let b : Reg := 1; let c : BitVec 3 := 3;
       NoPrefix s ∧ c.toNat < 6 ∧ Full s [a.toNat, b.toNat] ∧ s.th.pair ≠ 0 ∧ s.th.peer = some 1280 ∧ s.th.pair ≠ 1 ∧ (s.ctx 1280).ahead = 0 ∧
       (s.ctx 1280).comparator = []) ∧
    (let s := base; let a : Reg := 7; let c : BitVec 3 := 4; NoPrefix s ∧ c.toNat < 6 ∧ Full s [a.toNat] ∧ (s.th.pair = 0 ∨ s.th.peer = none)) := by
  delta Claims.Full Claims.NoPrefix; refine ⟨?_, ?_, ?_, ?_, ?_⟩ <;> decide +kernel

theorem witness_PredicateWord :
    (let s := base; NoPrefix s ∧ (s.th.pair = 0 ∨ s.th.peer = none)) ∧
    (let s := base |> (th fun c => { c with pair := 1, peer := some 1280 }); NoPrefix s ∧ s.th.pair ≠ 0 ∧ s.th.peer = some 1280 ∧ s.th.pair = 1 ∧
       s.th.kind = 0) ∧
    (let s := base |> (fun s => s |> th (fun c => { c with pair := 2, peer := some 1280 }) |> cx 1280 (fun c => { c with ahead := 1 })); NoPrefix s ∧
       s.th.pair ≠ 0 ∧ s.th.peer = some 1280 ∧ s.th.pair ≠ 1 ∧ (s.ctx 1280).ahead ≠ 0 ∧ s.th.kind = 0) ∧
    (let s := base |> (fun s => s |> th (fun c => { c with pair := 2, peer := some 1280 })); NoPrefix s ∧ s.th.pair ≠ 0 ∧ s.th.peer = some 1280 ∧
       s.th.pair ≠ 1 ∧ (s.ctx 1280).ahead = 0 ∧ (s.ctx 1280).comparator = []) ∧
    (let s := base; let a : Reg := 7; let b : Reg := 7; NoPrefix s ∧ Full s [a.toNat, b.toNat] ∧ (s.th.pair = 0 ∨ s.th.peer = none)) ∧
    (let s := base; let a : Reg := 1; NoPrefix s ∧ Full s [a.toNat] ∧ (s.th.pair = 0 ∨ s.th.peer = none)) := by
  delta Claims.Full Claims.NoPrefix; refine ⟨?_, ?_, ?_, ?_, ?_, ?_⟩ <;> decide +kernel

theorem witness_Branches :
    (let s := base; NoPrefix s ∧ (s.th.pair = 0 ∨ s.th.peer = none)) ∧
    (let s := base |> (th fun c => { c with pair := 1, peer := some 1280 }); NoPrefix s ∧ s.th.pair ≠ 0 ∧ s.th.peer = some 1280 ∧ s.th.pair = 1 ∧
       s.th.kind = 0) ∧
    (let s := base |> (fun s => s |> th (fun c => { c with pair := 2, peer := some 1280 }) |> cx 1280 (fun c => { c with ahead := 1 })); NoPrefix s ∧
       s.th.pair ≠ 0 ∧ s.th.peer = some 1280 ∧ s.th.pair ≠ 1 ∧ (s.ctx 1280).ahead ≠ 0 ∧ s.th.kind = 0) ∧
    (let s := base |> (fun s => s |> th (fun c => { c with pair := 2, peer := some 1280 })); NoPrefix s ∧ s.th.pair ≠ 0 ∧ s.th.peer = some 1280 ∧
       s.th.pair ≠ 1 ∧ (s.ctx 1280).ahead = 0 ∧ (s.ctx 1280).comparator = []) ∧
    (let s := base; let a : Reg := 2; NoPrefix s ∧ Full s [a.toNat] ∧ (s.th.pair = 0 ∨ s.th.peer = none)) := by
  delta Claims.Full Claims.NoPrefix; refine ⟨?_, ?_, ?_, ?_, ?_⟩ <;> decide +kernel

theorem witness_Jumps :
    (let s := base; let a : Reg := 1; NoPrefix s ∧ Full s [a.toNat] ∧ (let x := s.th.wv a; x.toNat % 2 = 0 ∧ x.toNat < 2 ^ 57 ∧
       (s.th.pair = 0 ∨ s.th.peer = none))) ∧
    (let s := base |> (th fun c => { c with pair := 1, peer := some 1280 }); let a : Reg := 1; NoPrefix s ∧ Full s [a.toNat] ∧ (let x := s.th.wv a;
       x.toNat % 2 = 0 ∧ x.toNat < 2 ^ 57 ∧ s.th.pair ≠ 0 ∧ s.th.peer = some 1280 ∧ s.th.pair = 1 ∧ s.th.kind = 0)) ∧
    (let s := base |> (fun s => s |> th (fun c => { c with pair := 2, peer := some 1280 }) |> cx 1280 (fun c => { c with ahead := 1 })); let a : Reg := 3;
       NoPrefix s ∧ Full s [a.toNat] ∧ (let x := s.th.wv a; x.toNat % 2 = 0 ∧ x.toNat < 2 ^ 57 ∧ s.th.pair ≠ 0 ∧ s.th.peer = some 1280 ∧ s.th.pair ≠ 1 ∧
       (s.ctx 1280).ahead ≠ 0 ∧ s.th.kind = 0)) ∧
    (let s := base |> (fun s => s |> th (fun c => { c with pair := 2, peer := some 1280 })); let a : Reg := 3; NoPrefix s ∧ Full s [a.toNat] ∧
       (let x := s.th.wv a; x.toNat % 2 = 0 ∧ x.toNat < 2 ^ 57 ∧ s.th.pair ≠ 0 ∧ s.th.peer = some 1280 ∧ s.th.pair ≠ 1 ∧ (s.ctx 1280).ahead = 0 ∧
       (s.ctx 1280).comparator = [])) ∧
    (let s := base |> (w [0, 1, 0x300, 0x2000000000000000]); let a : Reg := 1; NoPrefix s ∧ Full s [a.toNat] ∧ (let x := s.th.wv a; x.toNat % 2 = 1 ∧
       Unpaired s)) ∧
    (let s := base |> (w [0, 1, 0x300, 0x2000000000000000]); let a : Reg := 3; NoPrefix s ∧ Full s [a.toNat] ∧ (let x := s.th.wv a; x.toNat % 2 = 0 ∧
       2 ^ 57 ≤ x.toNat ∧ Unpaired s)) := by
  delta Claims.Full Claims.NoPrefix Claims.Unpaired; refine ⟨?_, ?_, ?_, ?_, ?_, ?_⟩ <;> decide +kernel

theorem witness_Prefix :
    (let s := base; NoPrefix s ∧ (s.th.pair = 0 ∨ s.th.peer = none)) ∧
    (let s := base |> (th fun c => { c with pair := 1, peer := some 1280 }); NoPrefix s ∧ s.th.pair ≠ 0 ∧ s.th.peer = some 1280 ∧ s.th.pair = 1 ∧
       s.th.kind = 0) ∧
    (let s := base |> (fun s => s |> th (fun c => { c with pair := 2, peer := some 1280 }) |> cx 1280 (fun c => { c with ahead := 1 })); NoPrefix s ∧
       s.th.pair ≠ 0 ∧ s.th.peer = some 1280 ∧ s.th.pair ≠ 1 ∧ (s.ctx 1280).ahead ≠ 0 ∧ s.th.kind = 0) ∧
    (let s := base |> (fun s => s |> th (fun c => { c with pair := 2, peer := some 1280 })); NoPrefix s ∧ s.th.pair ≠ 0 ∧ s.th.peer = some 1280 ∧
       s.th.pair ≠ 1 ∧ (s.ctx 1280).ahead = 0 ∧ (s.ctx 1280).comparator = []) ∧
    (let s := base |> (th fun c => { c with pfx := true, pfxval := 64 }); s.th.pfx = true ∧ Unpaired s) ∧
    (let s := base |> (th fun c => { c with pfx := true, pfxval := 64 }); s.th.pfx = true ∧ Unpaired s ∧ s.cur ≠ none ∧
       (s.core s.hereCore).hctxM ≠ some s.here.ctx ∧ (s.core s.hereCore).hctxS ≠ some s.here.ctx) := by
  delta Claims.NoPrefix Claims.Unpaired; refine ⟨?_, ?_, ?_, ?_, ?_, ?_⟩ <;> decide +kernel

theorem witness_PackedArithmetic :
    (let s := base; let l : BitVec 2 := 2; let b : Reg := 3; let a : Reg := 7; NoPrefix s ∧ l ≠ 3 ∧ Full s [a.toNat, b.toNat] ∧
       (s.th.pair = 0 ∨ s.th.peer = none)) ∧
    (let s := base |> (th fun c => { c with pair := 1, peer := some 1280 }); let l : BitVec 2 := 2; let b : Reg := 2; let a : Reg := 3; NoPrefix s ∧
       l ≠ 3 ∧ Full s [a.toNat, b.toNat] ∧ s.th.pair ≠ 0 ∧ s.th.peer = some 1280 ∧ s.th.pair = 1 ∧ s.th.kind = 0) ∧
    (let s := base |> (fun s => s |> th (fun c => { c with pair := 2, peer := some 1280 }) |> cx 1280 (fun c => { c with ahead := 1 }));
       let l : BitVec 2 := 2; let b : Reg := 2; let a : Reg := 3; NoPrefix s ∧ l ≠ 3 ∧ Full s [a.toNat, b.toNat] ∧ s.th.pair ≠ 0 ∧ s.th.peer = some 1280 ∧
       s.th.pair ≠ 1 ∧ (s.ctx 1280).ahead ≠ 0 ∧ s.th.kind = 0) ∧
    (let s := base |> (fun s => s |> th (fun c => { c with pair := 2, peer := some 1280 })); let l : BitVec 2 := 2; let b : Reg := 7; let a : Reg := 3;
       NoPrefix s ∧ l ≠ 3 ∧ Full s [a.toNat, b.toNat] ∧ s.th.pair ≠ 0 ∧ s.th.peer = some 1280 ∧ s.th.pair ≠ 1 ∧ (s.ctx 1280).ahead = 0 ∧
       (s.ctx 1280).comparator = []) ∧
    (let s := base; let l : BitVec 2 := 0; let a : Reg := 3; NoPrefix s ∧ l ≠ 3 ∧ Full s [a.toNat] ∧ (s.th.pair = 0 ∨ s.th.peer = none)) := by
  delta Claims.Full Claims.NoPrefix; refine ⟨?_, ?_, ?_, ?_, ?_⟩ <;> decide +kernel

theorem witness_PackedShifts :
    (let s := base; let l : BitVec 2 := 1; let b : Reg := 1; let a : Reg := 0; NoPrefix s ∧ l ≠ 3 ∧ Full s [a.toNat, b.toNat] ∧
       (s.th.pair = 0 ∨ s.th.peer = none)) ∧
    (let s := base |> (th fun c => { c with pair := 1, peer := some 1280 }); let l : BitVec 2 := 0; let b : Reg := 7; let a : Reg := 1; NoPrefix s ∧
       l ≠ 3 ∧ Full s [a.toNat, b.toNat] ∧ s.th.pair ≠ 0 ∧ s.th.peer = some 1280 ∧ s.th.pair = 1 ∧ s.th.kind = 0) ∧
    (let s := base |> (fun s => s |> th (fun c => { c with pair := 2, peer := some 1280 }) |> cx 1280 (fun c => { c with ahead := 1 }));
       let l : BitVec 2 := 2; let b : Reg := 2; let a : Reg := 7; NoPrefix s ∧ l ≠ 3 ∧ Full s [a.toNat, b.toNat] ∧ s.th.pair ≠ 0 ∧ s.th.peer = some 1280 ∧
       s.th.pair ≠ 1 ∧ (s.ctx 1280).ahead ≠ 0 ∧ s.th.kind = 0) ∧
    (let s := base |> (fun s => s |> th (fun c => { c with pair := 2, peer := some 1280 })); let l : BitVec 2 := 2; let b : Reg := 7; let a : Reg := 1;
       NoPrefix s ∧ l ≠ 3 ∧ Full s [a.toNat, b.toNat] ∧ s.th.pair ≠ 0 ∧ s.th.peer = some 1280 ∧ s.th.pair ≠ 1 ∧ (s.ctx 1280).ahead = 0 ∧
       (s.ctx 1280).comparator = []) := by
  delta Claims.Full Claims.NoPrefix; refine ⟨?_, ?_, ?_, ?_⟩ <;> decide +kernel

theorem witness_PackedMoves :
    (let s := base; let l : BitVec 2 := 2; let c : BitVec 3 := 4; let b : Reg := 7; let a : Reg := 0; NoPrefix s ∧ l ≠ 3 ∧ c.toNat < 6 ∧
       Full s [a.toNat, b.toNat] ∧ (s.th.pair = 0 ∨ s.th.peer = none)) ∧
    (let s := base |> (th fun c => { c with pair := 1, peer := some 1280 }); let l : BitVec 2 := 2; let c : BitVec 3 := 2; let b : Reg := 4;
       let a : Reg := 2; NoPrefix s ∧ l ≠ 3 ∧ c.toNat < 6 ∧ Full s [a.toNat, b.toNat] ∧ s.th.pair ≠ 0 ∧ s.th.peer = some 1280 ∧ s.th.pair = 1 ∧ s.th.kind = 0) ∧
    (let s := base |> (fun s => s |> th (fun c => { c with pair := 2, peer := some 1280 }) |> cx 1280 (fun c => { c with ahead := 1 }));
       let l : BitVec 2 := 1; let c : BitVec 3 := 0; let b : Reg := 4; let a : Reg := 4; NoPrefix s ∧ l ≠ 3 ∧ c.toNat < 6 ∧ Full s [a.toNat, b.toNat] ∧
       s.th.pair ≠ 0 ∧ s.th.peer = some 1280 ∧ s.th.pair ≠ 1 ∧ (s.ctx 1280).ahead ≠ 0 ∧ s.th.kind = 0) ∧
    (let s := base |> (fun s => s |> th (fun c => { c with pair := 2, peer := some 1280 })); let l : BitVec 2 := 0; let c : BitVec 3 := 0;
       let b : Reg := 2; let a : Reg := 0; NoPrefix s ∧ l ≠ 3 ∧ c.toNat < 6 ∧ Full s [a.toNat, b.toNat] ∧ s.th.pair ≠ 0 ∧ s.th.peer = some 1280 ∧
       s.th.pair ≠ 1 ∧ (s.ctx 1280).ahead = 0 ∧ (s.ctx 1280).comparator = []) ∧
    (let s := base; let l : BitVec 2 := 1; let c : BitVec 3 := 2; let b : Reg := 0; let a : Reg := 3; NoPrefix s ∧ l ≠ 3 ∧ c.toNat < 6 ∧
       Full s [a.toNat, b.toNat] ∧ l ≠ 0 ∧ (s.th.pair = 0 ∨ s.th.peer = none)) ∧
    (let s := base; let l : BitVec 2 := 2; let c : BitVec 3 := 2; let a : Reg := 7; NoPrefix s ∧ l ≠ 3 ∧ c.toNat < 6 ∧ Full s [a.toNat] ∧
       (s.th.pair = 0 ∨ s.th.peer = none)) := by
  delta Claims.Full Claims.NoPrefix; refine ⟨?_, ?_, ?_, ?_, ?_, ?_⟩ <;> decide +kernel

theorem witness_FloatArithmetic :
    (let s := base; let b : Reg := 4; let a : Reg := 7; RoundingOnly s ∧ Full s [a.toNat, b.toNat] ∧ (s.th.pair = 0 ∨ s.th.peer = none)) ∧
    (let s := base |> (th fun c => { c with pair := 1, peer := some 1280 }); let b : Reg := 4; let a : Reg := 2; RoundingOnly s ∧
       Full s [a.toNat, b.toNat] ∧ s.th.pair ≠ 0 ∧ s.th.peer = some 1280 ∧ s.th.pair = 1 ∧ s.th.kind = 0) ∧
    (let s := base |> (fun s => s |> th (fun c => { c with pair := 2, peer := some 1280 }) |> cx 1280 (fun c => { c with ahead := 1 })); let b : Reg := 1;
       let a : Reg := 4; RoundingOnly s ∧ Full s [a.toNat, b.toNat] ∧ s.th.pair ≠ 0 ∧ s.th.peer = some 1280 ∧ s.th.pair ≠ 1 ∧ (s.ctx 1280).ahead ≠ 0 ∧
       s.th.kind = 0) ∧
    (let s := base |> (fun s => s |> th (fun c => { c with pair := 2, peer := some 1280 })); let b : Reg := 1; let a : Reg := 0; RoundingOnly s ∧
       Full s [a.toNat, b.toNat] ∧ s.th.pair ≠ 0 ∧ s.th.peer = some 1280 ∧ s.th.pair ≠ 1 ∧ (s.ctx 1280).ahead = 0 ∧ (s.ctx 1280).comparator = []) ∧
    (let s := base; let b : Reg := 7; let a : Reg := 3; let d : Reg := 2; RoundingOnly s ∧ Full s [a.toNat, b.toNat] ∧ Full s [d.toNat] ∧
       (s.th.pair = 0 ∨ s.th.peer = none)) ∧
    (let s := base; let b : Reg := 0; let a : Reg := 0; let d : Reg := 0; RoundingOnly s ∧ Full s [a.toNat, b.toNat] ∧ NoPend s [d] ∧
       (s.th.pair = 0 ∨ s.th.peer = none)) := by
  delta Claims.Full Claims.NoPend Claims.RoundingOnly; refine ⟨?_, ?_, ?_, ?_, ?_, ?_⟩ <;> decide +kernel

theorem witness_DoubleArithmetic_1 :
    (let s := base |> (fun s => { s with cur := some ⟨1, 0, 1152⟩ }) |> (fun s => { s with launches := [(7, { launch with flags := 8 })] });
       isWide s.hereCore = false ∧ Unpaired s ∧ (s.pinned s.here.ctx = true ∨ s.th.handler ≠ 0)) ∧
    (let s := base |> (fun s => { s with inbox := [.storeVisible { ctx := 1152, core := 1, kind := .store, addr := 8, size := 8, data := 1 }] }) |> (fun s => { s with cur := some ⟨1, 0, 1152⟩ });
       isWide s.hereCore = false ∧ Unpaired s ∧ Running s ∧ s.pinned s.here.ctx = false ∧ s.th.handler = 0 ∧ s.drained s.here.ctx = false) ∧
    (let s := base |> (fun s => { s with cur := some ⟨1, 0, 1152⟩ }); isWide s.hereCore = false ∧ Unpaired s ∧ Running s ∧ s.pinned s.here.ctx = false ∧
       s.th.handler = 0 ∧ s.drained s.here.ctx = true) ∧
    (let s := base; let b : Reg := 4; let a : Reg := 7; RoundingOnly s ∧ Full s [a.toNat, b.toNat] ∧ isWide s.hereCore = true ∧
       (s.th.pair = 0 ∨ s.th.peer = none)) ∧
    (let s := base |> (th fun c => { c with pair := 1, peer := some 1280 }); let b : Reg := 1; let a : Reg := 2; RoundingOnly s ∧
       Full s [a.toNat, b.toNat] ∧ isWide s.hereCore = true ∧ s.th.pair ≠ 0 ∧ s.th.peer = some 1280 ∧ s.th.pair = 1 ∧ s.th.kind = 0) ∧
    (let s := base |> (fun s => s |> th (fun c => { c with pair := 2, peer := some 1280 }) |> cx 1280 (fun c => { c with ahead := 1 })); let b : Reg := 4;
       let a : Reg := 3; RoundingOnly s ∧ Full s [a.toNat, b.toNat] ∧ isWide s.hereCore = true ∧ s.th.pair ≠ 0 ∧ s.th.peer = some 1280 ∧ s.th.pair ≠ 1 ∧
       (s.ctx 1280).ahead ≠ 0 ∧ s.th.kind = 0) ∧
    (let s := base |> (fun s => s |> th (fun c => { c with pair := 2, peer := some 1280 })); let b : Reg := 7; let a : Reg := 7; RoundingOnly s ∧
       Full s [a.toNat, b.toNat] ∧ isWide s.hereCore = true ∧ s.th.pair ≠ 0 ∧ s.th.peer = some 1280 ∧ s.th.pair ≠ 1 ∧ (s.ctx 1280).ahead = 0 ∧
       (s.ctx 1280).comparator = []) ∧
    (let s := base; let b : Reg := 3; let a : Reg := 2; let d : Reg := 2; RoundingOnly s ∧ Full s [a.toNat, b.toNat] ∧ isWide s.hereCore = true ∧
       Full s [d.toNat] ∧ (s.th.pair = 0 ∨ s.th.peer = none)) := by
  delta Claims.Full Claims.RoundingOnly Claims.Running Claims.Unpaired; refine ⟨?_, ?_, ?_, ?_, ?_, ?_, ?_, ?_⟩ <;> decide +kernel

theorem witness_DoubleArithmetic_2 :
    (let s := base; let b : Reg := 3; let a : Reg := 2; let d : Reg := 3; RoundingOnly s ∧ Full s [a.toNat, b.toNat] ∧ isWide s.hereCore = true ∧
       NoPend s [d] ∧ (s.th.pair = 0 ∨ s.th.peer = none)) ∧
    (let s := base; let b : Reg := 1; let a : Reg := 4; let c : BitVec 3 := 1; RoundingOnly s ∧ Full s [a.toNat, b.toNat] ∧ isWide s.hereCore = true ∧
       NoPrefix s ∧ c.toNat < 5 ∧ (s.th.pair = 0 ∨ s.th.peer = none)) := by
  delta Claims.Full Claims.NoPend Claims.NoPrefix Claims.RoundingOnly; refine ⟨?_, ?_⟩ <;> decide +kernel

theorem witness_FloatComparisons :
    (let s := base; let b : Reg := 1; let a : Reg := 2; NoPrefix s ∧ Full s [a.toNat, b.toNat] ∧ (s.th.pair = 0 ∨ s.th.peer = none)) ∧
    (let s := base |> (th fun c => { c with pair := 1, peer := some 1280 }); let b : Reg := 1; let a : Reg := 7; NoPrefix s ∧ Full s [a.toNat, b.toNat] ∧
       s.th.pair ≠ 0 ∧ s.th.peer = some 1280 ∧ s.th.pair = 1 ∧ s.th.kind = 0) ∧
    (let s := base |> (fun s => s |> th (fun c => { c with pair := 2, peer := some 1280 }) |> cx 1280 (fun c => { c with ahead := 1 })); let b : Reg := 4;
       let a : Reg := 2; NoPrefix s ∧ Full s [a.toNat, b.toNat] ∧ s.th.pair ≠ 0 ∧ s.th.peer = some 1280 ∧ s.th.pair ≠ 1 ∧ (s.ctx 1280).ahead ≠ 0 ∧
       s.th.kind = 0) ∧
    (let s := base |> (fun s => s |> th (fun c => { c with pair := 2, peer := some 1280 })); let b : Reg := 2; let a : Reg := 4; NoPrefix s ∧
       Full s [a.toNat, b.toNat] ∧ s.th.pair ≠ 0 ∧ s.th.peer = some 1280 ∧ s.th.pair ≠ 1 ∧ (s.ctx 1280).ahead = 0 ∧ (s.ctx 1280).comparator = []) ∧
    (let s := base; let b : Reg := 4; let a : Reg := 2; let c : BitVec 3 := 2; NoPrefix s ∧ Full s [a.toNat, b.toNat] ∧ c.toNat < 5 ∧
       (s.th.pair = 0 ∨ s.th.peer = none)) := by
  delta Claims.Full Claims.NoPrefix; refine ⟨?_, ?_, ?_, ?_, ?_⟩ <;> decide +kernel

theorem witness_Conversions_1 :
    (let s := base; let f : BitVec 4 := 1; let a : Reg := 1; Full s [a.toNat] ∧ pfxMode s.th.pfxval < 6 ∧ (let m := modeNow s;
       (let to_ := if s.th.pfx then pfxFmt s.th.pfxval else 6; (m = 5 → srAccepts f.toNat to_ = true ∧ Full s [11]) ∧ (to_ = 14 → m = 0) ∧ f.toNat < 15 ∧
       to_ < 15 ∧ (s.th.pair = 0 ∨ s.th.peer = none)))) ∧
    (let s := base |> (th fun c => { c with pair := 1, peer := some 1280 }); let f : BitVec 4 := 8; let a : Reg := 1; Full s [a.toNat] ∧
       pfxMode s.th.pfxval < 6 ∧ (let m := modeNow s; (let to_ := if s.th.pfx then pfxFmt s.th.pfxval else 6; (m = 5 → srAccepts f.toNat to_ = true ∧
       Full s [11]) ∧ (to_ = 14 → m = 0) ∧ f.toNat < 15 ∧ to_ < 15 ∧ s.th.pair ≠ 0 ∧ s.th.peer = some 1280 ∧ s.th.pair = 1 ∧ s.th.kind = 0))) ∧
    (let s := base |> (fun s => s |> th (fun c => { c with pair := 2, peer := some 1280 }) |> cx 1280 (fun c => { c with ahead := 1 }));
       let f : BitVec 4 := 0; let a : Reg := 4; Full s [a.toNat] ∧ pfxMode s.th.pfxval < 6 ∧ (let m := modeNow s;
       (let to_ := if s.th.pfx then pfxFmt s.th.pfxval else 6; (m = 5 → srAccepts f.toNat to_ = true ∧ Full s [11]) ∧ (to_ = 14 → m = 0) ∧ f.toNat < 15 ∧
       to_ < 15 ∧ s.th.pair ≠ 0 ∧ s.th.peer = some 1280 ∧ s.th.pair ≠ 1 ∧ (s.ctx 1280).ahead ≠ 0 ∧ s.th.kind = 0))) ∧
    (let s := base |> (fun s => s |> th (fun c => { c with pair := 2, peer := some 1280 })); let f : BitVec 4 := 2; let a : Reg := 0; Full s [a.toNat] ∧
       pfxMode s.th.pfxval < 6 ∧ (let m := modeNow s; (let to_ := if s.th.pfx then pfxFmt s.th.pfxval else 6; (m = 5 → srAccepts f.toNat to_ = true ∧
       Full s [11]) ∧ (to_ = 14 → m = 0) ∧ f.toNat < 15 ∧ to_ < 15 ∧ s.th.pair ≠ 0 ∧ s.th.peer = some 1280 ∧ s.th.pair ≠ 1 ∧ (s.ctx 1280).ahead = 0 ∧
       (s.ctx 1280).comparator = []))) ∧
    (let s := base |> (th fun c => { c with handler := 1 }) |> (fun s => { s with cur := some ⟨1, 0, 1152⟩ }); let a : Reg := 4; Full s [a.toNat] ∧
       pfxMode s.th.pfxval < 6 ∧ isWide s.hereCore = false ∧ Unpaired s ∧ (s.pinned s.here.ctx = true ∨ s.th.handler ≠ 0)) ∧
    (let s := base |> (fun s => { s with inbox := [.storeVisible { ctx := 1152, core := 1, kind := .store, addr := 8, size := 8, data := 1 }] }) |> (fun s => { s with cur := some ⟨1, 0, 1152⟩ });
       let a : Reg := 7; Full s [a.toNat] ∧ pfxMode s.th.pfxval < 6 ∧ isWide s.hereCore = false ∧ Unpaired s ∧ Running s ∧ s.pinned s.here.ctx = false ∧
       s.th.handler = 0 ∧ s.drained s.here.ctx = false) ∧
    (let s := base |> (fun s => { s with cur := some ⟨1, 0, 1152⟩ }); let a : Reg := 2; Full s [a.toNat] ∧ pfxMode s.th.pfxval < 6 ∧
       isWide s.hereCore = false ∧ Unpaired s ∧ Running s ∧ s.pinned s.here.ctx = false ∧ s.th.handler = 0 ∧ s.drained s.here.ctx = true) ∧
    (let s := base; let a : Reg := 1; Full s [a.toNat] ∧ pfxMode s.th.pfxval < 6 ∧ (let m := modeNow s; isWide s.hereCore = true ∧
       (s.th.pfx = true → pfxFmt s.th.pfxval = 0 ∧ m ≠ 5) ∧ (s.th.pair = 0 ∨ s.th.peer = none))) := by
  delta Claims.Full Claims.Running Claims.Unpaired; refine ⟨?_, ?_, ?_, ?_, ?_, ?_, ?_, ?_⟩ <;> decide +kernel

theorem witness_Conversions_2 :
    (let s := base; let f : BitVec 4 := 8; let a : Reg := 7; Full s [a.toNat] ∧ pfxMode s.th.pfxval < 6 ∧ (let m := modeNow s; isWide s.hereCore = true ∧
       (s.th.pfx = true → pfxFmt s.th.pfxval = 0 ∧ m ≠ 5) ∧ (f = 14 → m = 0) ∧ (s.th.pair = 0 ∨ s.th.peer = none))) := by
  delta Claims.Full; decide +kernel

theorem witness_FloatSpecials_1 :
    (let s := base |> (w [0, 0xFFFFFFFFFFFFFFFF]); let b : Reg := 1; let a : Reg := 3; RoundingOnly s ∧ Full s [a.toNat, b.toNat] ∧
       (let x := (s.th.wv a).toNat % 2 ^ 32; (let y := (s.th.wv b).toNat % 2 ^ 32; (let nan := fun v => decide (0x7F800000 < v % 2 ^ 31);
       (let inf := fun v => decide (v % 2 ^ 31 = 0x7F800000); (nan x || nan y || (inf x && inf y && decide (x ≠ y))) ∧ (s.th.pair = 0 ∨ s.th.peer = none)))))) ∧
    (let s := base |> (th fun c => { c with pair := 1, peer := some 1280 }) |> (w [0, 0xFFFFFFFFFFFFFFFF]); let b : Reg := 1; let a : Reg := 7;
       RoundingOnly s ∧ Full s [a.toNat, b.toNat] ∧ (let x := (s.th.wv a).toNat % 2 ^ 32; (let y := (s.th.wv b).toNat % 2 ^ 32;
       (let nan := fun v => decide (0x7F800000 < v % 2 ^ 31); (let inf := fun v => decide (v % 2 ^ 31 = 0x7F800000);
       (nan x || nan y || (inf x && inf y && decide (x ≠ y))) ∧ s.th.pair ≠ 0 ∧ s.th.peer = some 1280 ∧ s.th.pair = 1 ∧ s.th.kind = 0))))) ∧
    (let s := base |> (w [0, 0xFFFFFFFFFFFFFFFF]) |> (fun s => s |> th (fun c => { c with pair := 2, peer := some 1280 }) |> cx 1280 (fun c => { c with ahead := 1 }));
       let b : Reg := 0; let a : Reg := 1; RoundingOnly s ∧ Full s [a.toNat, b.toNat] ∧ (let x := (s.th.wv a).toNat % 2 ^ 32;
       (let y := (s.th.wv b).toNat % 2 ^ 32; (let nan := fun v => decide (0x7F800000 < v % 2 ^ 31); (let inf := fun v => decide (v % 2 ^ 31 = 0x7F800000);
       (nan x || nan y || (inf x && inf y && decide (x ≠ y))) ∧ s.th.pair ≠ 0 ∧ s.th.peer = some 1280 ∧ s.th.pair ≠ 1 ∧ (s.ctx 1280).ahead ≠ 0 ∧
       s.th.kind = 0))))) ∧
    (let s := base |> (w [0, 0xFFFFFFFFFFFFFFFF]) |> (fun s => s |> th (fun c => { c with pair := 2, peer := some 1280 })); let b : Reg := 1;
       let a : Reg := 1; RoundingOnly s ∧ Full s [a.toNat, b.toNat] ∧ (let x := (s.th.wv a).toNat % 2 ^ 32; (let y := (s.th.wv b).toNat % 2 ^ 32;
       (let nan := fun v => decide (0x7F800000 < v % 2 ^ 31); (let inf := fun v => decide (v % 2 ^ 31 = 0x7F800000);
       (nan x || nan y || (inf x && inf y && decide (x ≠ y))) ∧ s.th.pair ≠ 0 ∧ s.th.peer = some 1280 ∧ s.th.pair ≠ 1 ∧ (s.ctx 1280).ahead = 0 ∧
       (s.ctx 1280).comparator = []))))) ∧
    (let s := base |> (w [0, 0xFFFFFFFFFFFFFFFF]); let b : Reg := 1; let a : Reg := 2; RoundingOnly s ∧ Full s [a.toNat, b.toNat] ∧
       (let x := (s.th.wv a).toNat % 2 ^ 32; (let y := (s.th.wv b).toNat % 2 ^ 32; (let nan := fun v => decide (0x7F800000 < v % 2 ^ 31);
       (let inf := fun v => decide (v % 2 ^ 31 = 0x7F800000); (nan x || nan y || (inf x && decide (x = y))) ∧ (s.th.pair = 0 ∨ s.th.peer = none)))))) ∧
    (let s := base |> (w [0, 0xFFFFFFFFFFFFFFFF]); let b : Reg := 1; let a : Reg := 4; RoundingOnly s ∧ Full s [a.toNat, b.toNat] ∧
       (let x := (s.th.wv a).toNat % 2 ^ 32; (let y := (s.th.wv b).toNat % 2 ^ 32; (let nan := fun v => decide (0x7F800000 < v % 2 ^ 31);
       (let inf := fun v => decide (v % 2 ^ 31 = 0x7F800000); (let zero := fun v => decide (v % 2 ^ 31 = 0);
       (nan x || nan y || (inf x && zero y) || (zero x && inf y)) ∧ (s.th.pair = 0 ∨ s.th.peer = none))))))) ∧
    (let s := base; let b : Reg := 0; let a : Reg := 0; RoundingOnly s ∧ Full s [a.toNat, b.toNat] ∧ (let x := (s.th.wv a).toNat % 2 ^ 32;
       (let y := (s.th.wv b).toNat % 2 ^ 32; (let nan := fun v => decide (0x7F800000 < v % 2 ^ 31); (let inf := fun v => decide (v % 2 ^ 31 = 0x7F800000);
       x = y ∧ nan x = false ∧ inf x = false ∧ (s.th.pair = 0 ∨ s.th.peer = none)))))) ∧
    (let s := base; let b : Reg := 7; let a : Reg := 0; let d : Reg := 2; RoundingOnly s ∧ Full s [a.toNat, b.toNat] ∧
       (let x := (s.th.wv a).toNat % 2 ^ 32; (let y := (s.th.wv b).toNat % 2 ^ 32; (let nan := fun v => decide (0x7F800000 < v % 2 ^ 31);
       (let inf := fun v => decide (v % 2 ^ 31 = 0x7F800000); (let zero := fun v => decide (v % 2 ^ 31 = 0); NoPend s [d] ∧
       (nan x || nan y || (inf x && inf y) || (zero x && zero y)) ∧ (s.th.pair = 0 ∨ s.th.peer = none))))))) := by
  delta Claims.Full Claims.NoPend Claims.RoundingOnly; refine ⟨?_, ?_, ?_, ?_, ?_, ?_, ?_, ?_⟩ <;> decide +kernel

theorem witness_FloatSpecials_2 :
    (let s := base |> (w [0, 0xFFFFFFFFFFFFFFFF]); let b : Reg := 7; let a : Reg := 1; let d : Reg := 0; RoundingOnly s ∧ Full s [a.toNat, b.toNat] ∧
       (let x := (s.th.wv a).toNat % 2 ^ 32; (let nan := fun v => decide (0x7F800000 < v % 2 ^ 31); NoPend s [d] ∧ (nan x || (decide (2 ^ 31 < x))) ∧
       (s.th.pair = 0 ∨ s.th.peer = none)))) ∧
    (let s := base |> (w [2 ^ 31, 2 ^ 31]); let b : Reg := 3; let a : Reg := 1; let d : Reg := 0; RoundingOnly s ∧ Full s [a.toNat, b.toNat] ∧
       (let x := (s.th.wv a).toNat % 2 ^ 32; NoPend s [d] ∧ x = 2 ^ 31 ∧ (s.th.pair = 0 ∨ s.th.peer = none))) := by
  delta Claims.Full Claims.NoPend Claims.RoundingOnly; refine ⟨?_, ?_⟩ <;> decide +kernel

theorem witness_OwnStoreLoads_1 :
    (let s := base |> (fun s => w [1, meshBase + 64, 5] s |> (fun s => { s with inbox := [.atomicExecute .add false true 0 { ctx := 1152, core := 0, kind := .store, addr := 64, size := 8, data := 1, scope := 3, ordered := true }] }));
       let a : Reg := 1; let t : Reg := 2; let k : BitVec 11 := 1; let z : BitVec 3 := 7; NoPrefix s ∧ Unpaired s ∧ (z = 7 → t.toNat % 2 = 0) ∧
       Full s [a.toNat] ∧ (let x := s.th.wv a; (let loc := (x + BitVec.ofInt 64 (k.toInt * bytesOfCode z)).toNat - meshBase;
       InMesh s (x + BitVec.ofInt 64 (k.toInt * bytesOfCode z)) (bytesOfCode z) loc ∧ ¬(s.mustHold s.here.ctx s.hereCore (.store (loc / 65536)) = false)))) ∧
    (let s := base |> (fun s => w [1, meshBase + 64, 5] s |> (fun s => { s with inbox := [.coreStoreAccess { ctx := 1152, core := 0, kind := .nibStore true, addr := 64, size := 1, data := 1 }] }));
       let a : Reg := 1; let t : Reg := 3; let k : BitVec 11 := 1; let z : BitVec 3 := 2; NoPrefix s ∧ Unpaired s ∧ (z = 7 → t.toNat % 2 = 0) ∧
       Full s [a.toNat] ∧ (let x := s.th.wv a; (let loc := (x + BitVec.ofInt 64 (k.toInt * bytesOfCode z)).toNat - meshBase;
       InMesh s (x + BitVec.ofInt 64 (k.toInt * bytesOfCode z)) (bytesOfCode z) loc ∧ s.mustHold s.here.ctx s.hereCore (.store (loc / 65536)) = false ∧
       loc / 65536 = s.hereCore ∧
       (s.heldAt s.here.ctx s.hereCore (.store s.hereCore) = true ∨ ((s.touches s.here.ctx).any fun x => x.on (.store s.hereCore)) = true)))) ∧
    (let s := base |> (fun s => w [1, meshBase + 64, 5] s |> (fun s => { s with poison := [(storePlace + 64) / 8] })); let a : Reg := 1; let t : Reg := 3;
       let k : BitVec 11 := 2047; let z : BitVec 3 := 2; NoPrefix s ∧ Unpaired s ∧ (z = 7 → t.toNat % 2 = 0) ∧ Full s [a.toNat] ∧ (let x := s.th.wv a;
       (let loc := (x + BitVec.ofInt 64 (k.toInt * bytesOfCode z)).toNat - meshBase;
       InMesh s (x + BitVec.ofInt 64 (k.toInt * bytesOfCode z)) (bytesOfCode z) loc ∧ OwnFree s ∧ loc / 65536 = s.hereCore ∧
       Clean s (storePlace + loc) (bytesOfCode z)))) ∧
    (let s := base |> (fun s => w [1, meshBase + 64, 5] s |> (fun s => { s with poison := [(storePlace + 64) / 8] })); let a : Reg := 1; let t : Reg := 4;
       let k : BitVec 11 := 1; let z : BitVec 3 := 0; NoPrefix s ∧ Unpaired s ∧ (z = 7 → t.toNat % 2 = 0) ∧ Full s [a.toNat] ∧ (let x := s.th.wv a;
       (let loc := (x + BitVec.ofInt 64 (k.toInt * bytesOfCode z)).toNat - meshBase;
       InMesh s (x + BitVec.ofInt 64 (k.toInt * bytesOfCode z)) (bytesOfCode z) loc ∧ OwnFree s ∧ loc / 65536 = s.hereCore ∧
       ¬ Clean s (storePlace + loc) (bytesOfCode z) ∧ NoPend s (regsOf z t) ∧ NoFailure s))) ∧
    (let s := base |> (w [1, meshBase + 65536 * 3 + 64, 5]); let a : Reg := 1; let t : Reg := 3; let k : BitVec 11 := 2047; let z : BitVec 3 := 1;
       NoPrefix s ∧ Unpaired s ∧ (z = 7 → t.toNat % 2 = 0) ∧ Full s [a.toNat] ∧ (let x := s.th.wv a;
       (let loc := (x + BitVec.ofInt 64 (k.toInt * bytesOfCode z)).toNat - meshBase;
       InMesh s (x + BitVec.ofInt 64 (k.toInt * bytesOfCode z)) (bytesOfCode z) loc ∧ s.mustHold s.here.ctx s.hereCore (.store (loc / 65536)) = false ∧
       ¬ (loc / 65536 = s.hereCore) ∧ NoPend s (regsOf z t) ∧ NoFailure s ∧ NoProfile s))) ∧
    (let s := base |> (fun s => w [1, meshBase + 64, 5] s |> (fun s => { s with inbox := [.atomicExecute .add false true 0 { ctx := 1152, core := 0, kind := .store, addr := 64, size := 8, data := 1, scope := 3, ordered := true }] }));
       let a : Reg := 1; let t : Reg := 0; let z : BitVec 3 := 3; let i5 : BitVec 5 := 0; NoPrefix s ∧ Unpaired s ∧ (z = 7 → t.toNat % 2 = 0) ∧
       Full s [a.toNat] ∧ (let x := s.th.wv a; (let loc := (x + BitVec.ofNat 64 (8 * i5.toNat)).toNat - meshBase;
       InMesh s (x + BitVec.ofNat 64 (8 * i5.toNat)) (bytesOfCode 3) loc ∧ ¬(s.mustHold s.here.ctx s.hereCore (.store (loc / 65536)) = false)))) ∧
    (let s := base |> (fun s => w [1, meshBase + 64, 5] s |> (fun s => { s with inbox := [.coreStoreAccess { ctx := 1152, core := 0, kind := .nibStore true, addr := 64, size := 1, data := 1 }] }));
       let a : Reg := 1; let t : Reg := 3; let z : BitVec 3 := 2; let i5 : BitVec 5 := 1; NoPrefix s ∧ Unpaired s ∧ (z = 7 → t.toNat % 2 = 0) ∧
       Full s [a.toNat] ∧ (let x := s.th.wv a; (let loc := (x + BitVec.ofNat 64 (8 * i5.toNat)).toNat - meshBase;
       InMesh s (x + BitVec.ofNat 64 (8 * i5.toNat)) (bytesOfCode 3) loc ∧ s.mustHold s.here.ctx s.hereCore (.store (loc / 65536)) = false ∧
       loc / 65536 = s.hereCore ∧
       (s.heldAt s.here.ctx s.hereCore (.store s.hereCore) = true ∨ ((s.touches s.here.ctx).any fun x => x.on (.store s.hereCore)) = true)))) ∧
    (let s := base |> (w [1, meshBase + 64, 5]); let a : Reg := 1; let t : Reg := 2; let z : BitVec 3 := 2; let i5 : BitVec 5 := 31; NoPrefix s ∧
       Unpaired s ∧ (z = 7 → t.toNat % 2 = 0) ∧ Full s [a.toNat] ∧ (let x := s.th.wv a; (let loc := (x + BitVec.ofNat 64 (8 * i5.toNat)).toNat - meshBase;
       InMesh s (x + BitVec.ofNat 64 (8 * i5.toNat)) (bytesOfCode 3) loc ∧ OwnFree s ∧ loc / 65536 = s.hereCore ∧
       Clean s (storePlace + loc) (bytesOfCode 3)))) := by
  delta Claims.Clean Claims.Free Claims.Full Claims.InMesh Claims.NoFailure Claims.NoPend Claims.NoPrefix Claims.NoProfile Claims.OwnFree Claims.Unpaired; refine ⟨?_, ?_, ?_, ?_, ?_, ?_, ?_, ?_⟩ <;> decide +kernel

theorem witness_OwnStoreLoads_2 :
    (let s := base |> (fun s => w [1, meshBase + 64, 5] s |> (fun s => { s with poison := [(storePlace + 64) / 8] })); let a : Reg := 1; let t : Reg := 7;
       let z : BitVec 3 := 2; let i5 : BitVec 5 := 0; NoPrefix s ∧ Unpaired s ∧ (z = 7 → t.toNat % 2 = 0) ∧ Full s [a.toNat] ∧ (let x := s.th.wv a;
       (let loc := (x + BitVec.ofNat 64 (8 * i5.toNat)).toNat - meshBase; InMesh s (x + BitVec.ofNat 64 (8 * i5.toNat)) (bytesOfCode 3) loc ∧ OwnFree s ∧
       loc / 65536 = s.hereCore ∧ ¬ Clean s (storePlace + loc) (bytesOfCode 3) ∧ NoPend s (regsOf 3 t) ∧ NoFailure s))) ∧
    (let s := base |> (w [1, meshBase + 65536 * 3 + 64, 5]); let a : Reg := 1; let t : Reg := 4; let z : BitVec 3 := 4; let i5 : BitVec 5 := 31;
       NoPrefix s ∧ Unpaired s ∧ (z = 7 → t.toNat % 2 = 0) ∧ Full s [a.toNat] ∧ (let x := s.th.wv a;
       (let loc := (x + BitVec.ofNat 64 (8 * i5.toNat)).toNat - meshBase; InMesh s (x + BitVec.ofNat 64 (8 * i5.toNat)) (bytesOfCode 3) loc ∧
       s.mustHold s.here.ctx s.hereCore (.store (loc / 65536)) = false ∧ ¬ (loc / 65536 = s.hereCore) ∧ NoPend s (regsOf 3 t) ∧ NoFailure s ∧ NoProfile s))) ∧
    (let s := base |> (fun s => w [1, meshBase + 64, 5] s |> (fun s => { s with inbox := [.atomicExecute .add false true 0 { ctx := 1152, core := 0, kind := .store, addr := 64, size := 8, data := 1, scope := 3, ordered := true }] }));
       let a : Reg := 1; let t : Reg := 4; let z : BitVec 3 := 0; let i5 : BitVec 5 := 1; NoPrefix s ∧ Unpaired s ∧ (z = 7 → t.toNat % 2 = 0) ∧
       Full s [a.toNat] ∧ (let x := s.th.wv a; (let loc := (x + BitVec.ofNat 64 (4 * i5.toNat)).toNat - meshBase;
       InMesh s (x + BitVec.ofNat 64 (4 * i5.toNat)) (bytesOfCode 2) loc ∧ ¬(s.mustHold s.here.ctx s.hereCore (.store (loc / 65536)) = false)))) ∧
    (let s := base |> (fun s => w [1, meshBase + 64, 5] s |> (fun s => { s with inbox := [.coreStoreAccess { ctx := 1152, core := 0, kind := .nibStore true, addr := 64, size := 1, data := 1 }] }));
       let a : Reg := 1; let t : Reg := 2; let z : BitVec 3 := 4; let i5 : BitVec 5 := 31; NoPrefix s ∧ Unpaired s ∧ (z = 7 → t.toNat % 2 = 0) ∧
       Full s [a.toNat] ∧ (let x := s.th.wv a; (let loc := (x + BitVec.ofNat 64 (4 * i5.toNat)).toNat - meshBase;
       InMesh s (x + BitVec.ofNat 64 (4 * i5.toNat)) (bytesOfCode 2) loc ∧ s.mustHold s.here.ctx s.hereCore (.store (loc / 65536)) = false ∧
       loc / 65536 = s.hereCore ∧
       (s.heldAt s.here.ctx s.hereCore (.store s.hereCore) = true ∨ ((s.touches s.here.ctx).any fun x => x.on (.store s.hereCore)) = true)))) ∧
    (let s := base |> (fun s => w [1, meshBase + 64, 5] s |> (fun s => { s with poison := [(storePlace + 64) / 8] })); let a : Reg := 1; let t : Reg := 4;
       let z : BitVec 3 := 2; let i5 : BitVec 5 := 31; NoPrefix s ∧ Unpaired s ∧ (z = 7 → t.toNat % 2 = 0) ∧ Full s [a.toNat] ∧ (let x := s.th.wv a;
       (let loc := (x + BitVec.ofNat 64 (4 * i5.toNat)).toNat - meshBase; InMesh s (x + BitVec.ofNat 64 (4 * i5.toNat)) (bytesOfCode 2) loc ∧ OwnFree s ∧
       loc / 65536 = s.hereCore ∧ Clean s (storePlace + loc) (bytesOfCode 2)))) ∧
    (let s := base |> (fun s => w [1, meshBase + 64, 5] s |> (fun s => { s with poison := [(storePlace + 64) / 8] })); let a : Reg := 1; let t : Reg := 7;
       let z : BitVec 3 := 4; let i5 : BitVec 5 := 1; NoPrefix s ∧ Unpaired s ∧ (z = 7 → t.toNat % 2 = 0) ∧ Full s [a.toNat] ∧ (let x := s.th.wv a;
       (let loc := (x + BitVec.ofNat 64 (4 * i5.toNat)).toNat - meshBase; InMesh s (x + BitVec.ofNat 64 (4 * i5.toNat)) (bytesOfCode 2) loc ∧ OwnFree s ∧
       loc / 65536 = s.hereCore ∧ ¬ Clean s (storePlace + loc) (bytesOfCode 2) ∧ NoPend s (regsOf 2 t) ∧ NoFailure s))) ∧
    (let s := base |> (w [1, meshBase + 65536 * 3 + 64, 5]); let a : Reg := 1; let t : Reg := 2; let z : BitVec 3 := 4; let i5 : BitVec 5 := 0;
       NoPrefix s ∧ Unpaired s ∧ (z = 7 → t.toNat % 2 = 0) ∧ Full s [a.toNat] ∧ (let x := s.th.wv a;
       (let loc := (x + BitVec.ofNat 64 (4 * i5.toNat)).toNat - meshBase; InMesh s (x + BitVec.ofNat 64 (4 * i5.toNat)) (bytesOfCode 2) loc ∧
       s.mustHold s.here.ctx s.hereCore (.store (loc / 65536)) = false ∧ ¬ (loc / 65536 = s.hereCore) ∧ NoPend s (regsOf 2 t) ∧ NoFailure s ∧ NoProfile s))) ∧
    (let s := base |> (fun s => w [1, meshBase + 64, 5] s |> (fun s => { s with inbox := [.atomicExecute .add false true 0 { ctx := 1152, core := 0, kind := .store, addr := 64, size := 8, data := 1, scope := 3, ordered := true }] }));
       let a : Reg := 7; let t : Reg := 3; let z : BitVec 3 := 0; let dx : BitVec 5 := 0; let dy : BitVec 5 := 0; NoPrefix s ∧ Unpaired s ∧
       (z = 7 → t.toNat % 2 = 0) ∧ Full s [a.toNat] ∧ (let x := s.th.wv a; s.th.handler = 0 ∧ (anchored s dx dy x).isSome = true ∧
       (let loc := ((anchored s dx dy x).getD 0).toNat - meshBase; InMesh s ((anchored s dx dy x).getD 0) (bytesOfCode z) loc ∧
       ¬(s.mustHold s.here.ctx s.hereCore (.store (loc / 65536)) = false)))) := by
  delta Claims.Clean Claims.Free Claims.Full Claims.InMesh Claims.NoFailure Claims.NoPend Claims.NoPrefix Claims.NoProfile Claims.OwnFree Claims.Unpaired; refine ⟨?_, ?_, ?_, ?_, ?_, ?_, ?_, ?_⟩ <;> decide +kernel

theorem witness_OwnStoreLoads_3 :
    (let s := base |> (fun s => w [1, meshBase + 64, 5] s |> (fun s => { s with inbox := [.coreStoreAccess { ctx := 1152, core := 0, kind := .nibStore true, addr := 64, size := 1, data := 1 }] }));
       let a : Reg := 7; let t : Reg := 3; let z : BitVec 3 := 1; let dx : BitVec 5 := 0; let dy : BitVec 5 := 0; NoPrefix s ∧ Unpaired s ∧
       (z = 7 → t.toNat % 2 = 0) ∧ Full s [a.toNat] ∧ (let x := s.th.wv a; s.th.handler = 0 ∧ (anchored s dx dy x).isSome = true ∧
       (let loc := ((anchored s dx dy x).getD 0).toNat - meshBase; InMesh s ((anchored s dx dy x).getD 0) (bytesOfCode z) loc ∧
       s.mustHold s.here.ctx s.hereCore (.store (loc / 65536)) = false ∧ loc / 65536 = s.hereCore ∧
       (s.heldAt s.here.ctx s.hereCore (.store s.hereCore) = true ∨ ((s.touches s.here.ctx).any fun x => x.on (.store s.hereCore)) = true)))) ∧
    (let s := base; let a : Reg := 7; let t : Reg := 2; let z : BitVec 3 := 2; let dx : BitVec 5 := 0; let dy : BitVec 5 := 0; NoPrefix s ∧ Unpaired s ∧
       (z = 7 → t.toNat % 2 = 0) ∧ Full s [a.toNat] ∧ (let x := s.th.wv a; s.th.handler = 0 ∧ (anchored s dx dy x).isSome = true ∧
       (let loc := ((anchored s dx dy x).getD 0).toNat - meshBase; InMesh s ((anchored s dx dy x).getD 0) (bytesOfCode z) loc ∧ OwnFree s ∧
       loc / 65536 = s.hereCore ∧ Clean s (storePlace + loc) (bytesOfCode z)))) ∧
    (let s := base |> (fun s => w [1, 64, 5] s |> (fun s => { s with poison := [(storePlace + 64) / 8] })) |> (w [1, 2, 3]) |> (w [0, 0xFFFFFFFFFFFFFFFF]) |> (fun s => w [1, 64, 5] s |> (fun s => { s with poison := [(storePlace + 64) / 8] }));
       let a : Reg := 1; let t : Reg := 2; let z : BitVec 3 := 4; let dx : BitVec 5 := 0; let dy : BitVec 5 := 0; NoPrefix s ∧ Unpaired s ∧
       (z = 7 → t.toNat % 2 = 0) ∧ Full s [a.toNat] ∧ (let x := s.th.wv a; s.th.handler = 0 ∧ (anchored s dx dy x).isSome = true ∧
       (let loc := ((anchored s dx dy x).getD 0).toNat - meshBase; InMesh s ((anchored s dx dy x).getD 0) (bytesOfCode z) loc ∧ OwnFree s ∧
       loc / 65536 = s.hereCore ∧ ¬ Clean s (storePlace + loc) (bytesOfCode z) ∧ NoPend s (regsOf z t) ∧ NoFailure s))) ∧
    (let s := base; let a : Reg := 2; let t : Reg := 4; let z : BitVec 3 := 3; let dx : BitVec 5 := 1; let dy : BitVec 5 := 3; NoPrefix s ∧ Unpaired s ∧
       (z = 7 → t.toNat % 2 = 0) ∧ Full s [a.toNat] ∧ (let x := s.th.wv a; s.th.handler = 0 ∧ (anchored s dx dy x).isSome = true ∧
       (let loc := ((anchored s dx dy x).getD 0).toNat - meshBase; InMesh s ((anchored s dx dy x).getD 0) (bytesOfCode z) loc ∧
       s.mustHold s.here.ctx s.hereCore (.store (loc / 65536)) = false ∧ ¬ (loc / 65536 = s.hereCore) ∧ NoPend s (regsOf z t) ∧ NoFailure s ∧ NoProfile s))) ∧
    (let s := base |> (fun s => w [1, meshBase + 64, 5] s |> (fun s => { s with inbox := [.atomicExecute .add false true 0 { ctx := 1152, core := 0, kind := .store, addr := 64, size := 8, data := 1, scope := 3, ordered := true }] }));
       let a : Reg := 1; let t : Reg := 3; let z : BitVec 3 := 3; NoPrefix s ∧ Unpaired s ∧ (z = 7 → t.toNat % 2 = 0) ∧ Full s [a.toNat] ∧
       (let x := s.th.wv a; (let loc := x.toNat - meshBase; InMesh s x 1 loc ∧ ¬(s.mustHold s.here.ctx s.hereCore (.store (loc / 65536)) = false)))) ∧
    (let s := base |> (fun s => w [1, meshBase + 64, 5] s |> (fun s => { s with inbox := [.coreStoreAccess { ctx := 1152, core := 0, kind := .nibStore true, addr := 64, size := 1, data := 1 }] }));
       let a : Reg := 1; let t : Reg := 1; let z : BitVec 3 := 1; NoPrefix s ∧ Unpaired s ∧ (z = 7 → t.toNat % 2 = 0) ∧ Full s [a.toNat] ∧
       (let x := s.th.wv a; (let loc := x.toNat - meshBase; InMesh s x 1 loc ∧ s.mustHold s.here.ctx s.hereCore (.store (loc / 65536)) = false ∧
       loc / 65536 = s.hereCore ∧
       (s.heldAt s.here.ctx s.hereCore (.store s.hereCore) = true ∨ ((s.touches s.here.ctx).any fun x => x.on (.store s.hereCore)) = true)))) ∧
    (let s := base |> (w [1, meshBase + 64, 5]); let a : Reg := 1; let t : Reg := 1; let z : BitVec 3 := 1; NoPrefix s ∧ Unpaired s ∧
       (z = 7 → t.toNat % 2 = 0) ∧ Full s [a.toNat] ∧ (let x := s.th.wv a; (let loc := x.toNat - meshBase; InMesh s x 1 loc ∧ OwnFree s ∧
       loc / 65536 = s.hereCore ∧ Clean s (storePlace + loc) 1))) ∧
    (let s := base |> (w [0, 1, 0x300, 0x2000000000000000]) |> (fun s => w [1, meshBase + 64, 5] s |> (fun s => { s with poison := [(storePlace + 64) / 8] }));
       let a : Reg := 1; let t : Reg := 1; let z : BitVec 3 := 3; NoPrefix s ∧ Unpaired s ∧ (z = 7 → t.toNat % 2 = 0) ∧ Full s [a.toNat] ∧
       (let x := s.th.wv a; (let loc := x.toNat - meshBase; InMesh s x 1 loc ∧ OwnFree s ∧ loc / 65536 = s.hereCore ∧ ¬ Clean s (storePlace + loc) 1 ∧
       NoPend s [t] ∧ NoFailure s))) := by
  delta Claims.Clean Claims.Free Claims.Full Claims.InMesh Claims.NoFailure Claims.NoPend Claims.NoPrefix Claims.NoProfile Claims.OwnFree Claims.Unpaired; refine ⟨?_, ?_, ?_, ?_, ?_, ?_, ?_, ?_⟩ <;> decide +kernel

theorem witness_OwnStoreLoads_4 :
    (let s := base |> (w [1, meshBase + 65536 * 3 + 64, 5]); let a : Reg := 1; let t : Reg := 3; let z : BitVec 3 := 4; NoPrefix s ∧ Unpaired s ∧
       (z = 7 → t.toNat % 2 = 0) ∧ Full s [a.toNat] ∧ (let x := s.th.wv a; (let loc := x.toNat - meshBase; InMesh s x 1 loc ∧
       s.mustHold s.here.ctx s.hereCore (.store (loc / 65536)) = false ∧ ¬ (loc / 65536 = s.hereCore) ∧ NoPend s [t] ∧ NoFailure s ∧ NoProfile s))) := by
  delta Claims.Full Claims.InMesh Claims.NoFailure Claims.NoPend Claims.NoPrefix Claims.NoProfile Claims.Unpaired; decide +kernel

theorem witness_GlobalLoads_1 :
    (let s := base |> (fun s => w [1, 64, 5] s |> (fun s => { s with inbox := [.atomicExecute .add false true 0 { ctx := 1152, core := 0, kind := .store, addr := 64, size := 8, data := 1, scope := 3, ordered := true }] }));
       let u : Bool := false; let a : Reg := 0; let t : Reg := 3; let k : BitVec 11 := 1; let z : BitVec 3 := 0; NoPrefix s ∧ Unpaired s ∧
       (z = 7 → t.toNat % 2 = 0) ∧ Full s [a.toNat] ∧ (let x := s.th.wv a; regionAt (x + BitVec.ofInt 64 (k.toInt * bytesOfCode z)).toNat ≠ .mesh ∧
       (x + BitVec.ofInt 64 (k.toInt * bytesOfCode z)).toNat % (bytesOfCode z) = 0 ∧
       (∃ at_ ∈ hit (s.look s.hereCore s.here.ctx (x + BitVec.ofInt 64 (k.toInt * bytesOfCode z)).toNat .load), (let pa := at_.1; (let u := at_.2;
       ¬(u.mustHold u.here.ctx u.hereCore (.sector (pa / 48)) = false)))))) ∧
    (let s := base |> (fun s => w [1, 64, 5] s |> (fun s => core (fun c => { c with l1 := [(1, List.replicate 48 7)] }) s |> (fun s => { s with poison := [(l1Place 0 + 64) / 8] })));
       let u : Bool := true; let a : Reg := 1; let t : Reg := 3; let k : BitVec 11 := 1; let sc : BitVec 3 := 1; let z : BitVec 3 := 3; NoPrefix s ∧
       Unpaired s ∧ (z = 7 → t.toNat % 2 = 0) ∧ Full s [a.toNat] ∧ (let x := s.th.wv a;
       regionAt (x + BitVec.ofInt 64 (k.toInt * bytesOfCode z)).toNat ≠ .mesh ∧ (x + BitVec.ofInt 64 (k.toInt * bytesOfCode z)).toNat % (bytesOfCode z) = 0 ∧
       (∃ at_ ∈ hit (s.look s.hereCore s.here.ctx (x + BitVec.ofInt 64 (k.toInt * bytesOfCode z)).toNat .load), (let pa := at_.1; (let u := at_.2;
       u.mustHold u.here.ctx u.hereCore (.sector (pa / 48)) = false ∧ (sc.toNat < 2 ∧ u.l1Clear (.sector (pa / 48)) = true) ∧
       Clean u (l1Place u.hereCore + pa) ((bytesOfCode z)) ∧ (u.core u.hereCore).cached pa ((bytesOfCode z)) ≠ none))))) ∧
    (let s := base |> (fun s => w [1, 64, 5] s |> (fun s => core (fun c => { c with l1 := [(1, List.replicate 48 7)] }) s |> (fun s => { s with poison := [(l1Place 0 + 64) / 8] })));
       let u : Bool := false; let a : Reg := 1; let t : Reg := 0; let k : BitVec 11 := 0; let sc : BitVec 3 := 0; let z : BitVec 3 := 4; NoPrefix s ∧
       Unpaired s ∧ (z = 7 → t.toNat % 2 = 0) ∧ Full s [a.toNat] ∧ (let x := s.th.wv a;
       regionAt (x + BitVec.ofInt 64 (k.toInt * bytesOfCode z)).toNat ≠ .mesh ∧ (x + BitVec.ofInt 64 (k.toInt * bytesOfCode z)).toNat % (bytesOfCode z) = 0 ∧
       (∃ at_ ∈ hit (s.look s.hereCore s.here.ctx (x + BitVec.ofInt 64 (k.toInt * bytesOfCode z)).toNat .load), (let pa := at_.1; (let u := at_.2;
       u.mustHold u.here.ctx u.hereCore (.sector (pa / 48)) = false ∧ (sc.toNat < 2 ∧ u.l1Clear (.sector (pa / 48)) = true) ∧
       ¬ Clean u (l1Place u.hereCore + pa) ((bytesOfCode z)) ∧ NoPend s (regsOf z t) ∧ NoProfile s ∧ NoFailure s ∧
       (u.core u.hereCore).cached pa ((bytesOfCode z)) ≠ none))))) ∧
    (let s := base; let u : Bool := false; let a : Reg := 2; let t : Reg := 4; let k : BitVec 11 := 1; let sc : BitVec 3 := 3; let z : BitVec 3 := 0;
       NoPrefix s ∧ Unpaired s ∧ (z = 7 → t.toNat % 2 = 0) ∧ Full s [a.toNat] ∧ (let x := s.th.wv a;
       regionAt (x + BitVec.ofInt 64 (k.toInt * bytesOfCode z)).toNat ≠ .mesh ∧ (x + BitVec.ofInt 64 (k.toInt * bytesOfCode z)).toNat % (bytesOfCode z) = 0 ∧
       (∃ at_ ∈ hit (s.look s.hereCore s.here.ctx (x + BitVec.ofInt 64 (k.toInt * bytesOfCode z)).toNat .load), (let pa := at_.1; (let u := at_.2;
       u.mustHold u.here.ctx u.hereCore (.sector (pa / 48)) = false ∧ (¬ (sc.toNat < 2 ∧
       u.l1Clear (.sector (pa / 48)) = true) ∨ (u.core u.hereCore).cached pa ((bytesOfCode z)) = none) ∧ NoPend s (regsOf z t)))))) ∧
    (let s := base |> (fun s => w [1, 64, 5] s |> (fun s => { s with inbox := [.atomicExecute .add false true 0 { ctx := 1152, core := 0, kind := .store, addr := 64, size := 8, data := 1, scope := 3, ordered := true }] }));
       let u : Bool := false; let a : Reg := 3; let t : Reg := 7; let z : BitVec 3 := 1; let i5 : BitVec 5 := 31; NoPrefix s ∧ Unpaired s ∧
       (z = 7 → t.toNat % 2 = 0) ∧ Full s [a.toNat] ∧ (let x := s.th.wv a; regionAt (x + BitVec.ofNat 64 (8 * i5.toNat)).toNat ≠ .mesh ∧
       (x + BitVec.ofNat 64 (8 * i5.toNat)).toNat % (bytesOfCode 3) = 0 ∧
       (∃ at_ ∈ hit (s.look s.hereCore s.here.ctx (x + BitVec.ofNat 64 (8 * i5.toNat)).toNat .load), (let pa := at_.1; (let u := at_.2;
       ¬(u.mustHold u.here.ctx u.hereCore (.sector (pa / 48)) = false)))))) ∧
    (let s := base |> (fun s => w [1, 64, 5] s |> (fun s => core (fun c => { c with l1 := [(1, List.replicate 48 7)] }) s |> (fun s => { s with poison := [(l1Place 0 + 64) / 8] })));
       let u : Bool := false; let a : Reg := 1; let t : Reg := 4; let z : BitVec 3 := 0; let i5 : BitVec 5 := 1; NoPrefix s ∧ Unpaired s ∧
       (z = 7 → t.toNat % 2 = 0) ∧ Full s [a.toNat] ∧ (let x := s.th.wv a; regionAt (x + BitVec.ofNat 64 (8 * i5.toNat)).toNat ≠ .mesh ∧
       (x + BitVec.ofNat 64 (8 * i5.toNat)).toNat % (bytesOfCode 3) = 0 ∧
       (∃ at_ ∈ hit (s.look s.hereCore s.here.ctx (x + BitVec.ofNat 64 (8 * i5.toNat)).toNat .load), (let pa := at_.1; (let u := at_.2;
       u.mustHold u.here.ctx u.hereCore (.sector (pa / 48)) = false ∧ (0 < 2 ∧ u.l1Clear (.sector (pa / 48)) = true) ∧
       Clean u (l1Place u.hereCore + pa) ((bytesOfCode 3)) ∧ (u.core u.hereCore).cached pa ((bytesOfCode 3)) ≠ none))))) ∧
    (let s := base |> (fun s => w [1, 64, 5] s |> (fun s => core (fun c => { c with l1 := [(1, List.replicate 48 7)] }) s |> (fun s => { s with poison := [(l1Place 0 + 64) / 8] })));
       let u : Bool := true; let a : Reg := 1; let t : Reg := 7; let z : BitVec 3 := 1; let i5 : BitVec 5 := 0; NoPrefix s ∧ Unpaired s ∧
       (z = 7 → t.toNat % 2 = 0) ∧ Full s [a.toNat] ∧ (let x := s.th.wv a; regionAt (x + BitVec.ofNat 64 (8 * i5.toNat)).toNat ≠ .mesh ∧
       (x + BitVec.ofNat 64 (8 * i5.toNat)).toNat % (bytesOfCode 3) = 0 ∧
       (∃ at_ ∈ hit (s.look s.hereCore s.here.ctx (x + BitVec.ofNat 64 (8 * i5.toNat)).toNat .load), (let pa := at_.1; (let u := at_.2;
       u.mustHold u.here.ctx u.hereCore (.sector (pa / 48)) = false ∧ (0 < 2 ∧ u.l1Clear (.sector (pa / 48)) = true) ∧
       ¬ Clean u (l1Place u.hereCore + pa) ((bytesOfCode 3)) ∧ NoPend s (regsOf 3 t) ∧ NoProfile s ∧ NoFailure s ∧
       (u.core u.hereCore).cached pa ((bytesOfCode 3)) ≠ none))))) ∧
    (let s := base; let u : Bool := false; let a : Reg := 1; let t : Reg := 7; let z : BitVec 3 := 3; let i5 : BitVec 5 := 1; NoPrefix s ∧ Unpaired s ∧
       (z = 7 → t.toNat % 2 = 0) ∧ Full s [a.toNat] ∧ (let x := s.th.wv a; regionAt (x + BitVec.ofNat 64 (8 * i5.toNat)).toNat ≠ .mesh ∧
       (x + BitVec.ofNat 64 (8 * i5.toNat)).toNat % (bytesOfCode 3) = 0 ∧
       (∃ at_ ∈ hit (s.look s.hereCore s.here.ctx (x + BitVec.ofNat 64 (8 * i5.toNat)).toNat .load), (let pa := at_.1; (let u := at_.2;
       u.mustHold u.here.ctx u.hereCore (.sector (pa / 48)) = false ∧ (¬ (0 < 2 ∧
       u.l1Clear (.sector (pa / 48)) = true) ∨ (u.core u.hereCore).cached pa ((bytesOfCode 3)) = none) ∧ NoPend s (regsOf 3 t)))))) := by
  delta Claims.Clean Claims.Full Claims.NoFailure Claims.NoPend Claims.NoPrefix Claims.NoProfile Claims.Unpaired; refine ⟨?_, ?_, ?_, ?_, ?_, ?_, ?_, ?_⟩ <;> decide +kernel

theorem witness_GlobalLoads_2 :
    (let s := base |> (fun s => w [1, 64, 5] s |> (fun s => { s with inbox := [.atomicExecute .add false true 0 { ctx := 1152, core := 0, kind := .store, addr := 64, size := 8, data := 1, scope := 3, ordered := true }] }));
       let u : Bool := true; let a : Reg := 4; let t : Reg := 0; let z : BitVec 3 := 1; let i5 : BitVec 5 := 0; NoPrefix s ∧ Unpaired s ∧
       (z = 7 → t.toNat % 2 = 0) ∧ Full s [a.toNat] ∧ (let x := s.th.wv a; regionAt (x + BitVec.ofNat 64 (4 * i5.toNat)).toNat ≠ .mesh ∧
       (x + BitVec.ofNat 64 (4 * i5.toNat)).toNat % (bytesOfCode 2) = 0 ∧
       (∃ at_ ∈ hit (s.look s.hereCore s.here.ctx (x + BitVec.ofNat 64 (4 * i5.toNat)).toNat .load), (let pa := at_.1; (let u := at_.2;
       ¬(u.mustHold u.here.ctx u.hereCore (.sector (pa / 48)) = false)))))) ∧
    (let s := base |> (w [1, 64, 5]) |> (core fun c => { c with l1 := [(1, List.replicate 48 7)] }); let u : Bool := true; let a : Reg := 1;
       let t : Reg := 2; let z : BitVec 3 := 1; let i5 : BitVec 5 := 1; NoPrefix s ∧ Unpaired s ∧ (z = 7 → t.toNat % 2 = 0) ∧ Full s [a.toNat] ∧
       (let x := s.th.wv a; regionAt (x + BitVec.ofNat 64 (4 * i5.toNat)).toNat ≠ .mesh ∧ (x + BitVec.ofNat 64 (4 * i5.toNat)).toNat % (bytesOfCode 2) = 0 ∧
       (∃ at_ ∈ hit (s.look s.hereCore s.here.ctx (x + BitVec.ofNat 64 (4 * i5.toNat)).toNat .load), (let pa := at_.1; (let u := at_.2;
       u.mustHold u.here.ctx u.hereCore (.sector (pa / 48)) = false ∧ (0 < 2 ∧ u.l1Clear (.sector (pa / 48)) = true) ∧
       Clean u (l1Place u.hereCore + pa) ((bytesOfCode 2)) ∧ (u.core u.hereCore).cached pa ((bytesOfCode 2)) ≠ none))))) ∧
    (let s := base |> (fun s => w [1, 64, 5] s |> (fun s => core (fun c => { c with l1 := [(1, List.replicate 48 7)] }) s |> (fun s => { s with poison := [(l1Place 0 + 64) / 8] })));
       let u : Bool := false; let a : Reg := 1; let t : Reg := 4; let z : BitVec 3 := 7; let i5 : BitVec 5 := 1; NoPrefix s ∧ Unpaired s ∧
       (z = 7 → t.toNat % 2 = 0) ∧ Full s [a.toNat] ∧ (let x := s.th.wv a; regionAt (x + BitVec.ofNat 64 (4 * i5.toNat)).toNat ≠ .mesh ∧
       (x + BitVec.ofNat 64 (4 * i5.toNat)).toNat % (bytesOfCode 2) = 0 ∧
       (∃ at_ ∈ hit (s.look s.hereCore s.here.ctx (x + BitVec.ofNat 64 (4 * i5.toNat)).toNat .load), (let pa := at_.1; (let u := at_.2;
       u.mustHold u.here.ctx u.hereCore (.sector (pa / 48)) = false ∧ (0 < 2 ∧ u.l1Clear (.sector (pa / 48)) = true) ∧
       ¬ Clean u (l1Place u.hereCore + pa) ((bytesOfCode 2)) ∧ NoPend s (regsOf 2 t) ∧ NoProfile s ∧ NoFailure s ∧
       (u.core u.hereCore).cached pa ((bytesOfCode 2)) ≠ none))))) ∧
    (let s := base; let u : Bool := true; let a : Reg := 0; let t : Reg := 3; let z : BitVec 3 := 2; let i5 : BitVec 5 := 31; NoPrefix s ∧ Unpaired s ∧
       (z = 7 → t.toNat % 2 = 0) ∧ Full s [a.toNat] ∧ (let x := s.th.wv a; regionAt (x + BitVec.ofNat 64 (4 * i5.toNat)).toNat ≠ .mesh ∧
       (x + BitVec.ofNat 64 (4 * i5.toNat)).toNat % (bytesOfCode 2) = 0 ∧
       (∃ at_ ∈ hit (s.look s.hereCore s.here.ctx (x + BitVec.ofNat 64 (4 * i5.toNat)).toNat .load), (let pa := at_.1; (let u := at_.2;
       u.mustHold u.here.ctx u.hereCore (.sector (pa / 48)) = false ∧ (¬ (0 < 2 ∧
       u.l1Clear (.sector (pa / 48)) = true) ∨ (u.core u.hereCore).cached pa ((bytesOfCode 2)) = none) ∧ NoPend s (regsOf 2 t)))))) ∧
    (let s := base |> (fun s => w [1, 64, 5] s |> (fun s => { s with inbox := [.atomicExecute .add false true 0 { ctx := 1152, core := 0, kind := .store, addr := 64, size := 8, data := 1, scope := 3, ordered := true }] }));
       let u : Bool := false; let a : Reg := 0; let t : Reg := 0; let z : BitVec 3 := 7; NoPrefix s ∧ Unpaired s ∧ (z = 7 → t.toNat % 2 = 0) ∧
       Full s [a.toNat] ∧ (let x := s.th.wv a; regionAt x.toNat ≠ .mesh ∧ x.toNat % 1 = 0 ∧
       (∃ at_ ∈ hit (s.look s.hereCore s.here.ctx x.toNat .load), (let pa := at_.1; (let u := at_.2;
       ¬(u.mustHold u.here.ctx u.hereCore (.sector (pa / 48)) = false)))))) ∧
    (let s := base |> (w [1, 65, 5]) |> (core fun c => { c with l1 := [(1, List.replicate 48 7)] }); let u : Bool := true; let a : Reg := 1;
       let t : Reg := 0; let z : BitVec 3 := 1; NoPrefix s ∧ Unpaired s ∧ (z = 7 → t.toNat % 2 = 0) ∧ Full s [a.toNat] ∧ (let x := s.th.wv a;
       regionAt x.toNat ≠ .mesh ∧ x.toNat % 1 = 0 ∧ (∃ at_ ∈ hit (s.look s.hereCore s.here.ctx x.toNat .load), (let pa := at_.1; (let u := at_.2;
       u.mustHold u.here.ctx u.hereCore (.sector (pa / 48)) = false ∧ (0 < 2 ∧ u.l1Clear (.sector (pa / 48)) = true) ∧
       Clean u (l1Place u.hereCore + pa) (1) ∧ (u.core u.hereCore).cached pa (1) ≠ none))))) ∧
    (let s := base |> (fun s => w [1, 64, 5] s |> (fun s => core (fun c => { c with l1 := [(1, List.replicate 48 7)] }) s |> (fun s => { s with poison := [(l1Place 0 + 64) / 8] })));
       let u : Bool := false; let a : Reg := 1; let t : Reg := 7; let z : BitVec 3 := 3; NoPrefix s ∧ Unpaired s ∧ (z = 7 → t.toNat % 2 = 0) ∧
       Full s [a.toNat] ∧ (let x := s.th.wv a; regionAt x.toNat ≠ .mesh ∧ x.toNat % 1 = 0 ∧
       (∃ at_ ∈ hit (s.look s.hereCore s.here.ctx x.toNat .load), (let pa := at_.1; (let u := at_.2;
       u.mustHold u.here.ctx u.hereCore (.sector (pa / 48)) = false ∧ (0 < 2 ∧ u.l1Clear (.sector (pa / 48)) = true) ∧
       ¬ Clean u (l1Place u.hereCore + pa) (1) ∧ NoPend s [t] ∧ NoProfile s ∧ NoFailure s ∧ (u.core u.hereCore).cached pa (1) ≠ none))))) ∧
    (let s := base; let u : Bool := true; let a : Reg := 0; let t : Reg := 7; let z : BitVec 3 := 2; NoPrefix s ∧ Unpaired s ∧ (z = 7 → t.toNat % 2 = 0) ∧
       Full s [a.toNat] ∧ (let x := s.th.wv a; regionAt x.toNat ≠ .mesh ∧ x.toNat % 1 = 0 ∧
       (∃ at_ ∈ hit (s.look s.hereCore s.here.ctx x.toNat .load), (let pa := at_.1; (let u := at_.2;
       u.mustHold u.here.ctx u.hereCore (.sector (pa / 48)) = false ∧ (¬ (0 < 2 ∧
       u.l1Clear (.sector (pa / 48)) = true) ∨ (u.core u.hereCore).cached pa (1) = none) ∧ NoPend s [t]))))) := by
  delta Claims.Clean Claims.Full Claims.NoFailure Claims.NoPend Claims.NoPrefix Claims.NoProfile Claims.Unpaired; refine ⟨?_, ?_, ?_, ?_, ?_, ?_, ?_, ?_⟩ <;> decide +kernel

theorem witness_OwnStoreStores :
    (let s := base |> (w [1, meshBase + 64, 5]); let a : Reg := 1; let b : Reg := 0; let t : Reg := 3; let k : BitVec 11 := 0; let z : BitVec 3 := 2;
       NoPrefix s ∧ Unpaired s ∧ (z = 7 → t.toNat % 2 = 0) ∧ Full s (a.toNat :: (regsOf z t).map (·.toNat)) ∧ Full s [t.toNat, b.toNat] ∧
       (let x := s.th.wv a; (let loc := (x + BitVec.ofInt 64 (k.toInt * bytesOfCode z)).toNat - meshBase;
       InMesh s (x + BitVec.ofInt 64 (k.toInt * bytesOfCode z)) (bytesOfCode z) loc ∧ loc / 65536 = s.hereCore ∧ OwnFree s))) ∧
    (let s := base |> (w [1, meshBase + 64, 5]); let a : Reg := 1; let b : Reg := 4; let t : Reg := 3; let z : BitVec 3 := 4; let i5 : BitVec 5 := 1;
       NoPrefix s ∧ Unpaired s ∧ (z = 7 → t.toNat % 2 = 0) ∧ Full s (a.toNat :: (regsOf z t).map (·.toNat)) ∧ Full s [t.toNat, b.toNat] ∧
       (let x := s.th.wv a; (let loc := (x + BitVec.ofNat 64 (8 * i5.toNat)).toNat - meshBase; InMesh s (x + BitVec.ofNat 64 (8 * i5.toNat)) 8 loc ∧
       loc / 65536 = s.hereCore ∧ OwnFree s))) ∧
    (let s := base |> (w [1, meshBase + 64, 5]); let a : Reg := 1; let b : Reg := 7; let t : Reg := 2; let z : BitVec 3 := 3; let i5 : BitVec 5 := 0;
       NoPrefix s ∧ Unpaired s ∧ (z = 7 → t.toNat % 2 = 0) ∧ Full s (a.toNat :: (regsOf z t).map (·.toNat)) ∧ Full s [t.toNat, b.toNat] ∧
       (let x := s.th.wv a; (let loc := (x + BitVec.ofNat 64 (4 * i5.toNat)).toNat - meshBase; InMesh s (x + BitVec.ofNat 64 (4 * i5.toNat)) 4 loc ∧
       loc / 65536 = s.hereCore ∧ OwnFree s))) ∧
    (let s := base; let a : Reg := 3; let b : Reg := 7; let t : Reg := 7; let z : BitVec 3 := 0; let dx : BitVec 5 := 0; let dy : BitVec 5 := 0;
       NoPrefix s ∧ Unpaired s ∧ (z = 7 → t.toNat % 2 = 0) ∧ Full s (a.toNat :: (regsOf z t).map (·.toNat)) ∧ Full s [t.toNat, b.toNat] ∧
       (let x := s.th.wv a; s.th.handler = 0 ∧ (anchored s dx dy x).isSome = true ∧ (let loc := ((anchored s dx dy x).getD 0).toNat - meshBase;
       InMesh s ((anchored s dx dy x).getD 0) (bytesOfCode z) loc ∧ loc / 65536 = s.hereCore ∧ OwnFree s))) ∧
    (let s := base |> (w [1, meshBase + 2 ^ 29 - 8, 5]); let a : Reg := 1; let b : Reg := 2; let t : Reg := 0; let z : BitVec 3 := 0; NoPrefix s ∧
       Unpaired s ∧ (z = 7 → t.toNat % 2 = 0) ∧ Full s (a.toNat :: (regsOf z t).map (·.toNat)) ∧ Full s [t.toNat, b.toNat] ∧ (let x := s.th.wv a;
       (let loc := x.toNat - meshBase; InMesh s x 1 loc ∧ Free s (.store (loc / 65536)) ∧ NoFailure s))) := by
  delta Claims.Free Claims.Full Claims.InMesh Claims.NoFailure Claims.NoPrefix Claims.OwnFree Claims.Unpaired; refine ⟨?_, ?_, ?_, ?_, ?_⟩ <;> decide +kernel

theorem witness_SentStores :
    (let s := base |> (w [1, meshBase + 2 ^ 29 - 8, 5]); let a : Reg := 1; let t : Reg := 0; let k : BitVec 11 := 0; let sc : BitVec 3 := 0;
       let z : BitVec 3 := 0; NoPrefix s ∧ Unpaired s ∧ (z = 7 → t.toNat % 2 = 0) ∧ Full s (a.toNat :: (regsOf z t).map (·.toNat)) ∧ Full s [t.toNat] ∧
       (let x := s.th.wv a; (let loc := (x + BitVec.ofInt 64 (k.toInt * bytesOfCode z)).toNat - meshBase;
       InMesh s (x + BitVec.ofInt 64 (k.toInt * bytesOfCode z)) (bytesOfCode z) loc ∧ Free s (.store (loc / 65536)) ∧
       (loc / 65536 ≠ s.hereCore ∨ sc.toNat ≠ 0) ∧ NoFailure s))) ∧
    (let s := base; let a : Reg := 3; let t : Reg := 7; let k : BitVec 11 := 1; let z : BitVec 3 := 2; NoPrefix s ∧ Unpaired s ∧
       (z = 7 → t.toNat % 2 = 0) ∧ Full s (a.toNat :: (regsOf z t).map (·.toNat)) ∧ Full s [t.toNat] ∧ (let x := s.th.wv a;
       regionAt (x + BitVec.ofInt 64 (k.toInt * bytesOfCode z)).toNat ≠ .mesh ∧ (x + BitVec.ofInt 64 (k.toInt * bytesOfCode z)).toNat % (bytesOfCode z) = 0 ∧
       (∃ at_ ∈ hit (s.look s.hereCore s.here.ctx (x + BitVec.ofInt 64 (k.toInt * bytesOfCode z)).toNat .store), (let pa := at_.1; (let u := at_.2;
       Free u (.sector (pa / 48)) ∧ NoFailure s))))) ∧
    (let s := base |> (w [1, meshBase + 65536 * 3 + 64, 5]); let a : Reg := 1; let t : Reg := 7; let z : BitVec 3 := 0; let i5 : BitVec 5 := 31;
       NoPrefix s ∧ Unpaired s ∧ (z = 7 → t.toNat % 2 = 0) ∧ Full s (a.toNat :: (regsOf z t).map (·.toNat)) ∧ Full s [t.toNat] ∧ (let x := s.th.wv a;
       (let loc := (x + BitVec.ofNat 64 (8 * i5.toNat)).toNat - meshBase; InMesh s (x + BitVec.ofNat 64 (8 * i5.toNat)) 8 loc ∧
       Free s (.store (loc / 65536)) ∧ (loc / 65536 ≠ s.hereCore ∨ 0 ≠ 0) ∧ NoFailure s))) ∧
    (let s := base; let a : Reg := 1; let t : Reg := 3; let z : BitVec 3 := 3; let i5 : BitVec 5 := 1; NoPrefix s ∧ Unpaired s ∧
       (z = 7 → t.toNat % 2 = 0) ∧ Full s (a.toNat :: (regsOf z t).map (·.toNat)) ∧ Full s [t.toNat] ∧ (let x := s.th.wv a;
       regionAt (x + BitVec.ofNat 64 (8 * i5.toNat)).toNat ≠ .mesh ∧ (x + BitVec.ofNat 64 (8 * i5.toNat)).toNat % 8 = 0 ∧
       (∃ at_ ∈ hit (s.look s.hereCore s.here.ctx (x + BitVec.ofNat 64 (8 * i5.toNat)).toNat .store), (let pa := at_.1; (let u := at_.2;
       Free u (.sector (pa / 48)) ∧ NoFailure s))))) ∧
    (let s := base |> (w [1, meshBase + 2 ^ 28, 5]); let a : Reg := 1; let t : Reg := 4; let z : BitVec 3 := 1; let i5 : BitVec 5 := 0; NoPrefix s ∧
       Unpaired s ∧ (z = 7 → t.toNat % 2 = 0) ∧ Full s (a.toNat :: (regsOf z t).map (·.toNat)) ∧ Full s [t.toNat] ∧ (let x := s.th.wv a;
       (let loc := (x + BitVec.ofNat 64 (4 * i5.toNat)).toNat - meshBase; InMesh s (x + BitVec.ofNat 64 (4 * i5.toNat)) 4 loc ∧
       Free s (.store (loc / 65536)) ∧ (loc / 65536 ≠ s.hereCore ∨ 0 ≠ 0) ∧ NoFailure s))) ∧
    (let s := base; let a : Reg := 1; let t : Reg := 2; let z : BitVec 3 := 7; let i5 : BitVec 5 := 1; NoPrefix s ∧ Unpaired s ∧
       (z = 7 → t.toNat % 2 = 0) ∧ Full s (a.toNat :: (regsOf z t).map (·.toNat)) ∧ Full s [t.toNat] ∧ (let x := s.th.wv a;
       regionAt (x + BitVec.ofNat 64 (4 * i5.toNat)).toNat ≠ .mesh ∧ (x + BitVec.ofNat 64 (4 * i5.toNat)).toNat % 4 = 0 ∧
       (∃ at_ ∈ hit (s.look s.hereCore s.here.ctx (x + BitVec.ofNat 64 (4 * i5.toNat)).toNat .store), (let pa := at_.1; (let u := at_.2;
       Free u (.sector (pa / 48)) ∧ NoFailure s))))) ∧
    (let s := base; let a : Reg := 1; let t : Reg := 1; let sc : BitVec 3 := 3; let z : BitVec 3 := 3; let dx : BitVec 5 := 1; let dy : BitVec 5 := 3;
       NoPrefix s ∧ Unpaired s ∧ (z = 7 → t.toNat % 2 = 0) ∧ Full s (a.toNat :: (regsOf z t).map (·.toNat)) ∧ Full s [t.toNat] ∧ (let x := s.th.wv a;
       s.th.handler = 0 ∧ (anchored s dx dy x).isSome = true ∧ (let loc := ((anchored s dx dy x).getD 0).toNat - meshBase;
       InMesh s ((anchored s dx dy x).getD 0) (bytesOfCode z) loc ∧ Free s (.store (loc / 65536)) ∧ (loc / 65536 ≠ s.hereCore ∨ sc.toNat ≠ 0) ∧ NoFailure s))) := by
  delta Claims.Free Claims.Full Claims.InMesh Claims.NoFailure Claims.NoPrefix Claims.Unpaired; refine ⟨?_, ?_, ?_, ?_, ?_, ?_, ?_⟩ <;> decide +kernel

theorem witness_AddressFaults_1 :
    (let s := base |> (fun s => { s with mode := 2 }) |> (w [1, meshBase + 2 ^ 28, 5]); let a : Reg := 1; let b : Reg := 7; let t : Reg := 3;
       let k : BitVec 11 := 1; let z : BitVec 3 := 3; NoPrefix s ∧ Unpaired s ∧ (z = 7 → t.toNat % 2 = 0) ∧ (let x := s.th.wv a;
       (let ea := x + BitVec.ofInt 64 (k.toInt * bytesOfCode z); Full s (a.toNat :: b.toNat :: 8 :: (regsOf z t).map (·.toNat)) ∧ (let at_ := ea;
       regionAt at_.toNat = .mesh ∧ (setDies s.mode (s.th.part / 4)).contains ((at_.toNat - meshBase) / 2 ^ 26) = false)))) ∧
    (let s := base |> (fun s => s |> w [1, 64, 5] |> th (fun c => { c with badVa := some 64 })); let a : Reg := 0; let b : Reg := 0; let t : Reg := 7;
       let k : BitVec 11 := 2047; let z : BitVec 3 := 2; NoPrefix s ∧ Unpaired s ∧ (z = 7 → t.toNat % 2 = 0) ∧ (let x := s.th.wv a;
       (let ea := x + BitVec.ofInt 64 (k.toInt * bytesOfCode z); Full s (a.toNat :: b.toNat :: 8 :: (regsOf z t).map (·.toNat)) ∧ (let at_ := ea;
       (let n0 := (bytesOfCode z); (let n' := if n0 = 0 then 1 else n0;
       (regionAt at_.toNat ≠ .mesh ∨ (setDies s.mode (s.th.part / 4)).contains ((at_.toNat - meshBase) / 2 ^ 26) = true) ∧ at_.toNat % n' ≠ 0)))))) ∧
    (let s := base; let a : Reg := 4; let b : Reg := 3; let t : Reg := 4; let k : BitVec 11 := 2047; let z : BitVec 3 := 1; NoPrefix s ∧ Unpaired s ∧
       (z = 7 → t.toNat % 2 = 0) ∧ (let x := s.th.wv a; (let ea := x + BitVec.ofInt 64 (k.toInt * bytesOfCode z);
       Full s (a.toNat :: b.toNat :: 8 :: (regsOf z t).map (·.toNat)) ∧ (let at_ := ea; (let n0 := (bytesOfCode z); (let n' := if n0 = 0 then 1 else n0;
       at_.toNat % n' = 0 ∧ regionAt at_.toNat = .gap)))))) ∧
    (let s := base |> (fun s => s |> w [1, 64, 5] |> th (fun c => { c with badVa := some 64 })); let a : Reg := 1; let b : Reg := 7; let t : Reg := 1;
       let k : BitVec 11 := 0; let z : BitVec 3 := 2; NoPrefix s ∧ Unpaired s ∧ (z = 7 → t.toNat % 2 = 0) ∧ (let x := s.th.wv a;
       (let ea := x + BitVec.ofInt 64 (k.toInt * bytesOfCode z); Full s (a.toNat :: b.toNat :: 8 :: (regsOf z t).map (·.toNat)) ∧ (let at_ := ea;
       (let n0 := (bytesOfCode z); (let n' := if n0 = 0 then 1 else n0; at_.toNat % n' = 0 ∧ regionAt at_.toNat ≠ .mesh ∧ regionAt at_.toNat ≠ .gap ∧
       (s.ctx s.here.ctx).badVa = some at_.toNat)))))) ∧
    (let s := base |> (fun s => s |> w [1, 64, 5] |> core (fun c => { c with tlb := [{ page0 with u := false }] })); let a : Reg := 7; let b : Reg := 1;
       let t : Reg := 7; let k : BitVec 11 := 0; let z : BitVec 3 := 1; NoPrefix s ∧ Unpaired s ∧ (z = 7 → t.toNat % 2 = 0) ∧ (let x := s.th.wv a;
       (let ea := x + BitVec.ofInt 64 (k.toInt * bytesOfCode z); Full s (a.toNat :: b.toNat :: 8 :: (regsOf z t).map (·.toNat)) ∧ (let at_ := ea;
       (let n0 := (bytesOfCode z); (let n' := if n0 = 0 then 1 else n0; at_.toNat % n' = 0 ∧ regionAt at_.toNat ≠ .mesh ∧ regionAt at_.toNat ≠ .gap ∧
       (s.ctx s.here.ctx).badVa = none ∧
       (∃ y ∈ tlbFind (s.core s.hereCore).tlb (s.ctx s.here.ctx).part (at_.getLsbD 56) (at_.toNat % 2 ^ 56), (regionAt at_.toNat = .context ∨ (s.ctx s.here.ctx).priv = 0 ∧
       (at_.getLsbD 56 = true ∨ y.u = false) ∨ true = true ∧ y.r = false ∨ false = true ∧ y.w = false)))))))) ∧
    (let s := base |> (fun s => s |> w [1, 64, 5] |> core (fun c => { c with tlb := [{ page0 with u := false }] })); let a : Reg := 2; let b : Reg := 1;
       let t : Reg := 4; let k : BitVec 11 := 0; let z : BitVec 3 := 4; NoPrefix s ∧ Unpaired s ∧ (z = 7 → t.toNat % 2 = 0) ∧ (let x := s.th.wv a;
       (let ea := x + BitVec.ofInt 64 (k.toInt * bytesOfCode z); Full s (a.toNat :: b.toNat :: 8 :: (regsOf z t).map (·.toNat)) ∧ (let at_ := ea;
       (let n0 := (bytesOfCode z); (let n' := if n0 = 0 then 1 else n0; at_.toNat % n' = 0 ∧ regionAt at_.toNat ≠ .mesh ∧ regionAt at_.toNat ≠ .gap ∧
       (s.ctx s.here.ctx).badVa = none ∧
       (∃ y ∈ tlbFind (s.core s.hereCore).tlb (s.ctx s.here.ctx).part (at_.getLsbD 56) (at_.toNat % 2 ^ 56), (regionAt at_.toNat = .context ∨ (s.ctx s.here.ctx).priv = 0 ∧
       (at_.getLsbD 56 = true ∨ y.u = false) ∨ false = true ∧ y.r = false ∨ true = true ∧ y.w = false)))))))) ∧
    (let s := base |> (w [1, meshBase + 2 ^ 29 - 8, 5]) |> (fun s => { s with mode := 2 }) |> (w [1, meshBase + 2 ^ 29 - 8, 5]); let a : Reg := 1;
       let b : Reg := 4; let t : Reg := 4; let z : BitVec 3 := 2; let i5 : BitVec 5 := 0; NoPrefix s ∧ Unpaired s ∧ (z = 7 → t.toNat % 2 = 0) ∧
       (let x := s.th.wv a; Full s (a.toNat :: b.toNat :: 8 :: (regsOf z t).map (·.toNat)) ∧ (let at_ := (x + BitVec.ofNat 64 (8 * i5.toNat));
       regionAt at_.toNat = .mesh ∧ (setDies s.mode (s.th.part / 4)).contains ((at_.toNat - meshBase) / 2 ^ 26) = false))) ∧
    (let s := base |> (w [1, meshBase + 65, 5]); let a : Reg := 0; let b : Reg := 7; let t : Reg := 1; let z : BitVec 3 := 1; let i5 : BitVec 5 := 0;
       NoPrefix s ∧ Unpaired s ∧ (z = 7 → t.toNat % 2 = 0) ∧ (let x := s.th.wv a; Full s (a.toNat :: b.toNat :: 8 :: (regsOf z t).map (·.toNat)) ∧
       (let at_ := (x + BitVec.ofNat 64 (8 * i5.toNat)); (let n0 := 8; (let n' := if n0 = 0 then 1 else n0;
       (regionAt at_.toNat ≠ .mesh ∨ (setDies s.mode (s.th.part / 4)).contains ((at_.toNat - meshBase) / 2 ^ 26) = true) ∧ at_.toNat % n' ≠ 0))))) := by
  delta Claims.Full Claims.NoPrefix Claims.Unpaired; refine ⟨?_, ?_, ?_, ?_, ?_, ?_, ?_, ?_⟩ <;> decide +kernel

theorem witness_AddressFaults_2 :
    (let s := base |> (w [0, 1, 0x300, 0x2000000000000000]); let a : Reg := 3; let b : Reg := 1; let t : Reg := 3; let z : BitVec 3 := 3;
       let i5 : BitVec 5 := 0; NoPrefix s ∧ Unpaired s ∧ (z = 7 → t.toNat % 2 = 0) ∧ (let x := s.th.wv a;
       Full s (a.toNat :: b.toNat :: 8 :: (regsOf z t).map (·.toNat)) ∧ (let at_ := (x + BitVec.ofNat 64 (8 * i5.toNat)); (let n0 := 8;
       (let n' := if n0 = 0 then 1 else n0; at_.toNat % n' = 0 ∧ regionAt at_.toNat = .gap))))) ∧
    (let s := base |> (fun s => s |> w [1, 64, 5] |> th (fun c => { c with badVa := some 64 })); let a : Reg := 1; let b : Reg := 2; let t : Reg := 3;
       let z : BitVec 3 := 4; let i5 : BitVec 5 := 0; NoPrefix s ∧ Unpaired s ∧ (z = 7 → t.toNat % 2 = 0) ∧ (let x := s.th.wv a;
       Full s (a.toNat :: b.toNat :: 8 :: (regsOf z t).map (·.toNat)) ∧ (let at_ := (x + BitVec.ofNat 64 (8 * i5.toNat)); (let n0 := 8;
       (let n' := if n0 = 0 then 1 else n0; at_.toNat % n' = 0 ∧ regionAt at_.toNat ≠ .mesh ∧ regionAt at_.toNat ≠ .gap ∧
       (s.ctx s.here.ctx).badVa = some at_.toNat))))) ∧
    (let s := base |> (fun s => s |> w [1, 64, 5] |> core (fun c => { c with tlb := [{ page0 with u := false }] })); let a : Reg := 7; let b : Reg := 1;
       let t : Reg := 7; let z : BitVec 3 := 0; let i5 : BitVec 5 := 1; NoPrefix s ∧ Unpaired s ∧ (z = 7 → t.toNat % 2 = 0) ∧ (let x := s.th.wv a;
       Full s (a.toNat :: b.toNat :: 8 :: (regsOf z t).map (·.toNat)) ∧ (let at_ := (x + BitVec.ofNat 64 (8 * i5.toNat)); (let n0 := 8;
       (let n' := if n0 = 0 then 1 else n0; at_.toNat % n' = 0 ∧ regionAt at_.toNat ≠ .mesh ∧ regionAt at_.toNat ≠ .gap ∧ (s.ctx s.here.ctx).badVa = none ∧
       (∃ y ∈ tlbFind (s.core s.hereCore).tlb (s.ctx s.here.ctx).part (at_.getLsbD 56) (at_.toNat % 2 ^ 56), (regionAt at_.toNat = .context ∨ (s.ctx s.here.ctx).priv = 0 ∧
       (at_.getLsbD 56 = true ∨ y.u = false) ∨ true = true ∧ y.r = false ∨ false = true ∧ y.w = false))))))) ∧
    (let s := base |> (w [1, meshBase + 65536 * 3 + 64, 5]) |> (w [1, meshBase + 2 ^ 28, 5]) |> (fun s => { s with mode := 2 }); let a : Reg := 1;
       let b : Reg := 1; let t : Reg := 1; let z : BitVec 3 := 4; let i5 : BitVec 5 := 0; NoPrefix s ∧ Unpaired s ∧ (z = 7 → t.toNat % 2 = 0) ∧
       (let x := s.th.wv a; Full s (a.toNat :: b.toNat :: 8 :: (regsOf z t).map (·.toNat)) ∧ (let at_ := (x + BitVec.ofNat 64 (4 * i5.toNat));
       regionAt at_.toNat = .mesh ∧ (setDies s.mode (s.th.part / 4)).contains ((at_.toNat - meshBase) / 2 ^ 26) = false))) ∧
    (let s := base |> (w [1, meshBase + 65, 5]); let a : Reg := 1; let b : Reg := 2; let t : Reg := 0; let z : BitVec 3 := 2; let i5 : BitVec 5 := 31;
       NoPrefix s ∧ Unpaired s ∧ (z = 7 → t.toNat % 2 = 0) ∧ (let x := s.th.wv a; Full s (a.toNat :: b.toNat :: 8 :: (regsOf z t).map (·.toNat)) ∧
       (let at_ := (x + BitVec.ofNat 64 (4 * i5.toNat)); (let n0 := 4; (let n' := if n0 = 0 then 1 else n0;
       (regionAt at_.toNat ≠ .mesh ∨ (setDies s.mode (s.th.part / 4)).contains ((at_.toNat - meshBase) / 2 ^ 26) = true) ∧ at_.toNat % n' ≠ 0))))) ∧
    (let s := base |> (w [0, 1, 0x300, 0x2000000000000000]); let a : Reg := 3; let b : Reg := 4; let t : Reg := 3; let z : BitVec 3 := 0;
       let i5 : BitVec 5 := 0; NoPrefix s ∧ Unpaired s ∧ (z = 7 → t.toNat % 2 = 0) ∧ (let x := s.th.wv a;
       Full s (a.toNat :: b.toNat :: 8 :: (regsOf z t).map (·.toNat)) ∧ (let at_ := (x + BitVec.ofNat 64 (4 * i5.toNat)); (let n0 := 4;
       (let n' := if n0 = 0 then 1 else n0; at_.toNat % n' = 0 ∧ regionAt at_.toNat = .gap))))) ∧
    (let s := base |> (fun s => s |> w [1, 64, 5] |> th (fun c => { c with badVa := some 64 })); let a : Reg := 1; let b : Reg := 3; let t : Reg := 7;
       let z : BitVec 3 := 4; let i5 : BitVec 5 := 0; NoPrefix s ∧ Unpaired s ∧ (z = 7 → t.toNat % 2 = 0) ∧ (let x := s.th.wv a;
       Full s (a.toNat :: b.toNat :: 8 :: (regsOf z t).map (·.toNat)) ∧ (let at_ := (x + BitVec.ofNat 64 (4 * i5.toNat)); (let n0 := 4;
       (let n' := if n0 = 0 then 1 else n0; at_.toNat % n' = 0 ∧ regionAt at_.toNat ≠ .mesh ∧ regionAt at_.toNat ≠ .gap ∧
       (s.ctx s.here.ctx).badVa = some at_.toNat))))) ∧
    (let s := base |> (fun s => s |> w [1, 64, 5] |> core (fun c => { c with tlb := [{ page0 with u := false }] })); let a : Reg := 4; let b : Reg := 3;
       let t : Reg := 2; let z : BitVec 3 := 7; let i5 : BitVec 5 := 1; NoPrefix s ∧ Unpaired s ∧ (z = 7 → t.toNat % 2 = 0) ∧ (let x := s.th.wv a;
       Full s (a.toNat :: b.toNat :: 8 :: (regsOf z t).map (·.toNat)) ∧ (let at_ := (x + BitVec.ofNat 64 (4 * i5.toNat)); (let n0 := 4;
       (let n' := if n0 = 0 then 1 else n0; at_.toNat % n' = 0 ∧ regionAt at_.toNat ≠ .mesh ∧ regionAt at_.toNat ≠ .gap ∧ (s.ctx s.here.ctx).badVa = none ∧
       (∃ y ∈ tlbFind (s.core s.hereCore).tlb (s.ctx s.here.ctx).part (at_.getLsbD 56) (at_.toNat % 2 ^ 56), (regionAt at_.toNat = .context ∨ (s.ctx s.here.ctx).priv = 0 ∧
       (at_.getLsbD 56 = true ∨ y.u = false) ∨ true = true ∧ y.r = false ∨ false = true ∧ y.w = false))))))) := by
  delta Claims.Full Claims.NoPrefix Claims.Unpaired; refine ⟨?_, ?_, ?_, ?_, ?_, ?_, ?_, ?_⟩ <;> decide +kernel

theorem witness_AddressFaults_3 :
    (let s := base |> (fun s => { s with mode := 2 }) |> (w [1, meshBase + 2 ^ 29 - 8, 5]); let a : Reg := 1; let b : Reg := 2; let t : Reg := 4;
       let z : BitVec 3 := 3; NoPrefix s ∧ Unpaired s ∧ (z = 7 → t.toNat % 2 = 0) ∧ (let x := s.th.wv a;
       Full s (a.toNat :: b.toNat :: 8 :: (regsOf z t).map (·.toNat)) ∧ (let at_ := x; regionAt at_.toNat = .mesh ∧
       (setDies s.mode (s.th.part / 4)).contains ((at_.toNat - meshBase) / 2 ^ 26) = false))) ∧
    (let s := base |> (w [0, 1, 0x300, 0x2000000000000000]); let a : Reg := 3; let b : Reg := 2; let t : Reg := 4; let z : BitVec 3 := 4; NoPrefix s ∧
       Unpaired s ∧ (z = 7 → t.toNat % 2 = 0) ∧ (let x := s.th.wv a; Full s (a.toNat :: b.toNat :: 8 :: (regsOf z t).map (·.toNat)) ∧ (let at_ := x;
       (let n0 := 1; (let n' := if n0 = 0 then 1 else n0; at_.toNat % n' = 0 ∧ regionAt at_.toNat = .gap))))) ∧
    (let s := base |> (fun s => s |> w [1, 64, 5] |> th (fun c => { c with badVa := some 64 })); let a : Reg := 1; let b : Reg := 3; let t : Reg := 4;
       let z : BitVec 3 := 4; NoPrefix s ∧ Unpaired s ∧ (z = 7 → t.toNat % 2 = 0) ∧ (let x := s.th.wv a;
       Full s (a.toNat :: b.toNat :: 8 :: (regsOf z t).map (·.toNat)) ∧ (let at_ := x; (let n0 := 1; (let n' := if n0 = 0 then 1 else n0;
       at_.toNat % n' = 0 ∧ regionAt at_.toNat ≠ .mesh ∧ regionAt at_.toNat ≠ .gap ∧ (s.ctx s.here.ctx).badVa = some at_.toNat))))) ∧
    (let s := base |> (fun s => s |> w [1, 64, 5] |> core (fun c => { c with tlb := [{ page0 with u := false }] })); let a : Reg := 7; let b : Reg := 2;
       let t : Reg := 2; let z : BitVec 3 := 7; NoPrefix s ∧ Unpaired s ∧ (z = 7 → t.toNat % 2 = 0) ∧ (let x := s.th.wv a;
       Full s (a.toNat :: b.toNat :: 8 :: (regsOf z t).map (·.toNat)) ∧ (let at_ := x; (let n0 := 1; (let n' := if n0 = 0 then 1 else n0;
       at_.toNat % n' = 0 ∧ regionAt at_.toNat ≠ .mesh ∧ regionAt at_.toNat ≠ .gap ∧ (s.ctx s.here.ctx).badVa = none ∧
       (∃ y ∈ tlbFind (s.core s.hereCore).tlb (s.ctx s.here.ctx).part (at_.getLsbD 56) (at_.toNat % 2 ^ 56), (regionAt at_.toNat = .context ∨ (s.ctx s.here.ctx).priv = 0 ∧
       (at_.getLsbD 56 = true ∨ y.u = false) ∨ true = true ∧ y.r = false ∨ false = true ∧ y.w = false))))))) ∧
    (let s := base |> (fun s => s |> w [1, 64, 5] |> core (fun c => { c with tlb := [{ page0 with u := false }] })); let a : Reg := 3; let b : Reg := 4;
       let t : Reg := 7; let z : BitVec 3 := 4; NoPrefix s ∧ Unpaired s ∧ (z = 7 → t.toNat % 2 = 0) ∧ (let x := s.th.wv a;
       Full s (a.toNat :: b.toNat :: 8 :: (regsOf z t).map (·.toNat)) ∧ (let at_ := x; (let n0 := 1; (let n' := if n0 = 0 then 1 else n0;
       at_.toNat % n' = 0 ∧ regionAt at_.toNat ≠ .mesh ∧ regionAt at_.toNat ≠ .gap ∧ (s.ctx s.here.ctx).badVa = none ∧
       (∃ y ∈ tlbFind (s.core s.hereCore).tlb (s.ctx s.here.ctx).part (at_.getLsbD 56) (at_.toNat % 2 ^ 56), (regionAt at_.toNat = .context ∨ (s.ctx s.here.ctx).priv = 0 ∧
       (at_.getLsbD 56 = true ∨ y.u = false) ∨ false = true ∧ y.r = false ∨ true = true ∧ y.w = false))))))) ∧
    (let s := base |> (w [1, meshBase + 2 ^ 28, 5]) |> (fun s => { s with mode := 2 }); let a : Reg := 1; let b : Reg := 1; let d : Reg := 2;
       let t : Reg := 3; let i7 : BitVec 7 := 1; let z : BitVec 3 := 3; NoPrefix s ∧ Unpaired s ∧ (z = 7 → t.toNat % 2 = 0) ∧ (let x := s.th.wv a;
       Full s (a.toNat :: b.toNat :: 8 :: (regsOf z t).map (·.toNat)) ∧ d.toNat < 4 ∧ s.th.epend.getLsbD d.toNat = false ∧
       (let at_ := (x + BitVec.ofInt 64 (8 * i7.toInt)); regionAt at_.toNat = .mesh ∧
       (setDies s.mode (s.th.part / 4)).contains ((at_.toNat - meshBase) / 2 ^ 26) = false))) ∧
    (let s := base |> (w [1, meshBase + 65, 5]); let a : Reg := 1; let b : Reg := 4; let d : Reg := 2; let t : Reg := 4; let i7 : BitVec 7 := 1;
       let z : BitVec 3 := 2; NoPrefix s ∧ Unpaired s ∧ (z = 7 → t.toNat % 2 = 0) ∧ (let x := s.th.wv a;
       Full s (a.toNat :: b.toNat :: 8 :: (regsOf z t).map (·.toNat)) ∧ d.toNat < 4 ∧ s.th.epend.getLsbD d.toNat = false ∧
       (let at_ := (x + BitVec.ofInt 64 (8 * i7.toInt)); (let n0 := 8; (let n' := if n0 = 0 then 1 else n0;
       (regionAt at_.toNat ≠ .mesh ∨ (setDies s.mode (s.th.part / 4)).contains ((at_.toNat - meshBase) / 2 ^ 26) = true) ∧ at_.toNat % n' ≠ 0))))) ∧
    (let s := base; let a : Reg := 0; let b : Reg := 1; let d : Reg := 2; let t : Reg := 1; let i7 : BitVec 7 := 64; let z : BitVec 3 := 0; NoPrefix s ∧
       Unpaired s ∧ (z = 7 → t.toNat % 2 = 0) ∧ (let x := s.th.wv a; Full s (a.toNat :: b.toNat :: 8 :: (regsOf z t).map (·.toNat)) ∧ d.toNat < 4 ∧
       s.th.epend.getLsbD d.toNat = false ∧ (let at_ := (x + BitVec.ofInt 64 (8 * i7.toInt)); (let n0 := 8; (let n' := if n0 = 0 then 1 else n0;
       at_.toNat % n' = 0 ∧ regionAt at_.toNat = .gap))))) := by
  delta Claims.Full Claims.NoPrefix Claims.Unpaired; refine ⟨?_, ?_, ?_, ?_, ?_, ?_, ?_, ?_⟩ <;> decide +kernel

theorem witness_AddressFaults_4 :
    (let s := base |> (fun s => s |> w [1, 64, 5] |> th (fun c => { c with badVa := some 64 })) |> (fun s => s |> w [1, 64, 5] |> th (fun c => { c with badVa := some 64 }));
       let a : Reg := 1; let b : Reg := 7; let d : Reg := 1; let t : Reg := 7; let i7 : BitVec 7 := 0; let z : BitVec 3 := 1; NoPrefix s ∧ Unpaired s ∧
       (z = 7 → t.toNat % 2 = 0) ∧ (let x := s.th.wv a; Full s (a.toNat :: b.toNat :: 8 :: (regsOf z t).map (·.toNat)) ∧ d.toNat < 4 ∧
       s.th.epend.getLsbD d.toNat = false ∧ (let at_ := (x + BitVec.ofInt 64 (8 * i7.toInt)); (let n0 := 8; (let n' := if n0 = 0 then 1 else n0;
       at_.toNat % n' = 0 ∧ regionAt at_.toNat ≠ .mesh ∧ regionAt at_.toNat ≠ .gap ∧ (s.ctx s.here.ctx).badVa = some at_.toNat))))) ∧
    (let s := base |> (fun s => s |> w [1, 64, 5] |> core (fun c => { c with tlb := [{ page0 with u := false }] })); let a : Reg := 3; let b : Reg := 3;
       let d : Reg := 3; let t : Reg := 7; let i7 : BitVec 7 := 0; let z : BitVec 3 := 0; NoPrefix s ∧ Unpaired s ∧ (z = 7 → t.toNat % 2 = 0) ∧
       (let x := s.th.wv a; Full s (a.toNat :: b.toNat :: 8 :: (regsOf z t).map (·.toNat)) ∧ d.toNat < 4 ∧ s.th.epend.getLsbD d.toNat = false ∧
       (let at_ := (x + BitVec.ofInt 64 (8 * i7.toInt)); (let n0 := 8; (let n' := if n0 = 0 then 1 else n0; at_.toNat % n' = 0 ∧ regionAt at_.toNat ≠ .mesh ∧
       regionAt at_.toNat ≠ .gap ∧ (s.ctx s.here.ctx).badVa = none ∧
       (∃ y ∈ tlbFind (s.core s.hereCore).tlb (s.ctx s.here.ctx).part (at_.getLsbD 56) (at_.toNat % 2 ^ 56), (regionAt at_.toNat = .context ∨ (s.ctx s.here.ctx).priv = 0 ∧
       (at_.getLsbD 56 = true ∨ y.u = false) ∨ true = true ∧ y.r = false ∨ false = true ∧ y.w = false))))))) ∧
    (let s := base |> (w [1, 12288 * 2 ^ 26, 5]); let e : Bool := true; let a : Reg := 2; let b : Reg := 3; let t : Reg := 4; let z : BitVec 3 := 4;
       NoPrefix s ∧ Unpaired s ∧ (z = 7 → t.toNat % 2 = 0) ∧ (let x := s.th.wv a; Full s (a.toNat :: b.toNat :: 8 :: (regsOf z t).map (·.toNat)) ∧
       (let at_ := x; (let n0 := (if e then 8 else 4); (let n' := if n0 = 0 then 1 else n0;
       (regionAt at_.toNat ≠ .mesh ∨ (setDies s.mode (s.th.part / 4)).contains ((at_.toNat - meshBase) / 2 ^ 26) = true) ∧ at_.toNat % n' ≠ 0))))) ∧
    (let s := base |> (w [1, meshBase + 2 ^ 29, 5]); let e : Bool := true; let a : Reg := 1; let b : Reg := 3; let t : Reg := 4; let z : BitVec 3 := 7;
       NoPrefix s ∧ Unpaired s ∧ (z = 7 → t.toNat % 2 = 0) ∧ (let x := s.th.wv a; Full s (a.toNat :: b.toNat :: 8 :: (regsOf z t).map (·.toNat)) ∧
       (let at_ := x; (let n0 := (if e then 8 else 4); (let n' := if n0 = 0 then 1 else n0; at_.toNat % n' = 0 ∧ regionAt at_.toNat = .gap))))) ∧
    (let s := base |> (fun s => s |> w [1, 64, 5] |> th (fun c => { c with badVa := some 64 })); let e : Bool := false; let a : Reg := 1; let b : Reg := 7;
       let t : Reg := 1; let z : BitVec 3 := 2; NoPrefix s ∧ Unpaired s ∧ (z = 7 → t.toNat % 2 = 0) ∧ (let x := s.th.wv a;
       Full s (a.toNat :: b.toNat :: 8 :: (regsOf z t).map (·.toNat)) ∧ (let at_ := x; (let n0 := (if e then 8 else 4); (let n' := if n0 = 0 then 1 else n0;
       at_.toNat % n' = 0 ∧ regionAt at_.toNat ≠ .mesh ∧ regionAt at_.toNat ≠ .gap ∧ (s.ctx s.here.ctx).badVa = some at_.toNat))))) ∧
    (let s := base |> (fun s => s |> w [1, 64, 5] |> core (fun c => { c with tlb := [{ page0 with u := false }] })); let e : Bool := true;
       let a : Reg := 4; let b : Reg := 4; let t : Reg := 7; let z : BitVec 3 := 2; NoPrefix s ∧ Unpaired s ∧ (z = 7 → t.toNat % 2 = 0) ∧
       (let x := s.th.wv a; Full s (a.toNat :: b.toNat :: 8 :: (regsOf z t).map (·.toNat)) ∧ (let at_ := x; (let n0 := (if e then 8 else 4);
       (let n' := if n0 = 0 then 1 else n0; at_.toNat % n' = 0 ∧ regionAt at_.toNat ≠ .mesh ∧ regionAt at_.toNat ≠ .gap ∧ (s.ctx s.here.ctx).badVa = none ∧
       (∃ y ∈ tlbFind (s.core s.hereCore).tlb (s.ctx s.here.ctx).part (at_.getLsbD 56) (at_.toNat % 2 ^ 56), (regionAt at_.toNat = .context ∨ (s.ctx s.here.ctx).priv = 0 ∧
       (at_.getLsbD 56 = true ∨ y.u = false) ∨ true = true ∧ y.r = false ∨ true = true ∧ y.w = false))))))) ∧
    (let s := base |> (w [1, 2, 3]) |> (w [1, meshBase + 2 ^ 29 - 8, 5]) |> (fun s => { s with mode := 2 }) |> (w [1, meshBase + 2 ^ 29 - 8, 5]);
       let a : Reg := 1; let b : Reg := 4; let d : Reg := 3; let t : Reg := 7; let z : BitVec 3 := 3; NoPrefix s ∧ Unpaired s ∧ (z = 7 → t.toNat % 2 = 0) ∧
       (let x := s.th.wv a; Full s (a.toNat :: b.toNat :: 8 :: (regsOf z t).map (·.toNat)) ∧ NoPend s [d] ∧ (let at_ := x; regionAt at_.toNat = .mesh ∧
       (setDies s.mode (s.th.part / 4)).contains ((at_.toNat - meshBase) / 2 ^ 26) = false))) ∧
    (let s := base |> (w [1, 64, 5]); let e : Bool := true; let a : Reg := 0; let b : Reg := 7; let d : Reg := 2; let t : Reg := 0; let z : BitVec 3 := 2;
       NoPrefix s ∧ Unpaired s ∧ (z = 7 → t.toNat % 2 = 0) ∧ (let x := s.th.wv a; Full s (a.toNat :: b.toNat :: 8 :: (regsOf z t).map (·.toNat)) ∧
       NoPend s [d] ∧ (let at_ := x; (let n0 := (if e then 8 else 4); (let n' := if n0 = 0 then 1 else n0;
       (regionAt at_.toNat ≠ .mesh ∨ (setDies s.mode (s.th.part / 4)).contains ((at_.toNat - meshBase) / 2 ^ 26) = true) ∧ at_.toNat % n' ≠ 0))))) := by
  delta Claims.Full Claims.NoPend Claims.NoPrefix Claims.Unpaired; refine ⟨?_, ?_, ?_, ?_, ?_, ?_, ?_, ?_⟩ <;> decide +kernel

theorem witness_AddressFaults_5 :
    (let s := base |> (w [1, meshBase + 2 ^ 29, 5]); let e : Bool := true; let a : Reg := 1; let b : Reg := 0; let d : Reg := 3; let t : Reg := 1;
       let z : BitVec 3 := 4; NoPrefix s ∧ Unpaired s ∧ (z = 7 → t.toNat % 2 = 0) ∧ (let x := s.th.wv a;
       Full s (a.toNat :: b.toNat :: 8 :: (regsOf z t).map (·.toNat)) ∧ NoPend s [d] ∧ (let at_ := x; (let n0 := (if e then 8 else 4);
       (let n' := if n0 = 0 then 1 else n0; at_.toNat % n' = 0 ∧ regionAt at_.toNat = .gap))))) ∧
    (let s := base |> (fun s => s |> w [1, 64, 5] |> th (fun c => { c with badVa := some 64 })); let e : Bool := true; let a : Reg := 1; let b : Reg := 7;
       let d : Reg := 0; let t : Reg := 1; let z : BitVec 3 := 4; NoPrefix s ∧ Unpaired s ∧ (z = 7 → t.toNat % 2 = 0) ∧ (let x := s.th.wv a;
       Full s (a.toNat :: b.toNat :: 8 :: (regsOf z t).map (·.toNat)) ∧ NoPend s [d] ∧ (let at_ := x; (let n0 := (if e then 8 else 4);
       (let n' := if n0 = 0 then 1 else n0; at_.toNat % n' = 0 ∧ regionAt at_.toNat ≠ .mesh ∧ regionAt at_.toNat ≠ .gap ∧
       (s.ctx s.here.ctx).badVa = some at_.toNat))))) ∧
    (let s := base |> (fun s => s |> w [1, 64, 5] |> core (fun c => { c with tlb := [{ page0 with u := false }] })); let e : Bool := true;
       let a : Reg := 3; let b : Reg := 0; let d : Reg := 2; let t : Reg := 0; let z : BitVec 3 := 3; NoPrefix s ∧ Unpaired s ∧ (z = 7 → t.toNat % 2 = 0) ∧
       (let x := s.th.wv a; Full s (a.toNat :: b.toNat :: 8 :: (regsOf z t).map (·.toNat)) ∧ NoPend s [d] ∧ (let at_ := x; (let n0 := (if e then 8 else 4);
       (let n' := if n0 = 0 then 1 else n0; at_.toNat % n' = 0 ∧ regionAt at_.toNat ≠ .mesh ∧ regionAt at_.toNat ≠ .gap ∧ (s.ctx s.here.ctx).badVa = none ∧
       (∃ y ∈ tlbFind (s.core s.hereCore).tlb (s.ctx s.here.ctx).part (at_.getLsbD 56) (at_.toNat % 2 ^ 56), (regionAt at_.toNat = .context ∨ (s.ctx s.here.ctx).priv = 0 ∧
       (at_.getLsbD 56 = true ∨ y.u = false) ∨ true = true ∧ y.r = false ∨ true = true ∧ y.w = false))))))) ∧
    (let s := base |> (w [1, meshBase + 2 ^ 29 - 8, 5]); let a : Reg := 0; let b : Reg := 7; let d : Reg := 2; let t : Reg := 0; let z : BitVec 3 := 1;
       let v : BitVec 2 := 2; NoPrefix s ∧ Unpaired s ∧ (z = 7 → t.toNat % 2 = 0) ∧ (let x := s.th.wv a;
       Full s (a.toNat :: b.toNat :: 8 :: (regsOf z t).map (·.toNat)) ∧ NoPend s [d] ∧ (let at_ := x; (let n0 := (2 ^ v.toNat);
       (let n' := if n0 = 0 then 1 else n0;
       (regionAt at_.toNat ≠ .mesh ∨ (setDies s.mode (s.th.part / 4)).contains ((at_.toNat - meshBase) / 2 ^ 26) = true) ∧ at_.toNat % n' ≠ 0))))) ∧
    (let s := base |> (w [1, meshBase + 2 ^ 29, 5]); let a : Reg := 1; let b : Reg := 1; let d : Reg := 2; let t : Reg := 0; let z : BitVec 3 := 1;
       let v : BitVec 2 := 1; NoPrefix s ∧ Unpaired s ∧ (z = 7 → t.toNat % 2 = 0) ∧ (let x := s.th.wv a;
       Full s (a.toNat :: b.toNat :: 8 :: (regsOf z t).map (·.toNat)) ∧ NoPend s [d] ∧ (let at_ := x; (let n0 := (2 ^ v.toNat);
       (let n' := if n0 = 0 then 1 else n0; at_.toNat % n' = 0 ∧ regionAt at_.toNat = .gap))))) ∧
    (let s := base |> (fun s => s |> w [1, 64, 5] |> th (fun c => { c with badVa := some 64 })); let a : Reg := 1; let b : Reg := 4; let d : Reg := 3;
       let t : Reg := 7; let z : BitVec 3 := 0; let v : BitVec 2 := 1; NoPrefix s ∧ Unpaired s ∧ (z = 7 → t.toNat % 2 = 0) ∧ (let x := s.th.wv a;
       Full s (a.toNat :: b.toNat :: 8 :: (regsOf z t).map (·.toNat)) ∧ NoPend s [d] ∧ (let at_ := x; (let n0 := (2 ^ v.toNat);
       (let n' := if n0 = 0 then 1 else n0; at_.toNat % n' = 0 ∧ regionAt at_.toNat ≠ .mesh ∧ regionAt at_.toNat ≠ .gap ∧
       (s.ctx s.here.ctx).badVa = some at_.toNat))))) ∧
    (let s := base |> (fun s => s |> w [1, 64, 5] |> core (fun c => { c with tlb := [{ page0 with u := false }] })); let a : Reg := 0; let b : Reg := 4;
       let d : Reg := 1; let t : Reg := 7; let z : BitVec 3 := 3; let v : BitVec 2 := 0; NoPrefix s ∧ Unpaired s ∧ (z = 7 → t.toNat % 2 = 0) ∧
       (let x := s.th.wv a; Full s (a.toNat :: b.toNat :: 8 :: (regsOf z t).map (·.toNat)) ∧ NoPend s [d] ∧ (let at_ := x; (let n0 := (2 ^ v.toNat);
       (let n' := if n0 = 0 then 1 else n0; at_.toNat % n' = 0 ∧ regionAt at_.toNat ≠ .mesh ∧ regionAt at_.toNat ≠ .gap ∧ (s.ctx s.here.ctx).badVa = none ∧
       (∃ y ∈ tlbFind (s.core s.hereCore).tlb (s.ctx s.here.ctx).part (at_.getLsbD 56) (at_.toNat % 2 ^ 56), (regionAt at_.toNat = .context ∨ (s.ctx s.here.ctx).priv = 0 ∧
       (at_.getLsbD 56 = true ∨ y.u = false) ∨ false = true ∧ y.r = false ∨ true = true ∧ y.w = false))))))) ∧
    (let s := base; let a : Reg := 3; let b : Reg := 4; let t : Reg := 1; let z : BitVec 3 := 4; let dx : BitVec 5 := 1; let dy : BitVec 5 := 31;
       NoPrefix s ∧ Unpaired s ∧ (z = 7 → t.toNat % 2 = 0) ∧ (let x := s.th.wv a; Full s (a.toNat :: b.toNat :: 8 :: (regsOf z t).map (·.toNat)) ∧
       s.th.handler = 0 ∧ anchored s dx dy x = none)) := by
  delta Claims.Full Claims.NoPend Claims.NoPrefix Claims.Unpaired; refine ⟨?_, ?_, ?_, ?_, ?_, ?_, ?_, ?_⟩ <;> decide +kernel

theorem witness_Atomics :
    (let s := base |> (w [1, meshBase + 65536 * 3 + 64, 5]); let e : Bool := true; let b : Reg := 3; let a : Reg := 1; let d : Reg := 4; NoPrefix s ∧
       Unpaired s ∧ Full s [a.toNat, b.toNat, 8] ∧ NoPend s [d] ∧ (let n := if e then 8 else 4; (let x := s.th.wv a; (let loc := x.toNat - meshBase;
       InMesh s x n loc ∧ Free s (.store (loc / 65536)) ∧ NoFailure s)))) ∧
    (let s := base; let e : Bool := false; let b : Reg := 1; let a : Reg := 1; let d : Reg := 0; NoPrefix s ∧ Unpaired s ∧ Full s [a.toNat, b.toNat, 8] ∧
       NoPend s [d] ∧ (let n := if e then 8 else 4; (let x := s.th.wv a; regionAt x.toNat ≠ .mesh ∧ x.toNat % n = 0 ∧
       (∃ at_ ∈ hit (s.look s.hereCore s.here.ctx x.toNat .atomic), (let pa := at_.1; (let u := at_.2; Free u (.sector (pa / 48)) ∧
       u.mustFollow s.here.ctx s.hereCore pa = false ∧ NoFailure s)))))) ∧
    (let s := base |> (w [1, meshBase + 64, 5]); let e : Bool := true; let b : Reg := 7; let a : Reg := 1; NoPrefix s ∧ Unpaired s ∧
       Full s [a.toNat, b.toNat, 8] ∧ (let n := if e then 8 else 4; (let x := s.th.wv a; (let loc := x.toNat - meshBase; InMesh s x n loc ∧
       Free s (.store (loc / 65536)) ∧ NoFailure s)))) ∧
    (let s := base; let e : Bool := false; let b : Reg := 4; let a : Reg := 0; NoPrefix s ∧ Unpaired s ∧ Full s [a.toNat, b.toNat, 8] ∧
       (let n := if e then 8 else 4; (let x := s.th.wv a; regionAt x.toNat ≠ .mesh ∧ x.toNat % n = 0 ∧
       (∃ at_ ∈ hit (s.look s.hereCore s.here.ctx x.toNat .atomic), (let pa := at_.1; (let u := at_.2; Free u (.sector (pa / 48)) ∧
       u.mustFollow s.here.ctx s.hereCore pa = false ∧ NoFailure s)))))) := by
  delta Claims.Free Claims.Full Claims.InMesh Claims.NoFailure Claims.NoPend Claims.NoPrefix Claims.Unpaired; refine ⟨?_, ?_, ?_, ?_⟩ <;> decide +kernel

theorem witness_CacheAndFences_1 :
    (let s := base; NoPrefix s ∧ Unpaired s) ∧
    (let s := base |> (fun s => s |> lnk 0 1 (fun l => { l with posted := true }) |> core (fun c => { c with slots := [{ ctx := some 1152 }] ++ List.replicate 15 {} }));
       let k : BitVec 2 := 2; let z : BitVec 2 := 2; let sc : BitVec 3 := 3; NoPrefix s ∧ Unpaired s ∧ (let core := s.hereCore; (let n := 2 ^ z.toNat;
       (let open_ := fun (n : Nat) => (s.die s.hereDie).roundsOpen.any fun y => y.1 == n;
       (let links := (List.range 16).filter fun n => (linkPeer s.hereDie n).isSome && (open_ n || (s.link s.hereDie n).posted || (sc == 5 && n == 12));
       (nth (s.core core).slots s.here.slot {}).fence = none ∧ 0 < sc.toNat ∧ sc.toNat ≤ 5 ∧ (sc.toNat < 4 ∨ k = 0 ∨ links = []) ∧
       s.fenceDone k.toNat sc.toNat = true))))) ∧
    (let s := base |> (core fun c => { c with slots := [{ ctx := some 1152 }] ++ List.replicate 15 {} }) |> (fun s => { s with inbox := [.storeVisible { ctx := 1152, core := 0, kind := .store, addr := 8, size := 8, data := 1 }] }) |> (w [1, meshBase + 2 ^ 29 - 8, 5]);
       let k : BitVec 2 := 3; let z : BitVec 2 := 3; let sc : BitVec 3 := 1; NoPrefix s ∧ Unpaired s ∧ (let core := s.hereCore; (let n := 2 ^ z.toNat;
       (let open_ := fun (n : Nat) => (s.die s.hereDie).roundsOpen.any fun y => y.1 == n;
       (let links := (List.range 16).filter fun n => (linkPeer s.hereDie n).isSome && (open_ n || (s.link s.hereDie n).posted || (sc == 5 && n == 12));
       (nth (s.core core).slots s.here.slot {}).fence = none ∧ 0 < sc.toNat ∧ sc.toNat ≤ 5 ∧ (sc.toNat < 4 ∨ k = 0 ∨ links = []) ∧
       s.fenceDone k.toNat sc.toNat = false))))) ∧
    (let s := base |> (fun s => s |> lnk 0 1 (fun l => { l with posted := true }) |> core (fun c => { c with slots := [{ ctx := some 1152 }] ++ List.replicate 15 {} })) |> (w [1, 5, 6]);
       let k : BitVec 2 := 1; let z : BitVec 2 := 0; let sc : BitVec 3 := 4; NoPrefix s ∧ Unpaired s ∧ (let core := s.hereCore; (let n := 2 ^ z.toNat;
       (let open_ := fun (n : Nat) => (s.die s.hereDie).roundsOpen.any fun y => y.1 == n;
       (let links := (List.range 16).filter fun n => (linkPeer s.hereDie n).isSome && (open_ n || (s.link s.hereDie n).posted || (sc == 5 && n == 12));
       (nth (s.core core).slots s.here.slot {}).fence = none ∧ 0 < sc.toNat ∧ sc.toNat ≤ 5 ∧ 4 ≤ sc.toNat ∧ k ≠ 0 ∧ links ≠ [] ∧ s.here.slot < 16 ∧
       (s.core core).slots.length = 16))))) ∧
    (let s := base; let k : BitVec 2 := 3; let sc : BitVec 3 := 2; NoPrefix s ∧ Unpaired s ∧ (let core := s.hereCore;
       (∃ r ∈ (nth (s.core core).slots s.here.slot {}).fence, sc ≠ 0 ∧ s.roundsDone s.hereDie r = true ∧ s.fenceDone k.toNat sc.toNat = true))) ∧
    (let s := base |> (core fun c => { c with slots := [{ ctx := some 1152, fence := some [(0, 1)] }] ++ List.replicate 15 {} }); let sc : BitVec 3 := 1;
       NoPrefix s ∧ Unpaired s ∧ (let core := s.hereCore; (∃ r ∈ (nth (s.core core).slots s.here.slot {}).fence, sc ≠ 0 ∧ s.roundsDone s.hereDie r = false))) ∧
    (let s := base; let a : Reg := 1; NoPrefix s ∧ Unpaired s ∧ (let x := s.th.wv a; (let core := s.hereCore; (let id := s.here.ctx; Full s [a.toNat] ∧
       (match s.look core id x.toNat .hint with | .ok _ _ => true | _ => false) = true)))) ∧
    (let s := base |> (w [0, 1, 0x300, 0x2000000000000000]); let a : Reg := 3; NoPrefix s ∧ Unpaired s ∧ (let x := s.th.wv a; (let core := s.hereCore;
       (let id := s.here.ctx; Full s [a.toNat] ∧ (match s.look core id x.toNat .hint with | .fault _ _ => true | _ => false) = true)))) := by
  delta Claims.Full Claims.NoPrefix Claims.Unpaired; refine ⟨?_, ?_, ?_, ?_, ?_, ?_, ?_, ?_⟩ <;> decide +kernel

theorem witness_CacheAndFences_2 :
    (let s := base |> (fun s => s |> lnk 0 1 (fun l => { l with posted := true }) |> core (fun c => { c with slots := [{ ctx := some 1152 }] ++ List.replicate 15 {} })) |> (w [1, 0x0080000000000000]);
       let a : Reg := 1; NoPrefix s ∧ Unpaired s ∧ (let x := s.th.wv a; (let core := s.hereCore; (let id := s.here.ctx; Full s [a.toNat] ∧
       (match s.look core id x.toNat .hint with | .wait _ => true | _ => false) = true)))) ∧
    (let s := base |> (w [1, meshBase + 2 ^ 29 - 8, 5]); let a : Reg := 1; NoPrefix s ∧ Unpaired s ∧ (let x := s.th.wv a; Full s [a.toNat] ∧
       regionAt x.toNat = .mesh)) ∧
    (let s := base; let a : Reg := 0; NoPrefix s ∧ Unpaired s ∧ (let x := s.th.wv a; (let id := s.here.ctx;
       (let line := fun (v : Nat) => v / 2 ^ 56 * 2 ^ 56 + v % 2 ^ 56 / 192 * 192; Full s [a.toNat] ∧ regionAt x.toNat ≠ .mesh ∧
       regionAt (line x.toNat) ≠ .mesh ∧ regionAt (BitVec.ofNat 64 (line x.toNat)).toNat ≠ .mesh ∧ (BitVec.ofNat 64 (line x.toNat)).toNat % 1 = 0 ∧
       (∃ at_ ∈ hit (s.look s.hereCore s.here.ctx (BitVec.ofNat 64 (line x.toNat)).toNat .load), (let pa := at_.1; (let u := at_.2; s.th.fenced = 0 ∧
       (((u.touches id ++ u.heldTouches id).any fun t => t.write && match t.spot with | .sector m => m / 4 == pa / 192 | _ => false) = false) ∧
       (u.line (pa / 192)).st ≠ .lost))))))) ∧
    (let s := base |> (die 0 fun d => { d with locked := true }); let a : Reg := 1; NoPrefix s ∧ Unpaired s ∧ (let x := s.th.wv a; Full s [a.toNat] ∧
       (s.die s.hereDie).locked = true ∧ ((s.dieTime s.hereDie : Int) - x.toNat) % 2 ^ 60 < 2 ^ 59)) ∧
    (let s := base |> (w [1, meshBase + 2 ^ 29, 5]) |> (die 0 fun d => { d with locked := true }) |> (w [1, 2 ^ 59, 5]); let a : Reg := 1; NoPrefix s ∧
       Unpaired s ∧ (let x := s.th.wv a; Full s [a.toNat] ∧ (s.die s.hereDie).locked = true ∧ 2 ^ 59 ≤ ((s.dieTime s.hereDie : Int) - x.toNat) % 2 ^ 60)) ∧
    (let s := base; let a : Reg := 1; NoPrefix s ∧ Unpaired s ∧ Full s [a.toNat] ∧ (s.die s.hereDie).locked = false) ∧
    (let s := base; let a : Reg := 4; let d : Reg := 2; let i7 : BitVec 7 := 3; NoPrefix s ∧ Unpaired s ∧ (let x := s.th.wv a;
       (let ea := x + BitVec.ofInt 64 (8 * i7.toInt); Full s [a.toNat] ∧ d.toNat < 4 ∧ s.th.epend.getLsbD d.toNat = false ∧ regionAt ea.toNat ≠ .mesh ∧
       ea.toNat % 8 = 0 ∧ (∃ at_ ∈ hit (s.look s.hereCore s.here.ctx ea.toNat .load), (let pa := at_.1; (let u := at_.2;
       u.mustHold u.here.ctx u.hereCore (.sector (pa / 48)) = false)))))) ∧
    (let s := base |> (w [1, meshBase + 2 ^ 28, 5]); let a : Reg := 1; let d : Reg := 3; let i7 : BitVec 7 := 64; NoPrefix s ∧ Unpaired s ∧
       (let x := s.th.wv a; (let ea := x + BitVec.ofInt 64 (8 * i7.toInt); Full s [a.toNat] ∧ d.toNat < 4 ∧ s.th.epend.getLsbD d.toNat = false ∧
       (let loc := ea.toNat - meshBase; InMesh s ea 8 loc ∧ Free s (.store (loc / 65536)) ∧ NoFailure s)))) := by
  delta Claims.Free Claims.Full Claims.InMesh Claims.NoFailure Claims.NoPrefix Claims.Unpaired; refine ⟨?_, ?_, ?_, ?_, ?_, ?_, ?_, ?_⟩ <;> decide +kernel

theorem witness_CacheAndFences_3 :
    (let s := base; let a : Reg := 3; let b : Reg := 3; let d : Reg := 2; let z : BitVec 2 := 0; NoPrefix s ∧ Unpaired s ∧ (let x := s.th.wv a;
       (let n := 2 ^ z.toNat; Full s [a.toNat, b.toNat] ∧ NoPend s [d] ∧ regionAt x.toNat ≠ .mesh ∧ x.toNat % n = 0 ∧
       (∃ at_ ∈ hit (s.look s.hereCore s.here.ctx x.toNat .store), (let pa := at_.1; (let u := at_.2; Free u (.sector (pa / 48)) ∧ NoFailure s)))))) ∧
    (let s := base |> (w [1, meshBase + 64, 5]); let a : Reg := 1; let b : Reg := 4; let d : Reg := 7; let z : BitVec 2 := 2; NoPrefix s ∧ Unpaired s ∧
       (let x := s.th.wv a; (let n := 2 ^ z.toNat; Full s [a.toNat, b.toNat] ∧ NoPend s [d] ∧ (let loc := x.toNat - meshBase; InMesh s x n loc ∧
       Free s (.store (loc / 65536)) ∧ NoFailure s)))) := by
  delta Claims.Free Claims.Full Claims.InMesh Claims.NoFailure Claims.NoPend Claims.NoPrefix Claims.Unpaired; refine ⟨?_, ?_⟩ <;> decide +kernel

theorem witness_Bitstream_1 :
    (let s := base |> (fun s => { s with cur := some ⟨1, 0, 1152⟩ }) |> (fun s => { s with launches := [(7, { launch with flags := 8 })] });
       isWide s.hereCore = false ∧ Unpaired s ∧ (s.pinned s.here.ctx = true ∨ s.th.handler ≠ 0)) ∧
    (let s := base |> (fun s => { s with inbox := [.storeVisible { ctx := 1152, core := 1, kind := .store, addr := 8, size := 8, data := 1 }] }) |> (fun s => { s with cur := some ⟨1, 0, 1152⟩ });
       isWide s.hereCore = false ∧ Unpaired s ∧ Running s ∧ s.pinned s.here.ctx = false ∧ s.th.handler = 0 ∧ s.drained s.here.ctx = false) ∧
    (let s := base |> (fun s => { s with cur := some ⟨1, 0, 1152⟩ }); isWide s.hereCore = false ∧ Unpaired s ∧ Running s ∧ s.pinned s.here.ctx = false ∧
       s.th.handler = 0 ∧ s.drained s.here.ctx = true) ∧
    (let s := base; let a : Reg := 7; let b : Reg := 0; NoPrefix s ∧ isWide s.hereCore = true ∧ Full s [a.toNat, b.toNat] ∧
       (s.th.pair = 0 ∨ s.th.peer = none)) ∧
    (let s := base |> (th fun c => { c with pair := 1, peer := some 1280 }); let a : Reg := 0; let b : Reg := 2; NoPrefix s ∧ isWide s.hereCore = true ∧
       Full s [a.toNat, b.toNat] ∧ s.th.pair ≠ 0 ∧ s.th.peer = some 1280 ∧ s.th.pair = 1 ∧ s.th.kind = 0) ∧
    (let s := base |> (fun s => s |> th (fun c => { c with pair := 2, peer := some 1280 }) |> cx 1280 (fun c => { c with ahead := 1 })); let a : Reg := 2;
       let b : Reg := 2; NoPrefix s ∧ isWide s.hereCore = true ∧ Full s [a.toNat, b.toNat] ∧ s.th.pair ≠ 0 ∧ s.th.peer = some 1280 ∧ s.th.pair ≠ 1 ∧
       (s.ctx 1280).ahead ≠ 0 ∧ s.th.kind = 0) ∧
    (let s := base |> (fun s => s |> th (fun c => { c with pair := 2, peer := some 1280 })); let a : Reg := 4; let b : Reg := 7; NoPrefix s ∧
       isWide s.hereCore = true ∧ Full s [a.toNat, b.toNat] ∧ s.th.pair ≠ 0 ∧ s.th.peer = some 1280 ∧ s.th.pair ≠ 1 ∧ (s.ctx 1280).ahead = 0 ∧
       (s.ctx 1280).comparator = []) ∧
    (let s := base; let a : Reg := 0; let b : Reg := 2; NoPrefix s ∧ isWide s.hereCore = true ∧ (let x := s.th.wv a; (let y := s.th.wv b;
       Full s [a.toNat, b.toNat] ∧ s.th.epend = 0 ∧ x.toNat + y.toNat < 2 ^ 57 ∧ (s.th.pair = 0 ∨ s.th.peer = none)))) := by
  delta Claims.Full Claims.NoPrefix Claims.Running Claims.Unpaired; refine ⟨?_, ?_, ?_, ?_, ?_, ?_, ?_, ?_⟩ <;> decide +kernel

theorem witness_Bitstream_2 :
    (let s := base |> (w [1, 2 ^ 57 - 1, 1]); let a : Reg := 1; let b : Reg := 0; NoPrefix s ∧ isWide s.hereCore = true ∧ (let x := s.th.wv a;
       (let y := s.th.wv b; Full s [a.toNat, b.toNat] ∧ Unpaired s ∧ s.th.epend = 0 ∧ 2 ^ 57 ≤ x.toNat + y.toNat))) ∧
    (let s := base |> (e [8 * (meshBase + 65536 * 3), 8 * (meshBase + 65536 * 3) + 80]); let b : Reg := 0; let n6 : BitVec 6 := 0; NoPrefix s ∧
       isWide s.hereCore = true ∧ (let e0 := (s.th.ev 0).toNat; (let e1 := (s.th.ev 1).toNat; (let ni := n6.toNat + 1; Full s [b.toNat, 8, 9] ∧ Unpaired s ∧
       e0 < 2 ^ 60 ∧ e1 < 2 ^ 60 ∧ e0 + ni ≤ e1)))) ∧
    (let s := base; let b : Reg := 3; NoPrefix s ∧ isWide s.hereCore = true ∧ (let e0 := (s.th.ev 0).toNat; (let e1 := (s.th.ev 1).toNat;
       (let y := s.th.wv b; Full s [b.toNat, 8, 9] ∧ Unpaired s ∧ e0 < 2 ^ 60 ∧ e1 < 2 ^ 60 ∧ e0 + y.toNat ≤ e1)))) ∧
    (let s := base; let b : Reg := 4; NoPrefix s ∧ isWide s.hereCore = true ∧ (let e0 := (s.th.ev 0).toNat; (let e1 := (s.th.ev 1).toNat;
       Full s [b.toNat, 8, 9] ∧ Unpaired s ∧ e0 < 2 ^ 60 ∧ e1 < 2 ^ 60 ∧ (e0 + 7) / 8 * 8 ≤ e1))) ∧
    (let s := base; let b : Reg := 3; let n6 : BitVec 6 := 2; NoPrefix s ∧ isWide s.hereCore = true ∧ (let e0 := (s.th.ev 0).toNat;
       (let e1 := (s.th.ev 1).toNat; (let ni := n6.toNat + 1; Full s [b.toNat, 8, 9] ∧ Unpaired s ∧ e0 < 2 ^ 60 ∧ e1 < 2 ^ 60 ∧ e1 < e0 + ni)))) ∧
    (let s := base |> (w [64, 8]); let b : Reg := 1; NoPrefix s ∧ isWide s.hereCore = true ∧ (let e0 := (s.th.ev 0).toNat; (let e1 := (s.th.ev 1).toNat;
       (let y := s.th.wv b; Full s [b.toNat, 8, 9] ∧ Unpaired s ∧ e0 < 2 ^ 60 ∧ e1 < 2 ^ 60 ∧ e1 < e0 + y.toNat)))) ∧
    (let s := base |> (w [1, 100, 3]); let b : Reg := 0; NoPrefix s ∧ isWide s.hereCore = true ∧ (let e0 := (s.th.ev 0).toNat;
       (let e1 := (s.th.ev 1).toNat; (let y := s.th.wv b; (let nr := min y.toNat 64; Full s [b.toNat, 8, 9] ∧ Unpaired s ∧ e0 < 2 ^ 60 ∧ e1 < 2 ^ 60 ∧
       e1 < e0 + nr))))) ∧
    (let s := base; let b : Reg := 2; NoPrefix s ∧ isWide s.hereCore = true ∧ (let e0 := (s.th.ev 0).toNat; (let e1 := (s.th.ev 1).toNat;
       Full s [b.toNat, 8, 9] ∧ Unpaired s ∧ e0 < 2 ^ 60 ∧ e1 < 2 ^ 60 ∧ e1 ≤ e0))) := by
  delta Claims.Full Claims.NoPrefix Claims.Unpaired; refine ⟨?_, ?_, ?_, ?_, ?_, ?_, ?_, ?_⟩ <;> decide +kernel

theorem witness_Bitstream_3 :
    (let s := base |> (e [8 * meshBase, 8 * meshBase + 3]); let b : Reg := 0; let n6 : BitVec 6 := 1; NoPrefix s ∧ isWide s.hereCore = true ∧
       (let e0 := (s.th.ev 0).toNat; (let e1 := (s.th.ev 1).toNat; (let ni := n6.toNat + 1; Full s [b.toNat, 8, 9] ∧ Unpaired s ∧ e0 < 2 ^ 60 ∧ e1 < 2 ^ 60 ∧
       e0 + ni ≤ e1 ∧ OwnFree s ∧ OwnBits s e0 (e0 + ni))))) ∧
    (let s := base |> (e [8 * (meshBase + 65536 * 3), 8 * (meshBase + 65536 * 3) + 80]); let b : Reg := 3; let d : Reg := 2; let n6 : BitVec 6 := 0;
       NoPrefix s ∧ isWide s.hereCore = true ∧ (let e0 := (s.th.ev 0).toNat; (let e1 := (s.th.ev 1).toNat; (let ni := n6.toNat + 1; Full s [b.toNat, 8, 9] ∧
       Unpaired s ∧ e0 < 2 ^ 60 ∧ e1 < 2 ^ 60 ∧ e0 + ni ≤ e1 ∧ AwayBits s e0 (e0 + ni) ∧ NoPend s [d] ∧ NoFailure s ∧ NoProfile s)))) ∧
    (let s := base |> (e [8 * meshBase, 8 * meshBase + 3]) |> (w [1, 2 ^ 57 - 1, 0]); let b : Reg := 0; NoPrefix s ∧ isWide s.hereCore = true ∧
       (let e0 := (s.th.ev 0).toNat; (let e1 := (s.th.ev 1).toNat; (let y := s.th.wv b; (let nr := min y.toNat 64; Full s [b.toNat, 8, 9] ∧ Unpaired s ∧
       e0 < 2 ^ 60 ∧ e1 < 2 ^ 60 ∧ 0 < nr ∧ e0 + nr ≤ e1 ∧ OwnFree s ∧ OwnBits s e0 (e0 + nr)))))) ∧
    (let s := base |> (e [8 * (meshBase + 65536 * 3), 8 * (meshBase + 65536 * 3) + 80]) |> (w [0, 0xFFFFFFFFFFFFFFFF]); let b : Reg := 1; let d : Reg := 4;
       NoPrefix s ∧ isWide s.hereCore = true ∧ (let e0 := (s.th.ev 0).toNat; (let e1 := (s.th.ev 1).toNat; (let y := s.th.wv b; (let nr := min y.toNat 64;
       Full s [b.toNat, 8, 9] ∧ Unpaired s ∧ e0 < 2 ^ 60 ∧ e1 < 2 ^ 60 ∧ 0 < nr ∧ e0 + nr ≤ e1 ∧ AwayBits s e0 (e0 + nr) ∧ NoPend s [d] ∧ NoFailure s ∧
       NoProfile s))))) ∧
    (let s := base; let b : Reg := 0; NoPrefix s ∧ isWide s.hereCore = true ∧ (let e0 := (s.th.ev 0).toNat; (let e1 := (s.th.ev 1).toNat;
       (let y := s.th.wv b; (let nr := min y.toNat 64; Full s [b.toNat, 8, 9] ∧ Unpaired s ∧ e0 < 2 ^ 60 ∧ e1 < 2 ^ 60 ∧ nr = 0 ∧ e0 ≤ e1))))) ∧
    (let s := base |> (store 0 1) |> (w [0, 0xFFFFFFFFFFFFFFFF]) |> (e [8 * meshBase, 8 * meshBase + 80]); let b : Reg := 0; let z : Nat := 7; NoPrefix s ∧
       isWide s.hereCore = true ∧ (let e0 := (s.th.ev 0).toNat; (let e1 := (s.th.ev 1).toNat; (let own := storeByte s; Full s [b.toNat, 8, 9] ∧ Unpaired s ∧
       e0 < 2 ^ 60 ∧ e1 < 2 ^ 60 ∧ z < 32 ∧ e0 + 2 * z + 1 ≤ e1 ∧ OwnFree s ∧ OwnBits s e0 (e0 + 2 * z + 1) ∧ streamNat own e0 z = 0 ∧
       streamAt own (e0 + z) = true)))) ∧
    (let s := base |> (e [8 * meshBase, 8 * meshBase + 80]); let b : Reg := 3; NoPrefix s ∧ isWide s.hereCore = true ∧ (let e0 := (s.th.ev 0).toNat;
       (let e1 := (s.th.ev 1).toNat; (let own := storeByte s; Full s [b.toNat, 8, 9] ∧ Unpaired s ∧ e0 < 2 ^ 60 ∧ e1 < 2 ^ 60 ∧ OwnFree s ∧
       streamNat own e0 32 = 0 ∧ e0 + 32 ≤ e1 ∧ OwnBits s e0 (e0 + 32))))) := by
  delta Claims.AwayBits Claims.Clean Claims.Free Claims.Full Claims.NoFailure Claims.NoPend Claims.NoPrefix Claims.NoProfile Claims.OwnBits Claims.OwnFree Claims.Unpaired; refine ⟨?_, ?_, ?_, ?_, ?_, ?_, ?_⟩ <;> decide +kernel

theorem witness_WaitObjects_1 :
    (let s := base |> (w [1, 2 ^ 56 - 8, 0]); let a : Reg := 1; let b : Reg := 1; NoPrefix s ∧ Unpaired s ∧ Full s [a.toNat, b.toNat] ∧
       (let x := s.th.wv a; regionAt x.toNat = .gap)) ∧
    (let s := base; let a : Reg := 0; let b : Reg := 1; NoPrefix s ∧ Unpaired s ∧ Full s [a.toNat, b.toNat] ∧ (let x := s.th.wv a;
       regionAt x.toNat ≠ .gap ∧ regionAt x.toNat ≠ .mesh)) ∧
    (let s := base |> (fun s => s |> w [1, meshBase + 2 ^ 28, 5] |> fun s => { s with mode := 2 }); let a : Reg := 1; let b : Reg := 2; NoPrefix s ∧
       Unpaired s ∧ Full s [a.toNat, b.toNat] ∧ (let x := s.th.wv a; regionAt x.toNat = .mesh ∧
       (setDies s.mode (s.th.part / 4)).contains ((x.toNat - meshBase) / 2 ^ 26) = false)) ∧
    (let s := base |> (w [1, meshBase + 65, 5]); let a : Reg := 1; let b : Reg := 0; NoPrefix s ∧ Unpaired s ∧ Full s [a.toNat, b.toNat] ∧
       (let x := s.th.wv a; regionAt x.toNat = .mesh ∧ (setDies s.mode (s.th.part / 4)).contains ((x.toNat - meshBase) / 2 ^ 26) = true ∧ x.toNat % 8 ≠ 0)) ∧
    (let s := base |> (w [1, meshBase + 65, 5]); let a : Reg := 1; let b : Reg := 7; NoPrefix s ∧ Unpaired s ∧ Full s [a.toNat, b.toNat] ∧
       (let x := s.th.wv a; regionAt x.toNat = .mesh ∧ (setDies s.mode (s.th.part / 4)).contains ((x.toNat - meshBase) / 2 ^ 26) = true ∧ x.toNat % 32 ≠ 0)) ∧
    (let s := base |> (w [0, 0xFFFFFFFFFFFFFFFF]); let a : Reg := 1; let b : Reg := 3; NoPrefix s ∧ Unpaired s ∧ Full s [a.toNat, b.toNat] ∧
       (let x := s.th.wv a; (let y := s.th.wv b; y.toNat < 2 ^ 31 ∧ regionAt x.toNat = .gap))) ∧
    (let s := base; let a : Reg := 4; let b : Reg := 0; NoPrefix s ∧ Unpaired s ∧ Full s [a.toNat, b.toNat] ∧ (let x := s.th.wv a; (let y := s.th.wv b;
       y.toNat < 2 ^ 31 ∧ regionAt x.toNat ≠ .gap ∧ regionAt x.toNat ≠ .mesh))) ∧
    (let s := base |> (fun s => s |> w [1, meshBase + 2 ^ 28, 5] |> fun s => { s with mode := 2 }); let a : Reg := 1; let b : Reg := 7; NoPrefix s ∧
       Unpaired s ∧ Full s [a.toNat, b.toNat] ∧ (let x := s.th.wv a; (let y := s.th.wv b; y.toNat < 2 ^ 31 ∧ regionAt x.toNat = .mesh ∧
       (setDies s.mode (s.th.part / 4)).contains ((x.toNat - meshBase) / 2 ^ 26) = false))) := by
  delta Claims.Full Claims.NoPrefix Claims.Unpaired; refine ⟨?_, ?_, ?_, ?_, ?_, ?_, ?_, ?_⟩ <;> decide +kernel

theorem witness_WaitObjects_2 :
    (let s := base |> (w [1, meshBase + 65, 5]); let a : Reg := 1; let b : Reg := 7; NoPrefix s ∧ Unpaired s ∧ Full s [a.toNat, b.toNat] ∧
       (let x := s.th.wv a; (let y := s.th.wv b; y.toNat < 2 ^ 31 ∧ regionAt x.toNat = .mesh ∧
       (setDies s.mode (s.th.part / 4)).contains ((x.toNat - meshBase) / 2 ^ 26) = true ∧ x.toNat % 32 ≠ 0))) ∧
    (let s := base |> (w [1, meshBase + 64, 2 ^ 31 - 1]); let a : Reg := 1; let b : Reg := 3; NoPrefix s ∧ Unpaired s ∧ Full s [a.toNat, b.toNat] ∧
       (let x := s.th.wv a; (let loc := x.toNat - meshBase; InMesh s x 8 loc ∧ Free s (.store (loc / 65536)) ∧ NoFailure s))) ∧
    (let s := base |> (w [1, meshBase + 2 ^ 16 * 3, 0]); let a : Reg := 1; let b : Reg := 2; NoPrefix s ∧ Unpaired s ∧ Full s [a.toNat, b.toNat] ∧
       (let x := s.th.wv a; (let loc := x.toNat - meshBase; InMesh s x 8 loc ∧ Free s (.store (loc / 65536)) ∧ NoFailure s ∧ s.th.fenced = 0))) ∧
    (let s := base |> (w [1, meshBase + 2 ^ 16 * 3, 0]); let a : Reg := 1; let b : Reg := 0; NoPrefix s ∧ Unpaired s ∧ Full s [a.toNat, b.toNat] ∧
       (let x := s.th.wv a; (let loc := x.toNat - meshBase; InMesh s x 32 loc ∧ Free s (.store (loc / 65536)) ∧ NoFailure s))) ∧
    (let s := base |> (w [0, 1, 0x300, 0x2000000000000000]); let a : Reg := 7; let b : Reg := 3; NoPrefix s ∧ Unpaired s ∧ Full s [a.toNat, b.toNat] ∧
       (let y := s.th.wv b; 2 ^ 31 ≤ y.toNat)) ∧
    (let s := base |> (w [1, meshBase + 2 ^ 16 * 3, 0]); let a : Reg := 1; let b : Reg := 2; NoPrefix s ∧ Unpaired s ∧ Full s [a.toNat, b.toNat] ∧
       (let x := s.th.wv a; (let y := s.th.wv b; y.toNat < 2 ^ 31 ∧ (let loc := x.toNat - meshBase; InMesh s x 32 loc ∧ loc / 65536 ≠ s.hereCore ∧
       Clear s (.store (loc / 65536)) ∧ NoFailure s ∧ s.th.quest = none)))) ∧
    (let s := base |> (fun s => s |> w [1, meshBase + 65536 * 3, 5] |> th (fun c => { c with quest := some (5, 1, 0) })); let a : Reg := 1;
       let b : Reg := 4; NoPrefix s ∧ Unpaired s ∧ Full s [a.toNat, b.toNat] ∧ (let x := s.th.wv a; (let y := s.th.wv b; y.toNat < 2 ^ 31 ∧
       (let loc := x.toNat - meshBase; InMesh s x 32 loc ∧ loc / 65536 ≠ s.hereCore ∧ Clear s (.store (loc / 65536)) ∧ NoFailure s ∧
       (∃ m ∈ s.th.quest, m.2.1 ≠ 0))))) ∧
    (let s := base |> (fun s => s |> w [1, meshBase + 65536 * 3, 5] |> th (fun c => { c with quest := some (5, 0, 0) })); let a : Reg := 1;
       let b : Reg := 4; NoPrefix s ∧ Unpaired s ∧ Full s [a.toNat, b.toNat] ∧ (let x := s.th.wv a; (let y := s.th.wv b; y.toNat < 2 ^ 31 ∧
       (let loc := x.toNat - meshBase; InMesh s x 32 loc ∧ loc / 65536 ≠ s.hereCore ∧ Clear s (.store (loc / 65536)) ∧ NoFailure s ∧
       (∃ m ∈ s.th.quest, m.2.1 = 0 ∧ m.2.2 = 0))))) := by
  delta Claims.Clear Claims.Free Claims.Full Claims.InMesh Claims.NoFailure Claims.NoPrefix Claims.Unpaired; refine ⟨?_, ?_, ?_, ?_, ?_, ?_, ?_, ?_⟩ <;> decide +kernel

theorem witness_WaitObjects_3 :
    (let s := base |> (fun s => s |> w [1, meshBase + 65536 * 3, 5] |> th (fun c => { c with quest := some (5, 0, 7) })); let a : Reg := 1;
       let b : Reg := 4; NoPrefix s ∧ Unpaired s ∧ Full s [a.toNat, b.toNat] ∧ (let x := s.th.wv a; (let y := s.th.wv b; y.toNat < 2 ^ 31 ∧
       (let loc := x.toNat - meshBase; InMesh s x 32 loc ∧ loc / 65536 ≠ s.hereCore ∧ Clear s (.store (loc / 65536)) ∧ NoFailure s ∧
       (∃ m ∈ s.th.quest, m.2.1 = 0 ∧ m.2.2 ≠ 0 ∧ m.2.2 < 2 ^ 64))))) ∧
    (let s := base |> (w [0, 0xFFFFFFFFFFFFFFFF]) |> (w [1, meshBase + 64, 2 ^ 31 - 1]) |> (store 80 7); let a : Reg := 1; let b : Reg := 7; NoPrefix s ∧
       Unpaired s ∧ Full s [a.toNat, b.toNat] ∧ (let x := s.th.wv a; (let y := s.th.wv b; y.toNat < 2 ^ 31 ∧ (let loc := x.toNat - meshBase;
       InMesh s x 32 loc ∧ loc / 65536 = s.hereCore ∧ Clear s (.store (loc / 65536)) ∧ (let fault := readNat s.cstore (loc + 16) 8; fault ≠ 0))))) ∧
    (let s := base |> (w [1, meshBase + 64, 2 ^ 31 - 1]); let a : Reg := 1; let b : Reg := 4; NoPrefix s ∧ Unpaired s ∧ Full s [a.toNat, b.toNat] ∧
       (let x := s.th.wv a; (let y := s.th.wv b; y.toNat < 2 ^ 31 ∧ (let loc := x.toNat - meshBase; InMesh s x 32 loc ∧ loc / 65536 = s.hereCore ∧
       Clear s (.store (loc / 65536)) ∧ (let fault := readNat s.cstore (loc + 16) 8; (let count := sgn false (BitVec.ofNat 64 (readNat s.cstore loc 8));
       fault = 0 ∧ count ≤ y.toNat)))))) ∧
    (let s := base |> (store 64 5) |> (w [1, meshBase + 64, 2 ^ 31 - 1]); let a : Reg := 1; let b : Reg := 3; NoPrefix s ∧ Unpaired s ∧
       Full s [a.toNat, b.toNat] ∧ (let x := s.th.wv a; (let y := s.th.wv b; y.toNat < 2 ^ 31 ∧ (let loc := x.toNat - meshBase; InMesh s x 32 loc ∧
       loc / 65536 = s.hereCore ∧ Clear s (.store (loc / 65536)) ∧ (let fault := readNat s.cstore (loc + 16) 8;
       (let count := sgn false (BitVec.ofNat 64 (readNat s.cstore loc 8)); fault = 0 ∧ y.toNat < count ∧ s.cur.isSome = true)))))) ∧
    (let s := base |> (w [1, meshBase + 2 ^ 16 * 3, 0]); let a : Reg := 1; let b : Reg := 3; let d : Reg := 1; NoPrefix s ∧ Unpaired s ∧
       Full s [a.toNat, b.toNat] ∧ (let x := s.th.wv a; NoPend s [d] ∧ NoFailure s ∧ (let loc := x.toNat - meshBase; InMesh s x 8 loc ∧
       Clear s (.store (loc / 65536))))) ∧
    (let s := base; let a : Reg := 1; let b : Reg := 7; let d : Reg := 7; NoPrefix s ∧ Unpaired s ∧ Full s [a.toNat, b.toNat] ∧ (let x := s.th.wv a;
       NoPend s [d] ∧ NoFailure s ∧ regionAt x.toNat ≠ .mesh ∧ x.toNat % 8 = 0 ∧ (∃ at_ ∈ hit (s.look s.hereCore s.here.ctx x.toNat .load), (let pa := at_.1;
       (let u := at_.2; Clear u (.sector (pa / 48))))))) := by
  delta Claims.Clear Claims.Free Claims.Full Claims.InMesh Claims.NoFailure Claims.NoPend Claims.NoPrefix Claims.Unpaired; refine ⟨?_, ?_, ?_, ?_, ?_, ?_⟩ <;> decide +kernel

theorem witness_Threads_1 :
    (let s := base; NoPrefix s ∧ Unpaired s ∧ Running s ∧ s.th.handler = 0 ∧ (let alone := (nth (s.core s.hereCore).ready s.th.prio.toNat []).isEmpty;
       alone = true)) ∧
    (let s := base |> (core fun c => { c with ready := [[1280], [], [], []] }); NoPrefix s ∧ Unpaired s ∧ Running s ∧ s.th.handler = 0 ∧
       (let alone := (nth (s.core s.hereCore).ready s.th.prio.toNat []).isEmpty; alone = false)) ∧
    (let s := base |> (th fun c => { c with cmds := 1 }); NoPrefix s ∧ Unpaired s ∧ Running s ∧ s.th.handler = 0 ∧ s.th.cmds ≠ 0) ∧
    (let s := base; NoPrefix s ∧ Unpaired s ∧ Running s ∧ s.th.handler = 0 ∧ s.th.cmds = 0 ∧ Settled s) ∧
    (let s := base |> (w [1, 1, 65537]); let a : Reg := 1; let b : Reg := 2; let d : Reg := 3; NoPrefix s ∧ Unpaired s ∧ Running s ∧ s.th.handler = 0 ∧
       (let x := s.th.wv a; NoFailure s ∧ NoPend s [d] ∧ Full s [a.toNat, b.toNat] ∧ x.toNat % 2 = 1)) ∧
    (let s := base; let a : Reg := 7; let b : Reg := 2; let d : Reg := 7; NoPrefix s ∧ Unpaired s ∧ Running s ∧ s.th.handler = 0 ∧ (let x := s.th.wv a;
       NoFailure s ∧ NoPend s [d] ∧ Full s [a.toNat, b.toNat] ∧ x.toNat % 2 = 0)) ∧
    (let s := base |> (w [meshBase + 64, 2 ^ 32 - 1, 65537]); let a : Reg := 7; let b : Reg := 4; let d : Reg := 0; NoPrefix s ∧ Unpaired s ∧ Running s ∧
       s.th.handler = 0 ∧ (let x := s.th.wv a; NoFailure s ∧ NoPend s [d] ∧ Full s [a.toNat, b.toNat] ∧ Full s [d.toNat] ∧ x.toNat % 2 = 0 ∧
       (let loc := (s.th.wv d).toNat - meshBase; InMesh s (s.th.wv d) 32 loc))) ∧
    (let s := base; let a : Reg := 2; let b : Reg := 0; NoPrefix s ∧ Unpaired s ∧ Running s ∧ s.th.handler = 0 ∧ (let x := s.th.wv a; NoFailure s ∧
       Full s [a.toNat, b.toNat] ∧ (x = 0 ∨ 2 ^ 32 ≤ x.toNat))) := by
  delta Claims.Full Claims.InMesh Claims.NoFailure Claims.NoPend Claims.NoPrefix Claims.Running Claims.Settled Claims.Unpaired; refine ⟨?_, ?_, ?_, ?_, ?_, ?_, ?_, ?_⟩ <;> decide +kernel

theorem witness_Threads_2 :
    (let s := base |> (w [meshBase + 64, 2 ^ 32 - 1, 65537]); let a : Reg := 1; let b : Reg := 1; NoPrefix s ∧ Unpaired s ∧ Running s ∧ s.th.handler = 0 ∧
       (let x := s.th.wv a; (let y := s.th.wv b; NoFailure s ∧ Full s [a.toNat, b.toNat] ∧ 0 < x.toNat ∧ x.toNat < 2 ^ 32 ∧ y.toNat < 2 ^ 32 ∧
       y.toNat % 65536 ≠ 0 ∧ y.toNat / 65536 ≠ 0))) ∧
    (let s := base; let d : Reg := 7; NoPrefix s ∧ Unpaired s ∧ Running s ∧ s.th.handler = 0 ∧ NoFailure s ∧ NoPend s [d]) := by
  delta Claims.Full Claims.NoFailure Claims.NoPend Claims.NoPrefix Claims.Running Claims.Unpaired; refine ⟨?_, ?_⟩ <;> decide +kernel

theorem witness_Barriers_1 :
    (let s := base |> (fun s => { s with launches := [(7, { launch with flags := 8 })] }) |> (w [1, 3, 2]) |> (w [1, 16 * 2 ^ 22 + 32 * 2 ^ 16 + 32 * 2 ^ 10, 9]);
       let a : Reg := 1; let b : Reg := 0; NoPrefix s ∧ Unpaired s ∧ Full s [a.toNat, b.toNat] ∧ (let core := s.hereCore; (let x := s.th.wv a;
       (let field := fun (lo len : Nat) => x.toNat / 2 ^ lo % 2 ^ len; (let inside := fun (p lo len : Nat) => lo ≤ p ∧ p < lo + len ∧ lo + len ≤ 32;
       s.pinned s.here.ctx = true ∧ x.toNat < 2 ^ 27 ∧ 1 ≤ field 22 5 ∧ field 22 5 ≤ 16 ∧ 1 ≤ field 16 6 ∧ 1 ≤ field 10 6 ∧
       inside (xOf core) (field 0 5) (field 10 6) ∧ inside (yOf core) (field 5 5) (field 16 6)))))) ∧
    (let s := base |> (core fun c => { c with bars := List.replicate 4 { cfg := true, count := 2, wd := 2, ht := 1, gen := 3, aborted := some 77 } });
       let a : Reg := 0; let b : Reg := 1; let n : BitVec 2 := 3; NoPrefix s ∧ Unpaired s ∧ Full s [a.toNat, b.toNat] ∧ (let core := s.hereCore;
       (let bar := s.bar core n.toNat; bar.cfg = true ∧ bar.aborted.isSome = true))) ∧
    (let s := base |> (fun s => { s with launches := [(7, { launch with flags := 8 })] }) |> (core fun c => { c with bars := List.replicate 4 { cfg := true, count := 2, wd := 2, ht := 1, gen := 3, aborted := some 77 } });
       let a : Reg := 3; let b : Reg := 1; let n : BitVec 2 := 2; NoPrefix s ∧ Unpaired s ∧ Full s [a.toNat, b.toNat] ∧ (let core := s.hereCore;
       (let bar := s.bar core n.toNat; bar.cfg = true ∧ bar.aborted.isSome = true ∧ s.pinned s.here.ctx = true))) ∧
    (let s := base |> (core fun c => { c with bars := List.replicate 4 { cfg := true, count := 1, wd := 1, ht := 1, gen := 3, arrived := 1 } });
       let f : Bool := false; let a : Reg := 1; let b : Reg := 4; let n : BitVec 2 := 3; NoPrefix s ∧ Unpaired s ∧ Full s [a.toNat, b.toNat] ∧
       (let core := s.hereCore; (let x := s.th.wv a; (let bar := s.bar core n.toNat; (let gen := x.setWidth 8;
       (let ended := if f then bar.gen ≠ gen else bar.gen.getLsbD 0 ≠ gen.getLsbD 0; bar.cfg = true ∧ bar.aborted = none ∧ ended)))))) ∧
    (let s := base |> (core fun c => { c with bars := List.replicate 4 { cfg := true, count := 2, wd := 1, ht := 1, gen := 3, arrived := 1 } }) |> (w [1, 16 * 2 ^ 22 + 32 * 2 ^ 16 + 32 * 2 ^ 10, 9]);
       let f : Bool := false; let a : Reg := 0; let b : Reg := 3; let n : BitVec 2 := 2; NoPrefix s ∧ Unpaired s ∧ Full s [a.toNat, b.toNat] ∧
       (let core := s.hereCore; (let x := s.th.wv a; (let bar := s.bar core n.toNat; (let gen := x.setWidth 8;
       (let ended := if f then bar.gen ≠ gen else bar.gen.getLsbD 0 ≠ gen.getLsbD 0; bar.cfg = true ∧ bar.aborted = none ∧ ¬ended)))))) ∧
    (let s := base |> (core fun c => { c with bars := List.replicate 4 { cfg := true, count := 1, wd := 1, ht := 1, gen := 3, arrived := 1 } }) |> (fun s => { s with launches := [(7, { launch with flags := 8 })] });
       let a : Reg := 1; let b : Reg := 3; let n : BitVec 2 := 3; NoPrefix s ∧ Unpaired s ∧ Full s [a.toNat, b.toNat] ∧ (let core := s.hereCore;
       (let x := s.th.wv a; (let bar := s.bar core n.toNat; (let gen := x.setWidth 8; bar.cfg = true ∧ bar.aborted = none ∧ s.pinned s.here.ctx = true ∧
       bar.gen ≠ gen))))) ∧
    (let s := base |> (core fun c => { c with bars := List.replicate 4 { cfg := true, count := 2, wd := 1, ht := 1, gen := 3, arrived := 1 } }) |> (fun s => { s with launches := [(7, { launch with flags := 8 })] }) |> (w [1, 3, 2]) |> (w [1, 2, 3]);
       let a : Reg := 2; let b : Reg := 2; let n : BitVec 2 := 2; NoPrefix s ∧ Unpaired s ∧ Full s [a.toNat, b.toNat] ∧ (let core := s.hereCore;
       (let x := s.th.wv a; (let bar := s.bar core n.toNat; (let gen := x.setWidth 8; bar.cfg = true ∧ bar.aborted = none ∧ s.pinned s.here.ctx = true ∧
       bar.gen = gen))))) ∧
    (let s := base |> (fun s => { s with launches := [(7, { launch with flags := 8 })] }) |> (core fun c => { c with bars := List.replicate 4 { cfg := true, count := 2, wd := 1, ht := 1, gen := 3, arrived := 1 } });
       let a : Reg := 3; let b : Reg := 0; let n : BitVec 2 := 3; NoPrefix s ∧ Unpaired s ∧ Full s [a.toNat, b.toNat] ∧ (let core := s.hereCore;
       (let bar := s.bar core n.toNat; bar.cfg = true ∧ bar.aborted = none ∧ s.pinned s.here.ctx = true ∧ Settled s ∧ bar.arrived < bar.count))) := by
  delta Claims.Full Claims.NoPrefix Claims.Settled Claims.Unpaired; refine ⟨?_, ?_, ?_, ?_, ?_, ?_, ?_, ?_⟩ <;> decide +kernel

theorem witness_Barriers_2 :
    (let s := base |> (core fun c => { c with bars := List.replicate 4 { cfg := true, count := 1, wd := 1, ht := 1, gen := 3, arrived := 1 } }) |> (fun s => { s with launches := [(7, { launch with flags := 8 })] });
       let a : Reg := 7; let b : Reg := 4; let d : Reg := 0; let n : BitVec 2 := 1; NoPrefix s ∧ Unpaired s ∧ Full s [a.toNat, b.toNat] ∧
       (let core := s.hereCore; (let bar := s.bar core n.toNat; bar.cfg = true ∧ bar.aborted = none ∧ s.pinned s.here.ctx = true ∧ Settled s ∧
       bar.count ≤ bar.arrived ∧ NoPend s [d]))) := by
  delta Claims.Full Claims.NoPend Claims.NoPrefix Claims.Settled Claims.Unpaired; decide +kernel

theorem witness_IdentityAndLaunch :
    (let s := base; NoPrefix s ∧ Unpaired s) ∧
    (let s := base |> (fun s => { s with blocks := [] }); let i : BitVec 3 := 2; NoPrefix s ∧ Unpaired s ∧ get? s.blocks s.th.blk = none ∧ i.toNat < 5) ∧
    (let s := base |> (fun s => { s with launches := [(7, { launch with flags := 8 })] }); let i : BitVec 3 := 4; NoPrefix s ∧ Unpaired s ∧
       (∃ k ∈ get? s.blocks s.th.blk, (∃ l ∈ get? s.launches k.launch, i.toNat < 5))) ∧
    (let s := base |> (w [1, 2 ^ 22 + 2 ^ 16 + 2 ^ 10, 2 ^ 16]); let a : Reg := 1; let b : Reg := 2; NoPrefix s ∧ Unpaired s ∧ (let x := s.th.wv a;
       (let y := s.th.wv b; (let field := fun (v : Word) (lo len : Nat) => v.toNat / 2 ^ lo % 2 ^ len; s.th.handler = 0 ∧ Full s [a.toNat, b.toNat] ∧
       x.toNat < 2 ^ 23 ∧ 1 ≤ field x 16 6 ∧ 1 ≤ field x 10 6 ∧ field x 0 5 + field x 10 6 ≤ 32 ∧ field x 5 5 + field x 16 6 ≤ 32 ∧ y.toNat < 2 ^ 32 ∧
       1 ≤ field y 16 16 ∧ field y 16 16 ≤ 16384 ∧ field y 0 16 % 4 = 0 ∧ field y 0 16 + 4 * field y 16 16 ≤ 65536)))) ∧
    (let s := base |> (w [0, 0xFFFFFFFFFFFFFFFF]) |> (fun s => { s with blocks := [(3, { block with kbins := [(1, (BitVec.ofNat 64 (2 ^ 16 * 2 + 2 ^ 10 * 3), BitVec.ofNat 64 (4 + 65536 * 9)))] })] });
       let a : Reg := 1; let b : Reg := 2; let n : BitVec 2 := 1; NoPrefix s ∧ Unpaired s ∧ (let x := s.th.wv a;
       (let field := fun (v : Word) (lo len : Nat) => v.toNat / 2 ^ lo % 2 ^ len; s.th.handler = 0 ∧ Full s [a.toNat, b.toNat] ∧
       (∃ k ∈ get? s.blocks s.th.blk, (∃ v ∈ get? k.kbins n.toNat, (let count := field v.1 10 6 * field v.1 16 6; count * field v.2 16 16 ≤ x.toNat)))))) ∧
    (let s := base |> (fun s => { s with blocks := [(3, { block with kbins := [(1, (BitVec.ofNat 64 (2 ^ 16 * 2 + 2 ^ 10 * 3), BitVec.ofNat 64 (4 + 65536 * 9)))] })] });
       let a : Reg := 3; let b : Reg := 0; let n : BitVec 2 := 1; let i : BitVec 3 := 0; NoPrefix s ∧ Unpaired s ∧ (let x := s.th.wv a;
       (let field := fun (v : Word) (lo len : Nat) => v.toNat / 2 ^ lo % 2 ^ len; s.th.handler = 0 ∧ Full s [a.toNat, b.toNat] ∧
       (∃ k ∈ get? s.blocks s.th.blk, (∃ v ∈ get? k.kbins n.toNat, (let count := field v.1 10 6 * field v.1 16 6; (let j := x.toNat / count;
       (let i := (x.toNat % count + j * 0x9E3779B9) % count;
       (let at_ := (k.anchor / 1024 % 8 * 1024 + (field v.1 5 5 + i / field v.1 10 6) * 32 + (field v.1 0 5 + i % field v.1 10 6)) * 65536 + field v.2 0 16 + 4 * j;
       x.toNat < count * field v.2 16 16 ∧ field v.1 0 5 + field v.1 10 6 ≤ 32 ∧ field v.1 5 5 + field v.1 16 6 ≤ 32 ∧ k.anchor < 8192 ∧
       Free s (.store (at_ / 65536)) ∧ NoFailure s))))))))) ∧
    (let s := base |> (w [1, meshBase + 128, 5]); let a : Reg := 1; let d : Reg := 2; NoPrefix s ∧ Unpaired s ∧ (let x := s.th.wv a; s.th.handler = 0 ∧
       Full s [a.toNat] ∧ NoPend s [d] ∧ Settled s ∧ NoFailure s ∧ (let loc := x.toNat - meshBase; InMesh s x 128 loc))) ∧
    (let s := base; let a : Reg := 4; let d : Reg := 1; NoPrefix s ∧ Unpaired s ∧ (let x := s.th.wv a; s.th.handler = 0 ∧ Full s [a.toNat] ∧ NoPend s [d] ∧
       Settled s ∧ NoFailure s ∧ regionAt x.toNat ≠ .mesh ∧ x.toNat % 128 = 0 ∧ (∃ at_ ∈ hit (s.look s.hereCore s.here.ctx x.toNat .load), (let pa := at_.1;
       (let u := at_.2; u.flying = []))))) := by
  delta Claims.Free Claims.Full Claims.InMesh Claims.NoFailure Claims.NoPend Claims.NoPrefix Claims.Settled Claims.Unpaired; refine ⟨?_, ?_, ?_, ?_, ?_, ?_, ?_, ?_⟩ <;> decide +kernel

theorem witness_VectorCommands :
    (let s := base; let j : Bool := false; let a : Reg := 2; let b : Reg := 1; NoPrefix s ∧ Unpaired s ∧ s.th.handler = 0 ∧
       Full s ([a.toNat, (b : Reg).toNat] ++ [] ++ (if j then [11] else [])) ∧ s.th.cmds ≠ 63 ∧
       (j = true → InMesh s (s.th.ev 3) 32 ((s.th.ev 3).toNat - meshBase)) ∧ NoCommand s) ∧
    (let s := base; let j : Bool := false; let a : Reg := 3; NoPrefix s ∧ Unpaired s ∧ s.th.handler = 0 ∧
       Full s ([a.toNat, (0 : Reg).toNat] ++ [] ++ (if j then [11] else [])) ∧ s.th.cmds ≠ 63 ∧
       (j = true → InMesh s (s.th.ev 3) 32 ((s.th.ev 3).toNat - meshBase)) ∧ NoCommand s) ∧
    (let s := base; let j : Bool := false; let a : Reg := 1; NoPrefix s ∧ Unpaired s ∧ s.th.handler = 0 ∧
       Full s ([a.toNat, (0 : Reg).toNat] ++ [9] ++ (if j then [11] else [])) ∧ s.th.cmds ≠ 63 ∧
       (j = true → InMesh s (s.th.ev 3) 32 ((s.th.ev 3).toNat - meshBase)) ∧ NoCommand s) ∧
    (let s := base; let j : Bool := false; let a : Reg := 0; let b : Reg := 7; NoPrefix s ∧ Unpaired s ∧ s.th.handler = 0 ∧
       Full s ([a.toNat, (b : Reg).toNat] ++ [9] ++ (if j then [11] else [])) ∧ s.th.cmds ≠ 63 ∧
       (j = true → InMesh s (s.th.ev 3) 32 ((s.th.ev 3).toNat - meshBase)) ∧ NoCommand s) := by
  delta Claims.Full Claims.InMesh Claims.NoCommand Claims.NoPrefix Claims.Unpaired; refine ⟨?_, ?_, ?_, ?_⟩ <;> decide +kernel

theorem witness_MatrixAndCopyCommands :
    (let s := base; let j : Bool := false; let r : Bool := false; let a : Reg := 1; let b : Reg := 3; NoPrefix s ∧ Unpaired s ∧ s.th.handler = 0 ∧
       Full s ([a.toNat, (b : Reg).toNat] ++ (if r then [9] else []) ++ (if j then [11] else [])) ∧ s.th.cmds ≠ 63 ∧
       (j = true → InMesh s (s.th.ev 3) 32 ((s.th.ev 3).toNat - meshBase)) ∧ NoCommand s) ∧
    (let s := base; let j : Bool := false; let a : Reg := 3; let b : Reg := 4; NoPrefix s ∧ Unpaired s ∧ s.th.handler = 0 ∧
       Full s ([a.toNat, (b : Reg).toNat] ++ [9] ++ (if j then [11] else [])) ∧ s.th.cmds ≠ 63 ∧
       (j = true → InMesh s (s.th.ev 3) 32 ((s.th.ev 3).toNat - meshBase)) ∧ NoCommand s) ∧
    (let s := base; let j : Bool := false; let a : Reg := 0; let b : Reg := 4; NoPrefix s ∧ Unpaired s ∧ s.th.handler = 0 ∧
       Full s ([a.toNat, (b : Reg).toNat] ++ [9, 10] ++ (if j then [11] else [])) ∧ s.th.cmds ≠ 63 ∧
       (j = true → InMesh s (s.th.ev 3) 32 ((s.th.ev 3).toNat - meshBase)) ∧ NoCommand s) := by
  delta Claims.Full Claims.InMesh Claims.NoCommand Claims.NoPrefix Claims.Unpaired; refine ⟨?_, ?_, ?_⟩ <;> decide +kernel

theorem witness_TileInstructions_1 :
    (let s := base; NoPrefix s ∧ Unpaired s) ∧
    (let s := base; NoPrefix s ∧ Unpaired s ∧ s.th.cmds = 0) ∧
    (let s := base |> (th fun c => { c with cmds := 1 }); NoPrefix s ∧ Unpaired s ∧ s.th.cmds ≠ 0) ∧
    (let s := base; let a : Reg := 2; let b : Reg := 2; NoPrefix s ∧ Unpaired s ∧ (let x := s.th.wv a; (let y := s.th.wv b;
       (let field := fun (v : Word) (lo len : Nat) => v.toNat / 2 ^ lo % 2 ^ len; (let row := field x 6 7 + field y 0 7; (let rows := field y 8 6;
       Full s [a.toNat, b.toNat] ∧ x.toNat < 2 ^ 32 ∧ row ≤ 127 ∧ (field x 0 6 = 0 ∨ rows ≠ 0 ∧ field y 0 7 + rows ≤ field x 0 6))))))) ∧
    (let s := base |> (fun s => s |> w [1, 8192 * (65536 + 3), 0] |> th (fun c => { c with quest := some (5, 0, 1) })); let a : Reg := 0; let b : Reg := 0;
       NoPrefix s ∧ Unpaired s ∧ (let x := s.th.wv a; (let y := s.th.wv b; (let field := fun (v : Word) (lo len : Nat) => v.toNat / 2 ^ lo % 2 ^ len;
       (let row := field x 6 7 + field y 0 7; (let rows := field y 8 6; Full s [a.toNat, b.toNat] ∧ x.toNat < 2 ^ 32 ∧ (127 < row ∨ field x 0 6 ≠ 0 ∧
       (rows = 0 ∨ field x 0 6 < field y 0 7 + rows)))))))) ∧
    (let s := base |> (w [0, 1, 0x300, 0x2000000000000000]); let a : Reg := 3; let d : Reg := 2; NoPrefix s ∧ Unpaired s ∧ (let x := s.th.wv a;
       s.th.handler = 0 ∧ Full s [a.toNat] ∧ descOk x.toNat = false ∧ NoPend s [d])) ∧
    (let s := base; let a : Reg := 0; let d : Reg := 0; NoPrefix s ∧ Unpaired s ∧ (let x := s.th.wv a; s.th.handler = 0 ∧ Full s [a.toNat] ∧
       descOk x.toNat = true ∧ NoPend s [d] ∧ NoFailure s)) ∧
    (let s := base; let a : Reg := 4; NoPrefix s ∧ Unpaired s ∧ (let x := s.th.wv a; s.th.handler = 0 ∧ Full s [a.toNat] ∧ x.toNat < 2 ^ 32 ∧
       s.th.cmds ≠ 63 ∧ NoCommand s)) := by
  delta Claims.Full Claims.NoCommand Claims.NoFailure Claims.NoPend Claims.NoPrefix Claims.Unpaired; refine ⟨?_, ?_, ?_, ?_, ?_, ?_, ?_, ?_⟩ <;> decide +kernel

theorem witness_TileInstructions_2 :
    (let s := base |> (w [1, 2 ^ 32, 0]); let a : Reg := 1; NoPrefix s ∧ Unpaired s ∧ (let x := s.th.wv a; s.th.handler = 0 ∧ Full s [a.toNat] ∧
       2 ^ 32 ≤ x.toNat)) ∧
    (let s := base; let a : Reg := 4; let d : Reg := 3; NoPrefix s ∧ Unpaired s ∧ (let x := s.th.wv a; s.th.handler = 0 ∧ Full s [a.toNat] ∧
       x.toNat < 2 ^ 32 ∧ NoPend s [d] ∧ (let there := handleKey x.toNat / 65536;
       (let local_ := there = s.hereDie ∨ (setDies s.mode (s.th.part / 4)).contains there = false; local_ ∧ s.tileRef s.th.blk 0 x.toNat false = none)))) ∧
    (let s := base |> (w [1, 15, 2]) |> (fun s => { s with tiles := [(3, tile)] } |> w [1, 8192 * 3 + 64 * 100, 0]) |> (fun s => { s with launches := [(7, { launch with flags := 8 })] });
       let a : Reg := 1; let d : Reg := 1; NoPrefix s ∧ Unpaired s ∧ (let x := s.th.wv a; s.th.handler = 0 ∧ Full s [a.toNat] ∧ x.toNat < 2 ^ 32 ∧
       NoPend s [d] ∧ (let there := handleKey x.toNat / 65536; (let local_ := there = s.hereDie ∨ (setDies s.mode (s.th.part / 4)).contains there = false;
       local_ ∧
       (∃ t ∈ s.tileRef s.th.blk 0 x.toNat false, (if t.past then 1 else 2 + (t.desc + 2 ^ 23 * t.row0 + 2 ^ 30 * (t.rows - 1) + (if t.scale then 2 ^ 37 else 0))) = 1))))) ∧
    (let s := base |> (fun s => { s with tiles := [(3, tile)] }) |> (fun s => { s with launches := [(7, { launch with flags := 8 })] }) |> (w [1, 8192 * 3, 0]);
       let a : Reg := 1; let d : Reg := 4; NoPrefix s ∧ Unpaired s ∧ (let x := s.th.wv a; s.th.handler = 0 ∧ Full s [a.toNat] ∧ x.toNat < 2 ^ 32 ∧
       NoPend s [d] ∧ (let there := handleKey x.toNat / 65536; (let local_ := there = s.hereDie ∨ (setDies s.mode (s.th.part / 4)).contains there = false;
       local_ ∧
       (∃ t ∈ s.tileRef s.th.blk 0 x.toNat false, 2 ≤ (if t.past then 1 else 2 + (t.desc + 2 ^ 23 * t.row0 + 2 ^ 30 * (t.rows - 1) + (if t.scale then 2 ^ 37 else 0))) ∧
       (if t.past then 1 else 2 + (t.desc + 2 ^ 23 * t.row0 + 2 ^ 30 * (t.rows - 1) + (if t.scale then 2 ^ 37 else 0))) ≠ noAnswer))))) ∧
    (let s := base |> (fun s => s |> w [1, 8192 * (65536 + 3), 0] |> th (fun c => { c with quest := none })); let a : Reg := 1; let d : Reg := 3;
       NoPrefix s ∧ Unpaired s ∧ (let x := s.th.wv a; s.th.handler = 0 ∧ Full s [a.toNat] ∧ x.toNat < 2 ^ 32 ∧ NoPend s [d] ∧
       (let there := handleKey x.toNat / 65536; (let local_ := there = s.hereDie ∨ (setDies s.mode (s.th.part / 4)).contains there = false; ¬local_ ∧
       s.th.quest = none ∧ NoFailure s)))) ∧
    (let s := base |> (fun s => s |> w [1, 8192 * (65536 + 3), 0] |> th (fun c => { c with quest := some (5, 1, 0) })); let a : Reg := 1; let d : Reg := 1;
       NoPrefix s ∧ Unpaired s ∧ (let x := s.th.wv a; s.th.handler = 0 ∧ Full s [a.toNat] ∧ x.toNat < 2 ^ 32 ∧ NoPend s [d] ∧
       (let there := handleKey x.toNat / 65536; (let local_ := there = s.hereDie ∨ (setDies s.mode (s.th.part / 4)).contains there = false; ¬local_ ∧
       (∃ m ∈ s.th.quest, m.2.1 ≠ 0))))) ∧
    (let s := base |> (fun s => s |> w [1, 8192 * (65536 + 3), 0] |> th (fun c => { c with quest := some (5, 0, 0) })); let a : Reg := 1; let d : Reg := 0;
       NoPrefix s ∧ Unpaired s ∧ (let x := s.th.wv a; s.th.handler = 0 ∧ Full s [a.toNat] ∧ x.toNat < 2 ^ 32 ∧ NoPend s [d] ∧
       (let there := handleKey x.toNat / 65536; (let local_ := there = s.hereDie ∨ (setDies s.mode (s.th.part / 4)).contains there = false; ¬local_ ∧
       (∃ m ∈ s.th.quest, m.2.1 = 0 ∧ m.2.2 = 0))))) ∧
    (let s := base |> (fun s => s |> w [1, 8192 * (65536 + 3), 0] |> th (fun c => { c with quest := some (5, 0, 1) })); let a : Reg := 1; let d : Reg := 3;
       NoPrefix s ∧ Unpaired s ∧ (let x := s.th.wv a; s.th.handler = 0 ∧ Full s [a.toNat] ∧ x.toNat < 2 ^ 32 ∧ NoPend s [d] ∧
       (let there := handleKey x.toNat / 65536; (let local_ := there = s.hereDie ∨ (setDies s.mode (s.th.part / 4)).contains there = false; ¬local_ ∧
       (∃ m ∈ s.th.quest, m.2.1 = 0 ∧ m.2.2 = 1))))) := by
  delta Claims.Full Claims.NoFailure Claims.NoPend Claims.NoPrefix Claims.Unpaired; refine ⟨?_, ?_, ?_, ?_, ?_, ?_, ?_, ?_⟩ <;> decide +kernel

theorem witness_TileInstructions_3 :
    (let s := base |> (fun s => s |> w [1, 8192 * (65536 + 3), 0] |> th (fun c => { c with quest := some (5, 0, 9) })); let a : Reg := 1; let d : Reg := 3;
       NoPrefix s ∧ Unpaired s ∧ (let x := s.th.wv a; s.th.handler = 0 ∧ Full s [a.toNat] ∧ x.toNat < 2 ^ 32 ∧ NoPend s [d] ∧
       (let there := handleKey x.toNat / 65536; (let local_ := there = s.hereDie ∨ (setDies s.mode (s.th.part / 4)).contains there = false; ¬local_ ∧
       (∃ m ∈ s.th.quest, m.2.1 = 0 ∧ 2 ≤ m.2.2 ∧ m.2.2 ≠ noAnswer))))) ∧
    (let s := base; let a : Reg := 2; let d : Reg := 4; NoPrefix s ∧ Unpaired s ∧ (let x := s.th.wv a;
       (let field := fun (v : Word) (lo len : Nat) => v.toNat / 2 ^ lo % 2 ^ len; (let askFor := field x 39 9 = 0 ∧ field x 58 6 = 0; s.th.handler = 0 ∧
       Full s [a.toNat] ∧ askFor ∧ NoPend s [d] ∧ NoCommand s)))) ∧
    (let s := base |> (w [1, 2 ^ 39, 0]); let a : Reg := 1; let d : Reg := 0; NoPrefix s ∧ Unpaired s ∧ (let x := s.th.wv a;
       (let field := fun (v : Word) (lo len : Nat) => v.toNat / 2 ^ lo % 2 ^ len; (let askFor := field x 39 9 = 0 ∧ field x 58 6 = 0; s.th.handler = 0 ∧
       Full s [a.toNat] ∧ ¬askFor ∧ NoPend s [d])))) ∧
    (let s := base; let a : Reg := 0; let b : Reg := 4; NoPrefix s ∧ Unpaired s ∧ (let x := s.th.wv a;
       (let field := fun (v : Word) (lo len : Nat) => v.toNat / 2 ^ lo % 2 ^ len; (let askFor := field x 39 9 = 0 ∧ field x 58 6 = 0; s.th.handler = 0 ∧
       Full s [a.toNat] ∧ Full s [b.toNat] ∧ askFor ∧ s.th.cmds ≠ 63 ∧ NoCommand s)))) ∧
    (let s := base |> (w [1, 2 ^ 39, 0]); let a : Reg := 1; let b : Reg := 1; NoPrefix s ∧ Unpaired s ∧ (let x := s.th.wv a;
       (let field := fun (v : Word) (lo len : Nat) => v.toNat / 2 ^ lo % 2 ^ len; (let askFor := field x 39 9 = 0 ∧ field x 58 6 = 0; s.th.handler = 0 ∧
       Full s [a.toNat] ∧ Full s [b.toNat] ∧ ¬askFor)))) := by
  delta Claims.Full Claims.NoCommand Claims.NoPend Claims.NoPrefix Claims.Unpaired; refine ⟨?_, ?_, ?_, ?_, ?_⟩ <;> decide +kernel

theorem witness_TrapTaken :
    (let s := base |> (fun s => s |> core (fun c => { c with hctxM := some 1408, hentryM := 0x401, ready := List.replicate 4 [] }) |> cx 1408 (fun c => { c with handler := 3, kind := 11, lastCore := some 0 }));
       let k : BitVec 8 := 5; NoProfile s ∧ s.cur ≠ none ∧ (let core := s.hereCore; (let x := s.core core; (let id := s.here.ctx;
       (let level := if x.tdeleg.getLsbD k.toNat = true ∧ x.hctxS ≠ none ∧ s.th.handler ≠ 1 then 1 else 3;
       (let (handler, entry) := if level = 1 then (x.hctxS, x.hentryS) else (x.hctxM, x.hentryM); (∃ h ∈ handler, s.th.handler ≠ 3 ∧ x.mcheck = 0 ∧
       s.serving core level = false ∧ h ≠ id ∧ HeldBy s h (.core core) ∧ (s.ctx h).peer = none ∧ x.slotOf h = none ∧ (s.ctx h).handler = level ∧
       (s.die (dieOf core)).preempted = false ∧ Shaped s core))))))) ∧
    (let s := base |> (fun s => s |> core (fun c => { c with hctxM := some 1408 }) |> cx 1408 (fun c => { c with handler := 3, kind := 0, lastCore := some 0 }));
       let k : BitVec 8 := 5; NoProfile s ∧ s.cur ≠ none ∧ (let core := s.hereCore; (let x := s.core core; (let id := s.here.ctx;
       (let level := if x.tdeleg.getLsbD k.toNat = true ∧ x.hctxS ≠ none ∧ s.th.handler ≠ 1 then 1 else 3;
       (let (handler, entry) := if level = 1 then (x.hctxS, x.hentryS) else (x.hctxM, x.hentryM); (∃ h ∈ handler, s.th.handler ≠ 3 ∧
       (x.mcheck ≠ 0 ∨ (s.ctx h).handler = level ∧ (s.ctx h).lastCore = some core ∧ (s.ctx h).kind ≠ 11 ∧ h ≠ id ∧ (s.ctxs.map Prod.fst).contains h = true) ∧
       x.trapQ.length < 64))))))) ∧
    (let s := base |> (core fun c => { c with trapQ := List.replicate 64 ⟨1408, 5, 6, 7, 1⟩ }) |> (fun s => s |> core (fun c => { c with hctxM := some 1408 }) |> cx 1408 (fun c => { c with handler := 3, kind := 0, lastCore := some 0 }));
       let k : BitVec 8 := 0x14; NoProfile s ∧ s.cur ≠ none ∧ (let core := s.hereCore; (let x := s.core core; (let id := s.here.ctx;
       (let level := if x.tdeleg.getLsbD k.toNat = true ∧ x.hctxS ≠ none ∧ s.th.handler ≠ 1 then 1 else 3;
       (let (handler, entry) := if level = 1 then (x.hctxS, x.hentryS) else (x.hctxM, x.hentryM); (∃ h ∈ handler, s.th.handler ≠ 3 ∧
       (x.mcheck ≠ 0 ∨ (s.ctx h).handler = level ∧ (s.ctx h).lastCore = some core ∧ (s.ctx h).kind ≠ 11 ∧ h ≠ id ∧ (s.ctxs.map Prod.fst).contains h = true) ∧
       64 ≤ x.trapQ.length ∧ (s.die (dieOf core)).overflow.length < 4096))))))) ∧
    (let s := base |> (core fun c => { c with trapQ := List.replicate 64 ⟨1408, 5, 6, 7, 1⟩ }) |> (fun s => s |> core (fun c => { c with hctxM := some 1408 }) |> cx 1408 (fun c => { c with handler := 3, kind := 0, lastCore := some 0 })) |> (die 0 fun d => { d with overflow := List.replicate 4096 (0, ⟨1408, 5, 6, 7, 1⟩) });
       let k : BitVec 8 := 0x14; NoProfile s ∧ s.cur ≠ none ∧ (let core := s.hereCore; (let x := s.core core; (let id := s.here.ctx;
       (let level := if x.tdeleg.getLsbD k.toNat = true ∧ x.hctxS ≠ none ∧ s.th.handler ≠ 1 then 1 else 3;
       (let (handler, entry) := if level = 1 then (x.hctxS, x.hentryS) else (x.hctxM, x.hentryM); (∃ h ∈ handler, s.th.handler ≠ 3 ∧
       (x.mcheck ≠ 0 ∨ (s.ctx h).handler = level ∧ (s.ctx h).lastCore = some core ∧ (s.ctx h).kind ≠ 11 ∧ h ≠ id ∧ (s.ctxs.map Prod.fst).contains h = true) ∧
       64 ≤ x.trapQ.length ∧ 4096 ≤ (s.die (dieOf core)).overflow.length))))))) ∧
    (let s := base; let k : BitVec 8 := 5; NoProfile s ∧ s.cur ≠ none ∧ (let core := s.hereCore; (let x := s.core core;
       (let level := if x.tdeleg.getLsbD k.toNat = true ∧ x.hctxS ≠ none ∧ s.th.handler ≠ 1 then 1 else 3; (s.th.handler = 3 ∨ level = 3 ∧ x.hctxM = none))))) ∧
    (let s := base; let k : BitVec 8 := 5; let info : Word := 7; let pc : BitVec 57 := 8; NoProfile s ∧ s.cur ≠ none ∧ (let core := s.hereCore;
       (let x := s.core core; (let q := s.trapAt k.toNat info pc;
       (let level := if x.tdeleg.getLsbD k.toNat = true ∧ x.hctxS ≠ none ∧ s.th.handler ≠ 1 then 1 else 3; (s.th.handler = 3 ∨ level = 3 ∧ x.hctxM = none) ∧
       (s.die (dieOf core)).log.length < 256 ∧ (∃ e ∈ (q.die (dieOf core)).log.getLast?, True)))))) ∧
    (let s := base; NoProfile s ∧ s.cur ≠ none ∧ (let core := s.hereCore; (let x := s.core core; (let id := s.here.ctx; x.hctxM ≠ some id ∧
       x.hctxS ≠ some id)))) ∧
    (let s := base; NoProfile s ∧ s.cur ≠ none) := by
  delta Claims.HeldBy Claims.NoProfile Claims.Shaped; refine ⟨?_, ?_, ?_, ?_, ?_, ?_, ?_, ?_⟩ <;> decide +kernel

theorem witness_CallsAndReturns :
    (let s := base; NoPrefix s ∧ Unpaired s) ∧
    (let s := base |> (core fun c => { c with hctxS := some 1152 }) |> (th fun c => { c with handler := 1, priv := 1 }); NoPrefix s ∧ Unpaired s ∧
       (let core := s.hereCore; (let id := s.here.ctx; (let level := s.th.handler; level ≠ 0 ∧ 1 ≤ s.th.priv.toNat ∧ s.cur ≠ none ∧
       (s.core core).handler level = some id ∧ NoProfile s)))) := by
  delta Claims.NoPrefix Claims.NoProfile Claims.Unpaired; refine ⟨?_, ?_⟩ <;> decide +kernel

theorem witness_SystemRegisters_1 :
    (let s := base; let n : BitVec 7 := 0x0B; NoPrefix s ∧ Unpaired s ∧
       (let assigned := n.toNat ≤ 0x0A ∨ 0x20 ≤ n.toNat ∧ n.toNat ≤ 0x27 ∨ 0x30 ≤ n.toNat ∧ n.toNat ≤ 0x39 ∨ 0x40 ≤ n.toNat ∧ n.toNat ≤ 0x46 ∨ 0x50 ≤ n.toNat ∧ n.toNat ≤ 0x65 ∨ 0x70 ≤ n.toNat ∧ n.toNat ≤ 0x73;
       ¬assigned)) ∧
    (let s := base; let n : BitVec 7 := 0x46; NoPrefix s ∧ Unpaired s ∧
       (let assigned := n.toNat ≤ 0x0A ∨ 0x20 ≤ n.toNat ∧ n.toNat ≤ 0x27 ∨ 0x30 ≤ n.toNat ∧ n.toNat ≤ 0x39 ∨ 0x40 ≤ n.toNat ∧ n.toNat ≤ 0x46 ∨ 0x50 ≤ n.toNat ∧ n.toNat ≤ 0x65 ∨ 0x70 ≤ n.toNat ∧ n.toNat ≤ 0x73;
       assigned ∧ s.th.priv = 0)) ∧
    (let s := base |> (th fun c => { c with priv := 1 }); let d : Reg := 1; let n : BitVec 7 := 0x46; NoPrefix s ∧ Unpaired s ∧
       (let assigned := n.toNat ≤ 0x0A ∨ 0x20 ≤ n.toNat ∧ n.toNat ≤ 0x27 ∨ 0x30 ≤ n.toNat ∧ n.toNat ≤ 0x39 ∨ 0x40 ≤ n.toNat ∧ n.toNat ≤ 0x46 ∨ 0x50 ≤ n.toNat ∧ n.toNat ≤ 0x65 ∨ 0x70 ≤ n.toNat ∧ n.toNat ≤ 0x73;
       assigned ∧ s.th.priv ≠ 0 ∧ NoPend s [d] ∧ NoFailure s)) ∧
    (let s := base; let a : Reg := 0; let n : BitVec 7 := 0x00; NoPrefix s ∧ Unpaired s ∧
       (let assigned := n.toNat ≤ 0x0A ∨ 0x20 ≤ n.toNat ∧ n.toNat ≤ 0x27 ∨ 0x30 ≤ n.toNat ∧ n.toNat ≤ 0x39 ∨ 0x40 ≤ n.toNat ∧ n.toNat ≤ 0x46 ∨ 0x50 ≤ n.toNat ∧ n.toNat ≤ 0x65 ∨ 0x70 ≤ n.toNat ∧ n.toNat ≤ 0x73;
       assigned ∧ Full s [a.toNat] ∧ sysWrite n.toNat = none)) ∧
    (let s := base; let a : Reg := 2; let n : BitVec 7 := 0x03; NoPrefix s ∧ Unpaired s ∧ (∃ p ∈ sysWrite n.toNat, Full s [a.toNat] ∧ s.th.priv.toNat < p)) ∧
    (let s := base |> (th fun c => { c with priv := 3 }); let a : Reg := 1; let n : BitVec 7 := 0x64; NoPrefix s ∧ Unpaired s ∧ (let part := s.th.part;
       (let core := s.hereCore; (∃ p ∈ sysWrite n.toNat, Full s [a.toNat] ∧ p ≤ s.th.priv.toNat ∧ (∃ m ∈ storing, m.1 = n.toNat ∧
       (s.part part).bps.length = 4 ∧ (s.core core).evs.length = 8 ∧ (s.cluster (clusterOf core)).evs.length = 16 ∧ (s.core core).evSel.toNat % 32 < 24))))) ∧
    (let s := base |> (th fun c => { c with priv := 3 }); let a : Reg := 3; let n : BitVec 7 := 0x40; NoPrefix s ∧ Unpaired s ∧ (let x := s.th.wv a;
       (∃ p ∈ sysWrite n.toNat, Full s [a.toNat] ∧ p ≤ s.th.priv.toNat ∧ n.toNat = 0x40 ∧ x.toNat / 2 % 16 ≤ 10))) ∧
    (let s := base |> (th fun c => { c with priv := 3 }); let a : Reg := 3; let n : BitVec 7 := 0x46; NoPrefix s ∧ Unpaired s ∧
       (∃ p ∈ sysWrite n.toNat, Full s [a.toNat] ∧ p ≤ s.th.priv.toNat ∧ n.toNat = 0x46)) := by
  delta Claims.Full Claims.NoFailure Claims.NoPend Claims.NoPrefix Claims.Unpaired; refine ⟨?_, ?_, ?_, ?_, ?_, ?_, ?_, ?_⟩ <;> decide +kernel

theorem witness_SystemRegisters_2 :
    (let s := base |> (th fun c => { c with priv := 3 }); let a : Reg := 7; let n : BitVec 7 := 0x07; NoPrefix s ∧ Unpaired s ∧
       (∃ p ∈ sysWrite n.toNat, Full s [a.toNat] ∧ p ≤ s.th.priv.toNat ∧ n.toNat = 0x07)) ∧
    (let s := base |> (th fun c => { c with priv := 3 }); let a : Reg := 4; let n : BitVec 7 := 0x44; NoPrefix s ∧ Unpaired s ∧
       (∃ p ∈ sysWrite n.toNat, Full s [a.toNat] ∧ p ≤ s.th.priv.toNat ∧ n.toNat = 0x44)) ∧
    (let s := base |> (th fun c => { c with priv := 3 }); let a : Reg := 1; let n : BitVec 7 := 0x01; NoPrefix s ∧ Unpaired s ∧ (let x := s.th.wv a;
       (∃ p ∈ sysWrite n.toNat, Full s [a.toNat] ∧ p ≤ s.th.priv.toNat ∧ (n.toNat = 0x01 ∨ n.toNat = 0x02) ∧ x = 0))) := by
  delta Claims.Full Claims.NoPrefix Claims.Unpaired; refine ⟨?_, ?_, ?_⟩ <;> decide +kernel

theorem witness_Privilege :
    (let s := base; NoPrefix s ∧ Unpaired s ∧ s.th.priv.toNat < 3) ∧
    (let s := base |> (th fun c => { c with handler := 1 }); NoPrefix s ∧ Unpaired s ∧ s.th.priv = 0 ∧ s.th.handler ≠ 0) ∧
    (let s := base; NoPrefix s ∧ Unpaired s ∧ s.th.priv = 0) ∧
    (let s := base; let k : BitVec 4 := 2; NoPrefix s ∧ Unpaired s ∧ s.th.priv = 0 ∧ k.toNat ≠ 14) ∧
    (let s := base; let sc : BitVec 3 := 4; NoPrefix s ∧ Unpaired s ∧ s.th.priv = 0 ∧ 1 ≤ sc.toNat ∧ sc.toNat ≤ 5) ∧
    (let s := base; let l : Bool := true; let p : Bool := true; NoPrefix s ∧ Unpaired s ∧ s.th.priv = 0 ∧ (p = true ∨ l = true)) := by
  delta Claims.NoPrefix Claims.Unpaired; refine ⟨?_, ?_, ?_, ?_, ?_, ?_⟩ <;> decide +kernel

theorem witness_ContextInstructions_1 :
    (let s := base |> (fun s => s |> w [0, 64, 5, 7] |> th fun c => { c with priv := 1 }); let a : Reg := 1; let d : Reg := 1; NoPrefix s ∧ Unpaired s ∧
       s.th.priv ≠ 0 ∧ Full s [a.toNat] ∧ NoPend s [d] ∧ NoFailure s ∧ (let x := s.th.wv a; x.toNat % 128 ≠ 0)) ∧
    (let s := base |> (fun s => s |> w [0, 128, 5, 7] |> th fun c => { c with priv := 1 }); let a : Reg := 1; let d : Reg := 0; NoPrefix s ∧ Unpaired s ∧
       s.th.priv ≠ 0 ∧ Full s [a.toNat] ∧ NoPend s [d] ∧ NoFailure s ∧ (let x := s.th.wv a; x.toNat % 128 = 0 ∧ regionAt x.toNat ≠ .context)) ∧
    (let s := base |> (fun s => s |> core (fun c => { c with tlb := [page0, { page0 with hi := true }] }) |> w [0, 2 ^ 56 + 1280, 5, 7] |> cx 1280 (fun c => { c with priv := 3 }) |> th fun c => { c with priv := 1 });
       let a : Reg := 1; let d : Reg := 2; NoPrefix s ∧ Unpaired s ∧ s.th.priv ≠ 0 ∧ Full s [a.toNat] ∧ NoPend s [d] ∧ NoFailure s ∧ (let x := s.th.wv a;
       x.toNat % 128 = 0 ∧ regionAt x.toNat = .context ∧ (∃ at_ ∈ hit (s.look s.hereCore s.here.ctx x.toNat .line), (let line := at_.1; (let u := at_.2;
       (u.ctx line).priv = 3 ∧ s.th.priv ≠ 3))))) ∧
    (let s := base |> (fun s => s |> core (fun c => { c with tlb := [page0, { page0 with hi := true }] }) |> w [0, 2 ^ 56 + 1280, 5, 7] |> th fun c => { c with priv := 1 });
       let a : Reg := 1; let d : Reg := 3; NoPrefix s ∧ Unpaired s ∧ s.th.priv ≠ 0 ∧ Full s [a.toNat] ∧ NoPend s [d] ∧ NoFailure s ∧ (let x := s.th.wv a;
       x.toNat % 128 = 0 ∧ regionAt x.toNat = .context ∧ (∃ at_ ∈ hit (s.look s.hereCore s.here.ctx x.toNat .line), (let line := at_.1; (let u := at_.2;
       ((u.ctx line).priv ≠ 3 ∨ s.th.priv = 3)))))) ∧
    (let s := base |> (fun s => s |> w [0, 2 ^ 56 + 1281, 5, 7] |> th fun c => { c with priv := 1 }); let a : Reg := 1; let b : Reg := 2; let d : Reg := 2;
       let i : BitVec 4 := 15; NoPrefix s ∧ Unpaired s ∧ s.th.priv ≠ 0 ∧ Full s [a.toNat] ∧ NoPend s [d] ∧ NoFailure s ∧ (let x := s.th.wv a; i ≠ 14 ∧
       Full s [b.toNat] ∧ x.toNat % 128 ≠ 0)) ∧
    (let s := base |> (fun s => s |> w [0, 128, 5, 7] |> th fun c => { c with priv := 1 }); let a : Reg := 1; let b : Reg := 2; let d : Reg := 2;
       let i : BitVec 4 := 7; NoPrefix s ∧ Unpaired s ∧ s.th.priv ≠ 0 ∧ Full s [a.toNat] ∧ NoPend s [d] ∧ NoFailure s ∧ (let x := s.th.wv a; i ≠ 14 ∧
       Full s [b.toNat] ∧ x.toNat % 128 = 0 ∧ regionAt x.toNat ≠ .context)) ∧
    (let s := base |> (fun s => s |> core (fun c => { c with tlb := [page0, { page0 with hi := true }] }) |> w [0, 2 ^ 56 + 1280, 5, 7] |> cx 1280 (fun c => { c with priv := 3 }) |> th fun c => { c with priv := 1 });
       let a : Reg := 1; let b : Reg := 3; let d : Reg := 4; let i : BitVec 4 := 13; NoPrefix s ∧ Unpaired s ∧ s.th.priv ≠ 0 ∧ Full s [a.toNat] ∧
       NoPend s [d] ∧ NoFailure s ∧ (let x := s.th.wv a; i ≠ 14 ∧ Full s [b.toNat] ∧ x.toNat % 128 = 0 ∧ regionAt x.toNat = .context ∧
       (∃ at_ ∈ hit (s.look s.hereCore s.here.ctx x.toNat .line), (let line := at_.1; (let u := at_.2; (u.ctx line).priv = 3 ∧ s.th.priv ≠ 3))))) ∧
    (let s := base |> (fun s => s |> core (fun c => { c with tlb := [page0, { page0 with hi := true }] }) |> w [0, 2 ^ 56 + 1280, 5, 7] |> th fun c => { c with priv := 1 });
       let a : Reg := 1; let b : Reg := 2; let d : Reg := 3; let i : BitVec 4 := 9; NoPrefix s ∧ Unpaired s ∧ s.th.priv ≠ 0 ∧ Full s [a.toNat] ∧
       NoPend s [d] ∧ NoFailure s ∧ (let x := s.th.wv a; i ≠ 14 ∧ Full s [b.toNat] ∧ x.toNat % 128 = 0 ∧ regionAt x.toNat = .context ∧
       (∃ at_ ∈ hit (s.look s.hereCore s.here.ctx x.toNat .line), (let line := at_.1; (let u := at_.2; ((u.ctx line).priv ≠ 3 ∨ s.th.priv = 3)))))) := by
  delta Claims.Full Claims.NoFailure Claims.NoPend Claims.NoPrefix Claims.Unpaired; refine ⟨?_, ?_, ?_, ?_, ?_, ?_, ?_, ?_⟩ <;> decide +kernel

theorem witness_ContextInstructions_2 :
    (let s := base |> (fun s => s |> cx 1280 (fun c => { c with kind := 8 }) |> fun s => { s with cur := none }); let id : Nat := 1280;
       let ctx : Nat := 1408; let unit : Holder := Holder.core 0; (let c := s.ctx id; s.cur = none ∧ (s.centry id).moving = false ∧ c.peer = none ∧
       NoProfile s ∧ Reach s (holderDie (s.ctxHome id) unit) (holderDie (s.ctxHome ctx) (s.centry ctx).holder) ∧ HeldBy s id unit)) ∧
    (let s := base |> (fun s => s |> cx 1280 (fun c => { c with handler := 1 }) |> fun s => { s with cur := none }) |> (cx 1280 fun c => { c with kind := 11 });
       let id : Nat := 1280; let ctx : Nat := 1408; let unit : Holder := Holder.core 0; (let c := s.ctx id;
       (let none_ := c.isFree = true ∨ c.kind = 11 ∨ c.kind = 12; s.cur = none ∧ (s.centry id).moving = false ∧ c.peer = none ∧ NoProfile s ∧
       Reach s (holderDie (s.ctxHome id) unit) (holderDie (s.ctxHome ctx) (s.centry ctx).holder) ∧ HeldBy s id unit ∧ none_))) ∧
    (let s := base |> (cx 1280 fun c => { c with kind := 9 }) |> (fun s => { s with cur := none }); let id : Nat := 1280; let ctx : Nat := 1408;
       let unit : Holder := Holder.core 0; (let c := s.ctx id; (let none_ := c.isFree = true ∨ c.kind = 11 ∨ c.kind = 12;
       (let halted := c.kind = 8 ∨ c.kind = 9; s.cur = none ∧ (s.centry id).moving = false ∧ c.peer = none ∧ NoProfile s ∧
       Reach s (holderDie (s.ctxHome id) unit) (holderDie (s.ctxHome ctx) (s.centry ctx).holder) ∧ HeldBy s id unit ∧ ¬none_ ∧ halted ∧ c.heldTraps = [] ∧
       c.heldStop = [])))) ∧
    (let s := base |> (fun s => { s with cur := none }); let id : Nat := 1280; let ctx : Nat := 1408; let unit : Holder := Holder.core 0;
       (let c := s.ctx id; (let none_ := c.isFree = true ∨ c.kind = 11 ∨ c.kind = 12; (let halted := c.kind = 8 ∨ c.kind = 9; s.cur = none ∧
       (s.centry id).moving = false ∧ c.peer = none ∧ NoProfile s ∧
       Reach s (holderDie (s.ctxHome id) unit) (holderDie (s.ctxHome ctx) (s.centry ctx).holder) ∧ HeldBy s id unit ∧ ¬none_ ∧ ¬halted)))) ∧
    (let s := base |> (fun s => s |> cx 1280 (fun c => { c with kind := 8 }) |> fun s => { s with cur := none }); let id : Nat := 1280;
       let ctx : Nat := 1408; let unit : Holder := Holder.core 0; (let c := s.ctx id; (let none_ := c.isFree = true ∨ c.kind = 11 ∨ c.kind = 12;
       (let halted := c.kind = 8 ∨ c.kind = 9; (let reserved := 13 ≤ c.kind.toNat; s.cur = none ∧ (s.centry id).moving = false ∧ c.peer = none ∧
       NoProfile s ∧ Reach s (holderDie (s.ctxHome id) unit) (holderDie (s.ctxHome ctx) (s.centry ctx).holder) ∧ HeldBy s id unit ∧ ¬none_ ∧
       (halted ∨ reserved)))))) ∧
    (let s := base |> (fun s => { s with cur := none }) |> (cx 1280 fun c => { c with kind := 2 }); let id : Nat := 1280; let ctx : Nat := 1408;
       let unit : Holder := Holder.core 0; (let c := s.ctx id; (let none_ := c.isFree = true ∨ c.kind = 11 ∨ c.kind = 12;
       (let byReply := c.kind = 2 ∨ c.kind = 5 ∨ c.kind = 4 ∧ c.warg.getLsbD 10 = true; s.cur = none ∧ (s.centry id).moving = false ∧ c.peer = none ∧
       NoProfile s ∧ Reach s (holderDie (s.ctxHome id) unit) (holderDie (s.ctxHome ctx) (s.centry ctx).holder) ∧ HeldBy s id unit ∧ ¬none_ ∧ byReply)))) ∧
    (let s := base |> (fun s => s |> cx 1280 (fun c => { c with handler := 1 }) |> fun s => { s with cur := none }); let id : Nat := 1280;
       let ctx : Nat := 1408; let unit : Holder := Holder.core 0; (let c := s.ctx id; (let none_ := c.isFree = true ∨ c.kind = 11 ∨ c.kind = 12;
       (let halted := c.kind = 8 ∨ c.kind = 9; (let reserved := 13 ≤ c.kind.toNat;
       (let byReply := c.kind = 2 ∨ c.kind = 5 ∨ c.kind = 4 ∧ c.warg.getLsbD 10 = true; s.cur = none ∧ (s.centry id).moving = false ∧ c.peer = none ∧
       NoProfile s ∧ Reach s (holderDie (s.ctxHome id) unit) (holderDie (s.ctxHome ctx) (s.centry ctx).holder) ∧ HeldBy s id unit ∧ ¬none_ ∧ ¬halted ∧
       ¬reserved ∧ ¬byReply)))))) ∧
    (let s := base |> (cx 1280 fun c => { c with kind := 9 }) |> (fun s => { s with cur := none }); let id : Nat := 1280; let ctx : Nat := 1408;
       let unit : Holder := Holder.core 0; (let c := s.ctx id; (let none_ := c.isFree = true ∨ c.kind = 11 ∨ c.kind = 12; s.cur = none ∧
       (s.centry id).moving = false ∧ c.peer = none ∧ NoProfile s ∧
       Reach s (holderDie (s.ctxHome id) unit) (holderDie (s.ctxHome ctx) (s.centry ctx).holder) ∧ HeldBy s id unit ∧ ¬none_ ∧ c.kind = 9))) := by
  delta Claims.HeldBy Claims.NoProfile Claims.Reach; refine ⟨?_, ?_, ?_, ?_, ?_, ?_, ?_, ?_⟩ <;> decide +kernel

theorem witness_ContextInstructions_3 :
    (let s := base |> (fun s => s |> cx 1280 (fun c => { c with kind := 13 }) |> fun s => { s with cur := none }); let id : Nat := 1280;
       let ctx : Nat := 1408; let unit : Holder := Holder.core 0; (let c := s.ctx id; (let none_ := c.isFree = true ∨ c.kind = 11 ∨ c.kind = 12;
       (let reserved := 13 ≤ c.kind.toNat; s.cur = none ∧ (s.centry id).moving = false ∧ c.peer = none ∧ NoProfile s ∧
       Reach s (holderDie (s.ctxHome id) unit) (holderDie (s.ctxHome ctx) (s.centry ctx).holder) ∧ HeldBy s id unit ∧ ¬none_ ∧ reserved)))) ∧
    (let s := base |> (fun s => s |> cx 1280 (fun c => { c with kind := 8 }) |> fun s => { s with cur := none }); let id : Nat := 1280;
       let ctx : Nat := 1408; let unit : Holder := Holder.core 0; (let c := s.ctx id; (let none_ := c.isFree = true ∨ c.kind = 11 ∨ c.kind = 12;
       (let byReply := c.kind = 2 ∨ c.kind = 5 ∨ c.kind = 4 ∧ c.warg.getLsbD 10 = true; s.cur = none ∧ (s.centry id).moving = false ∧ c.peer = none ∧
       NoProfile s ∧ Reach s (holderDie (s.ctxHome id) unit) (holderDie (s.ctxHome ctx) (s.centry ctx).holder) ∧ HeldBy s id unit ∧ ¬none_ ∧
       (c.kind = 8 ∨ byReply))))) ∧
    (let s := base |> (fun s => { s with cur := none }); let id : Nat := 1280; let ctx : Nat := 1408; let unit : Holder := Holder.core 0;
       (let c := s.ctx id; (let none_ := c.isFree = true ∨ c.kind = 11 ∨ c.kind = 12; (let halted := c.kind = 8 ∨ c.kind = 9;
       (let reserved := 13 ≤ c.kind.toNat; (let byReply := c.kind = 2 ∨ c.kind = 5 ∨ c.kind = 4 ∧ c.warg.getLsbD 10 = true; s.cur = none ∧
       (s.centry id).moving = false ∧ c.peer = none ∧ NoProfile s ∧
       Reach s (holderDie (s.ctxHome id) unit) (holderDie (s.ctxHome ctx) (s.centry ctx).holder) ∧ HeldBy s id unit ∧ ¬none_ ∧ ¬halted ∧ ¬reserved ∧
       ¬byReply ∧ (∀ z ∈ s.dies, z.2.dlogBase = 0))))))) ∧
    (let s := base |> (fun s => s |> cx 1280 (fun c => { c with kind := 13 }) |> fun s => { s with cur := none }); let id : Nat := 1280;
       let ctx : Nat := 1408; let unit : Holder := Holder.core 0; (let c := s.ctx id; (let none_ := c.isFree = true ∨ c.kind = 11 ∨ c.kind = 12;
       s.cur = none ∧ (s.centry id).moving = false ∧ c.peer = none ∧ NoProfile s ∧
       Reach s (holderDie (s.ctxHome id) unit) (holderDie (s.ctxHome ctx) (s.centry ctx).holder) ∧ HeldBy s id unit ∧ ¬none_))) ∧
    (let s := base |> (fun s => s |> cx 1280 (fun c => { c with handler := 1 }) |> fun s => { s with cur := none }); let id : Nat := 1280;
       let ctx : Nat := 1408; let unit : Holder := Holder.core 0; (let c := s.ctx id; (let none_ := c.isFree = true ∨ c.kind = 11 ∨ c.kind = 12;
       s.cur = none ∧ (s.centry id).moving = false ∧ c.peer = none ∧ NoProfile s ∧
       Reach s (holderDie (s.ctxHome id) unit) (holderDie (s.ctxHome ctx) (s.centry ctx).holder) ∧ HeldBy s id unit ∧ ¬none_ ∧
       (s.pinned id = true ∨ c.handler ≠ 0)))) ∧
    (let s := base |> (fun s => { s with cur := none }); let id : Nat := 1280; let ctx : Nat := 1408; let unit : Holder := Holder.core 0;
       (let c := s.ctx id; (let none_ := c.isFree = true ∨ c.kind = 11 ∨ c.kind = 12; s.cur = none ∧ (s.centry id).moving = false ∧ c.peer = none ∧
       NoProfile s ∧ Reach s (holderDie (s.ctxHome id) unit) (holderDie (s.ctxHome ctx) (s.centry ctx).holder) ∧ HeldBy s id unit ∧ ¬none_ ∧
       s.pinned id = false ∧ c.handler = 0 ∧ (unit = .core 0) ∧ (unit = .core 0) ∧ unit ≠ .memory))) ∧
    (let s := base |> (cx 1280 fun c => { c with kind := 4, warg := 1024 }) |> (cx 1280 fun c => { c with kind := 8 }) |> (fun s => s |> cx 1280 (fun c => { c with kind := 8 }) |> fun s => { s with cur := none });
       let i : BitVec 4 := 15; let y : Word := 3 * 2 ^ 32; let id : Nat := 1280; let ctx : Nat := 1408; let unit : Holder := Holder.core 0;
       let issuer : BitVec 2 := 1; (let c := s.ctx id; (let none_ := c.isFree = true ∨ c.kind = 11 ∨ c.kind = 12; (let halted := c.kind = 8 ∨ c.kind = 9;
       (let priv := y.extractLsb' 32 2; (let barred := i = 15 ∧ priv ≠ c.priv ∧ (issuer.toNat ≤ priv.toNat ∨ priv = 2); s.cur = none ∧
       (s.centry id).moving = false ∧ c.peer = none ∧ NoProfile s ∧
       Reach s (holderDie (s.ctxHome id) unit) (holderDie (s.ctxHome ctx) (s.centry ctx).holder) ∧ HeldBy s id unit ∧ ¬none_ ∧ halted ∧ barred)))))) ∧
    (let s := base |> (fun s => s |> cx 1280 (fun c => { c with kind := 8 }) |> fun s => { s with cur := none }); let i : BitVec 4 := 0; let y : Word := 0;
       let id : Nat := 1280; let ctx : Nat := 1408; let unit : Holder := Holder.core 0; let issuer : BitVec 2 := 1; (let c := s.ctx id;
       (let none_ := c.isFree = true ∨ c.kind = 11 ∨ c.kind = 12; (let halted := c.kind = 8 ∨ c.kind = 9; (let priv := y.extractLsb' 32 2;
       (let barred := i = 15 ∧ priv ≠ c.priv ∧ (issuer.toNat ≤ priv.toNat ∨ priv = 2); s.cur = none ∧ (s.centry id).moving = false ∧ c.peer = none ∧
       NoProfile s ∧ Reach s (holderDie (s.ctxHome id) unit) (holderDie (s.ctxHome ctx) (s.centry ctx).holder) ∧ HeldBy s id unit ∧ ¬none_ ∧ halted ∧
       ¬barred ∧ i ≠ 14)))))) := by
  delta Claims.HeldBy Claims.NoProfile Claims.Reach; refine ⟨?_, ?_, ?_, ?_, ?_, ?_, ?_, ?_⟩ <;> decide +kernel

theorem witness_ContextInstructions_4 :
    (let s := base |> (fun s => { s with cur := none }); let id : Nat := 1280; let ctx : Nat := 1408; let unit : Holder := Holder.shadow 0;
       (let c := s.ctx id; s.cur = none ∧ (s.centry id).moving = false ∧ c.peer = none ∧ NoProfile s ∧
       Reach s (holderDie (s.ctxHome id) unit) (holderDie (s.ctxHome ctx) (s.centry ctx).holder) ∧ (s.centry id).holder ≠ unit ∧
       Reach s (holderDie (s.ctxHome id) unit) (s.ctxHome id))) := by
  delta Claims.NoProfile Claims.Reach; decide +kernel

theorem witness_CoreControls_1 :
    (let s := base |> (th fun c => { c with priv := 1 }); let a : Reg := 1; NoPrefix s ∧ Unpaired s ∧ 1 ≤ s.th.priv.toNat ∧ (let x := s.th.wv a;
       (let core := x.toNat % 2 ^ 13; (let dies := setDies s.mode (s.th.part / 4);
       (let named := x.toNat < 2 ^ 20 ∧ x.toNat / 2 ^ 13 % 8 = 0 ∧ dies.contains (core / 1024) = true; Full s [a.toNat] ∧ named ∧ s.cur ≠ none ∧
       core / 1024 = s.hereDie))))) ∧
    (let s := base |> (th fun c => { c with priv := 1 }) |> (w [0, 2 ^ 13 - 1, 0]); let a : Reg := 1; NoPrefix s ∧ Unpaired s ∧ 1 ≤ s.th.priv.toNat ∧
       (let x := s.th.wv a; (let core := x.toNat % 2 ^ 13; (let dies := setDies s.mode (s.th.part / 4);
       (let named := x.toNat < 2 ^ 20 ∧ x.toNat / 2 ^ 13 % 8 = 0 ∧ dies.contains (core / 1024) = true; Full s [a.toNat] ∧ named ∧ s.cur ≠ none ∧
       core / 1024 ≠ s.hereDie ∧ s.th.quest = none ∧ NoFailure s))))) ∧
    (let s := base |> (fun s => s |> w [0, 1024, 0] |> th (fun c => { c with priv := 1, quest := some (5, 1, 0) })); let a : Reg := 1; NoPrefix s ∧
       Unpaired s ∧ 1 ≤ s.th.priv.toNat ∧ (let x := s.th.wv a; (let core := x.toNat % 2 ^ 13; (let dies := setDies s.mode (s.th.part / 4);
       (let named := x.toNat < 2 ^ 20 ∧ x.toNat / 2 ^ 13 % 8 = 0 ∧ dies.contains (core / 1024) = true; Full s [a.toNat] ∧ named ∧ s.cur ≠ none ∧
       core / 1024 ≠ s.hereDie ∧ (∃ m ∈ s.th.quest, m.2.1 ≠ 0)))))) ∧
    (let s := base |> (fun s => s |> w [0, 1024, 0] |> th (fun c => { c with priv := 1, quest := some (5, 0, 0) })); let a : Reg := 1; NoPrefix s ∧
       Unpaired s ∧ 1 ≤ s.th.priv.toNat ∧ (let x := s.th.wv a; (let core := x.toNat % 2 ^ 13; (let dies := setDies s.mode (s.th.part / 4);
       (let named := x.toNat < 2 ^ 20 ∧ x.toNat / 2 ^ 13 % 8 = 0 ∧ dies.contains (core / 1024) = true; Full s [a.toNat] ∧ named ∧ s.cur ≠ none ∧
       core / 1024 ≠ s.hereDie ∧ (∃ m ∈ s.th.quest, m.2.1 = 0)))))) ∧
    (let s := base |> (th fun c => { c with priv := 3 }); let a : Reg := 1; NoPrefix s ∧ Unpaired s ∧ 1 ≤ s.th.priv.toNat ∧ (let x := s.th.wv a;
       (let here := s.hereCore; (let core := x.toNat % 2 ^ 13; (let slot := x.toNat / 2 ^ 16 % 16; (s.centry s.here.ctx).holder = .core here ∧
       core / 1024 = dieOf here ∧ slot < (s.core core).slots.length))))) ∧
    (let s := base |> (fun s => s |> w [0, 1024, 0] |> th (fun c => { c with priv := 1, quest := some (5, 0, 0) })); let a : Reg := 1; let b : Reg := 2;
       let k : BitVec 2 := 2; let sc : BitVec 3 := 1; NoPrefix s ∧ Unpaired s ∧ 1 ≤ s.th.priv.toNat ∧ (let y := s.th.wv b;
       (let dies := setDies s.mode (s.th.part / 4); Full s [a.toNat, b.toNat] ∧ 1 ≤ sc.toNat ∧ sc.toNat ≤ 5 ∧ (k = 1 → 1 ≤ y.toNat ∧ y.toNat ≤ 2 ^ 20) ∧
       dies.contains s.hereDie = true ∧ (let others := if sc.toNat < 4 then [] else dies.filter (· ≠ s.hereDie); others = [] ∧ Settled s)))) ∧
    (let s := base |> (th fun c => { c with priv := 3 }); let a : Reg := 1; let b : Reg := 2; let k : BitVec 2 := 0; let sc : BitVec 3 := 5; NoPrefix s ∧
       Unpaired s ∧ 1 ≤ s.th.priv.toNat ∧ (let y := s.th.wv b; (let dies := setDies s.mode (s.th.part / 4); Full s [a.toNat, b.toNat] ∧ 1 ≤ sc.toNat ∧
       sc.toNat ≤ 5 ∧ (k = 1 → 1 ≤ y.toNat ∧ y.toNat ≤ 2 ^ 20) ∧ dies.contains s.hereDie = true ∧
       (let others := if sc.toNat < 4 then [] else dies.filter (· ≠ s.hereDie); others ≠ [] ∧ s.th.quest = none ∧ Settled s ∧ NoFailure s)))) ∧
    (let s := base |> (fun s => s |> w [0, 1024, 0] |> th (fun c => { c with priv := 1, quest := some (5, 1, 0) })); let a : Reg := 1; let b : Reg := 2;
       let k : BitVec 2 := 2; let sc : BitVec 3 := 5; NoPrefix s ∧ Unpaired s ∧ 1 ≤ s.th.priv.toNat ∧ (let y := s.th.wv b;
       (let dies := setDies s.mode (s.th.part / 4); Full s [a.toNat, b.toNat] ∧ 1 ≤ sc.toNat ∧ sc.toNat ≤ 5 ∧ (k = 1 → 1 ≤ y.toNat ∧ y.toNat ≤ 2 ^ 20) ∧
       dies.contains s.hereDie = true ∧ (let others := if sc.toNat < 4 then [] else dies.filter (· ≠ s.hereDie); others ≠ [] ∧ NoFailure s ∧
       (∃ m ∈ s.th.quest, m.2.1 ≠ 0))))) := by
  delta Claims.Full Claims.NoFailure Claims.NoPrefix Claims.Settled Claims.Unpaired; refine ⟨?_, ?_, ?_, ?_, ?_, ?_, ?_, ?_⟩ <;> decide +kernel

theorem witness_CoreControls_2 :
    (let s := base |> (fun s => s |> w [0, 1024, 0] |> th (fun c => { c with priv := 1, quest := some (5, 0, 0) })); let a : Reg := 1; let b : Reg := 2;
       let k : BitVec 2 := 3; let sc : BitVec 3 := 5; NoPrefix s ∧ Unpaired s ∧ 1 ≤ s.th.priv.toNat ∧ (let y := s.th.wv b;
       (let dies := setDies s.mode (s.th.part / 4); Full s [a.toNat, b.toNat] ∧ 1 ≤ sc.toNat ∧ sc.toNat ≤ 5 ∧ (k = 1 → 1 ≤ y.toNat ∧ y.toNat ≤ 2 ^ 20) ∧
       dies.contains s.hereDie = true ∧ (let others := if sc.toNat < 4 then [] else dies.filter (· ≠ s.hereDie); others ≠ [] ∧ NoFailure s ∧
       (∃ m ∈ s.th.quest, m.2.1 = 0))))) ∧
    (let s := base |> (th fun c => { c with priv := 3 }); let a : Reg := 1; let b : Reg := 2; let d : Reg := 1; NoPrefix s ∧ Unpaired s ∧
       1 ≤ s.th.priv.toNat ∧ (let x := s.th.wv a; (let y := s.th.wv b; (let dies := setDies s.mode (s.th.part / 4); Full s [a.toNat, b.toNat] ∧
       NoPend s [d] ∧ NoFailure s ∧ x.toNat < 2 ^ 13 ∧ y.toNat < 4 ∧ dies.contains (x.toNat / 64 % 8) = true)))) ∧
    (let s := base |> (th fun c => { c with priv := 1 }); let a : Reg := 1; let b : Reg := 2; NoPrefix s ∧ Unpaired s ∧ 1 ≤ s.th.priv.toNat ∧
       (let x := s.th.wv a; (let y := s.th.wv b; (let cluster := x.toNat / 64 % 8 * 64 + x.toNat % 64; (let bank := x.toNat / 2 ^ 9 % 16;
       ((s.cluster cluster).drains.any fun w => w.bank == bank) = false ∧
       Reach s (cluster / 64) (holderDie (s.ctxHome s.here.ctx) (s.centry s.here.ctx).holder) ∧
       (s.judgeBank cluster bank s.th.part (bankModeOf (y.toNat % 4))).isSome = true))))) ∧
    (let s := base |> (th fun c => { c with priv := 1 }) |> (w [0, 1024, 1]); let a : Reg := 1; let b : Reg := 2; NoPrefix s ∧ Unpaired s ∧
       1 ≤ s.th.priv.toNat ∧ (let x := s.th.wv a; (let y := s.th.wv b; (let cluster := x.toNat / 64 % 8 * 64 + x.toNat % 64;
       (let bank := x.toNat / 2 ^ 9 % 16; ((s.cluster cluster).drains.any fun w => w.bank == bank) = false ∧
       Reach s (cluster / 64) (holderDie (s.ctxHome s.here.ctx) (s.centry s.here.ctx).holder) ∧
       s.judgeBank cluster bank s.th.part (bankModeOf (y.toNat % 4)) = none))))) ∧
    (let s := base |> (th fun c => { c with priv := 3 }); NoPrefix s ∧ Unpaired s ∧ 1 ≤ s.th.priv.toNat ∧ s.th.priv = 3 ∧ s.drained s.here.ctx = true) := by
  delta Claims.Full Claims.NoFailure Claims.NoPend Claims.NoPrefix Claims.Reach Claims.Unpaired; refine ⟨?_, ?_, ?_, ?_, ?_⟩ <;> decide +kernel

theorem witness_TraceInstructions_1 :
    (let s := base |> (th fun c => { c with priv := 1 }); let d : Reg := 3; NoPrefix s ∧ Unpaired s ∧ NoFailure s ∧ NoPend s [d] ∧ s.th.priv ≠ 0) ∧
    (let s := base; let d : Reg := 3; NoPrefix s ∧ Unpaired s ∧ NoFailure s ∧
       (let home := match get? s.blocks s.th.blk with | some k => k.cluster | none => 0; NoPend s [d] ∧
       (s.die (if s.th.handler = 0 then home / 64 else s.hereDie)).knows = [])) ∧
    (let s := base; let a : Reg := 1; let d : Reg := 0; NoPrefix s ∧ Unpaired s ∧ NoFailure s ∧ (let x := s.th.wv a; NoPend s [d] ∧ Full s [a.toNat] ∧
       regionAt x.toNat ≠ .mesh ∧ x.toNat % 1 = 0 ∧ (∃ at_ ∈ hit (s.look s.hereCore s.here.ctx x.toNat .load), (let pa := at_.1; (let u := at_.2; True))))) ∧
    (let s := base |> (w [0, meshBase, 0]); let a : Reg := 1; let d : Reg := 4; NoPrefix s ∧ Unpaired s ∧ NoFailure s ∧ (let x := s.th.wv a; NoPend s [d] ∧
       Full s [a.toNat] ∧ regionAt x.toNat = .mesh)) ∧
    (let s := base |> (w [0, 2 ^ 40 - 1, 65536]); let a : Reg := 1; let b : Reg := 2; let d : Reg := 2; NoPrefix s ∧ Unpaired s ∧ NoFailure s ∧
       (let x := s.th.wv a; NoPend s [d] ∧ Full s [a.toNat, b.toNat] ∧ x.toNat % 1024 ≠ 0)) ∧
    (let s := base |> (w [0, 12288, 1]); let a : Reg := 1; let b : Reg := 2; let d : Reg := 1; NoPrefix s ∧ Unpaired s ∧ NoFailure s ∧ (let x := s.th.wv a;
       (let y := s.th.wv b; NoPend s [d] ∧ Full s [a.toNat, b.toNat] ∧ x.toNat % 1024 = 0 ∧ y.toNat % 64 ≠ 0))) ∧
    (let s := base; let a : Reg := 1; let b : Reg := 2; let d : Reg := 2; NoPrefix s ∧ Unpaired s ∧ NoFailure s ∧ (let x := s.th.wv a; (let y := s.th.wv b;
       NoPend s [d] ∧ Full s [a.toNat, b.toNat] ∧ x.toNat % 1024 = 0 ∧ y.toNat % 64 = 0 ∧ Settled s ∧ regionAt x.toNat ≠ .mesh ∧ x.toNat % 8 = 0 ∧
       (∃ at_ ∈ hit (s.look s.hereCore s.here.ctx x.toNat .load), ((let u := at_.2; u.flying = [])))))) ∧
    (let s := base; let p : Bool := false; let l : Bool := false; let a : Reg := 1; let b : Reg := 2; NoPrefix s ∧ Unpaired s ∧ NoFailure s ∧
       (let y := s.th.wv b; Full s [a.toNat, b.toNat] ∧ (p = true ∨ l = true → s.th.priv ≠ 0) ∧ (y = 0 ∨ 65536 < y.toNat))) := by
  delta Claims.Full Claims.NoFailure Claims.NoPend Claims.NoPrefix Claims.Settled Claims.Unpaired; refine ⟨?_, ?_, ?_, ?_, ?_, ?_, ?_, ?_⟩ <;> decide +kernel

theorem witness_TraceInstructions_2 :
    (let s := base |> (w [0, 12288, 1]) |> (th fun c => { c with priv := 1 }); let p : Bool := true; let l : Bool := false; let a : Reg := 1;
       let b : Reg := 2; NoPrefix s ∧ Unpaired s ∧ NoFailure s ∧ (let x := s.th.wv a; (let y := s.th.wv b; Full s [a.toNat, b.toNat] ∧
       (p = true ∨ l = true → s.th.priv ≠ 0) ∧ p = true ∧ x.toNat < 2 ^ 40 ∧ 1 ≤ y.toNat ∧ y.toNat ≤ 65536))) ∧
    (let s := base |> (w [0, 12288, 1]); let p : Bool := false; let l : Bool := false; let a : Reg := 1; let b : Reg := 2; NoPrefix s ∧ Unpaired s ∧
       NoFailure s ∧ (let x := s.th.wv a; (let y := s.th.wv b; Full s [a.toNat, b.toNat] ∧ (p = true ∨ l = true → s.th.priv ≠ 0) ∧ p = false ∧ y = 1 ∧
       s.th.marked = 0 ∧ regionAt x.toNat ≠ .mesh ∧ x.toNat % 1 = 0 ∧ (∃ at_ ∈ hit (s.look s.hereCore s.here.ctx x.toNat .load), (let pa := at_.1; (True)))))) := by
  delta Claims.Full Claims.NoFailure Claims.NoPrefix Claims.Unpaired; refine ⟨?_, ?_⟩ <;> decide +kernel

theorem witness_WaitEvents_1 :
    (let s := base; let ctx : Nat := 1280; let reg : Nat := 3; let wake : Nat := 0; let poison : Bool := false; let unit : Holder := Holder.core 0;
       NoReplay s ∧ (let x := s.ctx ctx; (let stands := HeldBy s ctx unit ∧ x.kind ≠ 12; stands ∧ poison = false ∧ wake ≠ 16 ∧ x.pair = 0 ∧ reg < 8 ∧
       x.kind ≠ 1 ∧ (wake = 0 ∨ x.kind.toNat ≠ wake ∧ x.peer = none)))) ∧
    (let s := base |> (store 64 5) |> (cx 1280 fun c => { c with kind := 1 }); let ctx : Nat := 1280; let reg : Nat := 7; let wake : Nat := 0;
       let poison : Bool := false; let unit : Holder := Holder.core 0; NoReplay s ∧ (let x := s.ctx ctx; (let stands := HeldBy s ctx unit ∧ x.kind ≠ 12;
       stands ∧ poison = false ∧ wake ≠ 16 ∧ x.pair = 0 ∧ reg < 8 ∧ x.kind = 1 ∧ wake = 0 ∧ Plain x))) ∧
    (let s := base |> (cx 1280 fun c => { c with kind := 5 }) |> (cx 1280 fun c => { c with pend := 8 }); let ctx : Nat := 1280; let reg : Nat := 3;
       let wake : Nat := 5; let poison : Bool := false; let unit : Holder := Holder.core 0; NoReplay s ∧ (let x := s.ctx ctx;
       (let stands := HeldBy s ctx unit ∧ x.kind ≠ 12; stands ∧ poison = false ∧ wake ≠ 16 ∧ x.pair = 0 ∧ reg < 8 ∧ wake ≠ 0 ∧ wake ≠ 1 ∧
       x.kind.toNat = wake ∧ Plain x))) ∧
    (let s := base; let ctx : Nat := 1280; let reg : Nat := 8; let wake : Nat := 0; let poison : Bool := false; let unit : Holder := Holder.core 0;
       NoReplay s ∧ (let x := s.ctx ctx; (let stands := HeldBy s ctx unit ∧ x.kind ≠ 12; stands ∧ poison = false ∧ wake ≠ 16 ∧ x.pair = 0 ∧ 8 ≤ reg ∧
       reg < 12 ∧ wake = 0 ∧ x.kind ≠ 1))) ∧
    (let s := base; let ctx : Nat := 1280; let reg : Nat := 7; let wake : Nat := 5; let poison : Bool := true; let unit : Holder := Holder.core 0;
       NoReplay s ∧ (let x := s.ctx ctx; (let stands := HeldBy s ctx unit ∧ x.kind ≠ 12; stands ∧ poison = true ∧ wake ≠ 16 ∧ reg < 8))) ∧
    (let s := base |> (cx 1280 fun c => { c with kind := 12 }); let ctx : Nat := 1280; let wake : Nat := 5; NoReplay s ∧ (let x := s.ctx ctx; x.kind = 12 ∧
       wake ≠ 16)) ∧
    (let s := base; let ctx : Nat := 1280; let wake : Nat := 5; let unit : Holder := Holder.memory; NoReplay s ∧ (let x := s.ctx ctx; ¬HeldBy s ctx unit ∧
       x.kind ≠ 12 ∧ wake ≠ 16 ∧ Reach s (holderDie (s.ctxHome ctx) unit) (s.ctxHome ctx))) ∧
    (let s := base; let ctx : Nat := 1280; let kind : Nat := 4; let arg : BitVec 60 := 0x80000000; let unit : Holder := Holder.core 0; NoReplay s ∧
       (let x := s.ctx ctx; (let stands := HeldBy s ctx unit ∧ x.kind ≠ 12; stands ∧ arg.getLsbD 30 = false ∧ x.kind.toNat ≠ kind ∧
       (kind ≠ 3 ∨ x.kind ≠ 0 ∨ x.quest = none)))) := by
  delta Claims.HeldBy Claims.NoReplay Claims.Plain Claims.Reach; refine ⟨?_, ?_, ?_, ?_, ?_, ?_, ?_, ?_⟩ <;> decide +kernel

theorem witness_WaitEvents_2 :
    (let s := base |> (cx 1280 fun c => { c with kind := 3, warg := BitVec.ofNat 60 (2 ^ 30 + 64) }); let ctx : Nat := 1280; let kind : Nat := 3;
       let arg : BitVec 60 := 0; let unit : Holder := Holder.core 0; NoReplay s ∧ (let x := s.ctx ctx; (let stands := HeldBy s ctx unit ∧ x.kind ≠ 12;
       stands ∧ arg.getLsbD 30 = false ∧ x.kind.toNat = kind ∧ arg.getLsbD 31 = false ∧ Plain x ∧ x.resend = none))) ∧
    (let s := base |> (cx 1280 fun c => { c with quest := some (5, 0, 0) }); let ctx : Nat := 1280; let kind : Nat := 3; let arg : BitVec 60 := 0;
       let unit : Holder := Holder.core 0; NoReplay s ∧ (let x := s.ctx ctx; (let stands := HeldBy s ctx unit ∧ x.kind ≠ 12; (∃ a ∈ x.quest, stands ∧
       arg.getLsbD 30 = false ∧ kind = 3 ∧ x.kind = 0)))) ∧
    (let s := base |> (cx 1280 fun c => { c with kind := 2, warg := 8 }); let ctx : Nat := 1280; let kind : Nat := 2; let arg : BitVec 60 := 0x40000000;
       let unit : Holder := Holder.core 0; NoReplay s ∧ (let x := s.ctx ctx; (let stands := HeldBy s ctx unit ∧ x.kind ≠ 12; stands ∧ arg.getLsbD 30 = true ∧
       x.kind.toNat = kind))) ∧
    (let s := base; let ctx : Nat := 1280; NoReplay s ∧ (let x := s.ctx ctx; x.kind ≠ 6 ∧ x.peer = none)) ∧
    (let s := base |> (cx 1280 fun c => { c with kind := 6 }); let ctx : Nat := 1280; NoReplay s ∧ (let x := s.ctx ctx; x.kind = 6 ∧ Plain x)) ∧
    (let s := base; let loc : Nat := 16; NoReplay s ∧ (let owner := loc / 65536; (let there := loc < 2 ^ 29; there ∧
       (s.nextWaiter loc (s.core owner).waiters).1 = none))) ∧
    (let s := base |> (core fun c => { c with waiters := [{ ctx := 1280, loc := 8, kind := 2, scope := 3 }] }); let loc : Nat := 8; NoReplay s ∧
       (let owner := loc / 65536; (let there := loc < 2 ^ 29; there ∧
       (∃ w ∈ (s.nextWaiter loc (s.core owner).waiters).1, Reach s (owner / 1024) (holderDie (s.ctxHome w.ctx) (s.centry w.ctx).holder))))) ∧
    (let s := base |> (store 8 1); let ctx : Nat := 1280; let loc : Nat := 8; NoReplay s ∧ (let owner := loc / 65536;
       (let home := holderDie (s.ctxHome ctx) (s.centry ctx).holder; (let there := loc < 2 ^ 29; (let word := readNat s.cstore loc 8; there ∧
       Reach s (owner / 1024) home ∧ word ≠ 0))))) := by
  delta Claims.HeldBy Claims.NoReplay Claims.Plain Claims.Reach; refine ⟨?_, ?_, ?_, ?_, ?_, ?_, ?_, ?_⟩ <;> decide +kernel

theorem witness_WaitEvents_3 :
    (let s := base; let ctx : Nat := 1280; let loc : Nat := 64; NoReplay s ∧ (let x := s.ctx ctx; (let owner := loc / 65536;
       (let home := holderDie (s.ctxHome ctx) (s.centry ctx).holder; (let there := loc < 2 ^ 29; (let word := readNat s.cstore loc 8; there ∧
       Reach s (owner / 1024) home ∧ word = 0 ∧ x.kind ≠ 2)))))) ∧
    (let s := base |> (cx 1280 fun c => { c with kind := 2, warg := 8, resend := some 3 }); let ctx : Nat := 1280; let loc : Nat := 16; NoReplay s ∧
       (let x := s.ctx ctx; (let owner := loc / 65536; (let home := holderDie (s.ctxHome ctx) (s.centry ctx).holder; (let there := loc < 2 ^ 29;
       (let word := readNat s.cstore loc 8; there ∧ Reach s (owner / 1024) home ∧ word = 0 ∧ x.kind = 2 ∧ (s.core owner).waiters.length < 256)))))) ∧
    (let s := base |> (core fun c => { c with waiters := List.replicate 256 { ctx := 1, loc := 1, kind := 2 } }) |> (cx 1280 fun c => { c with kind := 2, warg := 8, resend := some 3 });
       let ctx : Nat := 1280; let loc : Nat := 8; NoReplay s ∧ (let x := s.ctx ctx; (let owner := loc / 65536;
       (let home := holderDie (s.ctxHome ctx) (s.centry ctx).holder; (let there := loc < 2 ^ 29; (let word := readNat s.cstore loc 8; there ∧
       Reach s (owner / 1024) home ∧ word = 0 ∧ x.kind = 2 ∧ 256 ≤ (s.core owner).waiters.length)))))) ∧
    (let s := base; let ctx : Nat := 1280; NoReplay s ∧ (let x := s.ctx ctx; (x.resend = none ∨ x.kind ≠ 2))) ∧
    (let s := base |> (cx 1280 fun c => { c with kind := 2, warg := 8, resend := some 3 }); let ctx : Nat := 1280; NoReplay s ∧ (let x := s.ctx ctx;
       (let home := holderDie (s.ctxHome ctx) (s.centry ctx).holder; (∃ sc ∈ x.resend, x.kind = 2 ∧ Reach s home (x.warg.toNat % 2 ^ 29 / 65536 / 1024))))) := by
  delta Claims.NoReplay Claims.Reach; refine ⟨?_, ?_, ?_, ?_, ?_⟩ <;> decide +kernel

theorem witness_CounterEvents_1 :
    (let s := base; let loc : Nat := 536870911; NoReplay s ∧ (let there := loc < 2 ^ 29; there ∧ Clean s (storePlace + loc) 24)) ∧
    (let s := base; let ctx : Nat := 1280; NoReplay s ∧ (let x := s.ctx ctx; x.kind ≠ 3)) ∧
    (let s := base |> (cx 1280 fun c => { c with kind := 3, warg := BitVec.ofNat 60 (2 ^ 30 + 64) }); let ctx : Nat := 1280; NoReplay s ∧
       (let x := s.ctx ctx; (let home := holderDie (s.ctxHome ctx) (s.centry ctx).holder; x.kind = 3 ∧ Reach s home (x.warg.toNat % 2 ^ 29 / 65536 / 1024)))) ∧
    (let s := base; let ctx : Nat := 1280; let loc : Nat := 8; let thr : Nat := 2; NoReplay s ∧ (let owner := loc / 65536;
       (let home := holderDie (s.ctxHome ctx) (s.centry ctx).holder; (let there := loc < 2 ^ 29; (let word := readNat s.cstore loc 8;
       (let fault := readNat s.cstore (loc + 16) 8; (let met := sgn false (BitVec.ofNat 64 word) ≤ (thr : Int); there ∧ Reach s (owner / 1024) home ∧
       (fault ≠ 0 ∨ met)))))))) ∧
    (let s := base |> (core fun c => { c with waiters := [{ ctx := 1280, loc := 8, kind := 5, reg := 3, tag := true, deadline := some 5 }] }) |> (cx 1280 fun c => { c with quest := some (5, 1, 1) }) |> (store 64 5);
       let ctx : Nat := 1280; let loc : Nat := 64; let id : Nat := 5; let thr : Nat := 2; NoReplay s ∧ (let x := s.ctx ctx; (let owner := loc / 65536;
       (let home := holderDie (s.ctxHome ctx) (s.centry ctx).holder; (let there := loc < 2 ^ 29; (let word := readNat s.cstore loc 8;
       (let fault := readNat s.cstore (loc + 16) 8; (let met := sgn false (BitVec.ofNat 64 word) ≤ (thr : Int);
       (let asks := fun i : Nat => (x.quest.any fun y => y.1 == i) = true; there ∧ Reach s (owner / 1024) home ∧ fault = 0 ∧ ¬met ∧ asks id))))))))) ∧
    (let s := base; let ctx : Nat := 1280; let loc : Nat := 64; let thr : Nat := 2; NoReplay s ∧ (let owner := loc / 65536;
       (let home := holderDie (s.ctxHome ctx) (s.centry ctx).holder; (let there := loc < 2 ^ 29; (let word := readNat s.cstore loc 8;
       (let met := sgn false (BitVec.ofNat 64 word) ≤ (thr : Int); there ∧ Reach s (owner / 1024) home ∧ met)))))) ∧
    (let s := base |> (cx 1280 fun c => { c with quest := some (5, 1, 1) }) |> (store 64 5) |> (cx 1280 fun c => { c with kind := 3, warg := BitVec.ofNat 60 (2 ^ 30 + 64) });
       let ctx : Nat := 1280; let loc : Nat := 64; let thr : Nat := 2; NoReplay s ∧ (let x := s.ctx ctx; (let owner := loc / 65536;
       (let home := holderDie (s.ctxHome ctx) (s.centry ctx).holder; (let there := loc < 2 ^ 29; (let word := readNat s.cstore loc 8;
       (let met := sgn false (BitVec.ofNat 64 word) ≤ (thr : Int); there ∧ Reach s (owner / 1024) home ∧ ¬met ∧ x.kind = 3))))))) ∧
    (let s := base |> (cx 1280 fun c => { c with quest := some (5, 1, 1) }); let ctx : Nat := 1280; let id : Nat := 5; let h : Holder := Holder.core 0;
       NoReplay s ∧ (let x := s.ctx ctx; (let stands := HeldBy s ctx h ∧ x.kind ≠ 12; (let asks := fun i : Nat => (x.quest.any fun y => y.1 == i) = true;
       stands ∧ asks id)))) := by
  delta Claims.Clean Claims.HeldBy Claims.NoReplay Claims.Reach; refine ⟨?_, ?_, ?_, ?_, ?_, ?_, ?_, ?_⟩ <;> decide +kernel

theorem witness_CounterEvents_2 :
    (let s := base; let ctx : Nat := 1280; let id : Nat := 4; let h : Holder := Holder.core 0; NoReplay s ∧ (let x := s.ctx ctx;
       (let stands := HeldBy s ctx h ∧ x.kind ≠ 12; (let asks := fun i : Nat => (x.quest.any fun y => y.1 == i) = true; stands ∧ ¬asks id)))) ∧
    (let s := base |> (cx 1280 fun c => { c with quest := some (5, 1, 1) }) |> (cx 1280 fun c => { c with kind := 2, warg := 8, resend := some 3 });
       let ctx : Nat := 1280; let id : Nat := 5; let h : Holder := Holder.core 0; NoReplay s ∧ (let x := s.ctx ctx;
       (let stands := HeldBy s ctx h ∧ x.kind ≠ 12; stands ∧ (∃ y ∈ x.quest, y.1 = id ∧ y.2.2 = 1)))) ∧
    (let s := base |> (cx 1280 fun c => { c with quest := some (5, 1, 0) }); let ctx : Nat := 1280; let id : Nat := 5; let h : Holder := Holder.core 0;
       NoReplay s ∧ (let x := s.ctx ctx; (let stands := HeldBy s ctx h ∧ x.kind ≠ 12; stands ∧ (∃ y ∈ x.quest, y.1 = id ∧ y.2.2 ≠ 1)))) ∧
    (let s := base; let c : Nat := 0; let cluster : Nat := 9; NoReplay s ∧ c < (s.cluster cluster).chunks.length) ∧
    (let s := base |> (clus fun c => { c with chunks := List.replicate 16 { total := 1000, remaining := 300, parts := 4, least := 3 } });
       let ctx : Nat := 1280; let c : Nat := 15; let cluster : Nat := 0; NoReplay s ∧ (let home := holderDie (s.ctxHome ctx) (s.centry ctx).holder;
       c < (s.cluster cluster).chunks.length ∧ (∃ k ∈ (s.cluster cluster).chunks[c]?, Reach s (cluster / 64) home ∧ 0 < k.parts))) ∧
    (let s := base; let loc : Nat := 64; NoReplay s ∧ (let there := loc < 2 ^ 29; there)) ∧
    (let s := base; let ctx : Nat := 1280; NoReplay s ∧ (let x := s.ctx ctx; x.kind ≠ 5)) ∧
    (let s := base |> (cx 1280 fun c => { c with kind := 5 }); let ctx : Nat := 1280; let loc : Nat := 0; let unit : Nat := 0; let ver : Nat := 16 * 10;
       let inCore : Bool := false; NoReplay s ∧ (let x := s.ctx ctx; (let owner := loc / 65536; (let there := loc < 2 ^ 29;
       (let home_ := if inCore then owner / 1024 else s.homeDie (setOf s.mode unit) loc; (let stale := inCore = false ∧ ver ≠ 0 ∧ home_ + 1 ≠ ver / 16;
       x.kind = 5 ∧ (inCore = true → there) ∧ stale ∧ Reach s (ver / 16 - 1) unit)))))) := by
  delta Claims.HeldBy Claims.NoReplay Claims.Reach; refine ⟨?_, ?_, ?_, ?_, ?_, ?_, ?_, ?_⟩ <;> decide +kernel

theorem witness_CounterEvents_3 :
    (let s := base |> (cx 1280 fun c => { c with kind := 5 }); let ctx : Nat := 1280; let loc : Nat := 64; let unit : Nat := 0; let ver : Nat := 16 * 9;
       let inCore : Bool := false; let v : Word := 5; NoReplay s ∧ (let x := s.ctx ctx; (let owner := loc / 65536;
       (let home := holderDie (s.ctxHome ctx) (s.centry ctx).holder; (let there := loc < 2 ^ 29;
       (let home_ := if inCore then owner / 1024 else s.homeDie (setOf s.mode unit) loc; (let stale := inCore = false ∧ ver ≠ 0 ∧ home_ + 1 ≠ ver / 16;
       (let now := readNat (if inCore then s.cstore else s.mem) loc 8; x.kind = 5 ∧ (inCore = true → there) ∧ ¬stale ∧ Reach s home_ home ∧
       now ≠ v.toNat)))))))) ∧
    (let s := base |> (cx 1280 fun c => { c with kind := 2, warg := 8, resend := some 3 }) |> (core fun c => { c with waiters := List.replicate 256 { ctx := 1, loc := 1, kind := 2 } }) |> (cx 1280 fun c => { c with kind := 5 });
       let ctx : Nat := 1280; let loc : Nat := 64; let unit : Nat := 0; let ver : Nat := 16 * 9; let inCore : Bool := true; let v : Word := 0; NoReplay s ∧
       (let x := s.ctx ctx; (let owner := loc / 65536; (let home := holderDie (s.ctxHome ctx) (s.centry ctx).holder; (let there := loc < 2 ^ 29;
       (let home_ := if inCore then owner / 1024 else s.homeDie (setOf s.mode unit) loc; (let stale := inCore = false ∧ ver ≠ 0 ∧ home_ + 1 ≠ ver / 16;
       (let now := readNat (if inCore then s.cstore else s.mem) loc 8;
       (let full := if inCore then 256 ≤ (s.core owner).waiters.length else 16384 ≤ (s.die home_).watches.length; x.kind = 5 ∧ (inCore = true → there) ∧
       ¬stale ∧ Reach s home_ home ∧ now = v.toNat ∧ full))))))))) ∧
    (let s := base |> (cx 1280 fun c => { c with kind := 5 }); let ctx : Nat := 1280; let loc : Nat := 0; let unit : Nat := 0; let ver : Nat := 0;
       let inCore : Bool := false; let v : Word := 0; NoReplay s ∧ (let x := s.ctx ctx; (let owner := loc / 65536;
       (let home := holderDie (s.ctxHome ctx) (s.centry ctx).holder; (let there := loc < 2 ^ 29;
       (let home_ := if inCore then owner / 1024 else s.homeDie (setOf s.mode unit) loc; (let stale := inCore = false ∧ ver ≠ 0 ∧ home_ + 1 ≠ ver / 16;
       (let now := readNat (if inCore then s.cstore else s.mem) loc 8;
       (let full := if inCore then 256 ≤ (s.core owner).waiters.length else 16384 ≤ (s.die home_).watches.length; x.kind = 5 ∧ (inCore = true → there) ∧
       ¬stale ∧ Reach s home_ home ∧ now = v.toNat ∧ ¬full))))))))) ∧
    (let s := base; NoReplay s) ∧
    (let s := base |> (core fun c => { c with waiters := [{ ctx := 1280, loc := 8, kind := 5, reg := 3, tag := true, deadline := some 5 }] });
       let ctx : Nat := 1280; let core : Nat := 0; NoReplay s ∧ (let home := holderDie (s.ctxHome ctx) (s.centry ctx).holder;
       (let mine := fun w : Waiter => w.kind == 5 && w.ctx == ctx && w.dead == false;
       (∃ w ∈ (s.core core).waiters.find? mine, ((s.cores.all fun k => k.1 == core || !k.2.waiters.any mine) = true) ∧ Reach s (core / 1024) home)))) ∧
    (let s := base |> (die 9 fun d => { d with watches := [{ ctx := 1280, loc := 8, kind := 5, reg := 3, tag := true, deadline := some 5 }] });
       let ctx : Nat := 1280; let cluster : Nat := 9; NoReplay s ∧ (let home := holderDie (s.ctxHome ctx) (s.centry ctx).holder;
       (let mine := fun w : Waiter => w.kind == 5 && w.ctx == ctx && w.dead == false;
       (∃ w ∈ (s.die cluster).watches.find? mine, (s.cores.all fun k => !k.2.waiters.any mine) = true ∧
       ((s.dies.all fun k => k.1 == cluster || !k.2.watches.any mine) = true) ∧ Reach s cluster home)))) := by
  delta Claims.NoReplay Claims.Reach; refine ⟨?_, ?_, ?_, ?_, ?_, ?_⟩ <;> decide +kernel

theorem witness_MemoryEvents_1 :
    (let s := base |> (dirE 0 { st := .s, dies := 1, sharers := [0], has := [(0, 15)] });
       let r : Req := { ctx := 1280, core := 0, kind := .load, addr := 8, size := 8, reg := 3 }; NoReplay s ∧ (let own := dieOf r.core;
       (let k := clusterOf r.core; (let e := s.line (r.addr / 192); (let draining := s.bankDraining k (r.addr / 192) = true;
       (let served := e.serves own (sectorMask r) = true; (let plain := r.size = 1 ∨ r.size = 2 ∨ r.size = 4 ∨ r.size = 8; r.kind = .load ∧ plain ∧
       r.reg < 12 ∧ Sound s r.ctx r.addr r.size ∧ r.ver = 0 ∧ ¬draining ∧ served ∧ s.copyPoisoned own r = false))))))) ∧
    (let s := base; let r : Req := { ctx := 1280, core := 0, kind := .load, addr := 8, size := 8, reg := 3 }; NoReplay s ∧ (let own := dieOf r.core;
       (let k := clusterOf r.core; (let e := s.line (r.addr / 192); (let home := s.homeDie (setOf s.mode own) r.addr;
       (let draining := s.bankDraining k (r.addr / 192) = true; (let served := e.serves own (sectorMask r) = true;
       (let plain := r.size = 1 ∨ r.size = 2 ∨ r.size = 4 ∨ r.size = 8; r.kind = .load ∧ plain ∧ r.reg < 12 ∧ Sound s r.ctx r.addr r.size ∧ r.ver = 0 ∧
       ¬draining ∧ ¬served ∧ Reach s own home)))))))) ∧
    (let s := base; let r : Req := { ctx := 1280, core := 0, kind := .load, addr := 8, size := 8, reg := 11, ver := 16 * 9 }; NoReplay s ∧
       (let own := dieOf r.core; (let home := s.homeDie (setOf s.mode own) r.addr; (let stale := r.ver ≠ 0 ∧ home + 1 ≠ r.ver / 16;
       (let plain := r.size = 1 ∨ r.size = 2 ∨ r.size = 4 ∨ r.size = 8; r.kind = .load ∧ plain ∧ r.reg < 12 ∧ Sound s r.ctx r.addr r.size ∧ r.ver ≠ 0 ∧
       ¬stale ∧ Reach s home own))))) ∧
    (let s := base; let r : Req := { ctx := 1280, core := 0, kind := .load, addr := 8, size := 8, ver := 16 * 10 }; NoReplay s ∧ (let own := dieOf r.core;
       (let home := s.homeDie (setOf s.mode own) r.addr; (let stale := r.ver ≠ 0 ∧ home + 1 ≠ r.ver / 16; r.ver ≠ 0 ∧ stale ∧ Reach s (r.ver / 16 - 1) own)))) ∧
    (let s := base |> (clus fun c => { c with drains := [⟨2, .cache, 1152, 0, false, 0, 0⟩] });
       let r : Req := { ctx := 1280, core := 0, kind := .load, addr := 8, size := 8, reg := 3 }; NoReplay s ∧ (let k := clusterOf r.core;
       (let draining := s.bankDraining k (r.addr / 192) = true; draining ∧ r.ver = 0))) ∧
    (let s := base |> (clus fun c => { c with drains := [⟨2, .cache, 1152, 0, false, 0, 0⟩] });
       let r : Req := { ctx := 1280, core := 0, kind := .load, addr := 8, size := 8, reg := 3 }; NoReplay s ∧ (let k := clusterOf r.core;
       (let draining := s.bankDraining k (r.addr / 192) = true; draining))) ∧
    (let s := base |> (dirE 0 { st := .m, dies := 1, owner := some 0, cluster := some 0, sharers := [0] });
       let r : Req := { ctx := 1280, core := 0, kind := .store, addr := 8, size := 8, data := 9 }; NoReplay s ∧ (let own := dieOf r.core;
       (let k := clusterOf r.core; (let e := s.line (r.addr / 192); (let draining := s.bankDraining k (r.addr / 192) = true;
       (let mine := e.st = .m ∧ e.owner = some own ∧ own ∉ e.await; (let fresh := e.gen = s.unitGen (setOf s.mode own) (64 + k); ¬draining ∧ mine ∧
       r.addr / 12288 < 2 ^ 26 ∧ fresh ∧ Sound s r.ctx r.addr r.size))))))) ∧
    (let s := base |> (dirE 0 { st := .e, dies := 1, sharers := [0] });
       let r : Req := { ctx := 1280, core := 0, kind := .load, addr := 8, size := 8, reg := 11, ver := 16 * 9 }; NoReplay s ∧ (let own := dieOf r.core;
       (let k := clusterOf r.core; (let e := s.line (r.addr / 192); (let home := s.homeDie (setOf s.mode own) r.addr;
       (let draining := s.bankDraining k (r.addr / 192) = true; (let sole := e.st = .e ∧ e.dies = 1#8 <<< own;
       (let mine := e.st = .m ∧ e.owner = some own ∧ own ∉ e.await; (let fresh := e.gen = s.unitGen (setOf s.mode own) (64 + k); ¬draining ∧ (sole ∨ mine ∧
       r.addr / 12288 < 2 ^ 26 ∧ ¬fresh) ∧ Reach s own home))))))))) := by
  delta Claims.NoReplay Claims.Reach Claims.Sound; refine ⟨?_, ?_, ?_, ?_, ?_, ?_, ?_, ?_⟩ <;> decide +kernel

theorem witness_MemoryEvents_2 :
    (let s := base; let r : Req := { ctx := 1280, core := 0, kind := .load, addr := 8, size := 8, reg := 11, ver := 16 * 9 }; NoReplay s ∧
       (let own := dieOf r.core; (let k := clusterOf r.core; (let e := s.line (r.addr / 192); (let home := s.homeDie (setOf s.mode own) r.addr;
       (let draining := s.bankDraining k (r.addr / 192) = true; (let sole := e.st = .e ∧ e.dies = 1#8 <<< own;
       (let mine := e.st = .m ∧ e.owner = some own ∧ own ∉ e.await; ¬draining ∧ e.st ≠ .lost ∧ ¬mine ∧ ¬sole ∧ Reach s own home)))))))) ∧
    (let s := base; let r : Req := { ctx := 1280, core := 0, kind := .store, addr := 8, size := 8, data := 9 }; NoReplay s ∧ (let there := r.addr < 2 ^ 29;
       there ∧ r.kind = .store)) ∧
    (let s := base; let r : Req := { ctx := 1280, core := 0, kind := .storeTs, addr := 8, size := 2, data := 9 }; NoReplay s ∧ (let own := dieOf r.core;
       (let owner := r.addr / 65536; (let there := r.addr < 2 ^ 29; there ∧ r.kind = .storeTs ∧ Reach s (owner / 1024) own)))) ∧
    (let s := base; let r : Req := { ctx := 1280, core := 0, kind := .load, addr := 8, size := 8, reg := 3 }; NoReplay s ∧ (let own := dieOf r.core;
       (let owner := r.addr / 65536; (let there := r.addr < 2 ^ 29; (let plain := r.size = 1 ∨ r.size = 2 ∨ r.size = 4 ∨ r.size = 8; there ∧ r.kind = .load ∧
       plain ∧ r.reg < 12 ∧ Clean s (storePlace + r.addr) r.size ∧ Reach s (owner / 1024) own))))) ∧
    (let s := base; let r : Req := { ctx := 1280, core := 0, kind := .nibStore true, addr := 8, size := 1, data := 9 }; let hi : Bool := true; NoReplay s ∧
       (let there := r.addr < 2 ^ 29; there ∧ r.kind = .nibStore hi)) ∧
    (let s := base; let r : Req := { ctx := 1280, core := 0, kind := .nibStore true, addr := 8, size := 1, data := 9 }; let hi : Bool := true; NoReplay s ∧
       (let own := dieOf r.core; (let home := s.homeDie (setOf s.mode own) r.addr; (let stale := r.ver ≠ 0 ∧ home + 1 ≠ r.ver / 16; ¬stale ∧
       Sound s r.ctx r.addr 1 ∧ r.kind = .nibStore hi)))) ∧
    (let s := base; let r : Req := { ctx := 1280, core := 3, kind := .store, addr := 8, size := 4, data := 9 }; let inCore : Bool := false; NoReplay s ∧
       (let own := dieOf r.core; (let home := s.homeDie (setOf s.mode own) r.addr; (let stale := r.ver ≠ 0 ∧ home + 1 ≠ r.ver / 16;
       (let owner := r.addr / 65536; (let there := r.addr < 2 ^ 29; r.kind = .store ∧ (inCore = true → there ∧ Clean s (storePlace + r.addr) r.size) ∧
       (inCore = false → ¬stale ∧ Sound s r.ctx r.addr r.size) ∧ (r.size = 4 ∨ r.size = 8) ∧ r.data < 2 ^ (8 * r.size) ∧ r.signed = false ∧ r.reg < 12 ∧
       Reach s (if inCore then owner / 1024 else home) own)))))) ∧
    (let s := base; NoReplay s) := by
  delta Claims.Clean Claims.NoReplay Claims.Reach Claims.Sound; refine ⟨?_, ?_, ?_, ?_, ?_, ?_, ?_, ?_⟩ <;> decide +kernel

theorem witness_MemoryEvents_3 :
    (let s := base; let r : Req := { ctx := 1280, core := 0, kind := .load, addr := 8, size := 8, ver := 16 * 10 }; NoReplay s ∧ (let own := dieOf r.core;
       (let home := s.homeDie (setOf s.mode own) r.addr; Reach s own home))) ∧
    (let s := base; let n : Nat := 0; NoReplay s ∧ s.held[n]? = none) ∧
    (let s := base |> (fun s => { s with held := [⟨.storeVisible { ctx := 1280, core := 0, kind := .store, addr := 8, size := 8, data := 9 }, 1152, 0, 3, []⟩] });
       let n : Nat := 0; NoReplay s ∧ (∃ h ∈ s.held[n]?, Reach s (dieOf h.core) (s.route h.ev).1)) ∧
    (let s := base; let unit : Nat := 0; let loc : Nat := 0; NoReplay s ∧
       ((s.parts.any fun p => p.2.rplHeld.any fun x => x.1 == unit && x.2.1 == loc) = false)) ∧
    (let s := base; let line : Nat := 0; let cluster : Nat := 64; let ver : Nat := 2; NoReplay s ∧
       (let moved := ver ≠ 0 ∧ s.homeDie (setOf s.mode (cluster / 64)) (192 * line) + 1 ≠ ver / 16; moved ∧ Reach s (ver / 16 - 1) (cluster / 64))) ∧
    (let s := base; let line : Nat := 1; let cluster : Nat := 64; let n : Nat := 0; let ver : Nat := 1; NoReplay s ∧
       (let moved := ver ≠ 0 ∧ s.homeDie (setOf s.mode (cluster / 64)) (192 * line) + 1 ≠ ver / 16; moved ∧ Reach s (ver / 16 - 1) (cluster / 64) ∧
       n = setOf s.mode (cluster / 64))) ∧
    (let s := base |> (dirE 0 { st := .lost }); let line : Nat := 0; let cluster : Nat := 64; let ver : Nat := 0; NoReplay s ∧ (let l := s.line line;
       (let moved := ver ≠ 0 ∧ s.homeDie (setOf s.mode (cluster / 64)) (192 * line) + 1 ≠ ver / 16; ¬moved ∧ l.st = .lost))) ∧
    (let s := base; let r : Req := { ctx := 1280, core := 0, kind := .store, addr := 8, size := 8, data := 9 }; let line : Nat := 0;
       let cluster : Nat := 0; let ver : Nat := 0; NoReplay s ∧ (let e := s.line (r.addr / 192); (let l := s.line line;
       (let holds := fun (e : DirEntry) (d : Nat) => e.dies.getLsbD d = true ∨ e.owner = some d;
       (let moved := ver ≠ 0 ∧ s.homeDie (setOf s.mode (cluster / 64)) (192 * line) + 1 ≠ ver / 16; ¬moved ∧ l.st ≠ .lost ∧
       (∀ d < 8, d ≠ cluster / 64 → ¬holds l d) ∧ Reach s (s.homeDie (setOf s.mode (cluster / 64)) (192 * line)) (cluster / 64)))))) := by
  delta Claims.NoReplay Claims.Reach; refine ⟨?_, ?_, ?_, ?_, ?_, ?_, ?_, ?_⟩ <;> decide +kernel

theorem witness_MemoryEvents_4 :
    (let s := base |> (dirE 0 { st := .e, dies := 1, sharers := [0] });
       let r : Req := { ctx := 1280, core := 0, kind := .nibStore true, addr := 8, size := 1, data := 9 }; let line : Nat := 0; let cluster : Nat := 64;
       let n : Nat := 0; let ver : Nat := 0; NoReplay s ∧ (let e := s.line (r.addr / 192); (let l := s.line line;
       (let holds := fun (e : DirEntry) (d : Nat) => e.dies.getLsbD d = true ∨ e.owner = some d;
       (let moved := ver ≠ 0 ∧ s.homeDie (setOf s.mode (cluster / 64)) (192 * line) + 1 ≠ ver / 16; ¬moved ∧ l.st ≠ .lost ∧ n < 8 ∧ n ≠ cluster / 64 ∧
       holds l n ∧ Reach s (s.homeDie (setOf s.mode (cluster / 64)) (192 * line)) n))))) ∧
    (let s := base; let line : Nat := 1; NoReplay s ∧ (let l := s.line line; l.st ≠ .lost)) ∧
    (let s := base |> (dirE 0 { st := .lost }); let line : Nat := 0; NoReplay s ∧ (let l := s.line line; l.st = .lost)) ∧
    (let s := base; let line : Nat := 1; let die : Nat := 1; NoReplay s ∧ die < 8 ∧ Reach s die (s.homeDie (setOf s.mode die) (192 * line))) ∧
    (let s := base; let m : Nat := 0; NoReplay s ∧ m < 16) ∧
    (let s := base; let m : Nat := 17; NoReplay s ∧ 16 ≤ m ∧ m < 32) ∧
    (let s := base; let line : Nat := 0; let cluster : Nat := 64; let n : Nat := 0; let ver : Nat := 0; NoReplay s ∧
       (let moved := ver ≠ 0 ∧ s.homeDie (setOf s.mode (cluster / 64)) (192 * line) + 1 ≠ ver / 16; n = setOf s.mode (cluster / 64) ∧ ¬moved)) := by
  delta Claims.NoReplay Claims.Reach; refine ⟨?_, ?_, ?_, ?_, ?_, ?_, ?_⟩ <;> decide +kernel

theorem witness_BarrierEvents_1 :
    (let s := base; let die : Nat := 8; let link : Nat := 2; (let d := s.die die; d.tokens = [] ∧ (d.fwd.filter fun v => v.1 == link) = [] ∧
       (∃ p ∈ linkPeer die link, Reach s die p))) ∧
    (let s := base; let die : Nat := 0; let link : Nat := 2; let round : Nat := 4; (let d := s.die die; d.roundsOpen.contains (link, round) = false)) ∧
    (let s := base |> (die 0 fun d => { d with roundsOpen := [(1, 4)] }); let die : Nat := 0; let link : Nat := 1; let round : Nat := 4;
       (let d := s.die die; d.roundsOpen.contains (link, round) = true ∧ (s.link die link).posted = false)) ∧
    (let s := base; let die : Nat := 0; let link : Nat := 1; (let d := s.die die; (let open_ := d.roundsOpen.any fun v => v.1 == link;
       ((s.link die link).posted = false ∨ open_ = true)))) ∧
    (let s := base |> (lnk 0 1 fun l => { l with posted := true }); let die : Nat := 0; let link : Nat := 1; (let d := s.die die;
       (let open_ := d.roundsOpen.any fun v => v.1 == link; (s.link die link).posted = true ∧ open_ = false ∧ (linkPeer die link).isSome = true))) ∧
    (let s := base |> (core fun c => { c with bars := List.replicate 4 { cfg := true, count := 1, wd := 1, ht := 1, aborted := some 77 } });
       let core : Nat := 0; let n : Nat := 0; let column : Bool := false; (let b := s.bar core n;
       (let coming := fun (q : State) (k : Nat) => (q.inbox.any fun e => match e with | .barrierAbort c m _ => c == k && m == n | _ => false) = true;
       (let gone := fun (k : Nat) => (s.bar k n).aborted ≠ none ∨ coming s k;
       (let sender := coreAt (dieOf core) (if column then xOf core else xOf core - 1) (if column then yOf core - 1 else yOf core); b.aborted ≠ none ∧
       gone sender))))) ∧
    (let s := base; let core : Nat := 3; let n : Nat := 3; let column : Bool := false; (let b := s.bar core n;
       (let real := n < (s.core core).bars.length ∧ core < 8192;
       (let coming := fun (q : State) (k : Nat) => (q.inbox.any fun e => match e with | .barrierAbort c m _ => c == k && m == n | _ => false) = true;
       (let gone := fun (k : Nat) => (s.bar k n).aborted ≠ none ∨ coming s k;
       (let sender := coreAt (dieOf core) (if column then xOf core else xOf core - 1) (if column then yOf core - 1 else yOf core); real ∧
       (b.aborted = none ∨ ¬gone sender))))))) ∧
    (let s := base |> (core fun c => { c with bars := List.replicate 4 { cfg := true, count := 1, wd := 1, ht := 1 } }); let core : Nat := 0;
       let n : Nat := 3; (let b := s.bar core n; (let real := n < (s.core core).bars.length ∧ core < 8192; real ∧ b.cfg = true ∧ b.aborted = none))) := by
  delta Claims.Reach; refine ⟨?_, ?_, ?_, ?_, ?_, ?_, ?_, ?_⟩ <;> decide +kernel

theorem witness_BarrierEvents_2 :
    (let s := base; let core : Nat := 0; let n : Nat := 3; (let b := s.bar core n; (b.aborted ≠ none ∨ b.cfg = false))) ∧
    (let s := base |> (core fun c => { c with bars := List.replicate 4 { cfg := true, count := 1, wd := 1, ht := 1, aborted := some 77 } });
       let core : Nat := 0; let n : Nat := 0; (let b := s.bar core n; b.aborted ≠ none)) ∧
    (let s := base; let core : Nat := 0; let n : Nat := 0; (let b := s.bar core n; (let real := n < (s.core core).bars.length ∧ core < 8192; real ∧
       b.aborted = none ∧ NoProfile s))) := by
  delta Claims.NoProfile; refine ⟨?_, ?_, ?_⟩ <;> decide +kernel

theorem witness_CommandEvents_1 :
    (let s := base |> (clus fun c => { c with inq := List.replicate 256 (task 0x80) }); let c : Cmd := cmd 0x82; NoReplay s ∧
       (let room := 256 + 2048 * (s.cluster c.cluster).fifoBanks.length; Reach s (c.cluster / 64) (dieOf c.core) ∧ room ≤ (s.cluster c.cluster).inq.length)) ∧
    (let s := base; let c : Cmd := cmd 0x81; NoReplay s ∧ (let room := 256 + 2048 * (s.cluster c.cluster).fifoBanks.length;
       Reach s (c.cluster / 64) (dieOf c.core) ∧ (s.cluster c.cluster).inq.length < room ∧ (s.judge c).toOption.isSome = false)) ∧
    (let s := base |> (fun s => { s with tiles := [(3, tile)], poison := [(tilePlace + 3 * 2 ^ 16) / 8] } |> clus (fun c => { c with tasks := [(0, { task 0x00 with rd := [(true, 3, 0, 4)] })] })) |> (fun s => { s with launches := [(7, { launch with flags := 8 })] });
       let c : Cmd := cmd 0x81; NoReplay s ∧ (let room := 256 + 2048 * (s.cluster c.cluster).fifoBanks.length; Reach s (c.cluster / 64) (dieOf c.core) ∧
       (s.cluster c.cluster).inq.length < room ∧ (s.judge c).toOption.isSome = true)) ∧
    (let s := base; let c : Cmd := cmd 0x81; NoReplay s ∧ (let room := 256 + 2048 * (s.cluster c.cluster).fifoBanks.length;
       Reach s (c.cluster / 64) (dieOf c.core) ∧ (s.cluster c.cluster).inq.length < room ∧ c.op = 0x81 ∧ s.tileRef c.blk 0 (c.wa.toNat % 2 ^ 32) true = none)) ∧
    (let s := base; NoReplay s) ∧
    (let s := base; let ctx : Nat := 1280; let op : Nat := 0; NoReplay s ∧ (let x := s.ctx ctx; x.pair ≠ 1 ∧ x.kind ≠ 11 ∧ x.kind ≠ 12 ∧ op ≠ 0x82)) ∧
    (let s := base; let ctx : Nat := 1280; let reg : Nat := 3; NoReplay s ∧ (let x := s.ctx ctx; x.pair ≠ 1 ∧ x.kind ≠ 11 ∧ x.kind ≠ 12 ∧ reg < 8)) ∧
    (let s := base; let ctx : Nat := 1280; NoReplay s ∧ (let x := s.ctx ctx; x.pair ≠ 1 ∧ x.kind ≠ 11 ∧ x.kind ≠ 12 ∧ x.kind = 0 ∧
       (s.centry ctx).holder = .core 0 ∧ (s.core 0).hctxM ≠ some ctx ∧ (s.core 0).hctxS ≠ some ctx ∧ NoProfile s)) := by
  delta Claims.NoProfile Claims.NoReplay Claims.Reach; refine ⟨?_, ?_, ?_, ?_, ?_, ?_, ?_, ?_⟩ <;> decide +kernel

theorem witness_CommandEvents_2 :
    (let s := base; let ctx : Nat := 1280; let kind : Nat := 2; NoReplay s ∧ (let x := s.ctx ctx; x.pair ≠ 1 ∧ x.kind ≠ 11 ∧ x.kind ≠ 12 ∧ 2 ≤ kind ∧
       NoProfile s)) ∧
    (let s := base; let ctx : Nat := 1280; let cluster : Nat := 0; let blk : Nat := 4; NoReplay s ∧
       (let home := holderDie (s.ctxHome ctx) (s.centry ctx).holder; Reach s (cluster / 64) home ∧ get? s.blocks blk = none)) ∧
    (let s := base; let ctx : Nat := 1280; let cluster : Nat := 0; let blk : Nat := 3; let desc : Word := 0x30000075; NoReplay s ∧
       (let home := holderDie (s.ctxHome ctx) (s.centry ctx).holder; Reach s (cluster / 64) home ∧ desc.toNat / 2 ^ 21 % 4 = 0 ∧
       (∃ b ∈ get? s.blocks blk, (let id := ((get? s.launches b.launch).map (·.id)).getD 0;
       (let mine := s.tiles.filter fun v => v.1 / 1024 == cluster && v.2.launch == id && v.2.block == b.index;
       (∃ i ∈ s.freeEntry cluster false, (∃ base ∈ firstRun (mine.map fun v => (v.2.base, v.2.granules)) (granulesOf desc.toNat false) (b.banks.length * bankGranules), True))))))) ∧
    (let s := base; let cluster : Nat := 0; NoReplay s ∧ (let k := s.cluster cluster; (k.inq = [] ∨ k.freeTask = none))) ∧
    (let s := base |> (clus fun c => { c with inq := List.replicate 256 (task 0x80) }); let cluster : Nat := 0; NoReplay s ∧ (let k := s.cluster cluster;
       (∃ n ∈ k.freeTask, (∃ u ∈ k.inq.head?, True)))) ∧
    (let s := base; let cluster : Nat := 0; let task : Nat := 0; NoReplay s ∧ (let t := s.task cluster task; t = none)) ∧
    (let s := base |> (clus fun c => { c with tasks := [(0, { task 0x81 with performed := true })] }); let cluster : Nat := 0; let task : Nat := 0;
       NoReplay s ∧ (let t := s.task cluster task; (∃ u ∈ t, (let there := holderDie (s.ctxHome u.cmd.ctx) (s.centry u.cmd.ctx).holder; u.performed = true ∧
       u.cmd.op ≠ 0x82 ∧ Reach s (cluster / 64) there)))) ∧
    (let s := base |> (fun s => { s with tiles := [(3, tile)] } |> clus (fun c => { c with tasks := [(0, task 0x1B)] })) |> (clus fun c => { c with tasks := [(0, { task 0x80 with done := 0 })] });
       let ctx : Nat := 1280; let cluster : Nat := 0; let task : Nat := 0; NoReplay s ∧ (let x := s.ctx ctx; (let t := s.task cluster task;
       (∃ u ∈ t, u.performed = false ∧ u.cmd.op = 0x80 ∧ s.tastes u = false ∧ (∃ x ∈ refIn u.refs 0, Present s x ∧ x.scale = false ∧
       u.cmd.wa.toNat / 2 ^ 48 % 2 ^ 10 < halfCols x.desc false))))) := by
  delta Claims.Clean Claims.NoProfile Claims.NoReplay Claims.Present Claims.Reach; refine ⟨?_, ?_, ?_, ?_, ?_, ?_, ?_, ?_⟩ <;> decide +kernel

theorem witness_CommandEvents_3 :
    (let s := base |> (fun s => { s with tiles := [(3, tile)] } |> clus (fun c => { c with tasks := [(0, task 0x81)] })); let ctx : Nat := 1280;
       let cluster : Nat := 0; let task : Nat := 0; NoReplay s ∧ (let x := s.ctx ctx; (let t := s.task cluster task; (∃ u ∈ t, u.performed = false ∧
       u.cmd.op = 0x81 ∧ u.cmd.j = false ∧ (∃ x ∈ refIn u.refs 0, s.tastes u = false ∧ (get? s.tiles x.key).map (·.seed) = some x.seed))))) ∧
    (let s := base |> (fun s => { s with tiles := [(3, tile)] } |> clus (fun c => { c with tasks := [(0, task 0x82)] })); let ctx : Nat := 1280;
       let cluster : Nat := 0; let task : Nat := 0; NoReplay s ∧ (let x := s.ctx ctx; (let t := s.task cluster task;
       (∃ u ∈ t, (let there := holderDie (s.ctxHome u.cmd.ctx) (s.centry u.cmd.ctx).holder; u.performed = false ∧ u.cmd.op = 0x82 ∧ u.cmd.j = false ∧
       Reach s (cluster / 64) there ∧ (∃ x ∈ refIn u.refs 0, Present s x ∧ x.scale = false)))))) ∧
    (let s := base |> (fun s => { s with tiles := [(3, tile)] } |> clus (fun c => { c with tasks := [(0, { task 0x00 with rd := [(false, 0, 3, 4)] })] }));
       let ctx : Nat := 1280; let cluster : Nat := 0; let task : Nat := 0; let r : Nat := 0; let col : Nat := 3; NoReplay s ∧ (let x := s.ctx ctx;
       (let t := s.task cluster task; (∃ u ∈ t, u.performed = false ∧ u.cmd.op < 0x28 ∧ u.cmd.op ≠ 0x20 ∧ s.tastes u = false ∧
       (∃ x ∈ refIn u.refs 0, Present s x ∧ r < x.rows ∧ col < x.cols))))) ∧
    (let s := base |> (fun s => { s with tiles := [(3, tile)], poison := [(tilePlace + 3 * 2 ^ 16) / 8] } |> clus (fun c => { c with tasks := [(0, { task 0x00 with rd := [(true, 3, 0, 4)] })] }));
       let cluster : Nat := 0; let task : Nat := 0; NoReplay s ∧ (let t := s.task cluster task;
       (∃ u ∈ t, (let there := holderDie (s.ctxHome u.cmd.ctx) (s.centry u.cmd.ctx).holder; u.performed = false ∧ u.cmd.op < 0x28 ∧ u.cmd.op ≠ 0x20 ∧
       s.tastes u = true ∧ u.cmd.j = false ∧ u.flt = none ∧ Reach s (cluster / 64) there)))) ∧
    (let s := base |> (fun s => { s with poison := [8] } |> clus (fun c => { c with tasks := [(0, { task 0x00 with rd := [(false, 0, 64, 4)] })] }));
       let cluster : Nat := 0; let task : Nat := 0; NoReplay s ∧ (let t := s.task cluster task; (∃ u ∈ t, True))) ∧
    (let s := base |> (fun s => { s with tiles := [3, 4, 5].map fun i => (i, { tile with desc := if i = 3 then 6 + 16 * 31 + 2048 * 3 else 7 + 16 * 31 + 2048 * 3 }) } |> clus (fun c => { c with tasks := [(0, { task 0x20 with refs := [0, 1, 2].map fun i => { slot := i, handle := 0, key := 3 + i, seed := 3, row0 := 0, rows := 1, desc := if i = 0 then 6 + 16 * 31 + 2048 * 3 else 7 + 16 * 31 + 2048 * 3, scale := false } })] }));
       let ctx : Nat := 1280; let cluster : Nat := 0; let task : Nat := 0; NoReplay s ∧ (let x := s.ctx ctx; (let t := s.task cluster task;
       (∃ u ∈ t, u.cmd.op = 0x20 ∧ u.done = 0 ∧ s.tastes u = false ∧ (∃ x ∈ refIn u.refs 0, Present s x ∧
       (let view := fun i : Nat => s.viewOf ((refIn u.refs i).getD x); (let a := view 1; (let whole := a.fmt < 2; 0 < x.rows ∧ x.rows ≤ 128 ∧ x.cols ≤ 128 ∧
       (x.fmt = 4 ↔ whole) ∧ (isMx a.fmt = true ∨ a.fmt = 7 ∨ a.fmt = 8 ∨ whole) ∧ (a.cols ≤ (if a.fmt = 7 ∨ a.fmt = 8 then 256 else 1024)))))))))) ∧
    (let s := base |> (clus fun c => { c with tasks := [(0, { task 0x28 with src := [(0, 48)], dst := [(96, 48)] })] }); let cluster : Nat := 0;
       let task : Nat := 0; NoReplay s ∧ (let t := s.task cluster task; (∃ u ∈ t, u.parts = [] ∧ u.cmd.op = 0x28 ∧ (s.die (cluster / 64)).knows = [] ∧
       cluster / 64 < 20 ∧ (∃ m ∈ (s.streamMoves (u.rowAsker cluster task) u).1, True)))) ∧
    (let s := base |> (clus fun c => { c with tasks := [(0, { task 0x28 with parts := [{ unit := 9, moves := [(30, 50)] }] })] }); let cluster : Nat := 0;
       let task : Nat := 0; let part : Nat := 0; NoReplay s ∧ (let t := s.task cluster task; (∃ u ∈ t, (∃ p ∈ u.parts[part]?, u.parts ≠ [] ∧
       (let at_ := streamerDie p.unit; (let left := (p.moves.map (·.2)).drop p.data.length;
       (let from_ := match left.head? with | some y => s.placeDie u.part y | none => at_; (let here := left.all fun y => s.placeDie u.part y == at_;
       (let whole := p.data = [] ∧ p.begun = false ∧ here = true; left ≠ [] ∧ ¬whole ∧ from_ ≠ at_ ∧ p.asked % 2 = 0 ∧ Reach s at_ from_))))))))) := by
  delta Claims.Clean Claims.NoReplay Claims.Present Claims.Reach; refine ⟨?_, ?_, ?_, ?_, ?_, ?_, ?_, ?_⟩ <;> decide +kernel

theorem witness_CommandEvents_4 :
    (let s := base |> (clus fun c => { c with tasks := [(0, { task 0x28 with parts := [{ unit := 9, moves := [(30, 50)], asked := 1 }] })] });
       let cluster : Nat := 0; let task : Nat := 0; let part : Nat := 0; NoReplay s ∧ (let t := s.task cluster task;
       (∃ u ∈ t, (∃ p ∈ u.parts[part]?, u.parts ≠ [] ∧ (let at_ := streamerDie p.unit; (let left := (p.moves.map (·.2)).drop p.data.length;
       (let from_ := match left.head? with | some y => s.placeDie u.part y | none => at_; (let here := left.all fun y => s.placeDie u.part y == at_;
       (let whole := p.data = [] ∧ p.begun = false ∧ here = true; left ≠ [] ∧ ¬whole ∧ (from_ = at_ ∨ p.asked % 2 = 1) ∧ Reach s from_ at_))))))))) ∧
    (let s := base |> (clus fun c => { c with tasks := [(0, { task 0x28 with parts := [{ unit := 8, moves := [(30, 50), (31, 51)] }] })] });
       let cluster : Nat := 0; let task : Nat := 0; let part : Nat := 0; NoReplay s ∧ (let t := s.task cluster task;
       (∃ u ∈ t, (∃ p ∈ u.parts[part]?, u.parts ≠ [] ∧ (let at_ := streamerDie p.unit; (let left := (p.moves.map (·.2)).drop p.data.length;
       (let here := left.all fun y => s.placeDie u.part y == at_; (let whole := p.data = [] ∧ p.begun = false ∧ here = true; left ≠ [] ∧ whole ∧
       (s.die at_).knows = [] ∧ at_ < 21)))))))) ∧
    (let s := base |> (clus fun c => { c with tasks := [(0, { task 0x28 with parts := [{ unit := 8, moves := [], begun := true }] })] });
       let cluster : Nat := 0; let task : Nat := 0; let part : Nat := 0; NoReplay s ∧ (let t := s.task cluster task;
       (∃ u ∈ t, (∃ p ∈ u.parts[part]?, u.parts ≠ [] ∧ (let at_ := streamerDie p.unit; (let left := (p.moves.map (·.2)).drop p.data.length; left = [] ∧
       (s.die at_).knows = [] ∧ at_ < 21 ∧ (∀ m ∈ p.moves, s.placeDie u.part m.1 < 21))))))) ∧
    (let s := base |> (clus fun c => { c with tasks := [(0, { task 0x28 with parts := [{ unit := 8, moves := [], begun := true }] })] });
       let cluster : Nat := 0; let task : Nat := 0; let part : Nat := 0; NoReplay s ∧ (let t := s.task cluster task;
       (∃ u ∈ t, (∃ p ∈ u.parts[part]?, u.parts ≠ [] ∧ (let at_ := streamerDie p.unit; p.moves = [] ∧ u.cmd.j = false ∧ Reach s at_ (cluster / 64)))))) ∧
    (let s := base |> (clus fun c => { c with tasks := [(0, { task 0x28 with parts := [{ unit := 8, moves := [(30, 50), (31, 51)], begun := true, data := [1, 2] }] })] });
       let cluster : Nat := 0; let task : Nat := 0; let part : Nat := 0; NoReplay s ∧ (let t := s.task cluster task;
       (∃ u ∈ t, (∃ p ∈ u.parts[part]?, u.parts ≠ [] ∧ (let at_ := streamerDie p.unit; (∃ m ∈ p.moves.head?, m.1 < 2 ^ 62 ∧
       (∀ o, o < 192 → Sound s 0 (m.1 + o) 1) ∧ s.repairing u.cmd.blk = false ∧ ((s.poison.any fun w => m.1 < 8 * w + 200 && 8 * w < m.1 + 192) = false) ∧
       (s.die at_).knows = [])))))) ∧
    (let s := base |> (clus fun c => { c with tasks := [(0, { task 0x28 with parts := [{ unit := 8, moves := [(30, 50), (31, 51)], begun := true, data := [1, 2] }] })] });
       let cluster : Nat := 0; let task : Nat := 0; let part : Nat := 0; NoReplay s ∧ (let t := s.task cluster task;
       (∃ u ∈ t, (∃ p ∈ u.parts[part]?, u.parts ≠ [])))) ∧
    (let s := base |> (cx 1280 fun c => { c with kind := 12 }); let ctx : Nat := 1280; NoReplay s ∧ (let x := s.ctx ctx; x.kind = 12)) ∧
    (let s := base; let ctx : Nat := 1280; let unit : Holder := Holder.core 0; NoReplay s ∧ (let x := s.ctx ctx; HeldBy s ctx unit ∧ x.kind ≠ 12 ∧
       x.pair = 0 ∧ x.kind ≠ 7)) := by
  delta Claims.HeldBy Claims.NoReplay Claims.Reach Claims.Sound; refine ⟨?_, ?_, ?_, ?_, ?_, ?_, ?_, ?_⟩ <;> decide +kernel

theorem witness_CommandEvents_5 :
    (let s := base |> (cx 1280 fun c => { c with kind := 7, cmds := 0 }); let ctx : Nat := 1280; let unit : Holder := Holder.core 0; NoReplay s ∧
       (let x := s.ctx ctx; HeldBy s ctx unit ∧ x.pair = 0 ∧ x.kind = 7 ∧ x.warg = 0 ∧ x.cmds.toNat ≤ 1 ∧ Plain x)) := by
  delta Claims.HeldBy Claims.NoReplay Claims.Plain; decide +kernel

theorem witness_LaunchEvents_1 :
    (let s := small; let ctx : Nat := 1280; let dsc : Nat := 2 ^ 62 + 1024; let rgn : Nat := 9216; ctx ≠ noCtx ∧ NoSamples s ∧ dsc < 2 ^ 64 ∧
       rgn < 2 ^ 64 ∧ (let bytes := if 2 ^ 62 ≤ dsc then readNat s.cstore (dsc - 2 ^ 62) 128 else readNat s.mem dsc 128;
       (let f := fun off n => bytes / 256 ^ off % 256 ^ n;
       (f 0x08 4 = 0 ∨ 2 ^ 31 < f 0x08 4 ∨ f 0x0C 2 = 0 ∨ 1024 < f 0x0C 2 ∨ 14 < f 0x0E 1 ∨ 2 < f 0x0F 1 ∨ 4095 < f 0x30 2)))) ∧
    (let s := small; let part : Nat := 0; let ctx : Nat := 1280; let priv : Nat := 1; let dsc : Nat := 2 ^ 62 + 1024; let rgn : Nat := 20000; ctx ≠ noCtx ∧
       NoSamples s ∧ dsc < 2 ^ 64 ∧ rgn < 2 ^ 64 ∧ (let bytes := if 2 ^ 62 ≤ dsc then readNat s.cstore (dsc - 2 ^ 62) 128 else readNat s.mem dsc 128;
       (let id := s.launchIds + 1; (let f := fun off n => bytes / 256 ^ off % 256 ^ n; (let l := launchOf bytes part id (f 0x28 8);
       (∃ r ∈ s.refusal bytes l priv, True)))))) ∧
    (let s := small |> (fun s => { s with mem := desc s.mem 7168 2 3 }); let part : Nat := 0; let ctx : Nat := 1280; let priv : Nat := 0;
       let dsc : Nat := 7168; let rgn : Nat := 20000; ctx ≠ noCtx ∧ NoSamples s ∧ dsc < 2 ^ 64 ∧ rgn < 2 ^ 64 ∧
       (let bytes := if 2 ^ 62 ≤ dsc then readNat s.cstore (dsc - 2 ^ 62) 128 else readNat s.mem dsc 128; (let id := s.launchIds + 1;
       (let f := fun off n => bytes / 256 ^ off % 256 ^ n; (let l := launchOf bytes part id (f 0x28 8); s.refusal bytes l priv = none))))) ∧
    (let s := small; let lch : Nat := 7; let ctx : Nat := 1280; let dsc : Nat := 7168; let rgn : Nat := 20000; ctx ≠ noCtx ∧ NoSamples s ∧ dsc < 2 ^ 64 ∧
       rgn < 2 ^ 64 ∧ get? s.launches lch = none) ∧
    (let s := small |> (fun s => { s with launches := [(7, { launch with toStart := [], livePkg := 0 })] }); let lch : Nat := 7; let ctx : Nat := 1280;
       let dsc : Nat := 2 ^ 62 + 1024; let rgn : Nat := 9217; ctx ≠ noCtx ∧ NoSamples s ∧ dsc < 2 ^ 64 ∧ rgn < 2 ^ 64 ∧
       (∃ x ∈ get? s.launches lch, x.toStart = [])) ∧
    (let s := small |> (fun s => { s with launches := [(7, { launch with toStart := [0], tiles := 20 })] }); let lch : Nat := 7; let ctx : Nat := 1280;
       let dsc : Nat := 7168; let rgn : Nat := 20000; ctx ≠ noCtx ∧ NoSamples s ∧ dsc < 2 ^ 64 ∧ rgn < 2 ^ 64 ∧ (∃ x ∈ get? s.launches lch, x.toStart ≠ [] ∧
       s.canStart x = false)) ∧
    (let s := small |> (fun s => { s with launches := [(7, { launch with toStart := [0, 1] })] }); let lch : Nat := 7; let ctx : Nat := 1280;
       let dsc : Nat := 2 ^ 62 + 1024; let rgn : Nat := 9217; ctx ≠ noCtx ∧ NoSamples s ∧ dsc < 2 ^ 64 ∧ rgn < 2 ^ 64 ∧
       (∃ x ∈ get? s.launches lch, s.canStart x = true ∧ ((s.freeLines x.part).map (·.2)).Nodup ∧ bitAt x.flags 2 = false ∧ bitAt x.flags 0 = false ∧
       (∃ index ∈ x.toStart.head?, (∃ p ∈ s.placeBlock x index, True)))) ∧
    (let s := small |> (fun s => { s with launches := [(7, { launch with toStart := [0], tiles := 20 })] }); let lch : Nat := 7; let ctx : Nat := 1280;
       let dsc : Nat := 2 ^ 62 + 1024; let rgn : Nat := 9217; ctx ≠ noCtx ∧ NoSamples s ∧ dsc < 2 ^ 64 ∧ rgn < 2 ^ 64 ∧
       (∃ x ∈ get? s.launches lch, (x.livePkg ≠ 0 ∨ x.toStart ≠ []))) := by
  delta Claims.NoSamples; refine ⟨?_, ?_, ?_, ?_, ?_, ?_, ?_, ?_⟩ <;> decide +kernel

theorem witness_LaunchEvents_2 :
    (let s := small |> (fun s => { s with launches := [(7, { launch with livePkg := 0, relaunch := some relaunch })] }); let lch : Nat := 7;
       let ctx : Nat := 1280; let dsc : Nat := 7168; let rgn : Nat := 9216; ctx ≠ noCtx ∧ NoSamples s ∧ dsc < 2 ^ 64 ∧ rgn < 2 ^ 64 ∧
       (∃ x ∈ get? s.launches lch, x.livePkg = 0 ∧ x.toStart = [] ∧ x.relaunch ≠ none)) ∧
    (let s := small |> (fun s => { s with launches := [(7, { launch with toStart := [], livePkg := 0 })] }); let lch : Nat := 7; let ctx : Nat := 1280;
       let dsc : Nat := 2 ^ 62 + 1024; let rgn : Nat := 9217; ctx ≠ noCtx ∧ NoSamples s ∧ dsc < 2 ^ 64 ∧ rgn < 2 ^ 64 ∧
       (∃ x ∈ get? s.launches lch, x.livePkg = 0 ∧ x.toStart = [] ∧ x.relaunch = none)) ∧
    (let s := small |> (fun s => { s with launches := [(7, { launch with toStart := [0], tiles := 20 })] }); let lch : Nat := 7; let ctx : Nat := 1280;
       let dsc : Nat := 2 ^ 62 + 1024; let rgn : Nat := 9216; ctx ≠ noCtx ∧ NoSamples s ∧ dsc < 2 ^ 64 ∧ rgn < 2 ^ 64 ∧
       (∃ x ∈ get? s.launches lch, x.relaunch = none)) ∧
    (let s := small |> (fun s => { s with launches := [(7, { launch with livePkg := 0, relaunch := some relaunch })] }); let lch : Nat := 7;
       let ctx : Nat := 1280; let dsc : Nat := 7168; let rgn : Nat := 9216; ctx ≠ noCtx ∧ NoSamples s ∧ dsc < 2 ^ 64 ∧ rgn < 2 ^ 64 ∧
       (∃ x ∈ get? s.launches lch, (∃ r ∈ x.relaunch, True))) ∧
    (let s := small; let blk : Nat := 3; let ctx : Nat := 1280; let dsc : Nat := 2 ^ 62 + 1024; let rgn : Nat := 9216; ctx ≠ noCtx ∧ NoSamples s ∧
       dsc < 2 ^ 64 ∧ rgn < 2 ^ 64 ∧ (let free := s.freeLines ((get? s.blocks blk).elim 0 fun b => (get? s.launches b.launch).elim 0 (·.part));
       (let paired := (get? s.blocks blk).elim false fun b => (get? s.launches b.launch).elim false fun x => bitAt x.flags 2;
       (get? s.blocks blk = none ∨ ((get? s.blocks blk).map (·.pool)) = some [] ∨ free.length < (if paired then 2 else 1))))) ∧
    (let s := small |> (fun s => { s with blocks := [(3, { block with pool := [1, 4], trace := some { rd := (List.range 60).map fun i => (100 + 2 * i, 1) } })] }) |> (fun s => { s with launches := [(7, { launch with flags := 32, toStart := [5] })] });
       let blk : Nat := 3; let ctx : Nat := 1280; let dsc : Nat := 7168; let rgn : Nat := 9217; ctx ≠ noCtx ∧ NoSamples s ∧ dsc < 2 ^ 64 ∧ rgn < 2 ^ 64 ∧
       (let free := s.freeLines ((get? s.blocks blk).elim 0 fun b => (get? s.launches b.launch).elim 0 (·.part));
       (let paired := (get? s.blocks blk).elim false fun b => (get? s.launches b.launch).elim false fun x => bitAt x.flags 2; (free.map (·.2)).Nodup ∧
       (if paired then 2 else 1) ≤ free.length ∧ (∃ b ∈ get? s.blocks blk, (∃ i ∈ b.pool.head?, (∃ x ∈ get? s.launches b.launch, True)))))) ∧
    (let s := small; let blk : Nat := 4; let ctx : Nat := 1280; let dsc : Nat := 2 ^ 62 + 1024; let rgn : Nat := 20000; ctx ≠ noCtx ∧ NoSamples s ∧
       dsc < 2 ^ 64 ∧ rgn < 2 ^ 64 ∧ get? s.blocks blk = none) ∧
    (let s := small |> (fun s => { s with blocks := [(3, { block with pool := [1, 4], trace := some { rd := [(3, 2)], wr := [(4, 1), (6, 1)] } })] });
       let blk : Nat := 3; let ctx : Nat := 1280; let dsc : Nat := 7168; let rgn : Nat := 9216; ctx ≠ noCtx ∧ NoSamples s ∧ dsc < 2 ^ 64 ∧ rgn < 2 ^ 64 ∧
       (∃ b ∈ get? s.blocks blk, (∃ t ∈ b.trace, True))) := by
  delta Claims.NoSamples; refine ⟨?_, ?_, ?_, ?_, ?_, ?_, ?_, ?_⟩ <;> decide +kernel

theorem witness_LaunchEvents_3 :
    (let s := small |> (fun s => { s with blocks := [(3, { block with pool := [1, 4], trace := some { rd := [(3, 2)], wr := [(4, 1), (6, 1)] } })] }) |> (fun s => { s with launches := [(7, { launch with livePkg := 0, relaunch := some relaunch })] });
       let blk : Nat := 3; let ctx : Nat := 1280; let dsc : Nat := 2 ^ 62 + 1024; let rgn : Nat := 9216; ctx ≠ noCtx ∧ NoSamples s ∧ dsc < 2 ^ 64 ∧
       rgn < 2 ^ 64 ∧ (∃ b ∈ get? s.blocks blk, (∃ t ∈ b.trace, (∃ x ∈ get? s.launches b.launch, True)))) ∧
    (let s := small; let ctx : Nat := 1280; let dsc : Nat := 2 ^ 62 + 1024; let rgn : Nat := 20000; ctx ≠ noCtx ∧ NoSamples s ∧ dsc < 2 ^ 64 ∧ rgn < 2 ^ 64) ∧
    (let s := small; let set : Nat := 0; let ctx : Nat := 1280; let dsc : Nat := 2 ^ 62 + 1024; let rgn : Nat := 9216; ctx ≠ noCtx ∧ NoSamples s ∧
       dsc < 2 ^ 64 ∧ rgn < 2 ^ 64 ∧ (s.set set).advances.all (fun a => !a.await.isEmpty) = true) ∧
    (let s := small |> (set fun d => { d with advances := [⟨[], [(1280, 2, false)], none, 9⟩] }); let set : Nat := 0; let ctx : Nat := 1280;
       let dsc : Nat := 7168; let rgn : Nat := 20000; ctx ≠ noCtx ∧ NoSamples s ∧ dsc < 2 ^ 64 ∧ rgn < 2 ^ 64 ∧
       (∃ a ∈ (s.set set).advances.head?, a.await = [] ∧ a.launch = none)) ∧
    (let s := small |> (fun s => { s with launches := [(7, { launch with livePkg := 0, relaunch := some relaunch })] }) |> (set fun d => { d with active := some 0, advances := [⟨[], [], some 7, 9⟩] });
       let set : Nat := 0; let ctx : Nat := 1280; let dsc : Nat := 7168; let rgn : Nat := 9217; ctx ≠ noCtx ∧ NoSamples s ∧ dsc < 2 ^ 64 ∧ rgn < 2 ^ 64 ∧
       (∃ a ∈ (s.set set).advances.head?, a.await = [] ∧ (∃ n ∈ a.launch, (∃ x ∈ get? s.launches n, True)))) ∧
    (let s := small; let part : Nat := 0; let ctx : Nat := 1280; let priv : Nat := 1; let dsc : Nat := 7168; let rgn : Nat := 20000; ctx ≠ noCtx ∧
       NoSamples s ∧ dsc < 2 ^ 64 ∧ rgn < 2 ^ 64 ∧ s.mayAccess part priv rgn .load = false) ∧
    (let s := small; let part : Nat := 0; let ctx : Nat := 1280; let priv : Nat := 0; let dsc : Nat := 7168; let rgn : Nat := 9217; ctx ≠ noCtx ∧
       NoSamples s ∧ dsc < 2 ^ 64 ∧ rgn < 2 ^ 64 ∧ s.mayAccess part priv rgn .load = true ∧ (s.numVirt part rgn 4 ≠ 1 ∨ s.numVirt part (rgn + 4) 4 ≠ 2)) := by
  delta Claims.NoSamples; refine ⟨?_, ?_, ?_, ?_, ?_, ?_, ?_⟩ <;> decide +kernel

theorem witness_ScheduleEvents_1 :
    (let s := base; let sctx : Nat := 1408; (let c := s.ctx sctx; c.aged s.gtime = false)) ∧
    (let s := base |> (cx 1280 fun c => { c with kind := 0, level := 2, prio := 2, readyAt := 0 }); let sctx : Nat := 1280; (let c := s.ctx sctx;
       c.kind = 0 ∧ 0 < c.level ∧ c.readyAt + ms * (c.prio.toNat - c.level + 1) ≤ s.gtime)) ∧
    (let s := base; let core : Nat := 0; s.claimable core = none ∧ s.copyable core = none) ∧
    (let s := base |> (fun s => s |> core (fun c => { c with slots := List.replicate 16 {}, ready := List.replicate 4 [], claims := [2000, 2001, 2002, 2003] }) |> clus (fun c => { c with rings := [(0, [⟨1280, 2, 0, 5⟩, ⟨1408, 1, 0, 6⟩])] }) |> die 0 (fun d => { d with on := true }) |> set (fun d => { d with active := some 0 }));
       let core : Nat := 0; s.claimable core = none ∧ (∃ x ∈ s.copyable core, True)) ∧
    (let s := base |> (fun s => s |> core (fun c => { c with slots := List.replicate 16 {}, ready := List.replicate 4 [], claims := [2000, 2001, 2002, 2003] }) |> clus (fun c => { c with rings := [(0, [⟨1280, 2, 0, 5⟩, ⟨1408, 1, 0, 6⟩])] }) |> die 0 (fun d => { d with on := true }) |> set (fun d => { d with active := some 0 })) |> (fun s => s |> core (fun c => { c with slots := List.replicate 16 {}, ready := List.replicate 4 [], claims := [1280], copied := [⟨1280, 2, 0, 5⟩] }) |> clus (fun c => { c with rings := [(0, [⟨1280, 2, 0, 5⟩, ⟨1408, 1, 0, 6⟩])] }));
       let core : Nat := 0; (∃ x ∈ s.claimable core, True)) ∧
    (let s := base |> (en 1280 fun e => { e with holder := .memory, spoiled := true }); let core : Nat := 0; let sctx : Nat := 1280;
       let cluster : Nat := 1; (let c := s.ctx sctx; (let e := s.centry sctx; e.transfer = none ∧ (e.holder = .memory ∨ e.holder = .l2 cluster) ∧
       c.isFree = false ∧ c.peer = none ∧ (c.extneed = 0 ∨ isWide core = true) ∧ (c.kind = 0 ∨ c.kind = 10 ∧ isWide core = true) ∧ e.spoiled = true ∧
       c.handler = 0))) ∧
    (let s := base |> (en 1280 fun e => { e with holder := .memory }); let core : Nat := 0; let sctx : Nat := 1280; let cluster : Nat := 1;
       (let c := s.ctx sctx; (let e := s.centry sctx; e.transfer = none ∧ (e.holder = .memory ∨ e.holder = .l2 cluster) ∧ c.isFree = false ∧ c.peer = none ∧
       (c.extneed = 0 ∨ isWide core = true) ∧ (c.kind = 0 ∨ c.kind = 10 ∧ isWide core = true) ∧ e.spoiled = false))) ∧
    (let s := base |> (en 1280 fun e => { e with holder := .l2 0, transfer := some (.core 0) }) |> (core fun c => { c with slots := [{ ctx := some 1280 }] ++ List.replicate 15 {} , ready := [[1408], [], [], []] });
       let sctx : Nat := 1280; let cluster : Nat := 0; let dst : Holder := Holder.core 0; (let e := s.centry sctx; (let home := s.ctxHome sctx;
       e.transfer = some dst ∧ e.holder = .l2 cluster ∧ dst ≠ e.holder ∧ Reach s (cluster / 64) (holderDie home dst)))) := by
  delta Claims.Reach; refine ⟨?_, ?_, ?_, ?_, ?_, ?_, ?_, ?_⟩ <;> decide +kernel

theorem witness_ScheduleEvents_2 :
    (let s := base; let core : Nat := 0; let sctx : Nat := 1408; let cluster : Nat := 0; (let c := s.ctx sctx; (let e := s.centry sctx;
       (e.transfer ≠ none ∨ e.holder = .core cluster ∨ e.holder = .shadow cluster ∨ c.isFree = true ∨ (c.extneed ≠ 0 ∧ isWide core = false))))) ∧
    (let s := base; let sctx : Nat := 1408; let dst : Holder := Holder.memory; (let e := s.centry sctx; e.transfer ≠ some dst)) ∧
    (let s := base |> (en 1280 fun e => { e with transfer := some (.l2 0) }); let sctx : Nat := 1280; let dst : Holder := Holder.l2 0;
       (let c := s.ctx sctx; (let e := s.centry sctx; e.transfer = some dst ∧ c.heldTraps = [] ∧ c.peer = none))) ∧
    (let s := base; let sctx : Nat := 1408; let cluster : Nat := 1; (let c := s.ctx sctx; (let e := s.centry sctx; c.peer = none ∧
       (e.postDue = false ∨ e.holder = .memory ∨ e.holder = .l2 cluster)))) ∧
    (let s := base |> (en 1280 fun e => { e with postDue := true }); let core : Nat := 0; let sctx : Nat := 1280; (let c := s.ctx sctx;
       (let e := s.centry sctx; e.postDue = true ∧ e.holder = .core core ∧ c.peer = none ∧ c.kind = 0 ∧ c.heldTraps = [] ∧ s.suspect core = false ∧
       Shaped s core ∧ c.level ≤ 3))) ∧
    (let s := base |> (en 1280 fun e => { e with holder := .l2 0, transfer := some (.core 0) }); let sctx : Nat := 1280; (let e := s.centry sctx;
       e.transfer ≠ none)) ∧
    (let s := base; let sctx : Nat := 1280; let msg : Ev := .wakeupApply 1280 2 5 true .memory; (let e := s.centry sctx; (let home := s.ctxHome sctx;
       e.transfer = none ∧ ForLine msg ∧ Reach s home (holderDie home e.holder)))) ∧
    (let s := base; let core : Nat := 0; let sctx : Nat := 1408; (let c := s.ctx sctx; (let e := s.centry sctx;
       (e.holder = .core core ∨ e.holder = .shadow core ∨ (e.holder = .memory ∧ c.isFree = true))))) := by
  delta Claims.ForLine Claims.Reach Claims.Shaped; refine ⟨?_, ?_, ?_, ?_, ?_, ?_, ?_, ?_⟩ <;> decide +kernel

theorem witness_ScheduleEvents_3 :
    (let s := base |> (en 1280 fun e => { e with holder := .l2 0, transfer := some (.core 0) }); let sctx : Nat := 1280; let cluster : Nat := 0;
       (let e := s.centry sctx; e.holder = .l2 cluster)) ∧
    (let s := base; let sctx : Nat := 1408; (let e := s.centry sctx; e.postPending = false)) ∧
    (let s := base |> (en 1280 fun e => { e with postPending := true }); let sctx : Nat := 1280; (let e := s.centry sctx; (let home := s.ctxHome sctx;
       e.postPending = true ∧ Reach s home (e.affinity / 64)))) ∧
    (let s := base; let cluster : Nat := 0; let part : Nat := 0; s.stealDue cluster part = none) ∧
    (let s := base |> (fun s => s |> core (fun c => { c with slots := List.replicate 16 {}, ready := List.replicate 4 [], claims := [2000, 2001, 2002, 2003] }) |> clus (fun c => { c with rings := [(0, [⟨1280, 2, 0, 5⟩, ⟨1408, 1, 0, 6⟩])] }) |> die 0 (fun d => { d with on := true }) |> set (fun d => { d with active := some 0 }));
       let cluster : Nat := 1; let part : Nat := 0; (∃ k ∈ s.stealDue cluster part, k ≠ cluster)) ∧
    (let s := base |> (fun s => { s with ctxs := [] }); let sctx : Nat := 1280; (let c := s.ctx sctx; (c.kind = 12 ∨ c.isFree = true))) ∧
    (let s := base |> (en 1280 fun e => { e with holder := .l2 0, transfer := some (.core 0) }); let sctx : Nat := 1280; let cluster : Nat := 0;
       (let c := s.ctx sctx; (let e := s.centry sctx; c.kind ≠ 12 ∧ c.isFree = false ∧ c.handler = 0 ∧ c.kind ≠ 11 ∧
       (e.holder = .memory ∨ e.holder = .l2 cluster)))) ∧
    (let s := base; let core : Nat := 0; let sctx : Nat := 1408; (let c := s.ctx sctx; (let e := s.centry sctx; c.kind ≠ 12 ∧ c.isFree = false ∧
       c.handler = 0 ∧ c.kind ≠ 11 ∧ c.peer = none ∧ c.cva < 2 ^ 60 ∧ e.holder = .core core ∧ (s.die (dieOf core)).log = []))) := by
  delta Claims.Reach; refine ⟨?_, ?_, ?_, ?_, ?_, ?_, ?_, ?_⟩ <;> decide +kernel

theorem witness_ScheduleEvents_4 :
    (let s := base; let part : Nat := 0; let die : Nat := 0; (let ctl := (s.set (part / 4)).ctl; (s.die die).preempted = false ∧ ctl = none ∧ NoHeldTrap s)) ∧
    (let s := base |> (set fun d => { d with ctl := some { what := 0, into := 0, await := [0] } }); let part : Nat := 0; let die : Nat := 0;
       (let ctl := (s.set (part / 4)).ctl; (∃ x ∈ ctl, x.await = [die] ∧ x.what = 0 ∧ x.res = none ∧ NoHeldTrap s))) ∧
    (let s := base; let part : Nat := 0; (let ctl := (s.set (part / 4)).ctl; ctl = none)) ∧
    (let s := base |> (set fun d => { d with ctl := some { what := 3, into := 0, await := [0] } }); let part : Nat := 0; let die : Nat := 0;
       (let ctl := (s.set (part / 4)).ctl; (let set := part / 4; (∃ x ∈ ctl, x.await = [die] ∧ x.what = 3 ∧ x.res = none ∧
       (s.part (4 * set + (s.set set).active.getD 0)).startDue = false)))) ∧
    (let s := base; let part : Nat := 0; let old : Nat := 0; let new : Nat := 1; (let ctl := (s.set (part / 4)).ctl; (let set := part / 4; ctl = none ∧
       s.set (new / (4 : Nat)) = s.set set ∧ NoHeldTrap s ∧ old ≠ new))) ∧
    (let s := base |> (set fun d => { d with ctl := some { what := 2, into := 1, await := [0] } }); let die : Nat := 0; let old : Nat := 32;
       let new : Nat := 1; (let into := s.set (new / (4 : Nat)); (let target := fun i => s.part (4 * (new / (4 : Nat)) + i);
       (∃ x ∈ into.ctl, x.await = [die] ∧ x.what = 2 ∧ x.res = none ∧ (target x.into).startDue = false ∧ NoHeldTrap s ∧ old ≠ new)))) := by
  delta Claims.NoHeldTrap; refine ⟨?_, ?_, ?_, ?_, ?_, ?_⟩ <;> decide +kernel

theorem witness_TranslationAndRegisterEvents_1 :
    (let s := base; let die : Nat := 0; let page : Nat := walkKey ⟨0, 0, false, 0, 0, []⟩; (let d := s.die die;
       (d.walks.any fun w => walkKey w == page) = false)) ∧
    (let s := base |> (die 0 fun d => { d with walks := [⟨0, 0, false, 0, 0, [⟨1280, 77, 0⟩]⟩] }); let die : Nat := 0;
       let page : Nat := walkKey ⟨0, 0, false, 0, 0, []⟩; (let d := s.die die; (∃ w ∈ d.walks.find? (fun w => walkKey w == page), True))) ∧
    (let s := base; let die : Nat := 0; (let d := s.die die; d.walkHeld = [])) ∧
    (let s := base |> (die 0 fun d => { d with walkHeld := [⟨0, 0, false, 0, 0, [⟨1280, 77, 0⟩]⟩] }); let die : Nat := 0; (let d := s.die die;
       (∃ w ∈ d.walkHeld.head?, True))) ∧
    (let s := base; let set : Nat := 0; let region : Nat := 0; let entry : Word := 0x1004; (let m := s.set set; (let v := entry.toNat;
       (let dead := bits v 2 4; (let sub := bits v 12 4; (let new := entry &&& 0xFFFD;
       (m.mig ≠ none ∨ 42 < bits v 6 6 ∨ dead = sub ∨ (setMems s.mode set).contains (8 + dead) = false ∨ new = nth m.regions region 0))))))) ∧
    (let s := base; let set : Nat := 0; let region : Nat := 15; let entry : Word := 0x1001; (let m := s.set set; (let v := entry.toNat;
       (let dead := bits v 2 4; (let sub := bits v 12 4; (let new := entry &&& 0xFFFD; m.mig = none ∧ bits v 6 6 ≤ 42 ∧ dead ≠ sub ∧
       (setMems s.mode set).contains (8 + dead) = true ∧ (setMems s.mode set).contains (8 + sub) = true ∧ s.spareTaken sub dead (bits v 6 6) = false ∧
       new ≠ nth m.regions region 0)))))) ∧
    (let s := base; let set : Nat := 0; (let m := s.set set; m.mig = none)) ∧
    (let s := base |> (set fun d => { d with mig := some 2, active := some 0 }); let set : Nat := 0; (let m := s.set set; (∃ r ∈ m.mig, True))) := by
  refine ⟨?_, ?_, ?_, ?_, ?_, ?_, ?_, ?_⟩ <;> decide +kernel

theorem witness_TranslationAndRegisterEvents_2 :
    (let s := base; let cluster : Nat := 0; let bank : Nat := 0; (s.cluster cluster).drains.any (fun x => x.bank == bank) = false) ∧
    (let s := base |> (clus fun c => { c with drains := [⟨2, .scratch, 1280, 3, true, 0, 0⟩] }); let cluster : Nat := 0; let bank : Nat := 2;
       (∃ x ∈ (s.cluster cluster).drains.head?, x.bank = bank ∧ (s.cluster cluster).drains.tail = [] ∧ bank < (s.cluster cluster).modes.length ∧
       bank < (s.cluster cluster).owner.length)) ∧
    (let s := base; let core : Nat := 0; let val : Word := 30000 * 2 ^ 40; val ≠ 0 ∧ s.physOf (s.dieActive (dieOf core)) val.toNat = none) ∧
    (let s := base; let core : Nat := 0; let val : Word := 2 ^ 56 + 1280; (let k := s.core core; val ≠ 0 ∧ k.trapQ = [] ∧
       (s.die (dieOf core)).overflow = [] ∧ (∃ id ∈ s.physOf (s.dieActive (dieOf core)) val.toNat, True))) ∧
    (let s := base |> (core fun c => { c with mcheck := 3 }); let core : Nat := 0; let val : Word := 2 ^ 56 + 1280; (let k := s.core core;
       (k.mcheck &&& ~~~val ≠ 0))) ∧
    (let s := base; let core : Nat := 0; let val : Word := 100; (let k := s.core core; (k.mcheck &&& ~~~val = 0))) ∧
    (let s := base; let val : Word := 250; 100 ≤ val.toNat % 1024 ∧ val.toNat % 1024 ≤ 250) ∧
    (let s := base; let val : Word := 30000 * 2 ^ 40; (val.toNat % 1024 < 100 ∨ 250 < val.toNat % 1024)) := by
  refine ⟨?_, ?_, ?_, ?_, ?_, ?_, ?_, ?_⟩ <;> decide +kernel

theorem witness_TranslationAndRegisterEvents_3 :
    (let s := base |> (part fun p => { p with rplHeld := [(0, 5, 1, 100, .homeNackRetry (.commandRetry 1280))] }); let unit : Nat := 0; let loc : Nat := 5;
       (let holding := s.parts.find? fun x => x.2.rplHeld.any fun y => y.1 == unit && y.2.1 == loc; (∃ x ∈ holding, s.part x.1 = x.2))) ∧
    (let s := base; let die : Nat := 8; let link : Nat := 12; (linkPeer die link = none ∨ (s.link die link).st ≠ 2)) ∧
    (let s := base; let die : Nat := 0; let link : Nat := 2; (∃ p ∈ linkPeer die link, (s.link die link).st = 2)) ∧
    (let s := base; let die : Nat := 0; let link : Nat := 13; linkPeer die link = none) ∧
    (let s := base; let die : Nat := 7; let link : Nat := 13; (linkPeer die link).isSome = true) ∧
    (let s := base; let die : Nat := 7; s.snapshotDue die = false) ∧
    (let s := base |> (die 0 fun d => { d with lnkcCtl := 21 }) |> (set fun d => { d with mig := none, active := some 0 }); let die : Nat := 0;
       (let d := s.die die; s.snapshotDue die = true ∧ d.lnkcBase = 0)) ∧
    (let s := base |> (die 0 fun d => { d with lnkcCtl := 21, lnkcBase := 12288 }); let die : Nat := 0; (let d := s.die die; s.snapshotDue die = true ∧
       d.lnkcBase ≠ 0)) := by
  refine ⟨?_, ?_, ?_, ?_, ?_, ?_, ?_, ?_⟩ <;> decide +kernel

theorem witness_TranslationAndRegisterEvents_4 :
    (let s := base; let core : Nat := 0; (let k := s.core core; k.sample = none)) ∧
    (let s := base |> (core fun c => { c with sample := some (0, 1, 8, 2) }); let core : Nat := 0; let part : Nat := 0; let pc : Nat := 8;
       let reason : Nat := 1; let unit : Nat := 2; (let k := s.core core; k.sample = some (part, reason, pc, unit))) ∧
    (let s := base; let die : Nat := 0; let mhz : Nat := 800; die < 8 ∧ 600 ≤ mhz ∧ mhz ≤ 800 ∧ mhz % 50 = 0) ∧
    (let s := base; let die : Nat := 8; let mhz : Nat := 800; (8 ≤ die ∨ mhz < 600 ∨ 800 < mhz ∨ mhz % 50 ≠ 0)) ∧
    (let s := base; let enc : BitVec 32 := 0x73; (let ext := if enc.toNat % 128 = 0b1110011 then 1 else if enc.toNat % 128 = 0b1110111 then 2 else 0;
       Unpaired s ∧ (ext = 0 ∨ isWide s.hereCore = true))) ∧
    (let s := base |> (th fun c => { c with handler := 1 }) |> (fun s => { s with cur := some ⟨1, 0, 1152⟩ }); let enc : BitVec 32 := 0x77;
       (let ext := if enc.toNat % 128 = 0b1110011 then 1 else if enc.toNat % 128 = 0b1110111 then 2 else 0; ext ≠ 0 ∧ isWide s.hereCore = false ∧
       Unpaired s ∧ (s.pinned s.here.ctx = true ∨ s.th.handler ≠ 0))) ∧
    (let s := base |> (fun s => { s with inbox := [.storeVisible { ctx := 1152, core := 0, kind := .store, addr := 8, size := 8, data := 1 }] }) |> (fun s => { s with cur := some ⟨1, 0, 1152⟩ });
       let enc : BitVec 32 := 0x77; (let ext := if enc.toNat % 128 = 0b1110011 then 1 else if enc.toNat % 128 = 0b1110111 then 2 else 0; ext ≠ 0 ∧
       isWide s.hereCore = false ∧ Unpaired s ∧ Running s ∧ s.pinned s.here.ctx = false ∧ s.th.handler = 0 ∧ s.drained s.here.ctx = false)) ∧
    (let s := base |> (fun s => { s with cur := some ⟨1, 0, 1152⟩ }); let enc : BitVec 32 := 0x77;
       (let ext := if enc.toNat % 128 = 0b1110011 then 1 else if enc.toNat % 128 = 0b1110111 then 2 else 0; ext ≠ 0 ∧ isWide s.hereCore = false ∧
       Unpaired s ∧ Running s ∧ s.pinned s.here.ctx = false ∧ s.th.handler = 0 ∧ s.drained s.here.ctx = true)) := by
  delta Claims.Running Claims.Unpaired; refine ⟨?_, ?_, ?_, ?_, ?_, ?_, ?_, ?_⟩ <;> decide +kernel

theorem witness_LinkAndTimeEvents_1 :
    (let s := base; let ldie : Nat := 8; let llink : Nat := 12; (let l := s.link ldie llink; l.maySend = false)) ∧
    (let s := base |> (lnk 0 0 fun l => { l with ackDue := 16 }) |> (lnk 8 0 fun l => { l with wire := [{ seq := 3, no := 1, msgs := [], plain := true, ack := some 3 }] });
       let ldie : Nat := 0; let llink : Nat := 0; (let l := s.link ldie llink; l.maySend = true ∧ l.fresh = none)) ∧
    (let s := base |> (lnk 0 0 fun l => { l with queue := [message 0 1] }); let ldie : Nat := 0; let llink : Nat := 0; (let l := s.link ldie llink;
       l.maySend = true ∧ (∃ c ∈ l.fresh, True))) ∧
    (let s := base; let ldie : Nat := 7; let llink : Nat := 31; let cls : Nat := 3; (let l := s.link ldie llink; l.ageDue cls s.gtime = false)) ∧
    (let s := base |> (lnk 0 0 fun l => { l with queue := [message 0 2] }); let ldie : Nat := 0; let llink : Nat := 0; let cls : Nat := 2;
       (let l := s.link ldie llink; l.ageDue cls s.gtime = true)) ∧
    (let s := base; let ldie : Nat := 7; let llink : Nat := 31; linkPeer ldie llink = none) ∧
    (let s := base; let ldie : Nat := 7; let llink : Nat := 0; (∃ p ∈ linkPeer ldie llink, (let back := linkTo p ldie; (s.link p back).wire = []))) ∧
    (let s := base |> (fun s => s |> lnk 8 0 (fun l => { l with wire := [{ seq := 3, no := 1, msgs := [], bad := true }] })); let ldie : Nat := 0;
       let llink : Nat := 0; (let l := s.link ldie llink; (∃ p ∈ linkPeer ldie llink, (let back := linkTo p ldie;
       (∃ f ∈ (s.link p back).wire.head?, (f.bad = true ∨ f.plain = false ∧ f.seq ≠ l.expect)))))) := by
  refine ⟨?_, ?_, ?_, ?_, ?_, ?_, ?_, ?_⟩ <;> decide +kernel

theorem witness_LinkAndTimeEvents_2 :
    (let s := base |> (lnk 8 0 fun l => { l with wire := [{ seq := 3, no := 1, msgs := [], plain := true, ack := some 3 }] }); let ldie : Nat := 0;
       let llink : Nat := 0; (∃ p ∈ linkPeer ldie llink, (let back := linkTo p ldie; (∃ f ∈ (s.link p back).wire.head?, f.bad = false ∧ f.plain = true)))) ∧
    (let s := base |> (lnk 0 0 fun l => { l with fails := 2, nakSeq := some 1 }) |> (fun s => s |> lnk 0 0 (fun l => { l with expect := 1023 }) |> lnk 8 0 (fun l => { l with wire := [{ seq := 1023, no := 1, msgs := [message 0 1] }] }));
       let ldie : Nat := 0; let llink : Nat := 0; (let l := s.link ldie llink; (∃ p ∈ linkPeer ldie llink, (let back := linkTo p ldie;
       (∃ f ∈ (s.link p back).wire.head?, (let expected := f.plain = false ∧ f.seq = l.expect; f.bad = false ∧ expected)))))) ∧
    (let s := base; let ldie : Nat := 8; let llink : Nat := 0; let seq : Nat := 1; (let l := s.link ldie llink;
       (if l.nakSeq = some seq then l.fails + 1 else 0) < 3)) ∧
    (let s := base |> (lnk 0 0 fun l => { l with fails := 2, nakSeq := some 1 }); let ldie : Nat := 0; let llink : Nat := 0; let seq : Nat := 1;
       (let l := s.link ldie llink; l.nakSeq = some seq ∧ 2 ≤ l.fails ∧ l.st = 2 ∧ (linkPeer ldie llink).isSome = true)) ∧
    (let s := base; let ldie : Nat := 8; let llink : Nat := 12; (let l := s.link ldie llink; l.timedOut s.gtime = false)) ∧
    (let s := base |> (lnk 0 0 fun l => { l with replay := [{ seq := 0, no := 0, msgs := [] }], sentAt := 0 }) |> (lnk 0 0 fun l => { l with queue := [message 0 1] });
       let ldie : Nat := 0; let llink : Nat := 0; (let l := s.link ldie llink; l.st = 2 ∧ l.replay ≠ [] ∧ l.sentAt + us ≤ s.gtime)) ∧
    (let s := base; let ldie : Nat := 7; let llink : Nat := 0; (let l := s.link ldie llink; l.st ≠ 1)) ∧
    (let s := base; let ldie : Nat := 8; let llink : Nat := 0; (∃ p ∈ linkPeer ldie llink, True)) := by
  refine ⟨?_, ?_, ?_, ?_, ?_, ?_, ?_, ?_⟩ <;> decide +kernel

theorem witness_LinkAndTimeEvents_3 :
    (let s := base |> (lnk 0 0 fun l => { l with st := 1, badLow := 2, badHigh := 2 }); let ldie : Nat := 0; let llink : Nat := 0;
       (let l := s.link ldie llink; (∃ p ∈ linkPeer ldie llink, l.st = 1 ∧ l.x32 = false ∧ l.badLow + l.badHigh ≤ 4))) ∧
    (let s := base |> (lnk 0 0 fun l => { l with st := 1, badLow := 4, badHigh := 5 }); let ldie : Nat := 0; let llink : Nat := 0;
       (let l := s.link ldie llink; (∃ p ∈ linkPeer ldie llink, (let b := s.link p (linkTo p ldie); l.st = 1 ∧ (l.x32 = true ∨ 4 < l.badLow + l.badHigh) ∧
       l.degrade = true ∧ b.degrade = true ∧ l.badLow ≤ 4 ∧ 4 < l.badHigh)))) ∧
    (let s := base |> (lnk 0 0 fun l => { l with st := 1, badLow := 5, badHigh := 4 }); let ldie : Nat := 0; let llink : Nat := 0;
       (let l := s.link ldie llink; (∃ p ∈ linkPeer ldie llink, (let b := s.link p (linkTo p ldie); l.st = 1 ∧ (l.x32 = true ∨ 4 < l.badLow + l.badHigh) ∧
       l.degrade = true ∧ b.degrade = true ∧ 4 < l.badLow ∧ l.badHigh ≤ 4)))) ∧
    (let s := base |> (lnk 0 0 fun l => { l with st := 1, x32 := true, badLow := 4, badHigh := 4 }); let ldie : Nat := 0; let llink : Nat := 0;
       (let l := s.link ldie llink; (∃ p ∈ linkPeer ldie llink, (let b := s.link p (linkTo p ldie); l.st = 1 ∧ (l.x32 = true ∨ 4 < l.badLow + l.badHigh) ∧
       l.degrade = true ∧ b.degrade = true ∧ l.badLow ≤ 4 ∧ l.badHigh ≤ 4)))) ∧
    (let s := base |> (lnk 0 0 fun l => { l with st := 1, badLow := 5, badHigh := 4 }) |> (lnk 0 0 fun l => { l with st := 1, badLow := 4, badHigh := 5 }) |> (lnk 0 0 fun l => { l with st := 1, badLow := 5, badHigh := 5 });
       let ldie : Nat := 0; let llink : Nat := 0; (let l := s.link ldie llink; (∃ p ∈ linkPeer ldie llink, (let b := s.link p (linkTo p ldie); l.st = 1 ∧
       (l.x32 = true ∨ 4 < l.badLow + l.badHigh) ∧ (l.degrade = false ∨ b.degrade = false ∨ 4 < l.badLow ∧ 4 < l.badHigh))))) ∧
    (let s := base; s.ptpWaits = false) ∧
    (let s := base |> (fun s => { s with ptpWaits := true }); s.ptpWaits = true) ∧
    (let s := base; let ldie : Nat := 8; (8 ≤ ldie ∨ s.diefail.getLsbD ldie = true)) := by
  refine ⟨?_, ?_, ?_, ?_, ?_, ?_, ?_, ?_⟩ <;> decide +kernel

theorem witness_LinkAndTimeEvents_4 :
    (let s := base; let ldie : Nat := 0; ldie < 8 ∧ s.diefail.getLsbD ldie = false) ∧
    (let s := base |> (fun s => { s with scrub := 8 }); let mdie : Nat := 8; let sector : Nat := 0; s.scrubMay mdie sector = false) ∧
    (let s := base; let mdie : Nat := 8; let sector : Nat := 0; let err : Nat := 0; s.scrubMay mdie sector = true ∧ (err % 8 = 0 ∨ 4 < err % 8)) ∧
    (let s := base; let mdie : Nat := 8; let sector : Nat := 0; let err : Nat := 2; (let place := 48 * sector + 8 * (err / 8 % 6);
       (let at_ := s.logDie place; s.scrubMay mdie sector = true ∧ mdie ≠ at_ ∧ (s.die at_).log.length < 256 ∧ (err % 8 = 1 ∨ err % 8 = 2)))) ∧
    (let s := base; let mdie : Nat := 8; let sector : Nat := 0; let err : Nat := 3; (let place := 48 * sector + 8 * (err / 8 % 6);
       (let at_ := s.logDie place; s.scrubMay mdie sector = true ∧ mdie ≠ at_ ∧ (s.die at_).log.length < 256 ∧ err % 8 = 3))) ∧
    (let s := base; let mdie : Nat := 8; let sector : Nat := 0; let err : Nat := 4; (let place := 48 * sector + 8 * (err / 8 % 6);
       (let at_ := s.logDie place; s.scrubMay mdie sector = true ∧ mdie ≠ at_ ∧ (s.die at_).log.length < 256 ∧ err % 8 = 4))) ∧
    (let s := base; let line : Nat := 2; let err : Nat := 3; let struct : Nat := 3; (struct = 3 ∨ struct = 4) ∧ 1 ≤ err ∧ err ≤ 4 ∧
       (let core := line % 8192; (s.die (core / 1024)).log.length < 256)) ∧
    (let s := base; let seq : Nat := 1; let sector : Nat := 0; (getD s.seqs sector 0 ≠ seq ∨ s.mem.wf = true)) := by
  refine ⟨?_, ?_, ?_, ?_, ?_, ?_, ?_, ?_⟩ <;> decide +kernel

theorem witness_HostAndBootEvents_1 :
    (let s := base |> (fun s => { s with bootStep := 5 }); (5 ≤ s.bootStep ∨ s.bootFail ≠ 0)) ∧
    (let s := base; s.bootFail = 0 ∧ s.bootStep = 0 ∧ get? s.flash 0 = none) ∧
    (let s := base |> (fun s => { s with flash := [0, 1, 2, 3].map fun i => (i, image) }); s.bootFail = 0 ∧ s.bootStep = 0 ∧ (∃ i ∈ get? s.flash 0, True)) ∧
    (let s := base |> (fun s => { s with bootStep := 1 }); s.bootFail = 0 ∧ s.bootStep = 1 ∧ get? s.flash 1 = none) ∧
    (let s := base |> (fun s => { s with bootStep := 1 }) |> (fun s => { s with flash := [0, 1, 2, 3].map fun i => (i, image) }); s.bootFail = 0 ∧
       s.bootStep = 1 ∧ (∃ i ∈ get? s.flash 1, True)) ∧
    (let s := base |> (fun s => { s with bootStep := 2 }); s.bootFail = 0 ∧ s.bootStep = 2 ∧ get? s.flash 2 = none) ∧
    (let s := base |> (fun s => { s with flash := [0, 1, 2, 3].map fun i => (i, image) }) |> (fun s => { s with bootStep := 2 }); s.bootFail = 0 ∧
       s.bootStep = 2 ∧ (∃ i ∈ get? s.flash 2, True)) ∧
    (let s := base |> (fun s => { s with dies := (List.range 20).map fun d => (d, { on := true, locked := true }) }) |> (fun s => { s with bootStep := 3 });
       s.bootFail = 0 ∧ s.bootStep = 3 ∧ (List.range 20).all (fun c => (s.die c).locked) = true) := by
  refine ⟨?_, ?_, ?_, ?_, ?_, ?_, ?_, ?_⟩ <;> decide +kernel

theorem witness_HostAndBootEvents_2 :
    (let s := base |> (fun s => { s with bootStep := 4 }); s.bootFail = 0 ∧ s.bootStep = 4 ∧ get? s.flash 3 = none) ∧
    (let s := base |> (fun s => { s with flash := [0, 1, 2, 3].map fun i => (i, image) }) |> (fun s => { s with bootStep := 4 }); s.bootFail = 0 ∧
       s.bootStep = 4 ∧ (∃ i ∈ get? s.flash 3, True)) ∧
    (let s := base; let die : Nat := 8; (8 ≤ die ∨ s.diefail.getLsbD die = true ∨ s.bootStep < 3)) ∧
    (let s := base |> (fun s => { s with bootStep := 4 }); let die : Nat := 0; die < 8 ∧ s.diefail.getLsbD die = false ∧ 3 ≤ s.bootStep) ∧
    (let s := base; s.bootStep < 5) ∧
    (let s := base; let peer : Nat := 192; 192 ≤ peer) ∧
    (let s := base; let peer : Nat := 191; let haddr : Nat := (2 ^ 27 + 191 * 2 ^ 26) * 12288; let size : Nat := 8; peer < 192 ∧
       ofPeer peer haddr size = true) ∧
    (let s := base; let peer : Nat := 0; let haddr : Nat := (2 ^ 27 + 191 * 2 ^ 26) * 12288; let size : Nat := 8; peer < 192 ∧
       ofPeer peer haddr size = false ∧ onDevice haddr size = false) := by
  refine ⟨?_, ?_, ?_, ?_, ?_, ?_, ?_, ?_⟩ <;> decide +kernel

theorem witness_HostAndBootEvents_3 :
    (let s := base; let haddr : Nat := (2 ^ 26 + 2 ^ 24) * 12288 - 8; let size : Nat := 8; onDevice haddr size = true) ∧
    (let s := base; let peer : Nat := 0; let haddr : Nat := 0; let size : Nat := 64; onDevice haddr size = true ∧ peer < 192) ∧
    (let s := base; let hpart : Nat := 2; (let there := (get? s.parts hpart).isSome = true; ¬there)) ∧
    (let s := base; let hpart : Nat := 0; (let there := (get? s.parts hpart).isSome = true; there)) ∧
    (let s := base; let hpart : Nat := 0; let arg1 : Word := 1; let res : Word := 5001; (let there := (get? s.parts hpart).isSome = true; there ∧
       (arg1 ≠ 0 ∨ res.toNat % 8 ≠ 0))) ∧
    (let s := base; let hpart : Nat := 0; let res : Word := 5001; (let there := (get? s.parts hpart).isSome = true; there ∧ res.toNat % 8 ≠ 0)) ∧
    (let s := base; let hpart : Nat := 0; let arg0 : Word := 7169; let res : Word := 5000; (let there := (get? s.parts hpart).isSome = true; there ∧
       res.toNat % 8 = 0 ∧ (arg0.toNat % 128 ≠ 0 ∨ s.mayAccess hpart 1 arg0.toNat .load = false))) ∧
    (let s := base; let hpart : Nat := 0; let arg0 : Word := 9216; let res : Word := 5000; (let there := (get? s.parts hpart).isSome = true; there ∧
       res.toNat % 8 = 0 ∧ arg0.toNat % 128 = 0 ∧ s.mayAccess hpart 1 arg0.toNat .load = true ∧ (∃ pa ∈ s.physOf hpart arg0.toNat, True))) := by
  refine ⟨?_, ?_, ?_, ?_, ?_, ?_, ?_, ?_⟩ <;> decide +kernel

theorem witness_HostAndBootEvents_4 :
    (let s := base; let hpart : Nat := 0; let arg0 : Word := 2 ^ 50; let res : Word := 5000; (let there := (get? s.parts hpart).isSome = true; there ∧
       res.toNat % 8 = 0 ∧ (arg0.toNat % 1024 ≠ 0 ∨ s.mayAccess hpart 1 arg0.toNat .load = false))) ∧
    (let s := base; let hpart : Nat := 0; let arg0 : Word := 7168; let res : Word := 5000; (let there := (get? s.parts hpart).isSome = true; there ∧
       res.toNat % 8 = 0 ∧ arg0.toNat % 1024 = 0 ∧ s.mayAccess hpart 1 arg0.toNat .load = true)) ∧
    (let s := base; let mode : Word := 3; 2 < mode.toNat) ∧
    (let s := base |> (fun s => { s with launches := [(7, { launch with part := 0 })] }); let mode : Word := 2; mode.toNat ≤ 2 ∧ s.launches ≠ []) ∧
    (let s := base; let mode : Word := 0; mode.toNat ≤ 2 ∧ s.launches = [] ∧ get? s.flash 2 = none) ∧
    (let s := base |> (fun s => { s with flash := [0, 1, 2, 3].map fun i => (i, image) }); let mode : Word := 2; mode.toNat ≤ 2 ∧ s.launches = [] ∧
       (∃ i ∈ get? s.flash 2, True)) ∧
    (let s := base; let set : Word := 1; let share : Word := 4096; (let g := set.toNat;
       (setCount s.mode ≤ g ∨ 2 ^ 12 ≤ share.toNat ∨ bits share.toNat 4 4 < 2 ∨ 14 < bits share.toNat 0 4))) ∧
    (let s := base; let set : Word := 0; let share : Word := 0xEE; (let g := set.toNat; g < setCount s.mode ∧ share.toNat < 2 ^ 12 ∧
       2 ≤ bits share.toNat 4 4 ∧ bits share.toNat 0 4 ≤ 14 ∧ (let need := bits share.toNat 0 4 + bits share.toNat 4 4 + bits share.toNat 8 4;
       (let full := (List.range 4).all fun v => (get? s.parts (4 * g + v)).isSome;
       (let short := (setClusters s.mode g).any fun c => (s.spareBanks c).length < need; (full = true ∨ short = true)))))) := by
  refine ⟨?_, ?_, ?_, ?_, ?_, ?_, ?_, ?_⟩ <;> decide +kernel

theorem witness_HostAndBootEvents_5 :
    (let s := base; let set : Word := 0; let share : Word := 0x20; (let g := set.toNat; g < setCount s.mode ∧ share.toNat < 2 ^ 12 ∧
       2 ≤ bits share.toNat 4 4 ∧ bits share.toNat 0 4 ≤ 14 ∧ (let need := bits share.toNat 0 4 + bits share.toNat 4 4 + bits share.toNat 8 4;
       (let full := (List.range 4).all fun v => (get? s.parts (4 * g + v)).isSome;
       (let short := (setClusters s.mode g).any fun c => (s.spareBanks c).length < need; full = false ∧ short = false ∧ get? s.flash 2 = none))))) ∧
    (let s := base |> (fun s => { s with flash := [0, 1, 2, 3].map fun i => (i, image) }); let set : Word := 0; let share : Word := 0x20;
       (let g := set.toNat; g < setCount s.mode ∧ share.toNat < 2 ^ 12 ∧ 2 ≤ bits share.toNat 4 4 ∧ bits share.toNat 0 4 ≤ 14 ∧
       (let need := bits share.toNat 0 4 + bits share.toNat 4 4 + bits share.toNat 8 4;
       (let full := (List.range 4).all fun v => (get? s.parts (4 * g + v)).isSome;
       (let short := (setClusters s.mode g).any fun c => (s.spareBanks c).length < need; full = false ∧ short = false ∧
       (∃ i ∈ get? s.flash 2, (∃ v ∈ (List.range 4).find? (fun v => (get? s.parts (4 * g + v)).isNone), True))))))) ∧
    (let s := base; let set : Word := 1; let idx : Word := 3; (let g := set.toNat; (let into := idx.toNat; (let part := 4 * g + into;
       (setCount s.mode ≤ g ∨ 3 < into ∨ get? s.parts part = none))))) ∧
    (let s := base |> (fun s => { s with launches := [(7, { launch with part := 0 })] }); let set : Word := 0; let idx : Word := 0; (let g := set.toNat;
       (let into := idx.toNat; (let part := 4 * g + into; g < setCount s.mode ∧ into ≤ 3 ∧ (get? s.parts part).isSome = true ∧
       s.launches.any (fun l => l.2.part == part) = true)))) ∧
    (let s := base; let set : Word := 0; let idx : Word := 0; (let g := set.toNat; (let into := idx.toNat; (let part := 4 * g + into; g < setCount s.mode ∧
       into ≤ 3 ∧ (get? s.parts part).isSome = true ∧ s.launches.any (fun l => l.2.part == part) = false)))) ∧
    (let s := base |> (set fun d => { d with active := some 0, slice := 100, sliceAt := 0 }); let set : Word := 0; let idx : Word := 0;
       (let g := set.toNat; (let into := idx.toNat; (let d := s.set g; (let part := 4 * g + into; g < setCount s.mode ∧ into ≤ 3 ∧
       (get? s.parts part).isSome = true ∧ d.active = some into ∧ d.halted = false))))) ∧
    (let s := base |> (set fun d => { d with active := some 0, halted := true }); let set : Word := 0; let idx : Word := 0; (let g := set.toNat;
       (let into := idx.toNat; (let d := s.set g; (let part := 4 * g + into; g < setCount s.mode ∧ into ≤ 3 ∧ (get? s.parts part).isSome = true ∧
       d.active = some into ∧ d.halted = true))))) ∧
    (let s := base |> (set fun d => { d with active := some 0, slice := 100, sliceAt := 0 }) |> (fun s => { s with parts := [0, 1, 2, 3].map fun v => (v, {}) });
       let set : Word := 0; let idx : Word := 1; (let g := set.toNat; (let into := idx.toNat; (let d := s.set g; (let part := 4 * g + into;
       g < setCount s.mode ∧ into ≤ 3 ∧ (get? s.parts part).isSome = true ∧ (∃ a ∈ d.active, a ≠ into)))))) := by
  refine ⟨?_, ?_, ?_, ?_, ?_, ?_, ?_, ?_⟩ <;> decide +kernel

theorem witness_HostAndBootEvents_6 :
    (let s := base; let set : Word := 0; let idx : Word := 0; (let g := set.toNat; (let into := idx.toNat; (let d := s.set g; (let part := 4 * g + into;
       g < setCount s.mode ∧ into ≤ 3 ∧ (get? s.parts part).isSome = true ∧ d.active = none))))) ∧
    (let s := base; let set : Word := 1; let slice : Word := 0; (let g := set.toNat; (setCount s.mode ≤ g ∨ (slice ≠ 0 ∧
       (slice.toNat < 100 ∨ 100000 < slice.toNat))))) ∧
    (let s := base; let set : Word := 0; let slice : Word := 100; (let g := set.toNat; g < setCount s.mode ∧ (slice = 0 ∨ 100 ≤ slice.toNat ∧
       slice.toNat ≤ 100000))) ∧
    (let s := base; let set : Word := 1; (let g := set.toNat; (let d := s.set g; (setCount s.mode ≤ g ∨ d.active = none)))) ∧
    (let s := base |> (set fun d => { d with active := some 0, halted := true }); let set : Word := 0; (let g := set.toNat; (let d := s.set g;
       g < setCount s.mode ∧ (∃ a ∈ d.active, True)))) ∧
    (let s := base |> (set fun d => { d with active := some 1, halted := true }); let set : Word := 0; (let g := set.toNat; (let d := s.set g;
       g < setCount s.mode ∧ (∃ a ∈ d.active, d.halted = true)))) ∧
    (let s := base |> (set fun d => { d with active := some 0, slice := 100, sliceAt := 0 }); let set : Word := 0; (let g := set.toNat; (let d := s.set g;
       g < setCount s.mode ∧ (∃ a ∈ d.active, d.halted = false)))) ∧
    (let s := base; s.meas.length = 4) := by
  refine ⟨?_, ?_, ?_, ?_, ?_, ?_, ?_, ?_⟩ <;> decide +kernel

theorem witness_HostAndBootEvents_7 :
    (let s := base; let set : Word := 0; (let g := set.toNat; s.sliceDue g = false)) ∧
    (let s := base |> (fun s => { s with parts := put s.parts 1 { startDue := true } }) |> (set fun d => { d with active := some 0, slice := 100, sliceAt := 0 });
       let set : Word := 0; (let g := set.toNat; (let d := s.set g; s.sliceDue g = true ∧
       (∃ a ∈ d.active, (List.range 3).all (fun v => !s.wantsTurn (4 * g + (a + 1 + v) % 4)) = true)))) ∧
    (let s := base |> (set fun d => { d with active := some 0, slice := 100, sliceAt := 0 }) |> (fun s => { s with bootStep := 3 }) |> (fun s => { s with launches := [(7, { launch with part := 1 })] }) |> (fun s => { s with parts := [0, 1, 2, 3].map fun v => (v, {}) });
       let set : Word := 0; (let g := set.toNat; (let d := s.set g; s.sliceDue g = true ∧ (∃ a ∈ d.active, s.wantsTurn (4 * g + (a + 1) % 4) = true)))) := by
  refine ⟨?_, ?_, ?_⟩ <;> decide +kernel

/-- A trace region (10 Table 10-2) at 9,216 whose stored descriptor asks for two blocks of 1,024 threads. -/
def region : State := { small with mem := desc (writeNat (writeNat tables 9216 1 4) 9220 2 4) 9344 2 1024 }

theorem stored_read : natOfBytes (region.readVirt 0 (9216 + 0x80) 128) =
    0x100 + 2 * 256 ^ 8 + 1024 * 256 ^ 12 + 32 * 256 ^ 16 + 77 * 256 ^ 0x18 + 0x4444 * 256 ^ 0x20 + 4096 * 256 ^ 0x28 + 3 * 256 ^ 0x30 := by
  decide +kernel

theorem witness_LaunchEvents_stored :
    NoSamples region ∧ region.mayAccess 0 1 9216 .load = true ∧ region.numVirt 0 9216 4 = 1 ∧ region.numVirt 0 (9216 + 4) 4 = 2 ∧
    (let copy := natOfBytes (region.readVirt 0 (9216 + 0x80) 128)
     region.refusal copy (launchOf copy 0 (region.launchIds + 1) 4096) 1 = none ∧
     region.refusal copy (launchOf copy 0 (region.launchIds + 1) 4097) 1 = some 1) := by
  rw [stored_read]; delta Claims.NoSamples; decide +kernel

/-- A thread whose w1 names page 0, and whose w2 asks for one page. -/
def onePage : State := base |> w [0, 0, 1]
theorem onePage_hits : ∀ j < 1, Hits onePage (BitVec.ofNat 64 ((onePage.th.wv 1).toNat + 12288 * j)) := by
  intro j hj
  obtain rfl : j = 0 := by omega
  exact ⟨by decide +kernel, 0, by rfl⟩
theorem witness_TraceInstructions_marked :
    NoPrefix onePage ∧ Unpaired onePage ∧ NoFailure onePage ∧ Full onePage [1, 2] ∧ onePage.th.marked = 0 ∧
    (onePage.th.wv 2).toNat = 1 ∧ (∀ j < 1, Hits onePage (BitVec.ofNat 64 ((onePage.th.wv 1).toNat + 12288 * j))) ∧
    regionAt (onePage.th.wv 1).toNat ≠ .mesh := by
  refine ⟨?_, ?_, ?_, ?_, by decide +kernel, by decide +kernel, onePage_hits, by decide +kernel⟩ <;>
    delta Claims.NoPrefix Claims.Unpaired Claims.NoFailure Claims.Full <;> decide +kernel

/-! ### Witnesses of the statements about steps -/

/-- The machine after reset with `cmpi.lt.s pw.5, w2, #-3` (07, after R169) placed. -/
def placed : State := State.reset.withFetchWord 32 0x17FF4913
/-- The same with `nop` (06, after R146) placed. -/
def placedHalf : State := State.reset.withFetchWord 16 0xE00D
theorem witness_StepRuns_word :
    let v := placed.unload
    let t := v.load 0 0 12288
    v.pick = some (.issue 0 0) ∧ (nth (v.core 0).slots 0 {}).ctx = some 12288 ∧ (t.ctx 12288).heldTraps = [] ∧ (t.ctx 12288).heldStop = [] ∧ t.th.entryHi = 0 ∧
    t.th.pc = 0 ∧ regionAt 0 ≠ .mesh ∧ regionAt 0 ≠ .context ∧ regionAt 2 ≠ .mesh ∧ regionAt 2 ≠ .context ∧
    ∃ x ∈ hit (t.look t.hereCore t.here.ctx 0 .fetch), x.2.olds = [] ∧
      let h := readByte x.2.mem (x.1 + 1) ++ readByte x.2.mem x.1
      h.extractLsb' 0 2 = 3 ∧ ∃ y ∈ hit (x.2.look x.2.hereCore x.2.here.ctx 2 .fetch), y.2.olds = [] ∧
        let w := readByte y.2.mem (y.1 + 1) ++ readByte y.2.mem y.1 ++ h
        w = 0x17FF4913 ∧ ({ y.2 with ienc := (Enc.word w).toWord }).breakHit = none := by
  decide +kernel

theorem witness_StepRuns_half :
    let v := placedHalf.unload
    let t := v.load 0 0 12288
    v.pick = some (.issue 0 0) ∧ (nth (v.core 0).slots 0 {}).ctx = some 12288 ∧ (t.ctx 12288).heldTraps = [] ∧ (t.ctx 12288).heldStop = [] ∧ t.th.entryHi = 0 ∧
    t.th.pc = 0 ∧
    ∃ x ∈ hit (t.look t.hereCore t.here.ctx 0 .fetch), x.2.olds = [] ∧
      let h := readByte x.2.mem (x.1 + 1) ++ readByte x.2.mem x.1
      h.extractLsb' 0 2 ≠ 3 ∧ ({ x.2 with ienc := (Enc.half h).toWord }).breakHit = none := by
  decide +kernel

/-- No slot holds a context and nothing is due. -/
def quiet : State := { placed with cores := [], ctxs := [], cdir := [] }

theorem witness_StepRuns_message :
    let v := ({ quiet with inbox := [.rasPop 3] }).unload
    v.pick = some (.message 0) ∧ v.inbox[0]? = some (.rasPop 3) := by
  decide +kernel

/-- The exchange of memory die 8 is due. -/
def exchange : State := { quiet with gtime := 4000 * 1000, dies := [(8, { ({} : Die) with on := true })] }

theorem witness_StepRuns_errand :
    let v := ({ quiet with inbox := [.errand (.answer 1280 5 0 (.core 0))] }).unload
    v.agenda = [.message 0] ∧ v.inbox[0]? = some (.errand (.answer 1280 5 0 (.core 0))) := by
  decide +kernel

theorem witness_StepRuns_due : exchange.unload.pick = some (.due (.calliopeExchange 8)) := by
  decide +kernel

theorem witness_StepRuns_pass : quiet.unload.pick = none ∧ quiet.unload.sub < 273 := by
  decide +kernel

theorem witness_DecodeEncode_1 : (Instr.yield).wellFormed = true ∧ encode .yield = some (.word 0x0014003B) := by
  decide +kernel
theorem witness_DecodeEncode_2 :
    decode (.word 0x0014003B) = .ok .yield ∧ (0x0014003B : BitVec 32).extractLsb' 0 2 = 3 ∧ decode (.half 0xE00D) = .ok .nopC16 := by
  decide +kernel

theorem witness_StepKeepsCanonical : quiet.canonical = true ∧
    (match step quiet with | .next _ => true | _ => false) = true := by
  decide +kernel

theorem witness_ResetValues : (0 : Nat) < 8192 ∧ 8191 < 8192 ∧ (0x65 : Nat) ≤ 0x65 ∧
    ([0x70, 0x50, 0x65, 0x46, 0x01].all fun n => State.reset.readSys 8191 0 n == 0) = true := by
  decide +kernel

/-! ### Witnesses of the order of the checks at an issue -/

theorem witness_IssueOrder_legal : Unpaired base ∧ ({ ok := false } : Issue).ok = false ∧
    (base |> th fun c => { c with pfx := true }).th.pfx = true ∧
    ({} : Issue).pfx.accepts (base |> th fun c => { c with pfx := true }).th.pfxval = false := by
  delta Claims.Unpaired; decide +kernel

theorem witness_IssueOrder_privilege : ({ priv := 1 } : Issue).ok = true ∧ base.th.pfx = false ∧
    base.th.priv.toNat < ({ priv := 1 } : Issue).priv := by
  decide +kernel

/-- w3, w5 and e1 are empty, and w2 and e2 have fills outstanding. -/
def gaps : State := base |> th fun c => { c with few := 0xD7, fee := 0xD, pend := 4, epend := 4 }

theorem witness_IssueOrder_empty :
    (((5, true) ∈ [(6, true), (5, true)] ∧ gaps.th.full 5 = false) ∧
      ∀ k, (k, true) ∈ [(6, true), (5, true)] ∧ gaps.th.full k = false → 5 ≤ k) ∧
    ((∀ k, ¬((k, true) ∈ [(9, false), (3, false)] ∧ gaps.th.full k = false)) ∧ 3 < 12 ∧
      ((3, false) ∈ [(9, false), (3, false)] ∧ gaps.th.full 3 = false) ∧
      ∀ k, (k, false) ∈ [(9, false), (3, false)] ∧ gaps.th.full k = false → 3 ≤ k) := by
  refine ⟨⟨by decide +kernel, ?_⟩, ?_, by decide, by decide +kernel, ?_⟩ <;> intro k <;> simp <;> omega

theorem witness_IssueOrder_outstanding :
    (∀ k p, ¬((k, p) ∈ [(1, true)] ∧ gaps.th.full k = false)) ∧
    (2 < 8 ∧ (2 ∈ [2] ∧ gaps.th.pend.getLsbD 2 = true) ∧ ∀ k, k ∈ [2] ∧ gaps.th.pend.getLsbD k = true → 2 ≤ k) ∧
    ((∀ k ∈ [1], gaps.th.pend.getLsbD k = false) ∧ 2 < 4 ∧ (2 ∈ [2] ∧ gaps.th.epend.getLsbD 2 = true) ∧
      ∀ k, k ∈ [2] ∧ gaps.th.epend.getLsbD k = true → 2 ≤ k) ∧
    (∀ k ∈ [1], gaps.th.epend.getLsbD k = false) := by
  have h : gaps.th.full 1 = true := by decide +kernel
  refine ⟨?_, ⟨by decide, by decide +kernel, ?_⟩, ⟨by decide +kernel, by decide, by decide +kernel, ?_⟩, by decide +kernel⟩
  · rintro k p ⟨hk, hf⟩
    simp at hk
    rw [hk.1, h] at hf
    exact Bool.noConfusion hf
  all_goals (intro k; simp; omega)

/-! ### Witnesses of a pair's issue -/

/-- The issuing thread leads a pair of which 1280 trails, or trails one that 1280 leads. -/
def leads : State := base |> th (fun c => { c with pair := 1, peer := some 1280 })
def trails (f : Ctx → Ctx) : State := base |> th (fun c => { c with pair := 2, peer := some 1280 }) |> cx 1280 (fun c => { f c with pair := 1, peer := some 1152 })
/-- The key of a trap that the issuing thread meets, and of an instruction with no operands. -/
def trapHere : List Word := trapKey 1 base.ienc base.th.pc
def keyHere : List Word := ({} : Issue).key base.th base.ienc

theorem witness_IssueOrder_pair_trap :
    (leads.th.peer = some 1280 ∧ leads.th.pair = 1 ∧ leads.th.comparator.getLast? ≠ some trapHere) ∧
    ((trails id).th.pair ≠ 1 ∧ ((trails id).ctx 1280).ahead = 0 ∧ ((trails id).ctx 1280).comparator = []) ∧
    (((trails fun c => { c with comparator := [trapHere] }).ctx 1280).ahead = 0 ∧
      ((trails fun c => { c with comparator := [trapHere] }).ctx 1280).comparator.head? = some trapHere) ∧
    ((trails fun c => { c with ahead := 1 }).ctx 1280).ahead ≠ 0 := by
  refine ⟨?_, ?_, ?_, ?_⟩ <;> decide +kernel

theorem witness_IssueOrder_leading :
    (∀ x ∈ ({} : Issue).srcs, leads.th.full x.1 = true) ∧ (∀ k ∈ ({} : Issue).long, leads.th.pend.getLsbD k = false) ∧
    (∀ k ∈ ({} : Issue).eout, leads.th.epend.getLsbD k = false) ∧ leads.th.pair = 1 ∧
    -- queues that are full, and ones with room; a load behind what is yet to be compared
    64 < (leads |> th fun c => { c with lvq := List.replicate 64 { reg := 1, val := none } }).th.lvq.length + 1 ∧
    (leads |> th fun c => { c with comparator := [keyHere] }).th.comparator ≠ [] ∧
    leads.th.lvq.length + 1 ≤ 64 ∧ leads.th.comparator = [] ∧
    32 ≤ (leads |> th fun c => { c with comparator := List.replicate 32 keyHere }).th.comparator.length ∧
    leads.th.comparator.length < 32 ∧ leads.th.showsTrap = false ∧ leads.th.stall = none ∧ leads.th.kind = 0 ∧
    leads.th.comparator.getLast? ≠ some keyHere := by
  refine ⟨?_, ?_, ?_, ?_, ?_, ?_, ?_, ?_, ?_, ?_, ?_, ?_, ?_, ?_⟩ <;> decide +kernel

theorem witness_IssueOrder_trailing :
    -- a key that differs, one that is the same, and a trap that only the leading context meets
    (let s := trails fun c => { c with comparator := [[7]] }
     (s.ctx 1280).ahead = 0 ∧ ∃ k ∈ (s.ctx 1280).comparator.head?, k.head? ≠ some (BitVec.allOnes 64) ∧ k ≠ keyHere) ∧
    (let s := trails fun c => { c with comparator := [keyHere] }
     (s.ctx 1280).ahead = 0 ∧ ∃ k ∈ (s.ctx 1280).comparator.head?, k.head? ≠ some (BitVec.allOnes 64) ∧ k = keyHere) ∧
    (let s := trails fun c => { c with comparator := [trapHere] }
     (s.ctx 1280).ahead = 0 ∧ (∃ k ∈ (s.ctx 1280).comparator.head?, k.head? = some (BitVec.allOnes 64)) ∧ s.th.kind = 0 ∧ s.th.stall = none) ∧
    -- the leading context is ahead, with a value that it took, with none, and with a key
    (let s := trails fun c => { c with ahead := 1, lvq := [{ reg := 1, val := some 5 }] }
     (s.ctx 1280).ahead ≠ 0 ∧ s.here.ctx ≠ 1280 ∧ s.th.kind = 0 ∧ (s.ctx 1280).lvq.tail = [] ∧
       ∃ e ∈ (s.ctx 1280).lvq.head?, e.claim = none ∧ e.val.isSome = true) ∧
    (let s := trails fun c => { c with ahead := 1 }
     (s.ctx 1280).ahead ≠ 0 ∧ ((s.ctx 1280).lvq.filter fun e => e.claim == none).length < 1 ∧ (s.ctx 1280).comparator.headD [] ≠ keyHere) ∧
    (let s := trails fun c => { c with ahead := 1, comparator := [keyHere] }
     (s.ctx 1280).ahead ≠ 0 ∧ (s.ctx 1280).comparator.headD [] = keyHere) := by
  refine ⟨?_, ?_, ?_, ?_, ?_, ?_⟩ <;> decide +kernel

theorem witness_IssueOrder_mismatch :
    let s : State := { trails id with blocks := [(3, { block with live := [1280, 1152] })], launches := [(7, launch)] }
    s.th.pair ≠ 1 ∧ 1280 ≠ s.here.ctx ∧ s.cur ≠ none ∧ s.th.lastCore = some s.hereCore ∧
      (∃ b ∈ get? s.blocks s.th.blk, b.live = [1280, s.here.ctx] ∧
        ∃ l ∈ get? s.launches b.launch, bitAt l.flags 0 = false ∧ get? l.avoid b.index = none) ∧
      (s.core s.hereCore).hctxM ≠ some 1280 ∧ (s.core s.hereCore).hctxS ≠ some 1280 ∧ (s.core s.hereCore).hctxM ≠ some s.here.ctx ∧
      (s.core s.hereCore).hctxS ≠ some s.here.ctx ∧ (s.die s.hereDie).log.length < 256 := by
  refine ⟨?_, ?_, ?_, ?_, ?_, ?_, ?_, ?_, ?_, ?_⟩ <;> decide +kernel

/-! ### Witnesses of streams in pages -/

/-- A stream of ten bytes at virtual byte 64, with its code in the L1 or with an empty L1. -/
def streamed : State := base |> e [512, 592] |> w [0, 64, 5]
def streamedNear : State := streamed |> core fun c => { c with l1 := [(1, List.replicate 48 7)] }
theorem witness_Bitstream_page :
    PageBits streamed id 512 (512 + 5) ∧ (streamed.core streamed.hereCore).l1 = [] ∧ NoPrefix streamed ∧ isWide streamed.hereCore = true ∧
    Full streamed [2, 8, 9] ∧ Unpaired streamed ∧ NoPend streamed [3] ∧ NoFailure streamed ∧ NoProfile streamed ∧ streamed.flying = [] ∧
    streamed.held = [] ∧ (streamed.th.ev 0).toNat = 512 ∧ (streamed.th.ev 1).toNat = 592 ∧ (streamed.th.wv 2).toNat = 5 := by
  refine ⟨?_, ?_, ?_, ?_, ?_, ?_, ?_, ?_, ?_, ?_, ?_, ?_, ?_, ?_⟩
  · intro b hb
    obtain rfl : b = 64 := by simpa [bytesFor] using hb
    exact ⟨by decide +kernel, by rfl, by decide +kernel, by decide +kernel⟩
  all_goals (try delta Claims.NoPrefix); (try delta Claims.Full); (try delta Claims.Unpaired); (try delta Claims.NoPend); (try delta Claims.NoFailure); (try delta Claims.NoProfile); decide +kernel
theorem witness_Bitstream_near :
    (PageBits streamedNear id 512 (512 + 2 * 5 + 1) ∧ (∀ i ∈ bytesFor 512 (512 + 2 * 5 + 1), L1Byte streamedNear (id i) 7)) ∧
    streamNat (fun _ => 7) 512 5 = 0 ∧ streamAt (fun _ => 7) (512 + 5) = true := by
  refine ⟨⟨?_, ?_⟩, by decide +kernel, by decide +kernel⟩ <;> intro b hb
  · obtain rfl | rfl : b = 64 ∨ b = 65 := by simpa [bytesFor, List.range, List.range.loop] using hb
    all_goals exact ⟨by decide +kernel, by rfl, by decide +kernel, by decide +kernel⟩
  · obtain rfl | rfl : b = 64 ∨ b = 65 := by simpa [bytesFor, List.range, List.range.loop] using hb
    all_goals (delta Claims.L1Byte Claims.Clean; decide +kernel)

/-! ### Witnesses of the host's windows -/

theorem ports_apart (n : Nat) (h : n < 64) : inPorts (Config.mailBase + n) = false := by
  unfold inPorts Config.mailBase Config.portBase
  generalize Config.portAt = p
  generalize Config.mailAt = m
  split <;> simp <;> omega
theorem memory_apart (a : Nat) (h : a < (2 ^ 26 + 2 ^ 24) * 12288) : inPorts a = false ∧ inMailbox a = false := by
  unfold inPorts inMailbox Config.mailBase Config.portBase
  generalize Config.portAt = p
  generalize Config.mailAt = m
  constructor
  · simp; omega
  · split <;> simp <;> omega
theorem witness_HostAndBootEvents_ports :
    let s : State := { base with bootStep := 5, parts := [(1, {})] }
    5 ≤ s.bootStep ∧ inPorts (Config.portBase + 32) = true ∧ (s.part 1).port.length < 256 ∧ (get? s.parts 1).isSome = true ∧
      (Config.portBase + 32 - Config.portBase) / 32 = 1 ∧ (Config.portBase + 32 - Config.portBase) % 32 = 0 ∧
      ([1, 2, 3].all fun d => (BitVec.ofNat 64 (d / 2 ^ (64 * 3))).toNat % 8 == 0 && BitVec.ofNat 64 (d / 2 ^ (64 * 2)) == 0) = true ∧
      (onDevice 4096 8 = true ∧ inPorts 4096 = false ∧ inMailbox 4096 = false) ∧ (s.die 21).knows = [] ∧
      (onDevice ((2 ^ 26 + 2 ^ 24) * 12288 - 4) 8 = false ∧ inPorts ((2 ^ 26 + 2 ^ 24) * 12288 - 4) = false ∧
        inMailbox ((2 ^ 26 + 2 ^ 24) * 12288 - 4) = false) := by
  have h : Config.portBase + 32 - Config.portBase = 32 := Nat.add_sub_cancel_left ..
  exact ⟨by decide +kernel, by simp [inPorts], by decide +kernel, by decide +kernel, by rw [h], by rw [h], by decide +kernel,
    ⟨by decide +kernel, memory_apart _ (by decide)⟩, by decide +kernel, by decide +kernel, memory_apart _ (by decide)⟩
theorem witness_HostAndBootEvents_mailbox :
    let s : State := { base with bootStep := 5 }
    5 ≤ s.bootStep ∧ inPorts Config.mailBase = false ∧ inMailbox Config.mailBase = true ∧ s.mailbox.length < 16 ∧
      inPorts (Config.mailBase + 8) = false ∧ inMailbox (Config.mailBase + 8) = true ∧ Config.mailBase + 8 ≠ Config.mailBase := by
  exact ⟨by decide +kernel, ports_apart 0 (by omega), by simp [inMailbox], by decide +kernel, ports_apart 8 (by omega), by simp [inMailbox],
    Nat.ne_of_gt (Nat.lt_add_of_pos_right (by decide))⟩

end Sys2Proof.Tests
end

/-! SUPPORT. Every meaning of an instruction, and every step but one, answers a next state: the outcomes `.fault` and `.refused` of
the model are never built by `exec`. First the shared operations, each by its own branches; then the instructions and the rows of the
other units; then the dispatch and the step. -/

namespace Sys2Proof.Proofs

open Sys2Proof Sys2Proof.Machine

set_option Elab.async false

/-- An outcome that does not stop the machine. -/
def Proceeds (o : Out) : Prop := ∃ t, o = .next t

/-! ### Outcomes -/

theorem proceeds_next (s : State) : Proceeds (.next s) := ⟨s, rfl⟩

theorem proceeds_ite {c : Prop} [Decidable c] {a b : Out} (ha : Proceeds a) (hb : Proceeds b) : Proceeds (if c then a else b) := by
  split
  · exact ha
  · exact hb

theorem proceeds_ite_next {c : Prop} [Decidable c] {s t : State} : Proceeds (if c then .next s else .next t) :=
  proceeds_ite (proceeds_next _) (proceeds_next _)

theorem idle_proceeds (s : State) (tag : Word) : Proceeds (s.idle tag) := proceeds_next _

theorem standsAt_proceeds (s : State) (key : List Word) : Proceeds (s.standsAt key) := idle_proceeds ..

/-! ### Traps: a trap is a next state, not a fault of the model -/

theorem pairTrap_proceeds (s : State) (cause : Nat) (info : Word) (pc : BitVec 57) : Proceeds (s.pairTrap cause info pc) := by
  unfold State.pairTrap
  split
  · exact proceeds_next _
  · refine proceeds_ite (standsAt_proceeds ..) (proceeds_ite (proceeds_next _) ?_)
    split
    · exact idle_proceeds ..
    · exact proceeds_ite_next

theorem raise_proceeds (s : State) (cause : Nat) (info : Word) (pc : BitVec 57) : Proceeds (s.raise cause info pc) :=
  proceeds_ite (proceeds_next _) (pairTrap_proceeds ..)

theorem fault_proceeds (s : State) (cause : Nat) (info : Word) : Proceeds (s.fault cause info) := raise_proceeds ..

/-! ### Issuing: an instruction proceeds if its action does -/

section Issue

variable {q : Issue} {act : State → Out}

theorem shows_proceeds {s : State} {go : State → State} (h : ∀ t, Proceeds (act t)) : Proceeds (s.shows q act go) := by
  obtain ⟨t, ht⟩ := h s
  simp only [State.shows, ht]
  exact proceeds_ite_next

theorem leadPart_proceeds {s : State} (h : ∀ t, Proceeds (act t)) : Proceeds (leadPart q s act) := by
  obtain ⟨t, ht⟩ := h s
  simp only [leadPart, ht]
  split
  case h_1 => exact proceeds_next _
  case h_2 => exact proceeds_ite (idle_proceeds ..) proceeds_ite_next
  case h_3 => exact proceeds_ite (idle_proceeds ..) proceeds_ite_next
  case h_4 => exact proceeds_ite (idle_proceeds ..) (shows_proceeds h)
  case h_5 => exact proceeds_ite (idle_proceeds ..) (shows_proceeds h)
  case h_6 => exact proceeds_ite (idle_proceeds ..) (proceeds_ite (proceeds_next _) (standsAt_proceeds ..))

theorem meets_proceeds {s : State} {p : Nat} {key : List Word} (h : ∀ t, Proceeds (act t)) : Proceeds (s.meets p key act) := by
  obtain ⟨t, ht⟩ := h (s.modCtx p fun c => { c with comparator := meetKey :: c.comparator.drop 1 })
  simp only [State.meets, ht]
  exact proceeds_ite_next

theorem trailPart_proceeds {s : State} {p : Nat} (h : ∀ t, Proceeds (act t)) : Proceeds (trailPart q s p act) := by
  obtain ⟨t, ht⟩ := h s
  simp only [trailPart, ht]
  refine proceeds_ite ?_ ?_
  · split
    · exact idle_proceeds ..
    · exact proceeds_ite proceeds_ite_next (proceeds_ite (proceeds_next _) (proceeds_ite (meets_proceeds h) (idle_proceeds ..)))
  · split
    case h_1 => exact proceeds_next _
    case h_2 => exact proceeds_ite (idle_proceeds ..) (proceeds_next _)
    case h_3 => exact proceeds_ite (idle_proceeds ..) (proceeds_next _)
    case h_4 => exact proceeds_ite (proceeds_next _) proceeds_ite_next

theorem paired_proceeds {s : State} (h : ∀ t, Proceeds (act t)) : Proceeds (paired q s act) := by
  unfold paired
  refine proceeds_ite (h s) ?_
  split
  · exact h s
  · exact proceeds_ite (leadPart_proceeds h) (trailPart_proceeds h)

theorem issue_proceeds {s : State} (h : ∀ t, Proceeds (act t)) : Proceeds (issue q s act) := by
  unfold issue
  refine proceeds_ite (fault_proceeds ..) (proceeds_ite (fault_proceeds ..) ?_)
  split
  · exact fault_proceeds ..
  · exact idle_proceeds ..
  · split
    · exact idle_proceeds ..
    · exact idle_proceeds ..
    · exact paired_proceeds h

theorem extGate_proceeds {ext : Nat} {s : State} (h : ∀ t, Proceeds (act t)) : Proceeds (extGate ext s act) := by
  unfold extGate
  refine proceeds_ite (h s) (proceeds_ite (fault_proceeds ..) (proceeds_ite ?_ ?_))
  · exact proceeds_ite (proceeds_next _) (idle_proceeds ..)
  · split
    · exact fault_proceeds ..
    · exact proceeds_ite (standsAt_proceeds ..) (proceeds_ite (idle_proceeds ..) (proceeds_ite (proceeds_next _) (idle_proceeds ..)))

end Issue

theorem asking_proceeds {n : Nat} {send : Nat → State → State} {s : State} {act : Nat → State → Out}
    (h : ∀ v t, Proceeds (act v t)) : Proceeds (asking n send s act) := by
  unfold asking
  split
  · exact proceeds_ite (h ..) (idle_proceeds ..)
  · exact h ..
  · exact idle_proceeds ..

/-! ### Reaching memory -/

theorem withPlace_proceeds {ea : Word} {bytes : Nat} {a : Acc} {s : State} {k : Place → State → Out} (h : ∀ p t, Proceeds (k p t)) :
    Proceeds (withPlace ea bytes a s k) := by
  unfold withPlace
  refine proceeds_ite (fault_proceeds ..) (proceeds_ite (fault_proceeds ..) (proceeds_ite (h ..) ?_))
  split
  · exact h ..
  · exact fault_proceeds ..
  · exact idle_proceeds ..

theorem withStore_proceeds {ea : Word} {align : Nat} {s : State} {k : Nat → State → Out} (h : ∀ loc t, Proceeds (k loc t)) :
    Proceeds (withStore ea align s k) :=
  proceeds_ite (fault_proceeds ..) (proceeds_ite (fault_proceeds ..) (proceeds_ite (fault_proceeds ..)
    (proceeds_ite (fault_proceeds ..) (h ..))))

theorem withHint_proceeds (va : Word) (s : State) (k : Nat → State → State) : Proceeds (withHint va s k) := by
  unfold withHint
  split
  · exact proceeds_next _
  · exact proceeds_next _
  · exact idle_proceeds ..

theorem withPlaces_proceeds {k : List Place → State → Out} (h : ∀ ps t, Proceeds (k ps t)) (s : State) (addrs : List Nat) :
    Proceeds (withPlaces s addrs k) := by
  induction addrs generalizing s k with
  | nil => exact h ..
  | cons a r ih => exact withPlace_proceeds fun p t => ih (fun ps => h (p :: ps)) t

theorem markPages_proceeds {k : State → Out} (h : ∀ t, Proceeds (k t)) (lost : Bool) (va : Nat) (s : State) (n : Nat) :
    Proceeds (markPages lost va s n k) := by
  induction n generalizing va s with
  | zero => exact h s
  | succ n ih => exact withPlace_proceeds fun _ _ => ih ..

theorem withLine_proceeds {v : Word} {s : State} {k : Nat → State → Out} (h : ∀ id t, Proceeds (k id t)) :
    Proceeds (withLine v s k) := by
  unfold withLine
  refine proceeds_ite (fault_proceeds ..) (proceeds_ite (fault_proceeds ..) ?_)
  split
  · exact proceeds_ite (fault_proceeds ..) (h ..)
  · exact fault_proceeds ..
  · exact idle_proceeds ..

theorem doLoad_proceeds (len scope : Nat) (kind : ReqKind) (bytes : Nat) (sg : Bool) (dst : List Nat) (ea : Word) (s : State) :
    Proceeds (doLoad len scope kind bytes sg dst ea s) := by
  refine withPlace_proceeds fun p t => ?_
  cases p with
  | store loc =>
    refine proceeds_ite (idle_proceeds ..) (proceeds_ite (proceeds_ite (idle_proceeds ..) (proceeds_ite ?_ (proceeds_next _))) ?_)
    · split
      · exact idle_proceeds ..
      · exact proceeds_next _
    · split
      · exact idle_proceeds ..
      · exact proceeds_ite_next
  | phys pa =>
    refine proceeds_ite (idle_proceeds ..) ?_
    dsimp only
    split
    · refine proceeds_ite ?_ proceeds_ite_next
      split
      · exact idle_proceeds ..
      · exact proceeds_next _
    · exact idle_proceeds ..
    · exact proceeds_next _

theorem doStore_proceeds (len scope : Nat) (kind : ReqKind) (bytes data : Nat) (ea : Word) (s : State) :
    Proceeds (doStore len scope kind bytes data ea s) := by
  refine withPlace_proceeds fun p t => ?_
  cases p with
  | store loc =>
    exact proceeds_ite (idle_proceeds ..) (proceeds_ite (proceeds_next _)
      (proceeds_ite (proceeds_ite (idle_proceeds ..) (proceeds_next _)) (proceeds_next _)))
  | phys pa =>
    refine proceeds_ite (idle_proceeds ..) ?_
    cases kind <;> exact proceeds_ite_next

/-! ### Waiting for other units -/

theorem afterRelease_proceeds {scope : Nat} {s : State} {act : State → Out} (h : ∀ t, Proceeds (act t)) :
    Proceeds (afterRelease scope s act) :=
  proceeds_ite (h _) (idle_proceeds ..)

theorem storeOp_proceeds (scope loc : Nat) (e : Ev) (s : State) : Proceeds (storeOp scope loc e s) :=
  proceeds_ite (idle_proceeds ..) proceeds_ite_next

theorem withBar_proceeds {n : BitVec 2} {q : Issue} {s : State} {act : Bar → State → Out} (h : ∀ b t, Proceeds (act b t)) :
    Proceeds (withBar n q s act) := by
  refine issue_proceeds fun t => ?_
  split
  · exact fault_proceeds ..
  · exact h ..

theorem sendCommand_proceeds (s : State) (c : Cmd) : Proceeds (s.sendCommand c) :=
  proceeds_ite (idle_proceeds ..) (idle_proceeds ..)

theorem counted_proceeds (s : State) (c : Cmd) : Proceeds (s.counted c) :=
  proceeds_ite (idle_proceeds ..) (sendCommand_proceeds ..)

/-! ### The shared shapes of an instruction -/

section Shapes

variable (n : Nat) (g h : Bool) (a b d t : Reg) (s : State)

theorem alu1_proceeds (f : Word → Word) : Proceeds (alu1 n h a d f s) := issue_proceeds fun _ => proceeds_next _

theorem alu2_proceeds (f : Word → Word → Word) : Proceeds (alu2 n g b h a d f s) := issue_proceeds fun _ => proceeds_next _

theorem alu2Long_proceeds (f : Word → Word → Word) : Proceeds (alu2Long g b h a d f s) := issue_proceeds fun _ => proceeds_next _

theorem fbin_proceeds (f : FFmt) (op : Bool → FVal → FVal → FVal) : Proceeds (fbin f g b h a d op s) :=
  issue_proceeds fun _ => proceeds_next _

theorem ffma_proceeds (f : FFmt) : Proceeds (ffma f g b h a d s) := issue_proceeds fun _ => proceeds_next _

theorem fbinLong_proceeds (f : FFmt) (op : FVal → FVal → FVal) : Proceeds (fbinLong f g b h a d op s) :=
  issue_proceeds fun _ => proceeds_next _

theorem fsqrtLong_proceeds (f : FFmt) : Proceeds (fsqrtLong f h a d s) := issue_proceeds fun _ => proceeds_next _

theorem fcompare_proceeds (f : FFmt) (p : BitVec 6) (c : BitVec 3) : Proceeds (fcompare f p g b h a c s) :=
  issue_proceeds fun _ => proceeds_next _

theorem readValue_proceeds (icause : Nat) (f : State → Word) : Proceeds (readValue d icause f s) :=
  issue_proceeds fun _ => proceeds_next _

theorem branchOn_proceeds {m : Nat} (k : BitVec m) (f : Word → Bool) : Proceeds (branchOn n k h a f s) :=
  issue_proceeds fun _ => proceeds_next _

theorem branchPw_proceeds {m : Nat} (k : BitVec m) (f : Word → Bool) : Proceeds (branchPw n k f s) :=
  issue_proceeds fun _ => proceeds_next _

theorem jump_proceeds (link : Bool) : Proceeds (jump n link h a s) :=
  issue_proceeds fun _ => proceeds_ite (fault_proceeds ..) (proceeds_ite (fault_proceeds ..) (proceeds_next _))

theorem loadAt_proceeds (scope : Nat) (z : BitVec 3) (ea : Word → Word) : Proceeds (loadAt n scope z h a t ea s) :=
  issue_proceeds fun _ => doLoad_proceeds ..

theorem storeAt_proceeds (scope : Nat) (z : BitVec 3) (f : Bool) (ea : Word → Word) : Proceeds (storeAt n scope z f h a t ea s) :=
  issue_proceeds fun _ => doStore_proceeds ..

theorem amo_proceeds (op : AtomOp) (post e : Bool) (o sc : BitVec 3) : Proceeds (amo op post e o sc g b h a d s) :=
  issue_proceeds fun _ => withPlace_proceeds fun _ _ => proceeds_ite (idle_proceeds ..) (proceeds_ite (proceeds_next _) proceeds_ite_next)

theorem taskOp_proceeds (pfx : PfxRule) (es : List Nat) (op mods : Nat) (j f : Bool) : Proceeds (taskOp pfx es op mods g b h a j f s) :=
  issue_proceeds fun _ => proceeds_ite (withStore_proceeds fun _ _ => counted_proceeds ..) (counted_proceeds ..)

theorem ctxOp_proceeds (srcs : List (Nat × Bool)) (ok : Bool) (op : State → CtxOp) : Proceeds (ctxOp srcs ok a d s op) :=
  issue_proceeds fun _ => withLine_proceeds fun _ _ => proceeds_next _

theorem slotOp_proceeds (park : Bool) : Proceeds (slotOp park h a s) :=
  issue_proceeds fun _ => proceeds_ite (fault_proceeds ..) (proceeds_ite (fault_proceeds ..)
    (proceeds_ite (proceeds_next _) (asking_proceeds fun _ _ => proceeds_next _)))

theorem relaunchOp_proceeds (repair : Bool) : Proceeds (relaunchOp repair g b h a d s) :=
  issue_proceeds fun _ => proceeds_ite (fault_proceeds ..) (proceeds_ite (fault_proceeds ..)
    (withPlace_proceeds fun _ _ => afterRelease_proceeds fun _ => proceeds_next _))

theorem yieldOp_proceeds : Proceeds (yieldOp n s) := issue_proceeds fun _ => proceeds_ite_next

theorem exitOp_proceeds : Proceeds (exitOp n s) :=
  issue_proceeds fun _ => proceeds_ite (proceeds_next _)
    (proceeds_ite (idle_proceeds ..) (afterRelease_proceeds fun _ => proceeds_next _))

end Shapes

/-! ### Bit streams -/

theorem overrun_proceeds (s : State) (flag : Bool) : Proceeds (s.overrun flag) := fault_proceeds ..

theorem withStream_proceeds {s : State} {act : Nat → Nat → Out} (h : ∀ p e, Proceeds (act p e)) : Proceeds (withStream s act) :=
  proceeds_ite (overrun_proceeds ..) (h ..)

theorem issueCount_proceeds {n : Option (BitVec 6)} {g : Bool} {b : Reg} {q : Issue} {s : State} {act : Nat → State → Out}
    (h : ∀ k t, Proceeds (act k t)) : Proceeds (issueCount n g b q s act) := by
  cases n with
  | none => exact issue_proceeds fun _ => h ..
  | some i => exact issue_proceeds fun _ => h ..

theorem skipBits_proceeds (n : Nat) (s : State) : Proceeds (skipBits n s) :=
  withStream_proceeds fun _ _ => proceeds_ite (overrun_proceeds ..) (proceeds_next _)

theorem readBits_proceeds (adv : Bool) (d : Reg) (cnt : Nat) (s : State) : Proceeds (readBits adv d cnt s) := by
  refine withStream_proceeds fun _ _ => proceeds_ite (overrun_proceeds ..) (proceeds_ite (proceeds_next _)
    (withPlaces_proceeds (fun _ _ => proceeds_ite (idle_proceeds ..) (proceeds_ite (proceeds_next _)
      (proceeds_ite (idle_proceeds ..) (proceeds_ite (proceeds_next _) ?_)))) ..))
  split
  · exact proceeds_next _
  · exact proceeds_next _

theorem expGolomb_proceeds (d : Reg) (f : Nat → Word) (s : State) : Proceeds (expGolomb d f s) := by
  refine withStream_proceeds fun p e => ?_
  extract_lets need
  have hneed (a : Nat) : Proceeds (need a) := withPlace_proceeds fun pl _ => by
    cases pl with
    | store loc => exact proceeds_ite (idle_proceeds ..) (proceeds_ite (idle_proceeds ..) (idle_proceeds ..))
    | phys pa => exact proceeds_ite (idle_proceeds ..) (proceeds_ite (idle_proceeds ..) (idle_proceeds ..))
  split
  · exact overrun_proceeds ..
  · exact hneed _
  · refine proceeds_ite (overrun_proceeds ..) ?_
    split
    · exact hneed _
    · exact overrun_proceeds ..
    · exact proceeds_next _

/-! ### Instructions of their own shape -/

section Instructions

variable (g h : Bool) (a b d t : Reg) (s : State)

theorem ldAnchorRel_proceeds (x y : BitVec 5) (sc z : BitVec 3) : Proceeds (execLdAnchorRel x y sc z h a t s) := by
  refine issue_proceeds fun _ => ?_
  split
  · exact doLoad_proceeds ..
  · exact fault_proceeds ..

theorem stAnchorRel_proceeds (x y : BitVec 5) (sc z : BitVec 3) (f : Bool) : Proceeds (execStAnchorRel x y sc z f h a t s) := by
  refine issue_proceeds fun _ => ?_
  split
  · exact doStore_proceeds ..
  · exact fault_proceeds ..

theorem cflush_proceeds : Proceeds (execCflush h a s) := by
  refine issue_proceeds fun _ => proceeds_ite (proceeds_next _) (withPlace_proceeds fun p _ => ?_)
  cases p with
  | store loc => exact proceeds_next _
  | phys pa => exact proceeds_ite (idle_proceeds ..) (proceeds_next _)

theorem fence_proceeds (k : BitVec 2) (sc : BitVec 3) : Proceeds (execFence k sc s) :=
  issue_proceeds fun _ => proceeds_ite (proceeds_next _) (proceeds_ite (proceeds_next _) (idle_proceeds ..))

theorem stv_proceeds (z : BitVec 2) : Proceeds (execStv z g b h a d s) :=
  issue_proceeds fun _ => withPlace_proceeds fun _ _ => proceeds_ite (idle_proceeds ..) (proceeds_ite (proceeds_next _) proceeds_ite_next)

theorem twait_proceeds : Proceeds (execTwait h a s) :=
  issue_proceeds fun _ => proceeds_ite (fault_proceeds ..) proceeds_ite_next

theorem semP_proceeds (sc : BitVec 3) : Proceeds (execSemP sc h a s) :=
  issue_proceeds fun _ => withStore_proceeds fun _ _ => proceeds_ite (idle_proceeds ..) (proceeds_next _)

/-- A counter at another core is asked for its value, one of the core's own is tested here. -/
theorem jcWait_proceeds : Proceeds (execJcWait g b h a s) := by
  refine issue_proceeds fun _ => proceeds_ite (fault_proceeds ..) (withStore_proceeds fun _ _ =>
    proceeds_ite (idle_proceeds ..) (proceeds_ite ?_ ?_))
  · exact asking_proceeds fun _ _ => proceeds_ite (proceeds_next _) (proceeds_ite (fault_proceeds ..) (fault_proceeds ..))
  · exact proceeds_ite (fault_proceeds ..) proceeds_ite_next

theorem waitMem_proceeds (k : BitVec 4) : Proceeds (execWaitMem k g b h a d s) := by
  refine issue_proceeds fun _ => withPlace_proceeds fun p _ => proceeds_ite (idle_proceeds ..) ?_
  cases p with
  | store loc => exact proceeds_next _
  | phys pa => exact proceeds_next _

theorem spawn_proceeds : Proceeds (execSpawn g b h a d s) :=
  issue_proceeds fun _ => proceeds_ite (fault_proceeds ..) (proceeds_next _)

theorem spawnDef_proceeds : Proceeds (execSpawnDef g b h a d s) :=
  issue_proceeds fun _ => proceeds_ite (fault_proceeds ..) (withStore_proceeds fun _ _ => proceeds_next _)

theorem chunkInit_proceeds (c : BitVec 4) : Proceeds (execChunkInit c g b h a s) :=
  issue_proceeds fun _ => proceeds_ite (fault_proceeds ..) (proceeds_ite (fault_proceeds ..) (proceeds_next _))

theorem barCfg_proceeds (n : BitVec 2) : Proceeds (execBarCfg n g b h a s) :=
  issue_proceeds fun _ => proceeds_ite (fault_proceeds ..) (proceeds_ite (fault_proceeds ..) (proceeds_next _))

theorem barArr_proceeds (n : BitVec 2) : Proceeds (execBarArr n d s) :=
  withBar_proceeds fun _ _ => afterRelease_proceeds fun _ =>
    proceeds_ite (proceeds_next _) (proceeds_ite (idle_proceeds ..) (proceeds_next _))

theorem kbinCfg_proceeds (n : BitVec 2) : Proceeds (execKbinCfg n g b h a s) :=
  issue_proceeds fun _ => proceeds_ite (fault_proceeds ..) (proceeds_ite (fault_proceeds ..) (proceeds_ite (fault_proceeds ..)
    (proceeds_ite (fault_proceeds ..) (proceeds_ite (fault_proceeds ..) (proceeds_next _)))))

theorem ksend_proceeds (n : BitVec 2) : Proceeds (execKsend n g b h a s) := by
  refine issue_proceeds fun _ => ?_
  split
  · exact fault_proceeds ..
  · split
    · exact fault_proceeds ..
    · split
      · exact fault_proceeds ..
      · exact proceeds_ite (idle_proceeds ..) (proceeds_next _)

theorem launch_proceeds : Proceeds (execLaunch h a d s) :=
  issue_proceeds fun _ => withPlace_proceeds fun _ _ => afterRelease_proceeds fun _ => proceeds_next _

theorem tview_proceeds : Proceeds (execTview g b h a d s) :=
  issue_proceeds fun _ => proceeds_ite (fault_proceeds ..) (proceeds_ite (fault_proceeds ..) (proceeds_next _))

/-- The handle is looked up here or at the die that holds its table; both ways end in the same four answers. -/
theorem tinfo_proceeds : Proceeds (execTinfo h a d s) := by
  refine issue_proceeds fun _ => ?_
  extract_lets v die done
  have hdone (n : Nat) (t : State) : Proceeds (done n t) :=
    proceeds_ite (fault_proceeds ..) (proceeds_ite (fault_proceeds ..) (proceeds_ite (fault_proceeds ..) (proceeds_next _)))
  exact proceeds_ite (fault_proceeds ..) (proceeds_ite (hdone ..) (asking_proceeds hdone))

theorem tfree_proceeds : Proceeds (execTfree h a s) :=
  issue_proceeds fun _ => proceeds_ite (fault_proceeds ..) (counted_proceeds ..)

theorem tget_proceeds : Proceeds (execTget h a d s) :=
  issue_proceeds fun _ => proceeds_ite (fault_proceeds ..) (sendCommand_proceeds ..)

theorem tset_proceeds : Proceeds (execTset g b h a s) :=
  issue_proceeds fun _ => proceeds_ite (fault_proceeds ..) (counted_proceeds ..)

theorem dmread_proceeds : Proceeds (execDmread h a d s) := by
  refine issue_proceeds fun _ => proceeds_ite (fault_proceeds ..) (withPlace_proceeds fun p _ => ?_)
  cases p with
  | phys pa => exact proceeds_next _
  | store loc => exact fault_proceeds ..

theorem dmmark_proceeds (p l : Bool) : Proceeds (execDmmark p l g b h a s) :=
  issue_proceeds fun _ => proceeds_ite (fault_proceeds ..) (proceeds_ite (proceeds_ite (fault_proceeds ..) (proceeds_next _))
    (proceeds_ite (fault_proceeds ..) (markPages_proceeds (fun _ => proceeds_next _) ..)))

theorem swr_proceeds (n : BitVec 7) : Proceeds (execSwr n h a s) := by
  refine issue_proceeds fun _ => proceeds_ite (proceeds_next _) ?_
  dsimp only
  split
  · exact fault_proceeds ..
  · exact proceeds_next _

/-- The first issue waits for the thread's accesses; while other dies are asked, and after, it does not. -/
theorem tlbi_proceeds (k : BitVec 2) (sc : BitVec 3) : Proceeds (execTlbi k sc g b h a s) := by
  refine issue_proceeds fun _ => proceeds_ite (fault_proceeds ..) ?_
  extract_lets x here others cl co ask
  have hask (t : State) : Proceeds (ask t) := asking_proceeds fun _ _ => proceeds_next _
  exact proceeds_ite (afterRelease_proceeds hask) (hask _)

theorem bmode_proceeds : Proceeds (execBmode g b h a d s) :=
  issue_proceeds fun _ => proceeds_ite (fault_proceeds ..) (proceeds_ite (fault_proceeds ..)
    (proceeds_ite (fault_proceeds ..) (proceeds_next _)))

/-- A word that names no instruction traps, after the extension gate where its major is one of an extension. -/
theorem nonInstructionEncoding_proceeds (enc : BitVec 32) : Proceeds (execNonInstructionEncoding enc s) := by
  unfold execNonInstructionEncoding
  split
  · exact extGate_proceeds fun _ => fault_proceeds ..
  · exact fault_proceeds ..

end Instructions

/-! ### Rows of the other units that choose more than once -/

section Rows

variable (s : State)

theorem agingPromotion_proceeds (ctx : Nat) : Proceeds (execAgingPromotion ctx s) := by
  refine proceeds_ite (proceeds_next _) ?_
  dsimp only
  split
  · exact proceeds_ite_next
  · exact proceeds_next _

theorem launchAccept_proceeds (part : Nat) (desc : Word) (ctx reg : Nat) (tag : Bool) (priv : Nat) (res : Word) :
    Proceeds (execLaunchAccept part desc ctx reg tag priv res s) := by
  unfold execLaunchAccept
  extract_lets
  split <;> exact proceeds_next _

theorem blockStart_proceeds (launch : Nat) : Proceeds (execBlockStart launch s) := by
  unfold execBlockStart
  split
  · exact proceeds_next _
  · split
    · exact proceeds_next _
    · dsimp only
      split
      · exact proceeds_next _
      · exact proceeds_ite_next

theorem launchCompletion_proceeds (launch : Nat) : Proceeds (execLaunchCompletion launch s) := by
  unfold execLaunchCompletion
  split
  · exact proceeds_next _
  · exact proceeds_ite (proceeds_next _) proceeds_ite_next

theorem semPResend_proceeds (ctx : Nat) : Proceeds (execSemPResend ctx s) := by
  simp only [execSemPResend]
  split
  · exact proceeds_ite_next
  · exact proceeds_next _

theorem spawnPoolRequest_proceeds (blk ctx reg : Nat) (tag : Bool) (entry arg : Word) (jc : Option Nat) (unit : Nat) :
    Proceeds (execSpawnPoolRequest blk ctx reg tag entry arg jc unit s) := by
  simp only [execSpawnPoolRequest]
  split
  · exact proceeds_next _
  · split
    · split
      · exact proceeds_ite_next
      · exact proceeds_next _
    · exact proceeds_next _

theorem storeVisible_proceeds (r : Req) : Proceeds (execStoreVisible r s) :=
  proceeds_ite (proceeds_next _) (proceeds_ite (proceeds_next _) (proceeds_ite (proceeds_next _)
    (proceeds_ite proceeds_ite_next (proceeds_next _))))

theorem fenceTokenArrival_proceeds (die link round : Nat) : Proceeds (execFenceTokenArrival die link round s) := by
  simp only [execFenceTokenArrival]
  split
  · exact proceeds_next _
  · exact proceeds_ite_next

theorem heldReleaseSend_proceeds (idx : Nat) : Proceeds (execHeldReleaseSend idx s) := by
  unfold execHeldReleaseSend
  split
  · exact proceeds_next _
  · dsimp only
    split
    · exact proceeds_next _
    · exact proceeds_next _
    · exact proceeds_ite_next

theorem commandAccept_proceeds (c : Cmd) : Proceeds (execCommandAccept c s) := by
  refine proceeds_ite (proceeds_next _) ?_
  dsimp only
  split
  · exact proceeds_next _
  · split <;> exact proceeds_next _

theorem commandReply_proceeds (ctx op kind cause : Nat) (info : Word) (reg : Nat) :
    Proceeds (execCommandReply ctx op kind cause info reg s) := by
  refine proceeds_ite (proceeds_next _) ?_
  dsimp only
  split
  · split <;> exact proceeds_next _
  · exact proceeds_ite_next
  · exact proceeds_next _

theorem tallocServe_proceeds (cluster ctx reg : Nat) (tag : Bool) (blk : Nat) (desc : Word) (unit : Nat) :
    Proceeds (execTallocServe cluster ctx reg tag blk desc unit s) := by
  simp only [execTallocServe]
  split
  · exact proceeds_next _
  · split <;> exact proceeds_next _

theorem mmaFragmentDone_proceeds (cluster task : Nat) : Proceeds (execMmaFragmentDone cluster task s) := by
  unfold execMmaFragmentDone
  split
  · exact proceeds_next _
  · split
    · exact proceeds_ite_next
    · exact proceeds_next _

theorem streamerPartStart_proceeds (cluster task part : Nat) : Proceeds (execStreamerPartStart cluster task part s) := by
  unfold execStreamerPartStart
  split
  · exact proceeds_next _
  · refine proceeds_ite (proceeds_next _) ?_
    split <;> exact proceeds_next _

theorem streamerPush_proceeds (cluster task part : Nat) : Proceeds (execStreamerPush cluster task part s) := by
  unfold execStreamerPush
  split
  · exact proceeds_next _
  · split
    · exact proceeds_next _
    · split <;> exact proceeds_next _

theorem streamerPartDone_proceeds (cluster task part : Nat) : Proceeds (execStreamerPartDone cluster task part s) := by
  simp only [execStreamerPartDone]
  split
  · exact proceeds_next _
  · exact proceeds_ite_next

theorem taskComplete_proceeds (cluster task : Nat) : Proceeds (execTaskComplete cluster task s) := by
  unfold execTaskComplete
  split
  · exact proceeds_next _
  · exact proceeds_ite (proceeds_next _) proceeds_ite_next

theorem blockRecordWrite_proceeds (blk : Nat) : Proceeds (execBlockRecordWrite blk s) := by
  unfold execBlockRecordWrite
  split
  · exact proceeds_next _
  · split <;> exact proceeds_next _

theorem relaunchAccept_proceeds (part : Nat) (region comp : Word) (ctx reg : Nat) (tag : Bool) (priv : Nat) (repair : Bool)
    (res : Word) : Proceeds (execRelaunchAccept part region comp ctx reg tag priv repair res s) := by
  refine proceeds_ite (proceeds_next _) (proceeds_ite (proceeds_next _) ?_)
  dsimp only
  split <;> exact proceeds_next _

theorem relaunchComplete_proceeds (launch : Nat) : Proceeds (execRelaunchComplete launch s) := by
  unfold execRelaunchComplete
  split
  · exact proceeds_next _
  · split <;> exact proceeds_next _

theorem watchArm_proceeds (inCore : Bool) (addr : Nat) (expected : Word) (ctx reg : Nat) (tag : Bool) (timeout : Nat)
    (unit : Sender) : Proceeds (execWatchArm inCore addr expected ctx reg tag timeout unit s) :=
  proceeds_ite (proceeds_next _) (proceeds_ite (proceeds_next _) (proceeds_ite (proceeds_next _)
    (proceeds_ite (proceeds_next _) proceeds_ite_next)))

theorem contextClaim_proceeds (core ctx : Nat) : Proceeds (execContextClaim core ctx s) := by
  refine proceeds_ite ?_ (proceeds_next _)
  dsimp only
  split <;> exact proceeds_next _

theorem migrationLineMove_proceeds (set : Nat) : Proceeds (execMigrationLineMove set s) := by
  simp only [execMigrationLineMove]
  split
  · exact proceeds_ite_next
  · exact proceeds_next _

theorem flitSend_proceeds (die link : Nat) : Proceeds (execFlitSend die link s) := by
  refine proceeds_ite (proceeds_next _) ?_
  dsimp only
  split <;> exact proceeds_next _

theorem flitReceive_proceeds (die link : Nat) : Proceeds (execFlitReceive die link s) := by
  unfold execFlitReceive
  split
  · exact proceeds_next _
  · dsimp only
    split
    · exact proceeds_next _
    · exact proceeds_ite proceeds_ite_next proceeds_ite_next

theorem linkRetrainDone_proceeds (die link : Nat) : Proceeds (execLinkRetrainDone die link s) := by
  unfold execLinkRetrainDone
  split
  · exact proceeds_next _
  · refine proceeds_ite (proceeds_next _) ?_
    dsimp only
    split <;> exact proceeds_next _

theorem homeReadRequest_proceeds (r : Req) : Proceeds (execHomeReadRequest r s) :=
  proceeds_ite (proceeds_ite (proceeds_next _) proceeds_ite_next) proceeds_ite_next

theorem writeBackArrival_proceeds (line die mask : Nat) : Proceeds (execWriteBackArrival line die mask s) := by
  refine proceeds_ite (proceeds_next _) ?_
  dsimp only
  split
  · exact proceeds_ite_next
  · exact proceeds_next _

theorem handlerInstall_proceeds (core : Nat) (lvlM : Bool) (cva : Word) : Proceeds (execHandlerInstall core lvlM cva s) := by
  refine proceeds_ite (proceeds_next _) ?_
  split <;> exact proceeds_next _

theorem linkCounterSnapshot_proceeds (die : Nat) : Proceeds (execLinkCounterSnapshot die s) :=
  proceeds_ite (proceeds_next _) (proceeds_ite (proceeds_next _) proceeds_ite_next)

theorem replayDivergence_proceeds (unit loc : Nat) : Proceeds (execReplayDivergence unit loc s) := by
  unfold execReplayDivergence
  split
  · exact proceeds_next _
  · split
    · exact proceeds_next _
    · exact proceeds_ite_next

/-- Each boot step ends in the next one or in its failure. -/
theorem bootStepAdvance_proceeds : Proceeds (execBootStepAdvance s) := by
  refine proceeds_ite (proceeds_next _) ?_
  split
  case h_1 =>
    split <;> exact proceeds_next _
  case h_2 =>
    split
    · exact proceeds_ite_next
    · exact proceeds_next _
  case h_3 =>
    split
    · exact proceeds_ite (proceeds_next _) proceeds_ite_next
    · exact proceeds_next _
  case h_4 => exact proceeds_next _
  case h_5 =>
    refine proceeds_ite (proceeds_next _) ?_
    split <;> exact proceeds_next _

theorem dieReset_proceeds (die : Nat) : Proceeds (execDieReset die s) := by
  refine proceeds_ite (proceeds_next _) ?_
  dsimp only
  split
  · exact proceeds_next _
  · exact proceeds_ite (proceeds_next _) proceeds_ite_next

theorem hostAccess_proceeds (wr : Bool) (addr size data : Nat) : Proceeds (execHostAccess wr addr size data s) :=
  proceeds_ite (proceeds_next _) (proceeds_ite (proceeds_next _) (proceeds_ite (proceeds_next _) proceeds_ite_next))

theorem portLaunch_proceeds (part : Nat) (arg0 arg1 res : Word) : Proceeds (execPortLaunch part arg0 arg1 res s) := by
  refine proceeds_ite (proceeds_next _) ?_
  split
  · exact proceeds_ite_next
  · exact proceeds_next _

theorem setmode_proceeds (mode res : Word) : Proceeds (execSetmode mode res s) := by
  refine proceeds_ite (proceeds_next _) (proceeds_ite (proceeds_next _) ?_)
  dsimp only
  split
  · exact proceeds_next _
  · exact proceeds_ite_next

theorem create_proceeds (set share res : Word) : Proceeds (execCreate set share res s) := by
  refine proceeds_ite (proceeds_next _) ?_
  dsimp only
  split
  · exact proceeds_next _
  · refine proceeds_ite (proceeds_next _) ?_
    split
    · exact proceeds_next _
    · exact proceeds_ite_next

theorem swap_proceeds (set idx res : Word) : Proceeds (execSwap set idx res s) :=
  proceeds_ite (proceeds_next _) (proceeds_ite proceeds_ite_next (proceeds_next _))

theorem resume_proceeds (set res : Word) : Proceeds (execResume set res s) := by
  simp only [execResume]
  split
  · exact proceeds_next _
  · exact proceeds_ite_next

theorem timeSliceExpiry_proceeds (set : Nat) : Proceeds (execTimeSliceExpiry set s) := by
  refine proceeds_ite (proceeds_next _) ?_
  dsimp only
  split <;> exact proceeds_next _

end Rows

/-! ### The dispatch -/

/-- `exec` answers a next state: by the shape that each instruction or row shares with others, or by the lemma of its own. -/
theorem exec_proceeds (i : Instr) (s : State) : Proceeds (exec i s) := by
  cases i
  -- the dispatch calls the meaning of the row
  all_goals dsimp only [exec]
  case clz | ctz | popc | sext | zext | abs | mov | andi | ori | xori | shli | shri | sari | roli | rori | muli | addi | movh | pabs |
    pwiden | addiC16 | andiC16 | shliC16 | shriC16 | sariC16 | movC16 => exact alu1_proceeds ..
  case add | sub | mul | mulh | and | or | xor | andn | orn | shl | shr | sar | rol | ror | bext | min | max | padd | psub | padds |
    psubs | pmul | pmulh | pdot | pavg | pmin | pmax | psad | pclip | pshl | pshr | psar | pvshl | pvshr | pvsar | pperm | pnarrow |
    fmin | fmax | addC16 | subC16 | andC16 | orC16 | xorC16 | andnC16 | mulC16 | shlC16 | shrC16 | sarC16 => exact alu2_proceeds ..
  case div | rem => exact alu2Long_proceeds ..
  case bins | xset | xget | movi | cmpi | pcmp | psel | fclass | pset | pclr | pnot | pand | por | pxor | pwr | pww | pcnt | cinvalAll
    | vbusy | eret | nop | bl | moviC16 | nopC16 | sel | cmp | loop | fmt | fcvt | chunk | trgen | trstat | srd =>
    exact issue_proceeds fun _ => proceeds_next _
  case fadd | fsub | fmul => exact fbin_proceeds ..
  case fma => exact ffma_proceeds ..
  case fdiv => exact fbinLong_proceeds ..
  case fsqrt => exact fsqrtLong_proceeds ..
  case fcmp => exact fcompare_proceeds ..
  case dadd | dsub | dmul => exact extGate_proceeds fun _ => fbin_proceeds ..
  case dfma => exact extGate_proceeds fun _ => ffma_proceeds ..
  case ddiv => exact extGate_proceeds fun _ => fbinLong_proceeds ..
  case dsqrt => exact extGate_proceeds fun _ => fsqrtLong_proceeds ..
  case dcmp => exact extGate_proceeds fun _ => fcompare_proceeds ..
  case crc => exact extGate_proceeds fun _ => alu2_proceeds ..
  case dcvtTo | dcvtFrom => exact extGate_proceeds fun _ => issue_proceeds fun _ => proceeds_next _
  case bsopen => exact extGate_proceeds fun _ => issue_proceeds fun _ => proceeds_ite (fault_proceeds ..) (proceeds_next _)
  case bsalign =>
    exact extGate_proceeds fun _ => issue_proceeds fun _ => withStream_proceeds fun _ _ =>
      proceeds_ite (overrun_proceeds ..) (proceeds_next _)
  case getue | getse => exact extGate_proceeds fun _ => issue_proceeds (expGolomb_proceeds _ _)
  case getb | getbImm | peekb | peekbImm => exact extGate_proceeds fun _ => issueCount_proceeds (readBits_proceeds _ _)
  case skipb | skipbImm => exact extGate_proceeds fun _ => issueCount_proceeds skipBits_proceeds
  case idr | gtime | gtimeLk | cyc | cycT => exact readValue_proceeds ..
  case bz | bnz | bzC16 | bnzC16 => exact branchOn_proceeds ..
  case b | bany | ball | bnone | bpt | bpf | bC16 | bptC16 | bpfC16 => exact branchPw_proceeds ..
  case jr | jrL | jrC16 => exact jump_proceeds ..
  case ld | ldDC16 | ldWC16 => exact loadAt_proceeds ..
  case st | stDC16 | stWC16 => exact storeAt_proceeds ..
  case amoAdd | amoAnd | amoOr | amoXor | amoMinS | amoMaxS | amoSwp | amoCas | amoFadd | amoMinZ | amoMaxZ | amoAddPost | amoAndPost
    | amoOrPost | amoXorPost | amoMinSPost | amoMaxSPost | amoSwpPost | amoCasPost | amoFaddPost | amoMinZPost | amoMaxZPost =>
    exact amo_proceeds ..
  case ldN | xld => exact issue_proceeds fun _ => doLoad_proceeds ..
  case stN => exact issue_proceeds fun _ => doStore_proceeds ..
  case pf | cinval => exact issue_proceeds fun _ => withHint_proceeds ..
  case semV | jcAdd => exact issue_proceeds fun _ => withStore_proceeds fun _ _ => storeOp_proceeds ..
  case vadd | vsub | vmul | vfma | vmin | vmax | vabs | vneg | vexp2 | vlog2 | vrcp | vrsqrt | vtanh | vcvt | vcmp | vsel | vrowred |
    vcolred | vbcast | vtrans | vscale | vquant | vshl | vshr | vsar | vclamp | vmov | vfill | vmask | mma | mdrain | cpyMt | cpyTm |
    cpyMm | gath | scat => exact taskOp_proceeds ..
  case ctxLd | ctxSt | ctxReady | ctxEvict | ctxPark | ctxParkKill | dstop => exact ctxOp_proceeds ..
  case slotPark | slotFree => exact slotOp_proceeds ..
  case relaunch | relaunchRepair => exact relaunchOp_proceeds ..
  case yield | yieldC16 => exact yieldOp_proceeds ..
  case exit | exitC16 => exact exitOp_proceeds ..
  case barWait => exact withBar_proceeds fun _ _ => proceeds_ite_next
  case barTest => exact withBar_proceeds fun _ _ => proceeds_next _
  case vfence => exact issue_proceeds fun _ => proceeds_ite_next
  case talloc => exact issue_proceeds fun _ => proceeds_ite (fault_proceeds ..) (proceeds_next _)
  case halt => exact issue_proceeds fun _ => proceeds_ite (proceeds_next _) (idle_proceeds ..)
  case sys => exact issue_proceeds fun _ => raise_proceeds ..
  case ldAnchorRel => exact ldAnchorRel_proceeds ..
  case stAnchorRel => exact stAnchorRel_proceeds ..
  case cflush => exact cflush_proceeds ..
  case fence => exact fence_proceeds ..
  case stv => exact stv_proceeds ..
  case twait => exact twait_proceeds ..
  case semP => exact semP_proceeds ..
  case jcWait => exact jcWait_proceeds ..
  case waitMem => exact waitMem_proceeds ..
  case spawn => exact spawn_proceeds ..
  case spawnDef => exact spawnDef_proceeds ..
  case chunkInit => exact chunkInit_proceeds ..
  case barCfg => exact barCfg_proceeds ..
  case barArr => exact barArr_proceeds ..
  case kbinCfg => exact kbinCfg_proceeds ..
  case ksend => exact ksend_proceeds ..
  case launch => exact launch_proceeds ..
  case tview => exact tview_proceeds ..
  case tinfo => exact tinfo_proceeds ..
  case tfree => exact tfree_proceeds ..
  case tget => exact tget_proceeds ..
  case tset => exact tset_proceeds ..
  case dmread => exact dmread_proceeds ..
  case dmmark => exact dmmark_proceeds ..
  case swr => exact swr_proceeds ..
  case tlbi => exact tlbi_proceeds ..
  case bmode => exact bmode_proceeds ..
  case nonInstructionEncoding => exact nonInstructionEncoding_proceeds ..
  case registerFill | semVExecute | semPExecute | jcUpdate | chunkInitRequest | chunkRequest | wakeupApply | barrierTimeout |
    ksendAccumulate | commandRetry | cmdsDecrement | traceReport | generationBroadcast | watchCancel | timeDeadline |
    contextLineArrival | contextTransferAck | preemptRequest | preemptResume | partitionSwap | bankNackRetry | linkAck | replayTimeout
    | classAgePromotion | dieRecall | calliopeExchange | calliopeResult | exchangeMissing | ptpEventMessage | heartbeatTimeout |
    dieFailureBroadcast | homeFailureProcess | rasPop | mcheckClear | lnkRetrainForce | lnkInject | dlogBaseWrite | pctDisableSpill |
    rplCtlWrite | operatingPointChange | pwrCapWrite | packageReset | portRelaunch | portRepair | attest | unrecoverableFaultReport |
    launchPortWriteRefused | mailboxWriteRefused => exact proceeds_next _
  case nibbleStoreExecute | atomicExecute | fenceEchoArrival | postedTokenRound | barrierSignal | barrierRelease | barrierAbort |
    restampRequest | messageReturn | ringPostRetry | regionMigrationStart | linkNak | ownershipGrant | scrubWrite | contextLoss |
    slice | jcWaitRepoll => exact proceeds_ite_next
  case scrubRead | destroy => exact proceeds_ite (proceeds_next _) proceeds_ite_next
  case ownershipRequest | scaleUpAccess => exact proceeds_ite (proceeds_next _) (proceeds_ite (proceeds_next _) proceeds_ite_next)
  case idleContextReplace | quantumExpiry | coreStoreAccess | taskAdmit | generationAdvanceDone | watchTimeout | carouselRingClaim |
    ringPost | ringmasterSteal | walkComplete | walkQueueRetry | homeNackRetry | bankDrainDone | laneFaultReport | pcSample | preempt =>
    -- each looks one thing up, and answers whatever it finds
    simp only [execIdleContextReplace, execQuantumExpiry, execCoreStoreAccess, execTaskAdmit, execGenerationAdvanceDone, execWatchTimeout,
      execCarouselRingClaim, execRingPost, execRingmasterSteal, execWalkComplete, execWalkQueueRetry, execHomeNackRetry,
      execBankDrainDone, execLaneFaultReport, execPcSample, execPreempt]
    split <;> exact proceeds_next _
  case agingPromotion => exact agingPromotion_proceeds ..
  case launchAccept => exact launchAccept_proceeds ..
  case blockStart => exact blockStart_proceeds ..
  case launchCompletion => exact launchCompletion_proceeds ..
  case semPResend => exact semPResend_proceeds ..
  case spawnPoolRequest => exact spawnPoolRequest_proceeds ..
  case storeVisible => exact storeVisible_proceeds ..
  case fenceTokenArrival => exact fenceTokenArrival_proceeds ..
  case heldReleaseSend => exact heldReleaseSend_proceeds ..
  case commandAccept => exact commandAccept_proceeds ..
  case commandReply => exact commandReply_proceeds ..
  case tallocServe => exact tallocServe_proceeds ..
  case mmaFragmentDone => exact mmaFragmentDone_proceeds ..
  case streamerPartStart => exact streamerPartStart_proceeds ..
  case streamerPush => exact streamerPush_proceeds ..
  case streamerPartDone => exact streamerPartDone_proceeds ..
  case taskComplete => exact taskComplete_proceeds ..
  case blockRecordWrite => exact blockRecordWrite_proceeds ..
  case relaunchAccept => exact relaunchAccept_proceeds ..
  case relaunchComplete => exact relaunchComplete_proceeds ..
  case watchArm => exact watchArm_proceeds ..
  case contextClaim => exact contextClaim_proceeds ..
  case migrationLineMove => exact migrationLineMove_proceeds ..
  case flitSend => exact flitSend_proceeds ..
  case flitReceive => exact flitReceive_proceeds ..
  case linkRetrainDone => exact linkRetrainDone_proceeds ..
  case homeReadRequest => exact homeReadRequest_proceeds ..
  case writeBackArrival => exact writeBackArrival_proceeds ..
  case handlerInstall => exact handlerInstall_proceeds ..
  case linkCounterSnapshot => exact linkCounterSnapshot_proceeds ..
  case replayDivergence => exact replayDivergence_proceeds ..
  case bootStepAdvance => exact bootStepAdvance_proceeds ..
  case dieReset => exact dieReset_proceeds ..
  case hostAccess => exact hostAccess_proceeds ..
  case portLaunch => exact portLaunch_proceeds ..
  case setmode => exact setmode_proceeds ..
  case create => exact create_proceeds ..
  case swap => exact swap_proceeds ..
  case resume => exact resume_proceeds ..
  case timeSliceExpiry => exact timeSliceExpiry_proceeds ..

/-! ### The step -/

theorem execErrand_proceeds (x : Errand) (s : State) : Proceeds (execErrand x s) := by
  cases x <;> exact proceeds_next _

theorem runEnc_proceeds (s : State) (e : Enc) : Proceeds (s.runEnc e) := by
  unfold State.runEnc
  split
  · exact exec_proceeds ..
  · exact exec_proceeds ..

theorem runEv_proceeds (s : State) (e : Ev) : Proceeds (s.runEv e) := by
  unfold State.runEv
  split
  · exact execErrand_proceeds ..
  · exact exec_proceeds ..
  · exact proceeds_next _

theorem withHalf_proceeds {va : Nat} {s : State} {k : BitVec 16 → State → Out} (h : ∀ x t, Proceeds (k x t)) :
    Proceeds (withHalf va s k) := by
  refine proceeds_ite (fault_proceeds ..) ?_
  split
  · exact h ..
  · exact fault_proceeds ..
  · exact idle_proceeds ..

theorem withEnc_proceeds {s : State} {k : Enc → State → Out} (h : ∀ e t, Proceeds (k e t)) : Proceeds (withEnc s k) :=
  proceeds_ite (fault_proceeds ..) (withHalf_proceeds fun _ _ => proceeds_ite (withHalf_proceeds fun _ _ => h ..) (h ..))

theorem breakStop_proceeds (s : State) (n : Nat) : Proceeds (s.breakStop n) :=
  proceeds_ite (fault_proceeds ..) (proceeds_ite (idle_proceeds ..) (proceeds_ite (proceeds_next _) (fault_proceeds ..)))

theorem fetched_proceeds {s : State} {e : Enc} {k : State → Out} (h : ∀ t, Proceeds (k t)) : Proceeds (s.fetched e k) := by
  simp only [State.fetched]
  split
  · exact breakStop_proceeds ..
  · exact h _

theorem atBoundary_proceeds {s : State} {core id : Nat} {k : State → Out} (h : ∀ t, Proceeds (k t)) :
    Proceeds (s.atBoundary core id k) := by
  refine proceeds_ite (h s) (proceeds_ite (proceeds_ite (h s) (proceeds_ite (proceeds_next _) (idle_proceeds ..))) ?_)
  split <;> exact proceeds_next _

theorem stepped_proceeds {o : Out} (h : Proceeds o) : Proceeds (stepped o) := by
  obtain ⟨t, rfl⟩ := h
  exact proceeds_next _

theorem issued_proceeds {u : Cur} {pc l : Nat} {o : Out} (h : Proceeds o) : Proceeds (issued u pc l o) := by
  obtain ⟨t, rfl⟩ := h
  exact proceeds_next _

/-- The issue cycle of a core that the package has (01 R15). -/
theorem issueSlot_proceeds {s : State} {core slot : Nat} (hcore : core < 8192) : Proceeds (s.issueSlot core slot) := by
  unfold State.issueSlot
  rw [if_neg (Nat.not_le.mpr hcore)]
  split
  · exact proceeds_next _
  · exact atBoundary_proceeds fun _ => issued_proceeds (withEnc_proceeds fun _ _ => fetched_proceeds fun _ => runEnc_proceeds ..)

theorem issueSlot_absentCore {s : State} {core slot : Nat} (hcore : 8192 ≤ core) : s.issueSlot core slot = .fault .absentCore :=
  if_pos hcore

/-- Whatever a step chooses but the issue cycle of an absent core. -/
theorem run_proceeds {s : State} {d : Option Due} (h : ∀ core slot, d = some (.issue core slot) → core < 8192) :
    Proceeds (s.run d) := by
  unfold State.run
  split
  · exact proceeds_next _
  · split
    · exact runEv_proceeds ..
    · exact proceeds_next _
  · exact runEv_proceeds ..
  · exact issueSlot_proceeds (h _ _ rfl)

theorem step_absentCore {s : State} {core slot : Nat} (hpick : s.unload.pick = some (.issue core slot)) (hcore : 8192 ≤ core) :
    step s = .fault .absentCore := by
  simp only [step, hpick, State.run, issueSlot_absentCore hcore, stepped]

/-- Settles O7: `exec` by the dispatch over all rows; a step by what it has chosen, an absent core being the one that stops it. -/
theorem stepTotal : Obligations.StepTotal := by
  refine ⟨exec_proceeds, fun s => ?_⟩
  by_cases habsent : ∃ core slot, 8192 ≤ core ∧ s.unload.pick = some (.issue core slot)
  · obtain ⟨core, slot, hcore, hpick⟩ := habsent
    exact .inr ⟨step_absentCore hpick hcore, core, slot, hcore, hpick⟩
  · refine .inl (stepped_proceeds (run_proceeds fun core slot hpick => ?_))
    exact Nat.lt_of_not_le fun hcore => habsent ⟨core, slot, hcore, hpick⟩

end Sys2Proof.Proofs

/-! SUPPORT. Threads, wait objects, launches and the schedule: the four statements of this family are refuted, each by a small state that
one of its clauses has not thought of. Each part has the state, what the model makes of it, and the refutation. -/

namespace Sys2Proof.Proofs

open Sys2Proof Sys2Proof.Machine Sys2Proof.Claims

set_option Elab.async false

/-- A next state of which something holds is the one that the model computes. -/
theorem runs_next {t : State} {p : State → Prop} (h : Runs (.next t) p) : p t := by
  obtain ⟨q, hq, hp⟩ := h
  obtain rfl : t = q := by injection hq
  exact hp

/-! ### A wait that ends in a slot which is lost at once (02 R41, R45) -/

/-- Core 0 has two usable slots, 0 and 8: slot 0 is free, and context 4 of the lowest priority runs in slot 8. The pair of contexts 2 and 3,
of the highest priority, is ready and needs both slots. Context 1 waits with kind 6, and beside it for its register w0, for which its
instruction idles. -/
def contested : State :=
  { ctxs := [(1, { kind := 6, prio := 1, stall := some (mkTag 1 0) }), (2, { pair := 1, peer := some 3 }),
      (3, { pair := 2, peer := some 2 }), (4, { prio := 3, level := 3 })]
    cdir := [(1, { holder := .core 0 }), (2, { holder := .core 0 }), (3, { holder := .core 0 }), (4, { holder := .core 0 })]
    cores := [(0, { slots := {} :: List.replicate 7 { parked := true } ++ { ctx := some 4 } :: List.replicate 7 { parked := true }
                    ready := [[2], [], [], []] })] }

theorem contested_noReplay : NoReplay contested := fun _ hx => nomatch hx

theorem contested_waits : (contested.ctx 1).kind = 6 := by decide +kernel

theorem contested_plain : Plain (contested.ctx 1) := ⟨rfl, rfl, rfl⟩

/-- Made ready, context 1 takes slot 0, the pair displaces it and context 4, and it leaves with the wait tag of its idling instruction. -/
theorem contested_deadline : ((contested.wakeFor 1 6).core 0).slotOf 2 = some 0 ∧ ((contested.wakeFor 1 6).ctx 1).kind = 1 := by
  decide +kernel

/-- Refutes O51: the deadline of a wait need not leave its context with kind 0. A context that takes a slot and is displaced from it at once
takes the wait tag of an instruction that idles (02 R41), which `ScheduleEvents` allows for and this clause does not: neither `Plain` nor
another hypothesis says that no instruction of a waiting context idles. -/
theorem not_waitEvents : ¬ Obligations.WaitEvents := by
  intro h
  obtain ⟨-, -, -, -, -, -, -, -, hdeadline, -⟩ :=
    h contested 1 0 0 0 0 0 false false false 0 0 0 .memory none contested_noReplay
  have hruns := hdeadline contested_waits contested_plain
  rw [Laws.exec_timeDeadline] at hruns
  obtain ⟨-, -, hready, -⟩ := runs_next hruns
  exact absurd (hready.symm.trans contested_deadline.2) (by decide)

/-! ### A join counter in a store that lists a byte twice (08 R209) -/

/-- The core stores list location 0 twice, which the canonical form excludes and no hypothesis of the clause does; a read finds
the first entry, a count of 1. -/
def listedTwice : State := { cstore := [(0, 1), (0, 2)] }

theorem listedTwice_noReplay : NoReplay listedTwice := fun _ hx => nomatch hx

theorem listedTwice_clean : Clean listedTwice (storePlace + 0) 24 := rfl

theorem listedTwice_count : readNat listedTwice.cstore 0 8 = 1 := by decide +kernel

/-- What an update of the counter at location 0 by -1 leaves there. -/
def countAfter (o : Out) : Option Nat :=
  match o with
  | .next q => some (readNat q.cstore 0 8)
  | _ => none

/-- The write of 0 removes the first entry, and the second one shows. -/
theorem listedTwice_update : countAfter (execJcUpdate 0 (BitVec.allOnes 64) 0 0 none listedTwice) = some 2 := by decide +kernel

/-- Refutes O52: the count after `jcUpdate` is stated for every memory, where the other clauses ask for the canonical form (through
`Stored` and `Wrote`). In one that lists a byte twice, a count of 1 and an addend of -1 leave 2. -/
theorem not_counterEvents : ¬ Obligations.CounterEvents := by
  intro h
  obtain ⟨hupdate, -⟩ :=
    h listedTwice 0 0 0 0 0 0 0 0 0 0 0 0 0 0 false false false false (BitVec.allOnes 64) none 0 .memory listedTwice_noReplay
  obtain ⟨q, hq, -, hcount, -⟩ := hupdate (by decide) listedTwice_clean
  rw [listedTwice_count] at hcount
  have hshown := listedTwice_update
  rw [← Laws.exec_jcUpdate, hq] at hshown
  exact absurd (hcount.symm.trans (Option.some.inj hshown)) (by decide)

/-! ### A host's result word in the header of the region that it relaunches (10 R271, 20 R428) -/

/-- Memory: page tables of partition 0 that map virtual page 0 to physical page 0; the header of a region at 9,216, written under
number 2 of the dirty map (10 R269); and the record of its block 0, which is valid. -/
def headerMemory : Memory :=
  [(9224, 2), (10244, 1), (61440, 1), (61442, 6), (73728, 1), (73730, 7), (86016, 1), (86018, 8), (98304, 63)]

/-- A relaunch, flagged pure, of that region's one block, which a host submitted with that word of the header (at 9,224) as its
result word. -/
def hostRelaunch : Launch :=
  { id := 1, part := 0, entry := 0, blocks := 1, threads := 1, tiles := 0, place := 0, flags := 3, anchorPos := 0, seed := 0, args := 0,
    comp := 0, pool := 0, rectDie := 0, rect := (0, 0, 0, 0), region := 9216, summary := 0, cap := 0, toStart := [], livePkg := 0
    submit := some (noCtx, 0, false, 9224)
    relaunch := some { region := 9216, n := 0, full := 0, selected := 0, skipped := 0, old := [], repair := false } }

/-- Its advance of the generation is complete; the number of the dirty map is 1. -/
def overHeader : State :=
  { mem := headerMemory, launches := [(1, hostRelaunch)], parts := [(0, { ptLo := BitVec.ofNat 64 (2 ^ 63 + 5) })]
    sets := [(0, { inst := 1, advances := [⟨[], [], some 1, 0⟩] })] }

theorem overHeader_noSamples : NoSamples overHeader := fun _ hx => nomatch hx

theorem overHeader_outdated : overHeader.numVirt 0 (9216 + 8) 4 ≠ (overHeader.set (0 / 4)).inst := by decide +kernel

/-- The blocks of launch 1 that are still to start. -/
def toStartAfter (o : Out) : Option (List Nat) :=
  match o with
  | .next q => (get? q.launches 1).map (·.toStart)
  | _ => none

/-- The answer, the launch id 1, is written before the selection reads the header, which then names the current dirty map: no block
runs again. -/
theorem overHeader_selects : toStartAfter (execGenerationAdvanceDone 0 overHeader) = some [] := by decide +kernel

/-- Refutes O56: a relaunch of a region that names another dirty map need not run every block again. The clause reads the header as
it stands before the step, and the step first writes the host's result word, which may lie in that header. -/
theorem not_launchEvents : ¬ Obligations.LaunchEvents := by
  intro h
  obtain ⟨-, -, -, -, -, -, -, -, -, -, hadvance, -⟩ :=
    h overHeader 0 0 0 0 0 0 0 0 0 0 0 0 0 0 0 0 0 0 0 false false false none (by decide) overHeader_noSamples (by decide) (by decide)
  obtain ⟨-, hlaunch⟩ := hadvance ⟨[], [], some 1, 0⟩ rfl rfl
  obtain ⟨q, hq, -, -, -, -, hselected⟩ := hlaunch 1 rfl hostRelaunch rfl
  obtain ⟨y, hy, -, -, -, hall⟩ := hselected _ rfl
  have hnone := overHeader_selects
  rw [← Laws.exec_generationAdvanceDone, hq] at hnone
  have hempty : y.toStart = [] := by simpa [toStartAfter, Option.mem_def.mp hy] using hnone
  exact absurd (hempty.symm.trans (hall (.inl overHeader_outdated))) (by decide)

/-! ### A slot whose register bank has been rewritten (17 R395) -/

/-- The time for which slot 0 of core 0 was parked after an error has passed; the core has no context. -/
def rewrittenBank : State := { cores := [(0, { slots := { blank := some 0 } :: List.replicate 15 {} })] }

theorem rewrittenBank_idle : rewrittenBank.idleNext 0 0 = none := by decide +kernel

/-- The step that replaces idle contexts lets the slot issue again, and placing ready contexts alone does not. -/
theorem rewrittenBank_issues :
    (((rewrittenBank.rewritten 0).dispatch 0).slotAt 0 0).blank = none ∧ ((rewrittenBank.dispatch 0).slotAt 0 0).blank = some 0 := by
  decide +kernel

/-- Where no context is idle, the step that replaces idle contexts ends the blanking of rewritten banks and places ready contexts. -/
theorem idleContextReplace_of_none {s : State} {core slot : Nat} (h : (s.rewritten core).idleNext core slot = none) :
    execIdleContextReplace core slot s = .next ((s.rewritten core).dispatch core) := by
  simp only [execIdleContextReplace, h]

/-- Refutes O57: IDLE_CONTEXT_REPLACE with no context to replace is not `dispatch` alone. It also ends the time for which a slot is parked
while its bank is rewritten (17 R395), for which the agenda makes it due. -/
theorem not_scheduleEvents : ¬ Obligations.ScheduleEvents := by
  intro h
  obtain ⟨hreplace, -⟩ := h rewrittenBank 0 0 0 0 0 0 0 0 .memory (.timeDeadline 0) {}
  rw [Laws.exec_idleContextReplace, idleContextReplace_of_none (by decide +kernel)] at hreplace
  obtain ⟨-, hsame, -⟩ := runs_next hreplace
  obtain ⟨hended, hkept⟩ := rewrittenBank_issues
  rw [hsame rewrittenBank_idle] at hended
  exact absurd (hended.symm.trans hkept) (by decide)

end Sys2Proof.Proofs

/-! SUPPORT. Instructions that each context of a pair executes on its own registers (17 R397): when nothing of 06 R153 keeps one from
acting, what it does is what its action does. Each shared shape of such an instruction follows, with the state that it leaves. -/

namespace Sys2Proof.Proofs

open Sys2Proof Sys2Proof.Machine Sys2Proof.Claims

set_option Elab.async false

/-- Nothing of 06 R153 keeps an instruction of a thread's own registers from acting. -/
structure Acts (q : Issue) (s : State) : Prop where
  own : q.use = .own := by rfl
  legal : q.ok = true := by rfl
  pfx : s.th.pfx = true → q.pfx.accepts s.th.pfxval = true
  priv : q.priv = 0 := by rfl
  srcs : ∀ x ∈ q.srcs, s.th.full x.1 = true
  long : ∀ r ∈ q.long, s.th.pend.getLsbD r = false
  eout : q.eout = [] := by rfl

/-- An active context that does not idle has gone past its instruction. -/
theorem past_of_active {t : State} {pc : BitVec 57} (hstall : t.th.stall = none) (hkind : t.th.kind = 0) : t.past pc = true := by
  simp [State.past, hstall, hkind]

theorem issue_does {q : Issue} {s t : State} {act : State → Out} (h : Acts q s) (hact : act s = .next t)
    (hstall : t.th.stall = none) (hkind : t.th.kind = s.th.kind) : Does s (issue q s act) t := by
  rw [Laws.issue_paired h.legal h.pfx (by simp [h.priv]) h.srcs h.long (by simp [h.eout])]
  refine ⟨fun halone => ?_, fun p hpair hpeer =>
    ⟨fun hleads hactive => ?_, fun htrails => ⟨fun hahead hactive => ?_, fun hlevel hnothing => ?_⟩⟩⟩
  · rcases halone with hunpaired | hpeerless
    · simp [paired, hunpaired, hact]
    · simp [paired, hpeerless, hact]
  · rw [Laws.paired_leads h.own hleads hpeer hact, State.led, if_pos (past_of_active hstall (hkind.trans hactive))]
  · rw [Laws.paired_follows h.own hpair htrails hpeer hahead hact, State.followed, if_pos (past_of_active hstall (hkind.trans hactive))]
  · exact Laws.paired_waits hpair htrails hpeer hlevel hnothing

/-! ### What the shared results leave -/

theorem putW_eq_wrote (s : State) (d : Reg) (v : Word) (n : Nat) : s.putW d v n = wrote s d v n := rfl

theorem putPw_eq_wrotePW (s : State) (v : Word) : s.putPw v = wrotePW s v := rfl

/-- A long write is tagged with the epoch that it begins. -/
theorem etag_emptyW (c : Ctx) (d : Reg) : (c.emptyW d).etag d.toNat = !c.epoch.getLsbD d.toNat := by
  have hd : d.toNat < 8 := d.isLt
  simp [Ctx.etag, Ctx.emptyW, regBit, hd]

theorem putLong_eq_wroteLong (s : State) (d : Reg) (v : Word) : s.putLong d v = wroteLong s d v := by
  simp only [State.putLong, etag_emptyW]
  rfl

/-! ### Operands -/

theorem full_of_sources {s : State} {l : List (Nat × Bool)} (h : Full s (l.map (·.1))) : ∀ x ∈ l, s.th.full x.1 = true :=
  fun x hx => h x.1 (List.mem_map_of_mem hx)

theorem accepts_of_noPrefix {s : State} (h : NoPrefix s) (r : PfxRule) : s.th.pfx = true → r.accepts s.th.pfxval = true :=
  fun hpfx => absurd (hpfx.symm.trans h) (by decide)

theorem long_of_noPend {s : State} {d : Reg} (h : NoPend s [d]) : ∀ r ∈ [d.toNat], s.th.pend.getLsbD r = false := by
  simpa [NoPend] using h

/-! ### The shapes of an integer instruction -/

section Shapes

variable {n : Nat} {g h : Bool} {b a d : Reg} {s : State} {v : Word}

theorem alu1_does {f : Word → Word} (hx : NoPrefix s) (hf : Full s [a.toNat]) (hv : f (s.th.wv a) = v) :
    Does s (alu1 n h a d f s) (wrote s d v n) := by
  subst hv
  exact issue_does { pfx := accepts_of_noPrefix hx _, srcs := full_of_sources hf, long := by simp } rfl rfl rfl

theorem alu2_does {f : Word → Word → Word} (hx : NoPrefix s) (hf : Full s [a.toNat, b.toNat]) (hv : f (s.th.wv a) (s.th.wv b) = v) :
    Does s (alu2 n g b h a d f s) (wrote s d v n) := by
  subst hv
  exact issue_does { pfx := accepts_of_noPrefix hx _, srcs := full_of_sources hf, long := by simp } rfl rfl rfl

theorem alu2Long_does {f : Word → Word → Word} (hx : NoPrefix s) (hf : Full s [a.toNat, b.toNat]) (hd : NoPend s [d])
    (hv : f (s.th.wv a) (s.th.wv b) = v) : Does s (alu2Long g b h a d f s) (wroteLong s d v) := by
  subst hv
  exact issue_does { pfx := accepts_of_noPrefix hx _, srcs := full_of_sources hf, long := long_of_noPend hd }
    (congrArg _ (putLong_eq_wroteLong ..)) rfl rfl

end Shapes

end Sys2Proof.Proofs

/-! SUPPORT. Integer results (03 R76, R77; 07 R162): an operation at a size is one on the low bits of its operands, of any width, and
its result is the exact integer taken modulo that width. -/

namespace Sys2Proof.Proofs

open Sys2Proof Sys2Proof.Machine Sys2Proof.Claims

set_option Elab.async false

/-! ### Operands and results at a size -/

/-- The low bits of an operand, at the size of the operation. -/
def low (w : Bool) (x : Word) : BitVec (size w) := x.setWidth (size w)

theorem size_le (w : Bool) : size w ≤ 64 := by cases w <;> decide

theorem size_pos (w : Bool) : 0 < size w := by cases w <;> decide

@[simp] theorem toNat_low (w : Bool) (x : Word) : (low w x).toNat = uns w x := BitVec.toNat_setWidth ..

@[simp] theorem toInt_low (w : Bool) (x : Word) : (low w x).toInt = sgn w x := by
  simp [BitVec.toInt_eq_toNat_cond, sgn]

theorem getLsbD_low (w : Bool) (x : Word) {i : Nat} (hi : i < size w) : (low w x).getLsbD i = x.getLsbD i := by
  simp [low, hi]

theorem atWidth_eq (w : Bool) (f : (n : Nat) → BitVec n → BitVec n → BitVec n) (x y : Word) :
    atWidth w f x y = (f (size w) (low w x) (low w y)).setWidth 64 := by
  cases w
  · simp [atWidth, low, size]
  · rfl

theorem atWidthAmt_eq (w : Bool) (f : (n : Nat) → BitVec n → Nat → BitVec n) (x : Word) (k : Nat) :
    atWidthAmt w f x k = (f (size w) (low w x) k).setWidth 64 := by
  cases w
  · simp [atWidthAmt, low, size]
  · rfl

/-- An exact result at the size, zero-extended (R162). -/
theorem res_eq (w : Bool) (v : Int) : res w v = (BitVec.ofInt (size w) v).setWidth 64 := by
  apply BitVec.eq_of_toNat_eq
  simp [res]

/-! ### Results given bit by bit -/

theorem ofBits_lt (f : Nat → Bool) : ∀ n, ofBits f n < 2 ^ n
  | 0 => by simp [ofBits]
  | n + 1 => by
    have ih := ofBits_lt f n
    rw [ofBits, Nat.pow_succ]
    split <;> omega

theorem testBit_ofBits (f : Nat → Bool) (i : Nat) : ∀ n, (ofBits f n).testBit i = (decide (i < n) && f i)
  | 0 => by simp [ofBits]
  | n + 1 => by
    have ih := testBit_ofBits f i n
    have hlt := ofBits_lt f n
    have htop := Nat.testBit_two_pow_mul_add (f n).toNat hlt i
    have hsum : ofBits f (n + 1) = 2 ^ n * (f n).toNat + ofBits f n := by cases h : f n <;> simp [ofBits, h, Nat.add_comm]
    rw [hsum, htop, ih]
    rcases Nat.lt_trichotomy i n with hi | rfl | hi
    · simp [hi, Nat.lt_succ_of_lt hi]
    · cases f i <;> simp
    · have hpast : ¬ i < n + 1 := by omega
      have hbit : (f n).toNat < 2 ^ (i - n) := Nat.lt_of_lt_of_le (Bool.toNat_lt _) (Nat.le_self_pow (by omega) 2)
      simp [hpast, Nat.not_lt_of_gt hi, Nat.testBit_lt_two_pow hbit]

theorem getLsbD_bitwise (w : Bool) (f : Nat → Bool) (i : Nat) : (bitwise w f).getLsbD i = (decide (i < size w) && f i) := by
  have hsize := size_le w
  rw [bitwise, BitVec.getLsbD_ofNat, testBit_ofBits]
  by_cases hi : i < size w
  · simp [hi, Nat.lt_of_lt_of_le hi hsize]
  · simp [hi]

theorem setWidth_eq_bitwise {w : Bool} {x : BitVec (size w)} {f : Nat → Bool} (h : ∀ i < size w, x.getLsbD i = f i) :
    x.setWidth 64 = bitwise w f := by
  apply BitVec.eq_of_getLsbD_eq
  intro i hi
  rw [getLsbD_bitwise, BitVec.getLsbD_setWidth, decide_eq_true hi, Bool.true_and]
  by_cases hlt : i < size w
  · rw [h i hlt, decide_eq_true hlt, Bool.true_and]
  · rw [BitVec.getLsbD_of_ge x i (Nat.le_of_not_lt hlt), decide_eq_false hlt, Bool.false_and]

/-! ### Shifts and rotates of any width (R76) -/

theorem shlN_eq_ofInt (n : Nat) (x : BitVec n) (k : Nat) : shlN n x k = BitVec.ofInt n (x.toNat * (2 ^ k : Nat)) := by
  apply BitVec.eq_of_toNat_eq
  rw [← Int.natCast_mul, BitVec.ofInt_natCast]
  simp [shlN, Nat.shiftLeft_eq]

theorem shrN_eq_ofInt (n : Nat) (x : BitVec n) (k : Nat) : shrN n x k = BitVec.ofInt n (x.toNat / (2 ^ k : Nat)) := by
  apply BitVec.eq_of_toNat_eq
  rw [← Int.natCast_ediv, BitVec.ofInt_natCast]
  have hlt : x.toNat / 2 ^ k < 2 ^ n := Nat.lt_of_le_of_lt (Nat.div_le_self ..) x.isLt
  simp [shrN, Nat.shiftRight_eq_div_pow, Nat.mod_eq_of_lt hlt]

theorem sarN_eq_ofInt (n : Nat) (x : BitVec n) (k : Nat) : sarN n x k = BitVec.ofInt n (x.toInt / (2 ^ k : Nat)) := by
  rw [sarN, BitVec.sshiftRight_eq, Int.shiftRight_eq_div_pow]

theorem getLsbD_rolN {n : Nat} (x : BitVec n) (k : Nat) {i : Nat} (hi : i < n) :
    (rolN n x k).getLsbD i = x.getLsbD ((i + n - k % n) % n) := by
  have hr : k % n < n := Nat.mod_lt _ (by omega)
  rw [rolN, BitVec.getLsbD_rotateLeft, Nat.mod_mod]
  generalize k % n = r at hr ⊢
  by_cases hwrap : i < r
  · have hindex : n - r + i = i + n - r := by omega
    rw [decide_eq_true hwrap, cond_true, hindex, Nat.mod_eq_of_lt (a := i + n - r) (by omega)]
  · have hindex : i + n - r = i - r + n := by omega
    rw [decide_eq_false hwrap, cond_false, hindex, Nat.add_mod_right, Nat.mod_eq_of_lt (a := i - r) (by omega)]
    simp [hi]

theorem getLsbD_rorN {n : Nat} (x : BitVec n) (k : Nat) {i : Nat} (hi : i < n) : (rorN n x k).getLsbD i = x.getLsbD ((i + k) % n) := by
  have hr : k % n < n := Nat.mod_lt _ (by omega)
  rw [rorN, BitVec.getLsbD_rotateRight, Nat.mod_mod, ← Nat.add_mod_mod]
  generalize k % n = r at hr ⊢
  by_cases hwrap : i < n - r
  · rw [decide_eq_true hwrap, cond_true, Nat.add_comm r, Nat.mod_eq_of_lt (a := i + r) (by omega)]
  · have hindex : i + r = i - (n - r) + n := by omega
    rw [decide_eq_false hwrap, cond_false, hindex, Nat.add_mod_right, Nat.mod_eq_of_lt (a := i - (n - r)) (by omega)]
    simp [hi]

/-! ### Shifts and rotates at a size -/

theorem shl_eq_res (w : Bool) (x : Word) (k : Nat) : atWidthAmt w shlN x k = res w (uns w x * (2 ^ k : Nat)) := by
  rw [atWidthAmt_eq, shlN_eq_ofInt, toNat_low, res_eq]

theorem shr_eq_res (w : Bool) (x : Word) (k : Nat) : atWidthAmt w shrN x k = res w (uns w x / (2 ^ k : Nat)) := by
  rw [atWidthAmt_eq, shrN_eq_ofInt, toNat_low, res_eq]

theorem sar_eq_res (w : Bool) (x : Word) (k : Nat) : atWidthAmt w sarN x k = res w (sgn w x / (2 ^ k : Nat)) := by
  rw [atWidthAmt_eq, sarN_eq_ofInt, toInt_low, res_eq]

theorem rol_eq_bitwise (w : Bool) (x : Word) (k : Nat) :
    atWidthAmt w rolN x k = bitwise w fun n => x.getLsbD ((n + size w - k % size w) % size w) := by
  rw [atWidthAmt_eq]
  refine setWidth_eq_bitwise fun i hi => ?_
  rw [getLsbD_rolN _ _ hi, getLsbD_low w x (Nat.mod_lt _ (size_pos w))]

theorem ror_eq_bitwise (w : Bool) (x : Word) (k : Nat) : atWidthAmt w rorN x k = bitwise w fun n => x.getLsbD ((n + k) % size w) := by
  rw [atWidthAmt_eq]
  refine setWidth_eq_bitwise fun i hi => ?_
  rw [getLsbD_rorN _ _ hi, getLsbD_low w x (Nat.mod_lt _ (size_pos w))]

/-- Settles O11: every shift is the exact product or quotient by a power of two, and every rotate a renumbering of bits, whatever the
form of the instruction. -/
theorem integerShifts : Obligations.IntegerShifts := by
  unfold Obligations.IntegerShifts
  intro s a b d g h w i8 i5 hx
  simp only [Laws.exec_shl, Laws.exec_shr, Laws.exec_sar, Laws.exec_rol, Laws.exec_ror, Laws.exec_shlC16, Laws.exec_shrC16, Laws.exec_sarC16,
    Laws.exec_shli, Laws.exec_shri, Laws.exec_sari, Laws.exec_roli, Laws.exec_rori, Laws.exec_shliC16, Laws.exec_shriC16, Laws.exec_sariC16]
  refine ⟨fun hf => ?_, fun hf => ?_⟩
  · exact ⟨alu2_does hx hf (shl_eq_res ..), alu2_does hx hf (shr_eq_res ..), alu2_does hx hf (sar_eq_res ..), alu2_does hx hf (rol_eq_bitwise ..),
      alu2_does hx hf (ror_eq_bitwise ..), alu2_does hx hf (shl_eq_res false ..), alu2_does hx hf (shr_eq_res false ..),
      alu2_does hx hf (sar_eq_res false ..)⟩
  · exact ⟨alu1_does hx hf (shl_eq_res ..), alu1_does hx hf (shr_eq_res ..), alu1_does hx hf (sar_eq_res ..), alu1_does hx hf (rol_eq_bitwise ..),
      alu1_does hx hf (ror_eq_bitwise ..), alu1_does hx hf (shl_eq_res false ..), alu1_does hx hf (shr_eq_res false ..),
      alu1_does hx hf (sar_eq_res false ..)⟩

/-! ### Quotients and remainders (R77) -/

/-- A value of any width as a number, as Z says. -/
def number (z : Bool) {n : Nat} (x : BitVec n) : Int := if z then x.toNat else x.toInt

theorem number_low (z w : Bool) (x : Word) : number z (low w x) = val z w x := by
  simp only [number, val, toNat_low, toInt_low]

theorem number_eq_zero_iff (z : Bool) {n : Nat} (x : BitVec n) : number z x = 0 ↔ x = 0 := by
  cases z
  · simpa [number] using BitVec.toInt_inj (x := x) (y := 0)
  · simp [number, BitVec.toNat_eq]

/-- The quotient of the least number by -1 is out of range, and wraps to the least number itself (R77). -/
theorem ofInt_intMin_tdiv_allOnes {n : Nat} (hn : 0 < n) :
    BitVec.ofInt n ((BitVec.intMin n).toInt.tdiv (BitVec.allOnes n).toInt) = BitVec.intMin n := by
  rw [BitVec.toInt_allOnes, if_pos hn, Int.tdiv_neg, Int.tdiv_one, BitVec.ofInt_neg, BitVec.ofInt_toInt, BitVec.neg_intMin]

theorem tmod_allOnes {n : Nat} (hn : 0 < n) (v : Int) : v.tmod (BitVec.allOnes n).toInt = 0 := by
  rw [BitVec.toInt_allOnes, if_pos hn, Int.tmod_neg, Int.tmod_one]

theorem ofInt_neg_one (n : Nat) : BitVec.ofInt n (-1) = BitVec.allOnes n := by
  rw [BitVec.ofInt_neg, ← BitVec.neg_one_eq_allOnes]
  rfl

theorem divN_eq_ofInt (z : Bool) {n : Nat} (hn : 0 < n) (x y : BitVec n) :
    divN z n x y = BitVec.ofInt n (if number z y = 0 then -1 else (number z x).tdiv (number z y)) := by
  simp only [number_eq_zero_iff, divN]
  by_cases hzero : y = 0
  · rw [if_pos hzero, if_pos hzero, ofInt_neg_one]
  · rw [if_neg hzero, if_neg hzero]
    cases z
    case true => rw [if_pos rfl, number, number, if_pos rfl, if_pos rfl, ← Int.ofNat_tdiv, BitVec.ofInt_natCast]
    case false =>
      by_cases hrange : x = BitVec.intMin n ∧ y = BitVec.allOnes n
      · obtain ⟨rfl, rfl⟩ := hrange
        simp only [number, Bool.false_eq_true, if_false, decide_true, Bool.and_self, if_true, ofInt_intMin_tdiv_allOnes hn]
      · simp [number, hrange]

theorem remN_eq_ofInt (z : Bool) {n : Nat} (hn : 0 < n) (x y : BitVec n) :
    remN z n x y = BitVec.ofInt n (if number z y = 0 then x.toNat else (number z x).tmod (number z y)) := by
  simp only [number_eq_zero_iff, remN]
  by_cases hzero : y = 0
  · rw [if_pos hzero, if_pos hzero, BitVec.ofInt_natCast, BitVec.ofNat_toNat, BitVec.setWidth_eq]
  · rw [if_neg hzero, if_neg hzero]
    cases z
    case true => rw [if_pos rfl, number, number, if_pos rfl, if_pos rfl, ← Int.ofNat_tmod, BitVec.ofInt_natCast]
    case false =>
      by_cases hrange : x = BitVec.intMin n ∧ y = BitVec.allOnes n
      · obtain ⟨rfl, rfl⟩ := hrange
        simp only [number, Bool.false_eq_true, if_false, decide_true, Bool.and_self, if_true, tmod_allOnes hn]
        rfl
      · simp [number, hrange]

theorem div_eq_res (z w : Bool) (x y : Word) :
    atWidth w (divN z) x y = if val z w y = 0 then res w (-1) else res w ((val z w x).tdiv (val z w y)) := by
  rw [atWidth_eq, divN_eq_ofInt z (size_pos w), number_low, number_low, ← res_eq, apply_ite (res w)]

theorem rem_eq_res (z w : Bool) (x y : Word) :
    atWidth w (remN z) x y = if val z w y = 0 then res w (uns w x) else res w ((val z w x).tmod (val z w y)) := by
  rw [atWidth_eq, remN_eq_ofInt z (size_pos w), number_low, number_low, toNat_low, ← res_eq, apply_ite (res w)]

/-- Settles O14: the quotient and the remainder of any width are the exact ones, truncated toward zero and taken modulo the width, and
each corner of R77 is one of their values. -/
theorem integerDivision : Obligations.IntegerDivision := by
  unfold Obligations.IntegerDivision
  intro s z w g h b a d hx hf hd
  simp only [Laws.exec_div, Laws.exec_rem]
  exact ⟨alu2Long_does hx hf hd (div_eq_res ..), alu2Long_does hx hf hd (rem_eq_res ..)⟩

end Sys2Proof.Proofs

/-! SUPPORT. Packed shifts (03 R76; 07 R172): a packed operation is one on each lane, and a shift of a lane is the shift of that width. -/

namespace Sys2Proof.Proofs

open Sys2Proof Sys2Proof.Machine Sys2Proof.Claims

set_option Elab.async false

/-! ### Lanes -/

theorem ofLanes_append_singleton (w x : Nat) : ∀ l, ofLanes w (l ++ [x]) = ofLanes w l + x % 2 ^ w * 2 ^ (w * l.length)
  | [] => by simp [ofLanes]
  | y :: l => by
    have hweight : 2 ^ w * (x % 2 ^ w * 2 ^ (w * l.length)) = x % 2 ^ w * 2 ^ (w * (l.length + 1)) := by
      rw [Nat.mul_left_comm, ← Nat.pow_add, Nat.mul_succ, Nat.add_comm w]
    rw [List.cons_append, ofLanes, ofLanes, ofLanes_append_singleton w x l, List.length_cons, Nat.mul_add, hweight, Nat.add_assoc]

/-- Lanes as naturals and as integers make one number, if they agree modulo the width of a lane. -/
theorem ofLanes_range_eq_ofLaneInts {w : Nat} {F : Nat → Nat} {f : Nat → Int} (h : ∀ i, F i % 2 ^ w = (f i % (2 ^ w : Nat)).toNat) :
    ∀ n, ofLanes w ((List.range n).map F) = ofLaneInts w f n
  | 0 => rfl
  | n + 1 => by
    rw [List.range_succ, List.map_append, List.map_singleton, ofLanes_append_singleton, ofLanes_range_eq_ofLaneInts h n, List.length_map,
      List.length_range, h n, ofLaneInts]

theorem laneN_eq (l : BitVec 2) : laneN l = 64 / lsize l := by decide +revert

theorem mapLanes_eq_lanewise {l : BitVec 2} {F : Nat → Nat → Nat → Nat} {x y : Word} {f : Nat → Int}
    (h : ∀ i, F i (laneAt (lsize l) x i) (laneAt (lsize l) y i) % 2 ^ lsize l = (f i % (2 ^ lsize l : Nat)).toNat) :
    mapLanes l F x y = lanewise (lsize l) f := by
  rw [lanewise, ← laneN_eq, ← ofLanes_range_eq_ofLaneInts h]
  rfl

/-- A lane as a value of its own width. -/
def laneVec (n : Nat) (x : Word) (i : Nat) : BitVec n := BitVec.ofNat n (laneAt n x i)

@[simp] theorem toNat_laneVec (n : Nat) (x : Word) (i : Nat) : (laneVec n x i).toNat = laneAt n x i := by
  simp [laneVec, laneAt]

@[simp] theorem toInt_laneVec (n : Nat) (x : Word) (i : Nat) : (laneVec n x i).toInt = laneInt false n x i := by
  simp [BitVec.toInt_eq_toNat_cond, laneInt]

/-! ### Shifts of lanes (R76) -/

/-- The amount by which a lane is shifted: the lane's own of the second source, or one for all. -/
def laneAmount (perLane : Bool) (n : Nat) (y : Word) (i : Nat) : Nat := if perLane then laneAt n y i % 256 else y.toNat % 256

theorem laneShift_eq_lanewise {perLane : Bool} {l : BitVec 2} {shift : (n : Nat) → BitVec n → Nat → BitVec n} {x y : Word} {f : Nat → Int}
    (h : ∀ i, shift (lsize l) (laneVec (lsize l) x i) (laneAmount perLane (lsize l) y i) = BitVec.ofInt (lsize l) (f i)) :
    laneShift perLane l shift x y = lanewise (lsize l) f := by
  refine mapLanes_eq_lanewise fun i => ?_
  rw [← BitVec.toNat_ofInt, ← h i]
  exact Nat.mod_eq_of_lt (BitVec.isLt _)

section Amounts

variable (perLane : Bool) (l : BitVec 2) (x y : Word)

theorem laneShift_shlN : laneShift perLane l shlN x y =
    lanewise (lsize l) fun i => (laneAt (lsize l) x i * 2 ^ laneAmount perLane (lsize l) y i : Nat) :=
  laneShift_eq_lanewise fun i => by rw [shlN_eq_ofInt, toNat_laneVec, Int.natCast_mul]

theorem laneShift_shrN : laneShift perLane l shrN x y =
    lanewise (lsize l) fun i => (laneAt (lsize l) x i / 2 ^ laneAmount perLane (lsize l) y i : Nat) :=
  laneShift_eq_lanewise fun i => by rw [shrN_eq_ofInt, toNat_laneVec, Int.natCast_ediv]

theorem laneShift_sarN : laneShift perLane l sarN x y =
    lanewise (lsize l) fun i => laneInt false (lsize l) x i / (2 ^ laneAmount perLane (lsize l) y i : Nat) :=
  laneShift_eq_lanewise fun i => by rw [sarN_eq_ofInt, toInt_laneVec]

end Amounts

/-- Settles O22: each of the six is one shift of every lane, by the amount for all lanes or by the lane's own. -/
theorem packedShifts : Obligations.PackedShifts := by
  unfold Obligations.PackedShifts
  intro s g h l b a d hx _ hf
  simp only [Laws.exec_pshl, Laws.exec_pshr, Laws.exec_psar, Laws.exec_pvshl, Laws.exec_pvshr, Laws.exec_pvsar]
  exact ⟨alu2_does hx hf (laneShift_shlN false ..), alu2_does hx hf (laneShift_shrN false ..), alu2_does hx hf (laneShift_sarN false ..),
    alu2_does hx hf (laneShift_shlN true ..), alu2_does hx hf (laneShift_shrN true ..), alu2_does hx hf (laneShift_sarN true ..)⟩

end Sys2Proof.Proofs

/-! SUPPORT. Floating-point arithmetic in registers (03 R62, R69; 07 R175, R176): the shared shapes of its instructions, the values that
FP32 encodings have, and what the operations make of NaNs, infinities and zeros. -/

namespace Sys2Proof.Proofs

open Sys2Proof Sys2Proof.Machine Sys2Proof.Claims

set_option Elab.async false

/-! ### The shapes of a floating instruction -/

theorem fval_eq_valueIn (f : FFmt) (x : Word) : fval f x = valueIn f x := by simp [fval, valueIn, bits]

theorem accepts_of_roundingOnly {s : State} (h : RoundingOnly s) : s.th.pfx = true → roundRule.accepts s.th.pfxval = true := by
  intro hpfx
  obtain ⟨hfmt, hsat, hmode⟩ := h hpfx
  have hnotSr : pfxMode s.th.pfxval ≠ 5 := by omega
  have hlt : pfxMode s.th.pfxval < 6 := by omega
  simp [PfxRule.accepts, roundRule, hfmt, hsat, hlt, hnotSr]

section Shapes

variable {f : FFmt} {g h : Bool} {b a d : Reg} {s : State} {v : FVal}

theorem fbin_does {op : Bool → FVal → FVal → FVal} (hr : RoundingOnly s) (hf : Full s [a.toNat, b.toNat])
    (hv : op (modeNow s == 3) (valueIn f (s.th.wv a)) (valueIn f (s.th.wv b)) = v) :
    Does s (fbin f g b h a d op s) (wrote s d (rounded f (modeNow s) v) 4) := by
  subst hv
  simp only [← fval_eq_valueIn]
  exact issue_does { pfx := accepts_of_roundingOnly hr, srcs := full_of_sources hf, long := by simp } rfl rfl rfl

theorem ffma_does (hr : RoundingOnly s) (hf : Full s [a.toNat, b.toNat]) (hd : Full s [d.toNat]) :
    Does s (ffma f g b h a d s) (wrote s d (rounded f (modeNow s)
      (fAdd (modeNow s == 3) (fMul (valueIn f (s.th.wv a)) (valueIn f (s.th.wv b))) (valueIn f (s.th.wv d)))) 4) := by
  simp only [← fval_eq_valueIn]
  have hsrcs : Full s [a.toNat, b.toNat, d.toNat] := by simpa [Full, or_imp, forall_and, and_assoc] using And.intro hf hd
  exact issue_does { pfx := accepts_of_roundingOnly hr, srcs := full_of_sources hsrcs, long := by simp } rfl rfl rfl

theorem fbinLong_does {op : FVal → FVal → FVal} (hr : RoundingOnly s) (hf : Full s [a.toNat, b.toNat]) (hd : NoPend s [d])
    (hv : op (valueIn f (s.th.wv a)) (valueIn f (s.th.wv b)) = v) :
    Does s (fbinLong f g b h a d op s) (wroteLong s d (rounded f (modeNow s) v)) := by
  subst hv
  simp only [← fval_eq_valueIn]
  exact issue_does { pfx := accepts_of_roundingOnly hr, srcs := full_of_sources hf, long := long_of_noPend hd }
    (congrArg _ (putLong_eq_wroteLong ..)) rfl rfl

theorem fsqrtLong_does (hr : RoundingOnly s) (hf : Full s [a.toNat]) (hd : NoPend s [d]) (hv : fSqrt (valueIn f (s.th.wv a)) = v) :
    Does s (fsqrtLong f h a d s) (wroteLong s d (rounded f (modeNow s) v)) := by
  subst hv
  simp only [← fval_eq_valueIn]
  exact issue_does { pfx := accepts_of_roundingOnly hr, srcs := full_of_sources hf, long := long_of_noPend hd }
    (congrArg _ (putLong_eq_wroteLong ..)) rfl rfl

end Shapes

/-- Full sources of which only the first is read. -/
theorem full_first {s : State} {a b : Nat} (hf : Full s [a, b]) : Full s [a] := fun r hr => hf r (List.mem_cons.mpr (.inl (List.mem_singleton.mp hr)))

/-- Settles O24: each result is that of the exact operation on the operands' values, rounded once in the pending mode, or in RNE. -/
theorem floatArithmetic : Obligations.FloatArithmetic := by
  unfold Obligations.FloatArithmetic
  intro s g h b a d hr hf
  simp only [Laws.exec_fadd, Laws.exec_fsub, Laws.exec_fmul, Laws.exec_fma, Laws.exec_fdiv, Laws.exec_fsqrt]
  exact ⟨fbin_does hr hf rfl, fbin_does hr hf rfl, fbin_does hr hf rfl, fun hd => ffma_does hr hf hd,
    fun hd => ⟨fbinLong_does hr hf hd rfl, fsqrtLong_does hr (full_first hf) hd rfl⟩⟩

/-! ### The values of FP32 encodings (03 R61) -/

theorem fp32_value (v : Nat) : fp32.value v =
    if bits v 23 8 = 255 then (if bits v 0 23 = 0 then .inf (bitAt v 31) else .nan)
    else if bits v 23 8 = 0 then .fin (bitAt v 31) (bits v 0 23) 1 (-149)
    else .fin (bitAt v 31) (2 ^ 23 + bits v 0 23) 1 ((bits v 23 8 : Int) - 127 - 23) := by
  by_cases htop : bits v 23 8 = 255
  · by_cases hfraction : bits v 0 23 = 0 <;> simp [FFmt.value, fp32, htop, hfraction]
  · by_cases hsub : bits v 23 8 = 0 <;> simp [FFmt.value, fp32, htop, hsub]

theorem bitAt_eq_getLsbD (x : Word) (i : Nat) : bitAt x.toNat i = x.getLsbD i := by
  rw [← BitVec.testBit_toNat, Nat.testBit_eq_decide_div_mod_eq]
  rfl

/-! ### Extremes, comparisons and classes (R62, R176) -/

/-- An instruction of two sources that writes the predicate word. -/
theorem comparison_does {g h : Bool} {b a : Reg} {s : State} {f : State → Word} {v : Word} (hx : NoPrefix s) (hf : Full s [a.toNat, b.toNat])
    (hv : f s = v) : Does s (issue { srcs := [(a.toNat, h), (b.toNat, g)] } s fun s => .next (s.putPw (f s))) (wrotePW s v) := by
  subst hv
  exact issue_does { pfx := accepts_of_noPrefix hx _, srcs := full_of_sources hf, long := by simp } rfl rfl rfl

theorem setPwBit_eq_withBit (pw : Word) (p : BitVec 6) (v : Bool) : setPwBit pw p v = withBit pw p v := rfl

/-- A NaN gives way to the other operand, and two of them to the canonical NaN; of two numbers the order chooses. -/
theorem fpick_eq_extreme (f : FFmt) (top : Bool) (x y : Word) :
    fpick f (if top then maxTakesLeft else minTakesLeft) x y = extreme f top x y := by
  have hlow (v : Word) : bits v.toNat 0 f.width = v.toNat % 2 ^ f.width := by simp [bits]
  have horder : fBelow = below := rfl
  simp only [fpick, extreme, fval_eq_valueIn, hlow]
  by_cases hx : valueIn f x = .nan
  · by_cases hy : valueIn f y = .nan <;> cases top <;> simp [hx, hy, minTakesLeft, maxTakesLeft]
  · by_cases hy : valueIn f y = .nan
    · cases top <;> simp [hx, hy, minTakesLeft, maxTakesLeft]
    · cases top
      case false => cases hbelow : below (valueIn f y) (valueIn f x) <;> simp [hx, hy, minTakesLeft, horder, hbelow]
      case true => cases hbelow : below (valueIn f x) (valueIn f y) <;> simp [hx, hy, maxTakesLeft, horder, hbelow]

theorem fltCond_eq_fcondition {c : BitVec 3} (hc : c.toNat < 5) (x y : FVal) : fltCond c x y = fcondition c x y := by
  have hcodes : c = 0 ∨ c = 1 ∨ c = 2 ∨ c = 3 ∨ c = 4 := by decide +revert
  by_cases hnan : x = .nan ∨ y = .nan
  · rcases hcodes with rfl | rfl | rfl | rfl | rfl <;> simp [fltCond, fcondition, hnan]
  · rcases hcodes with rfl | rfl | rfl | rfl | rfl <;> simp [fltCond, fcondition, hnan]

/-- The classes of R176 by the fields of an FP32 encoding. -/
theorem fClass_fp32 (v : Nat) : fClass fp32 v =
    if bits v 23 8 = 255 then (if bits v 0 23 ≠ 0 then 8 else if bitAt v 31 then 0 else 7)
    else if bits v 23 8 ≠ 0 then (if bitAt v 31 then 1 else 6)
    else if bits v 0 23 ≠ 0 then (if bitAt v 31 then 2 else 5)
    else if bitAt v 31 then 3 else 4 := by
  have hm : fp32.m = 23 := rfl
  have he : fp32.e = 8 := rfl
  by_cases htop : bits v 23 8 = 255
  · by_cases hfraction : bits v 0 23 = 0 <;> simp [fClass, fp32_value, htop, hfraction]
  · by_cases hsub : bits v 23 8 = 0
    · by_cases hfraction : bits v 0 23 = 0 <;> simp [fClass, fp32_value, hm, he, hsub, hfraction]
    · simp [fClass, fp32_value, hm, he, htop, hsub]

/-- The fields of the FP32 encoding in the low half of a register. -/
theorem fClass_low (x : Word) : fClass fp32 (bits x.toNat 0 32) =
    if x.toNat / 2 ^ 23 % 256 = 255 then (if x.toNat % 2 ^ 23 ≠ 0 then 8 else if x.getLsbD 31 then 0 else 7)
    else if x.toNat / 2 ^ 23 % 256 ≠ 0 then (if x.getLsbD 31 then 1 else 6)
    else if x.toNat % 2 ^ 23 ≠ 0 then (if x.getLsbD 31 then 2 else 5)
    else if x.getLsbD 31 then 3 else 4 := by
  have hexponent : bits (bits x.toNat 0 32) 23 8 = x.toNat / 2 ^ 23 % 256 := by unfold bits; omega
  have hfraction : bits (bits x.toNat 0 32) 0 23 = x.toNat % 2 ^ 23 := by unfold bits; omega
  have hsign : bitAt (bits x.toNat 0 32) 31 = x.getLsbD 31 := by
    rw [← bitAt_eq_getLsbD]
    unfold bitAt bits
    congr 1
    omega
  rw [fClass_fp32, hexponent, hfraction, hsign]

/-- Settles O26: the extremes choose as R62 orders the values, the conditions are those of Table 7-5, and the class is read off the
fields of the encoding. -/
theorem floatComparisons : Obligations.FloatComparisons := by
  unfold Obligations.FloatComparisons
  intro s g h b a d p c hx hf
  simp only [Laws.exec_fmin, Laws.exec_fmax, Laws.exec_fcmp, Laws.exec_fclass]
  refine ⟨alu2_does hx hf (fpick_eq_extreme fp32 false ..), alu2_does hx hf (fpick_eq_extreme fp32 true ..), fun hc => ?_, ?_⟩
  · refine comparison_does hx hf ?_
    rw [setPwBit_eq_withBit, fltCond_eq_fcondition hc, fval_eq_valueIn, fval_eq_valueIn]
  · refine comparison_does hx hf ?_
    rw [setPwBit_eq_withBit, fClass_low]

/-! ### NaNs, infinities and zeros among FP32 encodings -/

/-- An FP32 encoding of a NaN. -/
def nan32 (v : Nat) : Bool := decide (0x7F800000 < v % 2 ^ 31)
/-- An FP32 encoding of an infinity. -/
def inf32 (v : Nat) : Bool := decide (v % 2 ^ 31 = 0x7F800000)
/-- An FP32 encoding of a zero. -/
def zero32 (v : Nat) : Bool := decide (v % 2 ^ 31 = 0)

section Encodings

variable {v : Nat}

theorem fp32_value_nan (h : nan32 v = true) : fp32.value v = .nan := by
  have h := of_decide_eq_true h
  have htop : bits v 23 8 = 255 := by unfold bits; omega
  have hfraction : bits v 0 23 ≠ 0 := by unfold bits; omega
  rw [fp32_value, if_pos htop, if_neg hfraction]

theorem fp32_value_inf (h : inf32 v = true) : fp32.value v = .inf (bitAt v 31) := by
  have h := of_decide_eq_true h
  have htop : bits v 23 8 = 255 := by unfold bits; omega
  have hfraction : bits v 0 23 = 0 := by unfold bits; omega
  rw [fp32_value, if_pos htop, if_pos hfraction]

theorem fp32_value_zero (h : zero32 v = true) : fp32.value v = .fin (bitAt v 31) 0 1 (-149) := by
  have h := of_decide_eq_true h
  have htop : bits v 23 8 = 0 := by unfold bits; omega
  have hfraction : bits v 0 23 = 0 := by unfold bits; omega
  rw [fp32_value, if_neg (by omega), if_pos htop, hfraction]

theorem fp32_value_finite (hnan : nan32 v = false) (hinf : inf32 v = false) :
    ∃ n e, fp32.value v = .fin (bitAt v 31) n 1 e ∧ (n = 0 → zero32 v = true) := by
  have hnan := of_decide_eq_false hnan
  have hinf := of_decide_eq_false hinf
  have htop : bits v 23 8 ≠ 255 := by unfold bits; omega
  rw [fp32_value, if_neg htop]
  by_cases hsub : bits v 23 8 = 0
  · rw [if_pos hsub]
    refine ⟨_, _, rfl, fun hfraction => decide_eq_true ?_⟩
    unfold bits at hsub hfraction
    omega
  · rw [if_neg hsub]
    exact ⟨_, _, rfl, fun hzero => absurd hzero (by omega)⟩

/-- Infinities of one sign are one encoding. -/
theorem bitAt_ne_of_inf {w : Nat} (hv : inf32 v = true) (hw : inf32 w = true) (hlt : v < 2 ^ 32) (hlt' : w < 2 ^ 32) (hne : v ≠ w) :
    bitAt v 31 ≠ bitAt w 31 := by
  have hv := of_decide_eq_true hv
  have hw := of_decide_eq_true hw
  rw [bitAt, bitAt, ne_eq, Bool.eq_iff_iff, beq_iff_eq, beq_iff_eq]
  omega

theorem bitAt_of_negative (h : 2 ^ 31 ≤ v) (hlt : v < 2 ^ 32) : bitAt v 31 = true := by
  have hsign : v / 2 ^ 31 % 2 = 1 := by omega
  rw [bitAt, hsign]
  rfl

end Encodings

/-! ### What the operations make of them (R62) -/

theorem fAdd_nan (rd : Bool) (x : FVal) : fAdd rd x .nan = .nan := by cases x <;> rfl
theorem fMul_nan (x : FVal) : fMul x .nan = .nan := by cases x <;> rfl
theorem fDiv_nan (x : FVal) : fDiv x .nan = .nan := by cases x <;> rfl

/-- The difference of a finite value and itself is a zero, whose sign the mode alone gives. -/
theorem fAdd_fNeg_self (rd s : Bool) (n d : Nat) (e : Int) : fAdd rd (.fin s n d e) (fNeg (.fin s n d e)) = .fin rd 0 1 0 := by
  have hcancel (v : Int) : (if s then -v else v) + (if !s then -v else v) = 0 := by
    cases s
    · exact Int.add_right_neg v
    · exact Int.add_left_neg v
  have hsigns : (decide (n = 0) && decide (n = 0) && s == !s) = false := by cases s <;> simp
  simp only [fAdd, fNeg, hcancel, hsigns, if_true, Bool.false_eq_true, if_false]

theorem fSqrt_negative {n : Nat} (hn : n ≠ 0) (d : Nat) (e : Int) : fSqrt (.fin true n d e) = .nan := by simp [fSqrt, hn]

theorem rounded_nan (m : Nat) : rounded fp32 m .nan = 0x7FC00000 := rfl

theorem rounded_zero (m : Nat) (neg : Bool) (e : Int) : rounded fp32 m (.fin neg 0 1 e) = if neg then 0x80000000 else 0 := by
  cases neg <;> rfl

section Invalid

variable {x y : Nat}

theorem fAdd_invalid (rd : Bool) (hx : x < 2 ^ 32) (hy : y < 2 ^ 32)
    (h : (nan32 x || nan32 y || (inf32 x && inf32 y && decide (x ≠ y))) = true) : fAdd rd (fp32.value x) (fp32.value y) = .nan := by
  simp only [Bool.or_eq_true, Bool.and_eq_true, decide_eq_true_eq] at h
  obtain (hnan | hnan) | ⟨⟨hinf, hinf'⟩, hne⟩ := h
  · rw [fp32_value_nan hnan]
    rfl
  · rw [fp32_value_nan hnan, fAdd_nan]
  · rw [fp32_value_inf hinf, fp32_value_inf hinf', fAdd, if_neg (bitAt_ne_of_inf hinf hinf' hx hy hne)]

theorem fSub_invalid (rd : Bool) (h : (nan32 x || nan32 y || (inf32 x && decide (x = y))) = true) :
    fAdd rd (fp32.value x) (fNeg (fp32.value y)) = .nan := by
  simp only [Bool.or_eq_true, Bool.and_eq_true, decide_eq_true_eq] at h
  obtain (hnan | hnan) | ⟨hinf, rfl⟩ := h
  · rw [fp32_value_nan hnan]
    rfl
  · rw [fp32_value_nan hnan, fNeg, fAdd_nan]
  · rw [fp32_value_inf hinf, fNeg, fAdd, if_neg (by simp)]

theorem fMul_invalid (h : (nan32 x || nan32 y || (inf32 x && zero32 y) || (zero32 x && inf32 y)) = true) :
    fMul (fp32.value x) (fp32.value y) = .nan := by
  simp only [Bool.or_eq_true, Bool.and_eq_true] at h
  obtain ((hnan | hnan) | ⟨hinf, hzero⟩) | ⟨hzero, hinf⟩ := h
  · rw [fp32_value_nan hnan]
    rfl
  · rw [fp32_value_nan hnan, fMul_nan]
  · rw [fp32_value_inf hinf, fp32_value_zero hzero, fMul, if_pos rfl]
  · rw [fp32_value_inf hinf, fp32_value_zero hzero, fMul, if_pos rfl]

theorem fDiv_invalid (h : (nan32 x || nan32 y || (inf32 x && inf32 y) || (zero32 x && zero32 y)) = true) :
    fDiv (fp32.value x) (fp32.value y) = .nan := by
  simp only [Bool.or_eq_true, Bool.and_eq_true] at h
  obtain ((hnan | hnan) | ⟨hinf, hinf'⟩) | ⟨hzero, hzero'⟩ := h
  · rw [fp32_value_nan hnan]
    rfl
  · rw [fp32_value_nan hnan, fDiv_nan]
  · rw [fp32_value_inf hinf, fp32_value_inf hinf', fDiv]
  · rw [fp32_value_zero hzero, fp32_value_zero hzero', fDiv, if_pos rfl, if_pos rfl]

theorem fSqrt_invalid (hx : x < 2 ^ 32) (h : (nan32 x || decide (2 ^ 31 < x)) = true) : fSqrt (fp32.value x) = .nan := by
  cases hnan : nan32 x
  case true => rw [fp32_value_nan hnan, fSqrt]
  case false =>
    have hnegative : 2 ^ 31 < x := by simpa [hnan] using h
    have hsign := bitAt_of_negative (Nat.le_of_lt hnegative) hx
    cases hinf : inf32 x
    case true => rw [fp32_value_inf hinf, hsign, fSqrt, if_pos rfl]
    case false =>
      obtain ⟨n, e, hvalue, hzero⟩ := fp32_value_finite hnan hinf
      have hn : n ≠ 0 := fun hn => by
        have hnone := of_decide_eq_true (hzero hn)
        omega
      rw [hvalue, hsign, fSqrt_negative hn]

end Invalid

/-- A number less itself is +0, and -0 under RD. -/
theorem fSub_self (rd : Bool) {x y : Nat} (hsame : x = y) (hnan : nan32 x = false) (hinf : inf32 x = false) :
    fAdd rd (fp32.value x) (fNeg (fp32.value y)) = .fin rd 0 1 0 := by
  subst hsame
  obtain ⟨n, e, hvalue, -⟩ := fp32_value_finite hnan hinf
  rw [hvalue, fAdd_fNeg_self]

theorem fSqrt_negative_zero {x : Nat} (hx : x = 2 ^ 31) : fSqrt (fp32.value x) = .fin true 0 1 0 := by
  subst hx
  rfl

/-! ### Their results in registers -/

section Results

variable {g h : Bool} {b a d : Reg} {s : State}

theorem fbin_nan {op : Bool → FVal → FVal → FVal} (hr : RoundingOnly s) (hf : Full s [a.toNat, b.toNat])
    (hv : op (modeNow s == 3) (valueIn fp32 (s.th.wv a)) (valueIn fp32 (s.th.wv b)) = .nan) :
    Does s (fbin fp32 g b h a d op s) (wrote s d 0x7FC00000 4) := by
  rw [← rounded_nan (modeNow s)]
  exact fbin_does hr hf hv

theorem fbin_zero {op : Bool → FVal → FVal → FVal} (hr : RoundingOnly s) (hf : Full s [a.toNat, b.toNat])
    (hv : op (modeNow s == 3) (valueIn fp32 (s.th.wv a)) (valueIn fp32 (s.th.wv b)) = .fin (modeNow s == 3) 0 1 0) :
    Does s (fbin fp32 g b h a d op s) (wrote s d (if modeNow s = 3 then 0x80000000 else 0) 4) := by
  have hzero := rounded_zero (modeNow s) (modeNow s == 3) 0
  simp only [beq_iff_eq] at hzero
  rw [← hzero]
  exact fbin_does hr hf hv

theorem fbinLong_nan {op : FVal → FVal → FVal} (hr : RoundingOnly s) (hf : Full s [a.toNat, b.toNat]) (hd : NoPend s [d])
    (hv : op (valueIn fp32 (s.th.wv a)) (valueIn fp32 (s.th.wv b)) = .nan) :
    Does s (fbinLong fp32 g b h a d op s) (wroteLong s d 0x7FC00000) := by
  rw [← rounded_nan (modeNow s)]
  exact fbinLong_does hr hf hd hv

theorem fsqrtLong_nan (hr : RoundingOnly s) (hf : Full s [a.toNat]) (hd : NoPend s [d]) (hv : fSqrt (valueIn fp32 (s.th.wv a)) = .nan) :
    Does s (fsqrtLong fp32 h a d s) (wroteLong s d 0x7FC00000) := by
  rw [← rounded_nan (modeNow s)]
  exact fsqrtLong_does hr hf hd hv

theorem fsqrtLong_negative_zero (hr : RoundingOnly s) (hf : Full s [a.toNat]) (hd : NoPend s [d])
    (hv : fSqrt (valueIn fp32 (s.th.wv a)) = .fin true 0 1 0) : Does s (fsqrtLong fp32 h a d s) (wroteLong s d 0x80000000) := by
  have hzero := rounded_zero (modeNow s) true 0
  rw [if_pos rfl] at hzero
  rw [← hzero]
  exact fsqrtLong_does hr hf hd hv

end Results

/-- Settles O28: each invalid case and each NaN gives the value NaN, which rounds to 0x7FC00000 in every mode; the zeros keep the sign
that R62 gives them. -/
theorem floatSpecials : Obligations.FloatSpecials := by
  unfold Obligations.FloatSpecials
  intro s g h b a d hr hf x y nan inf zero qnan
  have hx : x < 2 ^ 32 := Nat.mod_lt _ (by decide)
  have hy : y < 2 ^ 32 := Nat.mod_lt _ (by decide)
  have ha := full_first hf
  rw [Laws.exec_fadd, Laws.exec_fsub, Laws.exec_fmul, Laws.exec_fdiv, Laws.exec_fsqrt]
  exact ⟨fun hbad => fbin_nan hr hf (fAdd_invalid _ hx hy hbad), fun hbad => fbin_nan hr hf (fSub_invalid _ hbad),
    fun hbad => fbin_nan hr hf (fMul_invalid hbad), fun hsame hnan hinf => fbin_zero hr hf (fSub_self _ hsame hnan hinf),
    fun hd => ⟨fun hbad => fbinLong_nan hr hf hd (fDiv_invalid hbad), fun hbad => fsqrtLong_nan hr ha hd (fSqrt_invalid hx hbad),
      fun hzero => fsqrtLong_negative_zero hr ha hd (fSqrt_negative_zero hzero)⟩⟩

end Sys2Proof.Proofs

/-! SUPPORT. Accesses at their perform points (16 R381, 17 R392): the statement of the memory events is refuted by a line that passes
from one cluster to another which holds a poisoned copy of it. -/

namespace Sys2Proof.Proofs

open Sys2Proof Sys2Proof.Machine Sys2Proof.Claims

set_option Elab.async false

/-- Line 0 is die 0's, owned by its cluster 1. Cluster 0 shares it, and the first doubleword of that copy is poisoned; the visible
copy is not. -/
def poisonedCopy : State :=
  { dir := [(0, { st := .m, dies := 1, owner := some 0, cluster := some 1, sharers := [1, 0], has := [(0, 1), (1, 1)] })]
    poison := [cachePlace 0 / 8] }

/-- A store by core 0, which is in cluster 0, of four bytes to that doubleword. -/
def narrowStore : Req := { ctx := 0, core := 0, kind := .store, addr := 0, size := 4, data := 1 }

theorem poisonedCopy_noReplay : NoReplay poisonedCopy := fun _ hx => nomatch hx

theorem poisonedCopy_sound : Sound poisonedCopy 0 0 4 := ⟨by decide, by decide +kernel, rfl⟩

/-- The byte that an outcome leaves at an address of memory. -/
def byteAfter (o : Out) (a : Nat) : Option Byte :=
  match o with
  | .next q => some (readByte q.mem a)
  | _ => none

/-- The line passes to cluster 0, whose copy is the visible one from then on, poison included; a narrower write leaves a poisoned
doubleword as it is. -/
theorem poisonedCopy_keeps : byteAfter (execStoreVisible narrowStore poisonedCopy) 0 = some 0 := by decide +kernel

/-- Refutes O53: a store to a line that its die owns need not change the bytes that it names. The clause asks that no visible byte of
them is poisoned, and says nothing of the copy that the storing cluster holds. -/
theorem not_memoryEvents : ¬ Obligations.MemoryEvents := by
  intro h
  obtain ⟨-, -, -, -, hstore, -⟩ :=
    h poisonedCopy narrowStore .add false false false 0 0 0 0 0 0 0 0 0 poisonedCopy_noReplay
  have hruns := hstore (by decide +kernel) (by decide +kernel) (by decide) (by decide +kernel) poisonedCopy_sound
  rw [Laws.exec_storeVisible] at hruns
  obtain ⟨q, hq, -, -, hstored⟩ := hruns
  have hkept := poisonedCopy_keeps
  rw [hq] at hkept
  exact absurd ((hstored rfl 0).symm.trans (Option.some.inj hkept)) (by decide)

end Sys2Proof.Proofs

/-! SUPPORT. The canonical form of the two byte memories (04 R92, 05 R107, 15 R360). -/

namespace Sys2Proof.Proofs

open Sys2Proof Sys2Proof.Machine Sys2Proof.Claims

set_option Elab.async false

/-- Settles O5: both memories are empty. -/
theorem resetCanonical : Obligations.ResetCanonical := rfl

end Sys2Proof.Proofs

/-! SUPPORT. What changes no byte: an operation of the model that writes to no memory leaves the two byte memories as they are (04 R92,
05 R107, 15 R360). One lemma per operation, in the order of the model's files. -/

namespace Sys2Proof.Proofs

open Sys2Proof Sys2Proof.Machine

set_option Elab.async false

/-- The two byte memories of a state: the visible bytes of memory, and the core stores. -/
def memories (s : State) : Memory × Memory := (s.mem, s.cstore)

/-! ### Updates of a field, choices and loops

`(rfl)` in parentheses keeps a lemma from being one that `simp` applies by unfolding: such a lemma is of no use to it where the
hypothesis of another lemma is to be proved. -/

section

variable {s : State}

@[simp] theorem memories_mk {th cur ipc ienc poison ctxs cdir cores clusters dies links dir stamps lost seqs tiles blocks launches parts
    sets held inlink olds inbox gtime sub mode bootStep bootFail bootReason meas flash diefail scrub mailbox launchIds external ptpRate
    ptpFrac ptpWaits lockReports fresh} :
    memories ⟨th, cur, ipc, ienc, s.mem, s.cstore, poison, ctxs, cdir, cores, clusters, dies, links, dir, stamps, lost, seqs, tiles,
      blocks, launches, parts, sets, held, inlink, olds, inbox, gtime, sub, mode, bootStep, bootFail, bootReason, meas, flash, diefail,
      scrub, mailbox, launchIds, external, ptpRate, ptpFrac, ptpWaits, lockReports, fresh⟩ = memories s := (rfl)

@[simp] theorem memories_ite {c : Prop} [Decidable c] {a b : State} :
    memories (if c then a else b) = if c then memories a else memories b := by
  split <;> rfl

@[simp] theorem each_memories {α : Type} {f : α → State → State} {l : List α} (h : ∀ x t, memories (f x t) = memories t) :
    memories (each l f s) = memories s := by
  induction l generalizing s with
  | nil => rfl
  | cons x r ih => exact ih.trans (h x s)

@[simp] theorem foldl_memories {α : Type} {f : State → α → State} {l : List α} (h : ∀ t x, memories (f t x) = memories t) :
    memories (l.foldl f s) = memories s := by
  induction l generalizing s with
  | nil => rfl
  | cons x r ih => exact ih.trans (h s x)

theorem foldl_second_memories {α β : Type} {f : β × State → α → β × State} (h : ∀ p x, memories (f p x).2 = memories p.2) :
    ∀ (l : List α) (p : β × State), memories (l.foldl f p).2 = memories p.2
  | [], _ => rfl
  | x :: r, p => (foldl_second_memories h r (f p x)).trans (h p x)

end

section

variable (s : State)

/-! ### The units of the package -/

@[simp] theorem modCore_memories (c : Nat) (f : Core → Core) : memories (s.modCore c f) = memories s := (rfl)

@[simp] theorem modCluster_memories (c : Nat) (f : Cluster → Cluster) : memories (s.modCluster c f) = memories s := (rfl)

@[simp] theorem modDie_memories (d : Nat) (f : Die → Die) : memories (s.modDie d f) = memories s := (rfl)

@[simp] theorem modLink_memories (die l : Nat) (f : LinkEnd → LinkEnd) : memories (s.modLink die l f) = memories s := (rfl)

@[simp] theorem modPart_memories (p : Nat) (f : Machine.Partition → Machine.Partition) :
    memories (s.modPart p f) = memories s := (rfl)

@[simp] theorem modSet_memories (d : Nat) (f : DieSet → DieSet) : memories (s.modSet d f) = memories s := (rfl)

@[simp] theorem modBlock_memories (b : Nat) (f : Block → Block) : memories (s.modBlock b f) = memories s := by
  unfold State.modBlock
  split <;> simp

@[simp] theorem modLaunch_memories (l : Nat) (f : Launch → Launch) : memories (s.modLaunch l f) = memories s := by
  unfold State.modLaunch
  split <;> simp

@[simp] theorem countCore_memories (core source : Nat) (slot : Option Nat) :
    memories (s.countCore core source slot) = memories s := by simp [State.countCore]

@[simp] theorem countCluster_memories (k source n : Nat) : memories (s.countCluster k source n) = memories s := by
  simp [State.countCluster]

@[simp] theorem modCtx_memories (id : Nat) (f : Ctx → Ctx) : memories (s.modCtx id f) = memories s := by
  unfold State.modCtx
  split <;> simp

@[simp] theorem modEntry_memories (id : Nat) (f : CtxEntry → CtxEntry) : memories (s.modEntry id f) = memories s := (rfl)

@[simp] theorem post_memories (ev : Ev) : memories (s.post ev) = memories s := (rfl)

@[simp] theorem enqueue_memories (at_ : Nat) (m : LinkMsg) : memories (s.enqueue at_ m) = memories s := by
  unfold State.enqueue
  split <;> simp

@[simp] theorem send_memories (src dst cls bytes : Nat) (posted : Bool) (tx : Option Nat) (ev : Ev) :
    memories (s.send src dst cls bytes posted tx ev) = memories s := by simp [State.send]

@[simp] theorem newTx_memories (src dst : Nat) : memories (s.newTx src dst).2 = memories s := by
  unfold State.newTx
  split <;> rfl

@[simp] theorem unconfirmed_memories (src dst : Nat) (posted : Bool) (tx : Option Nat) :
    memories (s.unconfirmed src dst posted tx) = memories s := by
  unfold State.unconfirmed
  split <;> simp

@[simp] theorem sendOnce_memories (src dst cls bytes : Nat) (posted : Bool) (ev : Option Nat → Ev) :
    memories (s.sendOnce src dst cls bytes posted ev) = memories s := by simp [State.sendOnce]

@[simp] theorem sendNamed_memories (src dst cls bytes : Nat) (ev : Ev) :
    memories (s.sendNamed src dst cls bytes ev) = memories s := by simp [State.sendNamed]

@[simp] theorem respond_memories (src dst cls bytes : Nat) (tx : Option Nat) (ev : Ev) :
    memories (s.respond src dst cls bytes tx ev) = memories s := by
  unfold State.respond
  split <;> simp

@[simp] theorem seatOne_memories (core slot id : Nat) : memories (s.seatOne core slot id) = memories s := by
  simp [State.seatOne]

@[simp] theorem seat_memories (core slot id : Nat) : memories (s.seat core slot id) = memories s := by
  unfold State.seat
  split <;> simp

@[simp] theorem fillSlots_memories (core : Nat) : memories (s.fillSlots core) = memories s := by
  refine each_memories fun k t => ?_
  split
  · rfl
  · split
    · split <;> simp
    · rfl

@[simp] theorem dropLine_memories (id : Nat) : memories (s.dropLine id) = memories s := by
  unfold State.dropLine
  split <;> simp

@[simp] theorem markLine_memories (id : Nat) (dst : Holder) : memories (s.markLine id dst) = memories s := (rfl)

@[simp] theorem shipLine_memories (id : Nat) (dst : Holder) : memories (s.shipLine id dst) = memories s := by
  simp [State.shipLine]

@[simp] theorem sendLine_memories (id : Nat) (dst : Holder) : memories (s.sendLine id dst) = memories s := by
  simp [State.sendLine]

@[simp] theorem giveLine_memories (id : Nat) (dst : Holder) : memories (s.giveLine id dst) = memories s := by
  unfold State.giveLine
  split <;> simp

@[simp] theorem sendUnit_memories (id : Nat) (dst : Holder) : memories (s.sendUnit id dst) = memories s := by
  simp [State.sendUnit]

@[simp] theorem requeue_memories (core id : Nat) (head : Bool) : memories (s.requeue core id head) = memories s := by
  simp [State.requeue]

@[simp] theorem vacate_memories (core id : Nat) (head : Bool) : memories (s.vacate core id head) = memories s := by
  simp [State.vacate]

@[simp] theorem returnSlot_memories (core id : Nat) : memories (s.returnSlot core id) = memories s := by
  unfold State.returnSlot
  split <;> simp

theorem displaceAt_memories {s t : State} {core k id : Nat} (h : s.displaceAt core k id = some t) :
    memories t = memories s := by
  simp only [State.displaceAt] at h
  split at h
  · obtain rfl := Option.some.inj h
    simp
  · cases h

theorem displacement_memories {s t : State} {core : Nat} (h : s.displacement core = some t) : memories t = memories s := by
  have hgo {id : Nat} {ok : Ctx → Bool} {t : State} (hgo : ((s.placeFor core id ok).bind fun k => s.displaceAt core k id) = some t) :
      memories t = memories s := by
    obtain ⟨k, -, hk⟩ := Option.bind_eq_some_iff.mp hgo
    exact displaceAt_memories hk
  simp only [State.displacement] at h
  split at h
  · next hback =>
    obtain rfl := Option.some.inj h
    obtain ⟨id, -, hid⟩ := List.exists_of_findSome?_eq_some hback
    split at hid
    · exact hgo hid
    · cases hid
  · split at h
    · exact hgo h
    · exact hgo h
  · obtain ⟨id, -, hid⟩ := List.exists_of_findSome?_eq_some h
    split at hid
    · exact hgo hid
    · cases hid

@[simp] theorem displaceAll_memories (core : Nat) : ∀ (n : Nat) (s : State), memories (s.displaceAll core n) = memories s
  | 0, _ => rfl
  | n + 1, s => by
    unfold State.displaceAll
    split
    · rfl
    · split
      · next hd => rw [displaceAll_memories core n, displacement_memories hd]
      · rfl

@[simp] theorem expel_memories (core : Nat) : memories (s.expel core) = memories s := by simp [State.expel]

@[simp] theorem dispatch_memories (core : Nat) : memories (s.dispatch core) = memories s := by simp [State.dispatch]

@[simp] theorem moveLine_memories (id : Nat) (dst : Holder) : memories (s.moveLine id dst) = memories s := by
  unfold State.moveLine
  split <;> simp

@[simp] theorem ring_memories (id : Nat) : memories (s.ring id) = memories s := by simp [State.ring]

@[simp] theorem sendPost_memories (id : Nat) : memories (s.sendPost id) = memories s := by simp [State.sendPost]

@[simp] theorem nowReady_memories (id : Nat) : memories (s.nowReady id) = memories s := by
  simp only [State.nowReady]
  repeat' split
  all_goals simp

@[simp] theorem makeReady_memories (id : Nat) : memories (s.makeReady id) = memories s := by simp [State.makeReady]

@[simp] theorem wake_memories (id kind : Nat) : memories (s.wake id kind) = memories s := by simp [State.wake]

@[simp] theorem freeTiles_memories (cluster launch index : Nat) : memories (s.freeTiles cluster launch index) = memories s :=
  (rfl)

@[simp] theorem blockMaybeEnds_memories (b : Nat) : memories (s.blockMaybeEnds b) = memories s := by
  simp only [State.blockMaybeEnds]
  repeat' split
  all_goals simp

@[simp] theorem discharge_memories (id : Nat) (how : Ending) : memories (s.discharge id how) = memories s := by
  simp only [State.discharge]
  split <;> simp

@[simp] theorem modImage_memories (id : Nat) (f : Core → Core) : memories (s.modImage id f) = memories s := (rfl)

@[simp] theorem unhold_memories (id : Nat) : memories (s.unhold id) = memories s := by
  unfold State.unhold
  split <;> simp

@[simp] theorem endCtx_memories (id : Nat) (how : Ending) (die : Nat) : memories (s.endCtx id how die) = memories s := by
  unfold State.endCtx
  extract_lets mine watching drop swept unwatched stays ended closed told gone moved freed
  have htold : memories told = memories s := by simp [told, closed, ended, unwatched, swept]
  have hmoved : memories moved = memories s := by
    unfold moved
    split <;> simp [htold]
  simp [freed, hmoved]

/-! ### The error log and what a write does besides writing -/

@[simp] theorem postAdd_memories (die part va : Nat) : memories (s.postAdd die part va) = memories s := by
  unfold State.postAdd
  split <;> simp

@[simp] theorem logError_memories (at_ unit die site struct kind addr : Nat) :
    memories (s.logError at_ unit die site struct kind addr) = memories s := by simp [State.logError]

@[simp] theorem modLine_memories (l : Nat) (f : DirEntry → DirEntry) : memories (s.modLine l f) = memories s := (rfl)

@[simp] theorem tell_memories (src id cls bytes : Nat) (e : Holder → Ev) : memories (s.tell src id cls bytes e) = memories s := by
  simp [State.tell]

@[simp] theorem wakeWatch_memories (src : Nat) (w : Waiter) (reason : Word) :
    memories (s.wakeWatch src w reason) = memories s := by simp [State.wakeWatch]

@[simp] theorem wakeLine_memories (line : Nat) : memories (s.wakeLine line) = memories s := by simp [State.wakeLine]

@[simp] theorem stamp_memories (line : Nat) : memories (s.stamp line) = memories s := by simp [State.stamp]

@[simp] theorem advanceSeqs_memories (pa n : Nat) : memories (s.advanceSeqs pa n) = memories s := by simp [State.advanceSeqs]

@[simp] theorem keepOld_memories (m : Memory) (pa n : Nat) : memories (s.keepOld m pa n) = memories s := (rfl)

@[simp] theorem unmark_memories (p n : Nat) : memories (s.unmark p n) = memories s := by simp [State.unmark]

@[simp] theorem unmarkWhole_memories (p n : Nat) : memories (s.unmarkWhole p n) = memories s := by simp [State.unmarkWhole]

@[simp] theorem reportLost_memories (pa : Nat) : memories (s.reportLost pa) = memories s := by simp [State.reportLost]

@[simp] theorem ownHome_memories (line : Nat) : memories (s.ownHome line) = memories s := by simp [State.ownHome]

@[simp] theorem ownHomeAll_memories (pa n : Nat) : memories (s.ownHomeAll pa n) = memories s := by simp [State.ownHomeAll]

@[simp] theorem meshed_memories (r : Req) : memories (s.meshed r) = memories s := by simp [State.meshed]

@[simp] theorem notify_memories (part die : Nat) : memories (s.notify part die) = memories s := by simp [State.notify]

@[simp] theorem recordDone_memories (die kind : Nat) (tell : Option Nat) :
    memories (s.recordDone die kind tell) = memories s := by
  simp only [State.recordDone]
  repeat' split
  all_goals simp

@[simp] theorem putRecord_memories (die part kind no va : Nat) (bs : List Byte) (tell : Option Nat) :
    memories (s.putRecord die part kind no va bs tell) = memories s := by simp [State.putRecord]

@[simp] theorem debugRecord_memories (die cva pc slot core detail type : Nat) (more : List Word) (tell : Option Nat) :
    memories (s.debugRecord die cva pc slot core detail type more tell) = memories s := by
  unfold State.debugRecord
  split <;> simp

@[simp] theorem pctSpill_memories (cluster : Nat) (e : PctEntry) : memories (s.pctSpill cluster e) = memories s := by
  simp [State.pctSpill]

@[simp] theorem pctSpillWhere_memories (cluster : Nat) (p : PctEntry → Bool) :
    memories (s.pctSpillWhere cluster p) = memories s := by simp [State.pctSpillWhere]

@[simp] theorem pcReportAs_memories (core part reason pc l : Nat) :
    memories (s.pcReportAs core part reason pc l) = memories s := by
  simp only [State.pcReportAs]
  repeat' split
  all_goals simp

@[simp] theorem pcReport_memories (core id reason : Nat) : memories (s.pcReport core id reason) = memories s := by
  simp [State.pcReport]

@[simp] theorem sampleAt_memories (core part reason pc l : Nat) : memories (s.sampleAt core part reason pc l) = memories s := by
  simp [State.sampleAt]

/-! ### Traps and returns -/

@[simp] theorem deliver_memories (core level h : Nat) (w0 w1 w2 w3 : Word) :
    memories (s.deliver core level h w0 w1 w2 w3) = memories s := by simp [State.deliver]

@[simp] theorem machineCheck_memories (core b cause cva : Nat) : memories (s.machineCheck core b cause cva) = memories s := by
  simp [State.machineCheck]

@[simp] theorem queueTrap_memories (core : Nat) (e : TrapEntry) : memories (s.queueTrap core e) = memories s := by
  simp [State.queueTrap]

@[simp] theorem announce_memories (core : Nat) (e : TrapEntry) : memories (s.announce core e) = memories s := by
  unfold State.announce
  split <;> simp

@[simp] theorem parkTrapped_memories (core id cause : Nat) (info : Word) (pc : BitVec 57) :
    memories (s.parkTrapped core id cause info pc) = memories s := by simp [State.parkTrapped]

@[simp] theorem trap_memories (core id cause : Nat) (info : Word) (pc : BitVec 57) :
    memories (s.trap core id cause info pc) = memories s := by simp [State.trap]

@[simp] theorem trapAt_memories (cause : Nat) (info : Word) (pc : BitVec 57) : memories (s.trapAt cause info pc) = memories s := by
  simp [State.trapAt]

@[simp] theorem takeHeld_memories (core id : Nat) : memories (s.takeHeld core id) = memories s := by
  unfold State.takeHeld
  split <;> simp

theorem nextTrap_memories {s t : State} {core level : Nat} {e : TrapEntry} (h : s.nextTrap core level = some (e, t)) :
    memories t = memories s := by
  simp only [State.nextTrap] at h
  split at h
  · obtain ⟨-, rfl⟩ := Prod.mk.inj (Option.some.inj h)
    simp
  · split at h
    · obtain ⟨-, rfl⟩ := Prod.mk.inj (Option.some.inj h)
      simp
    · cases h

@[simp] theorem retireHandler_memories (core h : Nat) : memories (s.retireHandler core h) = memories s := by
  simp [State.retireHandler]

@[simp] theorem eretFrom_memories (core h level : Nat) : memories (s.eretFrom core h level) = memories s := by
  simp only [State.eretFrom, dispatch_memories]
  split
  · next hnext =>
    have htaken := nextTrap_memories (Option.ite_none_right_eq_some.mp hnext).2
    split <;> simp [htaken]
  · simp

@[simp] theorem asyncTrap_memories (id cause : Nat) (info : Word) : memories (s.asyncTrap id cause info) = memories s := by
  simp only [State.asyncTrap]
  repeat' split
  all_goals simp

/-! ### Accesses on their way -/

@[simp] theorem beginRound_memories (die link : Nat) : memories (s.beginRound die link) = memories s := by
  unfold State.beginRound
  split <;> simp

@[simp] theorem joinRounds_memories (die scope : Nat) : memories (s.joinRounds die scope).2 = memories s := by
  unfold State.joinRounds
  refine foldl_second_memories (fun acc l => ?_) ..
  obtain ⟨acc, t⟩ := acc
  dsimp only
  split
  · rfl
  · split <;> simp

@[simp] theorem launchEv_memories (src : Nat) (e : Ev) : memories (s.launchEv src e) = memories s := by
  simp only [State.launchEv]
  split <;> simp

@[simp] theorem unfence_memories : memories s.unfence = memories s := by simp [State.unfence]

@[simp] theorem hold_memories (ctx core scope : Nat) (e : Ev) : memories (s.hold ctx core scope e) = memories s :=
  joinRounds_memories s (dieOf core) scope

/-! ### Issue -/

@[simp] theorem mismatch_memories (ld tr kind : Nat) : memories (s.mismatch ld tr kind) = memories s := by
  simp only [State.mismatch]
  repeat' split
  all_goals simp

@[simp] theorem retire_memories (n : Nat) : memories (s.retire n) = memories s := (rfl)

@[simp] theorem settle_memories (ld tr : Nat) : memories (s.settle ld tr) = memories s := by
  refine (each_memories fun e t => ?_).trans (modCtx_memories ..)
  split <;> simp

@[simp] theorem led_memories (pc : BitVec 57) : memories (s.led pc) = memories s := by simp [State.led]

@[simp] theorem followed_memories (p : Nat) (pc : BitVec 57) : memories (s.followed p pc) = memories s := by
  simp [State.followed]

@[simp] theorem migrate_memories (id ext : Nat) : memories (s.migrate id ext) = memories s := by simp [State.migrate]

/-! ### What reaches a context line -/

@[simp] theorem trapLater_memories (id cause : Nat) (info : Word) : memories (s.trapLater id cause info) = memories s := by
  simp [State.trapLater]

@[simp] theorem haltCtx_memories (id how : Nat) : memories (s.haltCtx id how) = memories s := by
  simp only [State.haltCtx]
  repeat' split
  all_goals simp

@[simp] theorem stopNow_memories (id how : Nat) : memories (s.stopNow id how) = memories s := by simp [State.stopNow]

@[simp] theorem resume_memories (id : Nat) : memories (s.resume id) = memories s := by
  simp only [State.resume]
  repeat' split
  all_goals simp

@[simp] theorem wakeFor_memories (id kind : Nat) : memories (s.wakeFor id kind) = memories s := by
  simp only [State.wakeFor]
  split <;> simp

@[simp] theorem addressed_memories {s : State} {id : Nat} {unit : Holder} {msg : Ev} {act : State → State}
    (h : memories (act s) = memories s) : memories (s.addressed id unit msg act) = memories s := by
  simp [State.addressed, h]

@[simp] theorem forward_memories (id : Nat) (msg : Ev) : memories (s.forward id msg) = memories s := by simp [State.forward]

@[simp] theorem applyFill_memories (id reg : Nat) (tag : Bool) (v : Word) :
    memories (s.applyFill id reg tag v) = memories s := by
  simp only [State.applyFill]
  repeat' split
  all_goals simp

@[simp] theorem applyPoison_memories (id : Nat) (regs : List (Nat × Bool)) (info : Word) :
    memories (s.applyPoison id regs info) = memories s := by
  unfold State.applyPoison
  extract_lets c void emptied resumed trapped
  have hemptied : memories emptied = memories s := by
    refine each_memories fun x t => ?_
    obtain ⟨reg, tag⟩ := x
    dsimp only
    split <;> simp
  have hresumed : memories resumed = memories s := by simp [resumed, hemptied]
  split
  · exact hresumed
  · split <;> simp [trapped, hresumed]

@[simp] theorem pairFill_memories (id reg : Nat) (v : Word) : memories (s.pairFill id reg v) = memories s := by
  simp only [State.pairFill]
  repeat' split
  all_goals simp

theorem takeL2_memories {s t : State} {cluster id : Nat} (h : s.takeL2 cluster id = some t) : memories t = memories s := by
  simp only [State.takeL2] at h
  split at h
  · obtain rfl := Option.some.inj h
    simp
  · split at h
    · obtain rfl := Option.some.inj h
      simp
    · cases h

@[simp] theorem enterL2_memories (cluster id : Nat) : memories (s.enterL2 cluster id) = memories s := by
  unfold State.enterL2
  cases h : s.takeL2 cluster id with
  | none => simp
  | some t => exact takeL2_memories h

@[simp] theorem settleIn_memories (core id : Nat) : memories (s.settleIn core id) = memories s := by
  simp only [State.settleIn]
  repeat' split
  all_goals simp

@[simp] theorem postReady_memories (id : Nat) : memories (s.postReady id) = memories s := by
  simp only [State.postReady]
  repeat' split
  all_goals simp

@[simp] theorem arrive_memories (ctx : Nat) (dst : Holder) : memories (s.arrive ctx dst) = memories s := by
  cases dst with
  | core k =>
    simp only [State.arrive, settleIn_memories, send_memories, memories_ite, modCtx_memories, modCore_memories, ite_self]
    split
    · rfl
    · split <;> simp
  | l2 k =>
    simp only [State.arrive]
    split
    · next htake => simp [takeL2_memories htake]
    · simp
  | memory => simp [State.arrive]
  | shadow d => simp [State.arrive]

/-! ### Access to memory -/

@[simp] theorem tlbCore_memories (core : Nat) (e : TlbEntry) : memories (s.tlbCore core e) = memories s := (rfl)

@[simp] theorem tlbCluster_memories (cluster : Nat) (e : TlbEntry) : memories (s.tlbCluster cluster e) = memories s := (rfl)

@[simp] theorem beginWalk_memories (die : Nat) (w : Walk) : memories (s.beginWalk die w) = memories s := by
  simp [State.beginWalk]

@[simp] theorem startQueued_memories (die : Nat) : memories (s.startQueued die) = memories s := by simp [State.startQueued]

@[simp] theorem report_memories (blk src patch : Nat) (wr : Bool) (icause pc : Nat) :
    memories (s.report blk src patch wr icause pc) = memories s := by
  unfold State.report
  split <;> simp

@[simp] theorem reportPa_memories (pa : Nat) (wr : Bool) : memories (s.reportPa pa wr) = memories s := by simp [State.reportPa]

@[simp] theorem reportImpure_memories (icause : Nat) : memories (s.reportImpure icause) = memories s := by
  simp [State.reportImpure]

@[simp] theorem forget_memories (core : Nat) : memories (s.forget core) = memories s := (rfl)

@[simp] theorem acquireL1_memories (core : Nat) : memories (s.acquireL1 core) = memories s := (rfl)

@[simp] theorem acquire_memories (core scope : Nat) : memories (s.acquire core scope) = memories s := by simp [State.acquire]

@[simp] theorem fillL1_memories (core sector : Nat) : memories (s.fillL1 core sector) = memories s := by
  simp only [State.fillL1]
  repeat' split
  all_goals simp

@[simp] theorem refreshL1_memories (core pa v n : Nat) : memories (s.refreshL1 core pa v n) = memories s := by
  simp [State.refreshL1]

@[simp] theorem reply_memories (src cls : Nat) (r : Req) (v : Nat) (poison : Bool) :
    memories (s.reply src cls r v poison) = memories s := by simp [State.reply]

@[simp] theorem loadShort_memories (len : Nat) (r : Req) (v : Nat) : memories (s.loadShort len r v) = memories s := (rfl)

@[simp] theorem loadLong_memories (len : Nat) (r : Req) (dst : List Nat) : memories (s.loadLong len r dst).2 = memories s := by
  simp [State.loadLong]

@[simp] theorem sendLoad_memories (spot : Spot) (e : Ev) : memories (s.sendLoad spot e) = memories s := by
  simp only [State.sendLoad]
  repeat' split
  all_goals simp

/-! ### Results -/

@[simp] theorem putW_memories (d : Reg) (v : Word) (n : Nat) : memories (s.putW d v n) = memories s := (rfl)

@[simp] theorem putLong_memories (d : Reg) (v : Word) : memories (s.putLong d v) = memories s := (rfl)

@[simp] theorem putPw_memories (v : Word) : memories (s.putPw v) = memories s := (rfl)

/-! ### Memory instructions -/

@[simp] theorem dropSector_memories (core pa : Nat) : memories (s.dropSector core pa) = memories s := (rfl)

@[simp] theorem dropL1Line_memories (core line : Nat) : memories (s.dropL1Line core line) = memories s := (rfl)

/-! ### Bit streams -/

@[simp] theorem setPos_memories (p : Nat) : memories (s.setPos p) = memories s := (rfl)

@[simp] theorem reportPlaces_memories (ps : List Place) : memories (s.reportPlaces ps) = memories s := by
  refine each_memories fun p t => ?_
  split <;> simp

@[simp] theorem countFar_memories (far : List Place) : memories (s.countFar far) = memories s := by simp [State.countFar]

/-! ### Branches -/

@[simp] theorem branch_memories (n : Nat) (taken : Bool) (t : BitVec 57) : memories (s.branch n taken t) = memories s := by
  simp [State.branch]

/-! ### Tiles -/

@[simp] theorem putTile_memories (key : Nat) (t : Tile) : memories (s.putTile key t) = memories s := by
  unfold State.putTile
  split <;> simp

/-! ### Wait objects at issue -/

@[simp] theorem queueWaiter_memories (core : Nat) (w : Waiter) : memories (s.queueWaiter core w).2 = memories s := by
  simp only [State.queueWaiter]
  split
  · simp
  · split <;> simp

@[simp] theorem repollLater_memories (id : Nat) : memories (s.repollLater id) = memories s := by simp [State.repollLater]

@[simp] theorem askPool_memories (d : Reg) (entry arg : Word) (jc : Option Nat) :
    memories (s.askPool d entry arg jc) = memories s := by simp [State.askPool]

@[simp] theorem modBar_memories (core n : Nat) (f : Bar → Bar) : memories (s.modBar core n f) = memories s := (rfl)

@[simp] theorem advanceBar_memories (core n : Nat) : memories (s.advanceBar core n) = memories s := by simp [State.advanceBar]

/-! ### Jugglers, engines and streamers -/

@[simp] theorem engineWalks_memories (g : Asker) (ps : List (Bool × Nat)) : memories (s.engineWalks g ps) = memories s := by
  simp [State.engineWalks]

@[simp] theorem forgetWalks_memories (g : Asker) : memories (s.forgetWalks g) = memories s := by simp [State.forgetWalks]

@[simp] theorem reportRuns_memories (c : Cmd) (wr : Bool) (l : List (Nat × Nat)) :
    memories (s.reportRuns c wr l) = memories s := by simp [State.reportRuns]

@[simp] theorem memOperands_memories (t : Machine.Task) : memories (s.memOperands t).2 = memories s := by
  simp [State.memOperands]

@[simp] theorem retireTile_memories (x : TRef) : memories (s.retireTile x) = memories s := (rfl)

@[simp] theorem putWords_memories (key : Nat) (t : Tile) (spans : List (Nat × Nat)) :
    memories (s.putWords key t spans) = memories s := by
  simp only [State.putWords]
  split <;> simp

@[simp] theorem putRows_memories (x : TRef) (t : Tile) : memories (s.putRows x t) = memories s := by simp [State.putRows]

@[simp] theorem putScales_memories (x : TRef) (t : Tile) : memories (s.putScales x t) = memories s := by simp [State.putScales]

@[simp] theorem modTask_memories (cluster n : Nat) (f : Machine.Task → Machine.Task) :
    memories (s.modTask cluster n f) = memories s := (rfl)

@[simp] theorem issueTasks_memories (cluster : Nat) : memories (s.issueTasks cluster) = memories s := by
  refine each_memories fun _ t => ?_
  split <;> simp

@[simp] theorem updateJc_memories (t : Machine.Task) (die sender : Nat) (addend : Word) (flt : Nat) :
    memories (s.updateJc t die sender addend flt) = memories s := by simp [State.updateJc]

@[simp] theorem perform_memories (t : Machine.Task) : memories (s.perform t) = memories s := by
  simp only [State.perform]
  repeat' split
  all_goals simp

@[simp] theorem finish_memories (cluster n : Nat) (t : Machine.Task) : memories (s.finish cluster n t) = memories s := by
  simp [State.finish]

theorem fetchList_memories {s u : State} {cluster task : Nat} {t : Machine.Task} (h : s.fetchList cluster task t = some u) :
    memories u = memories s := by
  simp only [State.fetchList] at h
  split at h
  · cases h
  · split at h <;>
    · obtain rfl := Option.some.inj h
      simp

@[simp] theorem beginPart_memories (cluster task part : Nat) : memories (s.beginPart cluster task part) = memories s := (rfl)

@[simp] theorem nextPush_memories (t : Machine.Task) (cluster task part : Nat) (p : Machine.Part) :
    memories (s.nextPush t cluster task part p) = memories s := by simp [State.nextPush]

@[simp] theorem splitTask_memories (cluster task : Nat) (t : Machine.Task) :
    memories (s.splitTask cluster task t) = memories s := by
  unfold State.splitTask
  split
  · next hfetch => exact fetchList_memories hfetch
  · dsimp only
    split <;> simp

@[simp] theorem startPart_memories (cluster task part : Nat) (t : Machine.Task) (p : Machine.Part) :
    memories (s.startPart cluster task part t p) = memories s := by
  simp only [State.startPart]
  repeat' split
  all_goals simp

@[simp] theorem pushed_memories (t : Machine.Task) (cluster task part : Nat) (p : Machine.Part) (n : Nat) :
    memories (s.pushed t cluster task part p n) = memories s := by simp [State.pushed]

/-! ### Perform points -/

@[simp] theorem logOp_memories (part unit kind loc : Nat) (req : Word) :
    memories (s.logOp part unit kind loc req) = memories s := by simp [State.logOp]

@[simp] theorem retryHeld_memories (part unit loc : Nat) : memories (s.retryHeld part unit loc) = memories s := (rfl)

@[simp] theorem tickEntry_memories (part unit n : Nat) : memories (s.tickEntry part unit n) = memories s := (rfl)

@[simp] theorem logGrant_memories (part unit loc ctx : Nat) : memories (s.logGrant part unit loc ctx) = memories s := by
  simp only [State.logGrant]
  repeat' split
  all_goals simp

/-- A request that is served leaves what its action leaves; one that the replayed log does not expect next is held, and changes no byte. -/
theorem arbitrated_memories (part unit kind loc ctx : Nat) (ev : Ev) (grants : List Nat) (act : State → State) :
    memories (s.arbitrated part unit kind loc ctx ev grants act) = memories (act s) ∨
      memories (s.arbitrated part unit kind loc ctx ev grants act) = memories s := by
  simp only [State.arbitrated]
  split
  · exact .inl (by simp)
  · split
    · exact .inl rfl
    · split
      · exact .inl (by simp)
      · exact .inr (by simp)

@[simp] theorem acquired_memories (r : Req) : memories (s.acquired r) = memories s := by simp [State.acquired]

@[simp] theorem nackTo_memories (home die cls : Nat) (tx : Option Nat) (e : Ev) :
    memories (s.nackTo home die cls tx e) = memories s := by simp [State.nackTo]

@[simp] theorem nack_memories (r : Req) (cls : Nat) (e : Ev) : memories (s.nack r cls e) = memories s := by simp [State.nack]

@[simp] theorem resentPosted_memories (die dst : Nat) (tx : Option Nat) :
    memories (s.resentPosted die dst tx) = memories s := by
  unfold State.resentPosted
  split <;> simp

@[simp] theorem evictLine_memories (k line : Nat) : memories (s.evictLine k line) = memories s := by simp [State.evictLine]

@[simp] theorem cacheLine_memories (k line : Nat) : memories (s.cacheLine k line) = memories s := by
  simp only [State.cacheLine]
  repeat' split
  all_goals simp

@[simp] theorem msFill_memories (home line : Nat) (sectors : BitVec 4) : memories (s.msFill home line sectors) = memories s :=
  (rfl)

@[simp] theorem readPoint_memories (src : Nat) (r : Req) : memories (s.readPoint src r) = memories s := by
  simp only [State.readPoint]
  repeat' split
  all_goals simp

@[simp] theorem ownCopy_memories (k line : Nat) : memories (s.ownCopy k line) = memories s := by simp [State.ownCopy]

@[simp] theorem fillCopy_memories (k line : Nat) (sectors : BitVec 4) : memories (s.fillCopy k line sectors) = memories s := by
  simp [State.fillCopy]

@[simp] theorem readLine_memories (die k line : Nat) (sectors : BitVec 4) :
    memories (s.readLine die k line sectors) = memories s := by simp [State.readLine]

@[simp] theorem writtenBack_memories (line mask : Nat) : memories (s.writtenBack line mask) = memories s := by
  simp [State.writtenBack]

@[simp] theorem joinRound_memories (die link : Nat) : memories (s.joinRound die link).2 = memories s := by
  unfold State.joinRound
  split <;> simp

@[simp] theorem echo_memories (die link round : Nat) : memories (s.echo die link round) = memories s := by
  unfold State.echo
  split <;> simp

@[simp] theorem unreachable_memories (die : Nat) (e : Ev) : memories (s.unreachable die e) = memories s := by
  unfold State.unreachable
  split <;> simp

/-! ### Launches -/

@[simp] theorem advanceGen_memories (set : Nat) (waits : List (Nat × Nat × Bool)) (launch : Option Nat) :
    memories (s.advanceGen set waits launch) = memories s := by simp [State.advanceGen]

@[simp] theorem recordLost_memories (blk : Nat) : memories (s.recordLost blk) = memories s := by
  unfold State.recordLost
  split <;> simp

@[simp] theorem create_memories (id cluster : Nat) (c : Ctx) : memories (s.create id cluster c) = memories s := by
  simp [State.create]

@[simp] theorem enter_memories (id : Nat) : memories (s.enter id) = memories s := by
  unfold State.enter
  split <;> simp

@[simp] theorem spillLaunch_memories (l : Launch) : memories (s.spillLaunch l) = memories s := by simp [State.spillLaunch]

/-! ### Traces -/

@[simp] theorem answered_memories (src : Nat) (d : Reg) (v : Word) : memories (s.answered src d v) = memories s := by
  simp [State.answered]

@[simp] theorem markPatch_memories (lost : Bool) (patch : Nat) : memories (s.markPatch lost patch) = memories s := by
  simp [State.markPatch]

/-! ### System instructions and registers -/

@[simp] theorem pump_memories (core level : Nat) : memories (s.pump core level) = memories s := by
  unfold State.pump
  split
  · split
    · split
      · next hnext => simp [nextTrap_memories hnext]
      · rfl
    · rfl
  · rfl

@[simp] theorem writeCounter_memories (core : Nat) (f : Bool → EvCounter → EvCounter) :
    memories (s.writeCounter core f) = memories s := by simp [State.writeCounter]

@[simp] theorem writeSys_memories (core part n : Nat) (v : Word) : memories (s.writeSys core part n v) = memories s := by
  unfold State.writeSys
  split <;> simp

@[simp] theorem writeLinkCtl_memories (core n : Nat) (v : Word) : memories (s.writeLinkCtl core n v) = memories s := by
  simp [State.writeLinkCtl]

@[simp] theorem installHandler_memories (core level : Nat) (cva : Word) (line : Option Nat) :
    memories (s.installHandler core level cva line) = memories s := by
  simp only [State.installHandler]
  repeat' split
  all_goals simp

@[simp] theorem sendCtxOp_memories (op : CtxOp) (id : Nat) (d : Reg) : memories (s.sendCtxOp op id d) = memories s := by
  simp [State.sendCtxOp]

@[simp] theorem readyHalted_memories (id : Nat) : memories (s.readyHalted id) = memories s := by
  simp only [State.readyHalted]
  repeat' split
  all_goals simp

@[simp] theorem evict_memories (id : Nat) (toMem : Bool) : memories (s.evict id toMem) = memories s := by
  unfold State.evict
  split <;> simp

@[simp] theorem holdStop_memories (id how : Nat) : memories (s.holdStop id how) = memories s := by simp [State.holdStop]

@[simp] theorem ctxDo_memories (op : CtxOp) (id : Nat) (answer : Word) : memories (s.ctxDo op id answer) = memories s := by
  unfold State.ctxDo
  split <;> simp

@[simp] theorem invalidate_memories (x : Names) (die : Nat) (cluster core : Nat → Bool) :
    memories (s.invalidate x die cluster core) = memories s := by simp [State.invalidate]

@[simp] theorem beginDrain_memories (cluster bank : Nat) : memories (s.beginDrain cluster bank) = memories s := by
  simp [State.beginDrain]

@[simp] theorem bankAsked_memories (cluster bank : Nat) (d : Drain) : memories (s.bankAsked cluster bank d) = memories s := by
  simp only [State.bankAsked]
  split <;> simp

@[simp] theorem freed_memories (core slot : Nat) : memories (s.freed core slot) = memories s := by
  unfold State.freed
  split <;> simp

@[simp] theorem setParked_memories (core slot : Nat) (park : Bool) : memories (s.setParked core slot park) = memories s := by
  simp [State.setParked]

/-! ### Context movement, scheduling and page walks -/

@[simp] theorem swapIn_memories (core id k new : Nat) : memories (s.swapIn core id k new) = memories s := by simp [State.swapIn]

@[simp] theorem rewritten_memories (core : Nat) : memories (s.rewritten core) = memories s := by simp [State.rewritten]

theorem makeRoom_memories {core n : Nat} : ∀ {f : Nat} {s t : State}, s.makeRoom core n f = some t → memories t = memories s
  | 0, s, t, h => by
    unfold State.makeRoom at h
    split at h
    · obtain rfl := Option.some.inj h
      rfl
    · cases h
  | f + 1, s, t, h => by
    unfold State.makeRoom at h
    split at h
    · obtain rfl := Option.some.inj h
      rfl
    · split at h
      · split at h
        · rw [makeRoom_memories h, sendUnit_memories]
        · cases h
      · cases h

theorem claimable_memories {s t : State} {core : Nat} {e : RingEntry} (h : s.claimable core = some (e, t)) :
    memories t = memories s := by
  simp only [State.claimable] at h
  split at h
  · obtain ⟨x, -, hx⟩ := Option.bind_eq_some_iff.mp h
    obtain ⟨u, hu, heq⟩ := Option.map_eq_some_iff.mp hx
    obtain ⟨-, rfl⟩ := Prod.mk.inj heq
    exact makeRoom_memories hu
  · cases h

@[simp] theorem loseContext_memories (id : Nat) : memories (s.loseContext id) = memories s := by
  simp only [State.loseContext]
  repeat' split
  all_goals simp

@[simp] theorem answerClaim_memories (core ctx : Nat) : memories (s.answerClaim core ctx) = memories s := by
  simp [State.answerClaim]

@[simp] theorem emptySlots_memories (core : Nat) : memories (s.emptySlots core) = memories s := by
  refine (each_memories fun k t => ?_).trans ((modCore_memories ..).trans (each_memories fun k t => ?_))
  · split <;> simp
  · split
    · dsimp only
      repeat' split
      all_goals simp
    · rfl

@[simp] theorem restartClocks_memories (die part : Nat) : memories (s.restartClocks die part) = memories s := by
  simp [State.restartClocks]

@[simp] theorem reseat_memories (core slot id : Nat) : memories (s.reseat core slot id) = memories s := by simp [State.reseat]

@[simp] theorem reseatAll_memories (core : Nat) (p : Ctx → Bool) : memories (s.reseatAll core p) = memories s := by
  refine each_memories fun k t => ?_
  split <;> simp

@[simp] theorem returnHeld_memories (core : Nat) : memories (s.returnHeld core) = memories s := by simp [State.returnHeld]

@[simp] theorem refill_memories (core : Nat) : memories (s.refill core) = memories s := by simp [State.refill]

@[simp] theorem startService_memories (core : Nat) : memories (s.startService core) = memories s := by
  unfold State.startService
  split <;> simp

@[simp] theorem goOn_memories (set : Nat) : memories (s.goOn set) = memories s := by simp [State.goOn]

@[simp] theorem control_memories (set what into : Nat) (res : Option Word) (ev : Nat → Ev) :
    memories (s.control set what into res ev) = memories s := by simp [State.control]

@[simp] theorem coreOut_memories (old core : Nat) : memories (s.coreOut old core) = memories s := by simp [State.coreOut]

@[simp] theorem coreIn_memories (new core : Nat) : memories (s.coreIn new core) = memories s := by
  unfold State.coreIn
  split <;> simp

@[simp] theorem walkAnswer_memories (key : Nat) (leaf : Option TlbEntry) (w : WalkWaiter) :
    memories (s.walkAnswer key leaf w) = memories s := by
  simp only [State.walkAnswer]
  repeat' split
  all_goals simp

@[simp] theorem walkFill_memories (part pa : Nat) : memories (s.walkFill part pa) = memories s := by simp [State.walkFill]

@[simp] theorem flushCluster_memories (k : Nat) : memories (s.flushCluster k) = memories s := by simp [State.flushCluster]

@[simp] theorem nextDrain_memories (cluster bank : Nat) : ∀ (n : Nat) (s : State), memories (s.nextDrain cluster bank n) = memories s
  | 0, _ => rfl
  | n + 1, s => by
    unfold State.nextDrain
    split
    · rfl
    · split
      · simp
      · rw [nextDrain_memories cluster bank n]
        simp

/-! ### Links, time and failures -/

@[simp] theorem deliverMsg_memories (die link : Nat) (e : Ev) : memories (s.deliverMsg die link e) = memories s := by
  unfold State.deliverMsg
  split <;> simp

@[simp] theorem accept_memories (die link : Nat) (m : LinkMsg) : memories (s.accept die link m) = memories s := by
  simp only [State.accept]
  repeat' split
  all_goals simp

@[simp] theorem takeAcks_memories (die link : Nat) (f : Flit) : memories (s.takeAcks die link f) = memories s := by
  simp only [State.takeAcks]
  repeat' split
  all_goals simp

@[simp] theorem badFlit_memories (die link : Nat) : memories (s.badFlit die link) = memories s := by simp [State.badFlit]

@[simp] theorem beginRetrain_memories (die link : Nat) : memories (s.beginRetrain die link) = memories s := by
  unfold State.beginRetrain
  split <;> simp

@[simp] theorem replayFrom_memories (die link : Nat) : memories (s.replayFrom die link) = memories s := (rfl)

@[simp] theorem listLost_memories (cluster task : Nat) (t : Machine.Task) : memories (s.listLost cluster task t) = memories s :=
  (rfl)

@[simp] theorem partLost_memories (failed cluster task part : Nat) (push : Bool) :
    memories (s.partLost failed cluster task part push) = memories s := by
  simp only [State.partLost]
  repeat' split
  all_goals simp

@[simp] theorem unanswered_memories (failed : Nat) (e : Ev) : memories (s.unanswered failed e) = memories s := by
  unfold State.unanswered
  split <;> simp

@[simp] theorem clearSite_memories (die : Nat) : memories (s.clearSite die) = memories s := by simp [State.clearSite]

@[simp] theorem takeMsg_memories (die link : Nat) (m : LinkMsg) : memories (s.takeMsg die link m) = memories s := by
  simp only [State.takeMsg]
  repeat' split
  all_goals simp

@[simp] theorem drainLink_memories (die link : Nat) : memories (s.drainLink die link).2 = memories s := (rfl)

@[simp] theorem learnFailure_memories (die failed : Nat) : memories (s.learnFailure die failed) = memories s := by
  simp [State.learnFailure]

@[simp] theorem silence_memories (failed : Nat) : memories (s.silence failed) = memories s := (rfl)

@[simp] theorem advanceWithout_memories (failed set : Nat) : memories (s.advanceWithout failed set) = memories s := by
  simp [State.advanceWithout]

@[simp] theorem lockChanged_memories (die : Nat) (f : Die → Die) : memories (s.lockChanged die f) = memories s := by
  simp [State.lockChanged]

@[simp] theorem follow_memories (ahead : Bool) (ticks : Nat) : memories (s.follow ahead ticks) = memories s := (rfl)

@[simp] theorem classified_memories (at_ unit die site struct err addr : Nat) (poison : List Nat) :
    memories (s.classified at_ unit die site struct err addr poison) = memories s := by
  unfold State.classified
  split <;> simp

@[simp] theorem cellError_memories (struct place err : Nat) : memories (s.cellError struct place err) = memories s := by
  unfold State.cellError
  split <;> simp

@[simp] theorem scrubbed_memories (mdie sector : Nat) : memories (s.scrubbed mdie sector) = memories s := (rfl)

/-! ### Breakpoints, samples and event counts -/

@[simp] theorem cycleDone_memories (u : Cur) (pc l : Nat) : memories (s.cycleDone u pc l) = memories s := by
  simp [State.cycleDone]

/-! ### Boot, resets and the host -/

@[simp] theorem extend_memories (m : Nat) (i : Image) : memories (s.extend m i) = memories s := (rfl)

@[simp] theorem placeHandler_memories (part core cva : Nat) (entry : Word) (active : Bool) :
    memories (s.placeHandler part core cva entry active) = memories s := by
  unfold State.placeHandler
  split <;> simp

theorem placeHandlers_go_memories (part : Nat) (active : Bool) :
    ∀ (l : List (Nat × Nat × Word)) (s : State), memories (State.placeHandlers.go part active l s) = memories s
  | [], _ => rfl
  | (core, cva, entry) :: r, s => by
    rw [State.placeHandlers.go, placeHandlers_go_memories part active r, placeHandler_memories]

@[simp] theorem bootFails_memories (step reason : Nat) : memories (s.bootFails step reason) = memories s := (rfl)

@[simp] theorem newMaps_memories : memories s.newMaps = memories s := by simp [State.newMaps]

@[simp] theorem release_memories (dies : List Nat) : memories (s.release dies) = memories s := by simp [State.release]

@[simp] theorem renewLinks_memories (die : Nat) : memories (s.renewLinks die) = memories s := by
  refine each_memories fun l t => ?_
  split <;> simp

@[simp] theorem recallAll_memories (pa n : Nat) : memories (s.recallAll pa n) = memories s := by simp [State.recallAll]

@[simp] theorem refuseWrite_memories (part : Nat) : memories (s.refuseWrite part) = memories s := by simp [State.refuseWrite]

@[simp] theorem portWrite_memories (off size data : Nat) : memories (s.portWrite off size data) = memories s := by
  simp only [State.portWrite]
  split <;> simp

@[simp] theorem mailWrite_memories (off size data : Nat) : memories (s.mailWrite off size data) = memories s := by
  simp [State.mailWrite]

@[simp] theorem portServed_memories (part : Nat) (e : Ev) : memories (s.portServed part e) = memories s := by
  simp [State.portServed]

@[simp] theorem mailServed_memories (e : Ev) : memories (s.mailServed e) = memories s := (rfl)

@[simp] theorem takeBanks_memories (k idx : Nat) (share : Nat × Nat × Nat) : memories (s.takeBanks k idx share) = memories s := by
  simp [State.takeBanks]

@[simp] theorem destroyPart_memories (g idx : Nat) : memories (s.destroyPart g idx) = memories s := by simp [State.destroyPart]

@[simp] theorem beginSwap_memories (g into : Nat) (res : Option Word) : memories (s.beginSwap g into res) = memories s := by
  unfold State.beginSwap
  split <;> simp

/-! ### Wait objects where they are served -/

@[simp] theorem answerWait_memories (src ctx kind arg : Nat) (acq : Bool) (tx : Option Nat) :
    memories (s.answerWait src ctx kind arg acq tx) = memories s := by simp [State.answerWait]

@[simp] theorem takeWatch_memories (ctx : Nat) (dead : Bool) : memories (s.takeWatch ctx dead).2 = memories s := (rfl)

/-! ### Time -/

@[simp] theorem noteBusy_memories : memories s.noteBusy = memories s := by simp [State.noteBusy]

@[simp] theorem slew_memories (ticks : Nat) : memories (s.slew ticks) = memories s := by simp [State.slew]

@[simp] theorem elapse_memories (n : Nat) : memories (s.elapse n) = memories s := by simp [State.elapse]

@[simp] theorem pass_memories : memories s.pass = memories s := by simp [State.pass]

@[simp] theorem unload_memories : memories s.unload = memories s := by
  unfold State.unload
  split <;> simp

@[simp] theorem load_memories (core slot id : Nat) : memories (s.load core slot id) = memories s := by simp [State.load]

/-! ### Errands -/

@[simp] theorem sendAnswer_memories (src ctx id data : Nat) : memories (s.sendAnswer src ctx id data) = memories s := by
  simp [State.sendAnswer]

@[simp] theorem errandLine_memories (op : CtxOp) (line no priv ctx reg : Nat) (tag : Bool) (unit : Holder) :
    memories (s.errandLine op line no priv ctx reg tag unit) = memories s := by simp [State.errandLine]

@[simp] theorem errandFetch_memories (line : Nat) (dst : Holder) : memories (s.errandFetch line dst) = memories s := by
  simp [State.errandFetch]

@[simp] theorem errandJoin_memories (loc thr ctx id : Nat) (first : Bool) :
    memories (s.errandJoin loc thr ctx id first) = memories s := by
  simp only [State.errandJoin]
  repeat' split
  all_goals simp

@[simp] theorem errandAnswer_memories (ctx id data : Nat) : memories (s.errandAnswer ctx id data) = memories s := by
  simp [State.errandAnswer]

@[simp] theorem errandWaits_memories (ctx id loc thr : Nat) (poll : Bool) :
    memories (s.errandWaits ctx id loc thr poll) = memories s := by
  simp only [State.errandWaits]
  split <;> simp

end

end Sys2Proof.Proofs

/-! SUPPORT. What writes bytes keeps the canonical form of both memories (log entry 1): by the laws of the byte memories, or by the
operation that it is built from. -/

namespace Sys2Proof.Proofs

open Sys2Proof Sys2Proof.Machine

set_option Elab.async false

/-- Both memories of a pair are in canonical form. -/
def Canonical (m : Memory × Memory) : Prop := m.1.wf = true ∧ m.2.wf = true

theorem canonical_iff (s : State) : s.canonical = true ↔ Canonical (memories s) := by
  simp [State.canonical, Canonical, memories]

theorem canonical_pair {m c : Memory} (hm : m.wf = true) (hc : c.wf = true) : Canonical (m, c) := ⟨hm, hc⟩

@[simp] theorem canonical_ite {c : Prop} [Decidable c] {a b : Memory × Memory} (ha : Canonical a) (hb : Canonical b) :
    Canonical (if c then a else b) := by
  split
  · exact ha
  · exact hb

theorem each_canonical {α : Type} {f : α → State → State} (hf : ∀ x s, Canonical (memories s) → Canonical (memories (f x s)))
    {l : List α} {s : State} (h : Canonical (memories s)) : Canonical (memories (each l f s)) := by
  induction l generalizing s with
  | nil => exact h
  | cons x r ih => exact ih (hf x s h)

section

variable {s : State} (h : Canonical (memories s))
include h

/-! ### What writes bytes -/

@[simp] theorem putPhys_canonical (pa v n : Nat) : Canonical (memories (s.putPhys pa v n)) := by
  obtain ⟨hmem, hstore⟩ := h
  simp only [State.putPhys, advanceSeqs_memories, keepOld_memories]
  split
  · split <;> exact ⟨Laws.writeNat_wf _ _ _ _ hmem, hstore⟩
  · split <;> exact ⟨Laws.writePlaces_wf _ _ hmem, hstore⟩

@[simp] theorem clearLost_canonical (pa : Nat) : Canonical (memories (s.clearLost pa)) := by
  have hzeroed : Canonical (writeNat s.mem (192 * (pa / 192)) 0 192, s.cstore) := canonical_pair (Laws.writeNat_wf _ _ _ _ h.1) h.2
  simp only [State.clearLost, memories_ite, memories_mk, ite_self]
  exact canonical_ite (by simpa only [memories, State.modLine] using hzeroed) h

@[simp] theorem repair_canonical (blk pa : Nat) : Canonical (memories (s.repair blk pa)) := by
  simp [State.repair, h]

@[simp] theorem writePhys_canonical (blk pa v n : Nat) : Canonical (memories (s.writePhys blk pa v n)) := by
  have hrepaired := repair_canonical h blk pa
  simp [State.writePhys, hrepaired]

@[simp] theorem homeWrite_canonical (blk pa v n : Nat) : Canonical (memories (s.homeWrite blk pa v n)) := by
  simp [State.homeWrite, h]

@[simp] theorem putStore_canonical (loc v n : Nat) : Canonical (memories (s.putStore loc v n)) := by
  have hwhole : Canonical (memories (s.unmarkWhole (storePlace + loc) n)) := by simpa using h
  simp only [State.putStore]
  split
  · exact ⟨hwhole.1, Laws.writePlaces_wf _ _ hwhole.2⟩
  · exact ⟨h.1, Laws.writeNat_wf _ _ _ _ h.2⟩

@[simp] theorem writeStore_canonical (loc v n : Nat) : Canonical (memories (s.writeStore loc v n)) := by
  simp [State.writeStore, h]

@[simp] theorem writePlaceBytes_canonical (t : Machine.Task) (p : Nat) (bs : List Byte) :
    Canonical (memories (s.writePlaceBytes t p bs)) := by
  unfold State.writePlaceBytes
  split
  · split <;> simp [h]
  · simp [h]

@[simp] theorem pushLost_canonical (moves : List (Nat × Nat)) (d : Nat) : Canonical (memories (s.pushLost moves d)) := by
  simp [State.pushLost, h]

/-! ### Launches and relaunches -/

@[simp] theorem writeVirt_canonical (part va : Nat) (bs : List Byte) : Canonical (memories (s.writeVirt part va bs)) := by
  unfold State.writeVirt
  split <;> simp [h]

@[simp] theorem answer_canonical (part ctx reg : Nat) (tag : Bool) (res v : Word) :
    Canonical (memories (s.answer part ctx reg tag res v)) := by
  simp [State.answer, h]

@[simp] theorem record_canonical (part : Nat) (comp : Word) (status reason completed lost killed id : Nat) :
    Canonical (memories (s.record part comp status reason completed lost killed id)) := writeVirt_canonical h ..

@[simp] theorem refuse_canonical (part : Nat) (comp : Word) (priv reason ctx reg : Nat) (tag : Bool) (res : Word) :
    Canonical (memories (s.refuse part comp priv reason ctx reg tag res)) := by
  simp only [State.refuse]
  split <;> simp [h]

@[simp] theorem headerState_canonical (part region state : Nat) : Canonical (memories (s.headerState part region state)) :=
  writeVirt_canonical h ..

@[simp] theorem writeHeader_canonical (l : Launch) (desc : List Byte) (gfull : Nat) :
    Canonical (memories (s.writeHeader l desc gfull)) := writeVirt_canonical h ..

@[simp] theorem selectBlocks_canonical (launch : Nat) : Canonical (memories (s.selectBlocks launch)) := by
  unfold State.selectBlocks
  split
  · exact h
  · split
    · exact h
    · simp only [post_memories, modLaunch_memories]
      exact each_canonical (fun _ _ ht => writeVirt_canonical ht ..) h

@[simp] theorem advanced_canonical (launch : Nat) : Canonical (memories (s.advanced launch)) := by
  unfold State.advanced
  split
  · exact h
  · dsimp only
    split <;> split <;> simp [h]

/-! ### The partition controller -/

@[simp] theorem mailResult_canonical (res : Word) (status value : Nat) : Canonical (memories (s.mailResult res status value)) :=
  homeWrite_canonical h ..

@[simp] theorem carriedOut_canonical (set die : Nat) : Canonical (memories (s.carriedOut set die)) := by
  unfold State.carriedOut
  split
  · exact h
  · dsimp only
    split
    · simpa using h
    · split
      case h_2 => simpa using h
      all_goals split <;> simp [h]

@[simp] theorem declareFailed_canonical (failed : Nat) : Canonical (memories (s.declareFailed failed)) := by
  unfold State.declareFailed
  split
  · exact h
  · refine each_canonical (fun g t ht => carriedOut_canonical (by simpa using ht) ..) ?_
    simpa using h

/-! ### Boot and the host -/

theorem loadTables_each_canonical (part : Nat) (l : List (Nat × Nat × List Byte)) :
    Canonical (memories (State.loadTables.each' part l s)) := by
  induction l generalizing s with
  | nil => exact h
  | cons x r ih =>
    obtain ⟨p, pa, bs⟩ := x
    refine ih ?_
    split
    · exact ⟨Laws.writeList_wf _ _ _ h.1, h.2⟩
    · exact h

@[simp] theorem loadTables_canonical (i : Image) (part : Nat) : Canonical (memories (s.loadTables i part)) := by
  have htables := loadTables_each_canonical h part i.tables
  simp only [State.loadTables]
  split <;> simp [htables]

@[simp] theorem placeHandlers_canonical (i : Image) (part : Nat) (dies : List Nat) (active : Bool) :
    Canonical (memories (s.placeHandlers i part dies active)) := by
  simp [State.placeHandlers, placeHandlers_go_memories, h]

@[simp] theorem clearDies_canonical (dies : List Nat) : Canonical (memories (s.clearDies dies)) := ⟨h.1, Laws.filter_wf _ _ h.2⟩

@[simp] theorem hostAccess_canonical (wr : Bool) (addr size data : Nat) : Canonical (memories (s.hostAccess wr addr size data)) := by
  simp [State.hostAccess, h]

@[simp] theorem portRegion_canonical (part : Nat) (arg0 arg1 res : Word) (repair : Bool) :
    Canonical (memories (s.portRegion part arg0 arg1 res repair)) := by
  unfold State.portRegion
  split
  · simp [h]
  · split <;> simp [h]

@[simp] theorem errandRecord_canonical (die kind no pa : Nat) (data : List Byte) (tell : Option Nat) :
    Canonical (memories (s.errandRecord die kind no pa data tell)) := by
  simp [State.errandRecord, h]

end

end Sys2Proof.Proofs

/-! SUPPORT. What an outcome leaves. An instruction reaches its action through the rules of issue, translation and waiting, which change no
byte: what its action leaves of the memories is what the instruction leaves of them. -/

namespace Sys2Proof.Proofs

open Sys2Proof Sys2Proof.Machine

set_option Elab.async false

/-- The memories of the state that an outcome answers, if it answers one, are as `P` says. -/
structure Leaves (P : Memory × Memory → Prop) (o : Out) : Prop where
  after : ∀ t, o = .next t → P (memories t)

section

variable {P : Memory × Memory → Prop}

theorem leaves_next {s : State} (h : P (memories s)) : Leaves P (.next s) := by
  refine ⟨fun t ht => ?_⟩
  obtain rfl : s = t := by injection ht
  exact h

/-- An outcome in which no byte has changed. -/
theorem leaves_same {s t : State} (h : P (memories s)) (ht : memories t = memories s) : Leaves P (.next t) :=
  leaves_next (ht.symm ▸ h)

theorem leaves_ite_same {c : Prop} [Decidable c] {s t u : State} (h : P (memories s)) (ht : memories t = memories s)
    (hu : memories u = memories s) : Leaves P (if c then .next t else .next u) := by
  split
  · exact leaves_same h ht
  · exact leaves_same h hu

theorem leaves_ite {c : Prop} [Decidable c] {a b : Out} (ha : Leaves P a) (hb : Leaves P b) : Leaves P (if c then a else b) := by
  split
  · exact ha
  · exact hb

section

variable {s : State} (h : P (memories s))
include h

/-! ### Waiting and traps -/

theorem idle_leaves (tag : Word) : Leaves P (s.idle tag) := leaves_next h

theorem standsAt_leaves (key : List Word) : Leaves P (s.standsAt key) := by
  refine leaves_same h ?_
  split <;> rfl

theorem pairTrap_leaves (cause : Nat) (info : Word) (pc : BitVec 57) : Leaves P (s.pairTrap cause info pc) := by
  unfold State.pairTrap
  split
  · exact leaves_same h (by simp)
  · refine leaves_ite (standsAt_leaves h _) (leaves_ite (leaves_same h (by simp)) ?_)
    split
    · exact idle_leaves h _
    · exact leaves_ite_same h (by simp) (by simp)

theorem raise_leaves (cause : Nat) (info : Word) (pc : BitVec 57) : Leaves P (s.raise cause info pc) :=
  leaves_ite (leaves_same h (by simp)) (pairTrap_leaves h ..)

theorem fault_leaves (cause : Nat) (info : Word) : Leaves P (s.fault cause info) := raise_leaves h ..

/-! ### Issuing: what an instruction leaves is what its action leaves -/

section Issue

variable {q : Issue} {act : State → Out} (hact : ∀ t, P (memories t) → Leaves P (act t))
include hact

theorem shows_leaves {go : State → State} (hgo : memories (go s) = memories s) : Leaves P (s.shows q act go) := by
  unfold State.shows
  split
  · next t ht => exact leaves_ite (leaves_next ((hact s h).after t ht)) (leaves_same h (by simp [hgo]))
  · exact hact s h

theorem leadPart_leaves : Leaves P (leadPart q s act) := by
  have hafter : ∀ t, act s = .next t → P (memories t) := (hact s h).after
  unfold leadPart
  dsimp only
  split
  case h_1 =>
    split
    · next t ht => exact leaves_same (hafter t ht) (by simp)
    · exact hact s h
  case h_4 => exact leaves_ite (idle_leaves h _) (shows_leaves h hact rfl)
  case h_5 => exact leaves_ite (idle_leaves h _) (shows_leaves h hact rfl)
  case h_6 =>
    refine leaves_ite (idle_leaves h _) ?_
    split
    · next t ht => exact leaves_ite (leaves_next (hafter t ht)) (standsAt_leaves h _)
    · exact hact s h
  all_goals
    refine leaves_ite (idle_leaves h _) ?_
    split
    · next t ht => exact leaves_ite (leaves_next (hafter t ht)) (leaves_same (hafter t ht) (by simp))
    · exact hact s h

theorem meets_leaves (p : Nat) (key : List Word) : Leaves P (s.meets p key act) := by
  have hmarked := hact (s.modCtx p fun c => { c with comparator := meetKey :: c.comparator.drop 1 }) (by simpa using h)
  unfold State.meets
  split
  · next t ht => exact leaves_ite (leaves_same (hmarked.after t ht) (by simp)) (leaves_same (hmarked.after t ht) (by simp))
  · exact hmarked

theorem trailPart_leaves (p : Nat) : Leaves P (trailPart q s p act) := by
  have hafter : ∀ t, act s = .next t → P (memories t) := (hact s h).after
  unfold trailPart
  dsimp only
  refine leaves_ite ?_ ?_
  · split
    · exact idle_leaves h _
    · refine leaves_ite ?_ (leaves_ite (leaves_same h (by simp)) (leaves_ite (meets_leaves h hact ..) (idle_leaves h _)))
      split
      · next t ht => exact leaves_ite (leaves_next (hafter t ht)) (leaves_same h (by simp))
      · exact hact s h
  · split
    case h_1 =>
      split
      · next t ht => exact leaves_same (hafter t ht) (by simp)
      · exact hact s h
    case h_4 =>
      refine leaves_ite (leaves_same h (by simp)) ?_
      split
      · next t ht => exact leaves_ite (leaves_next (hafter t ht)) (leaves_same (hafter t ht) (by simp))
      · exact hact s h
    all_goals exact leaves_ite (idle_leaves h _) (leaves_same h (by simp))

theorem paired_leaves : Leaves P (paired q s act) := by
  unfold paired
  refine leaves_ite (hact s h) ?_
  split
  · exact hact s h
  · exact leaves_ite (leadPart_leaves h hact) (trailPart_leaves h hact _)

theorem issue_leaves : Leaves P (issue q s act) := by
  unfold issue
  refine leaves_ite (fault_leaves h ..) (leaves_ite (fault_leaves h ..) ?_)
  split
  · exact fault_leaves h ..
  · exact idle_leaves h _
  · split
    · exact idle_leaves h _
    · exact idle_leaves h _
    · exact paired_leaves h hact

theorem extGate_leaves (ext : Nat) : Leaves P (extGate ext s act) := by
  unfold extGate
  refine leaves_ite (hact s h) (leaves_ite (fault_leaves h ..) (leaves_ite ?_ ?_))
  · exact leaves_ite (leaves_same h (by simp)) (idle_leaves h _)
  · split
    · exact fault_leaves h ..
    · exact leaves_ite (standsAt_leaves h _) (leaves_ite (idle_leaves h _) (leaves_ite (leaves_same h (by simp)) (idle_leaves h _)))

end Issue

theorem asking_leaves {n : Nat} {send : Nat → State → State} (hsend : ∀ id t, memories (send id t) = memories t)
    {act : Nat → State → Out} (hact : ∀ v t, P (memories t) → Leaves P (act v t)) : Leaves P (asking n send s act) := by
  unfold asking
  split
  · exact leaves_ite (hact 0 s h) (idle_leaves (by simpa [hsend] using h) _)
  · exact hact _ _ h
  · exact idle_leaves h _

end

/-! ### Reaching memory -/

theorem look_ok_memories {s t : State} {core id va pa : Nat} {a : Acc} (h : s.look core id va a = .ok pa t) : memories t = memories s := by
  simp only [State.look] at h
  repeat' split at h
  all_goals cases h
  all_goals simp

theorem look_fault_memories {s t : State} {core id va cause : Nat} {a : Acc} (h : s.look core id va a = .fault cause t) :
    memories t = memories s := by
  simp only [State.look] at h
  repeat' split at h
  all_goals cases h
  all_goals simp

theorem look_wait_memories {s t : State} {core id va : Nat} {a : Acc} (h : s.look core id va a = .wait t) : memories t = memories s := by
  simp only [State.look] at h
  repeat' split at h
  all_goals cases h
  all_goals simp

end

section

variable {P : Memory × Memory → Prop} {s : State} (h : P (memories s))
include h

theorem withPlace_leaves {ea : Word} {bytes : Nat} {a : Acc} {k : Place → State → Out}
    (hk : ∀ p t, P (memories t) → Leaves P (k p t)) :
    Leaves P (withPlace ea bytes a s k) := by
  unfold withPlace
  refine leaves_ite (fault_leaves h ..) (leaves_ite (fault_leaves h ..) (leaves_ite (hk _ s h) ?_))
  split
  · next hl => exact hk _ _ (look_ok_memories hl ▸ h)
  · next hl => exact fault_leaves (look_fault_memories hl ▸ h) ..
  · next hl => exact idle_leaves (look_wait_memories hl ▸ h) _

theorem withStore_leaves {ea : Word} {align : Nat} {k : Nat → State → Out} (hk : ∀ loc t, P (memories t) → Leaves P (k loc t)) :
    Leaves P (withStore ea align s k) :=
  leaves_ite (fault_leaves h ..) (leaves_ite (fault_leaves h ..) (leaves_ite (fault_leaves h ..)
    (leaves_ite (fault_leaves h ..) (hk _ s h))))

theorem withHint_leaves (va : Word) {k : Nat → State → State} (hk : ∀ pa t, memories (k pa t) = memories t) :
    Leaves P (withHint va s k) := by
  unfold withHint
  split
  · next hl => exact leaves_same h (by simp [hk, look_ok_memories hl])
  · next hl => exact leaves_same h (by simp [look_fault_memories hl])
  · next hl => exact idle_leaves (look_wait_memories hl ▸ h) _

omit h in
theorem withPlaces_leaves {k : List Place → State → Out} (hk : ∀ ps t, P (memories t) → Leaves P (k ps t)) {s : State}
    (h : P (memories s)) (addrs : List Nat) : Leaves P (withPlaces s addrs k) := by
  induction addrs generalizing s k with
  | nil => exact hk _ s h
  | cons a r ih => exact withPlace_leaves h fun p t ht => ih (fun ps => hk (p :: ps)) ht

omit h in
theorem markPages_leaves {k : State → Out} (hk : ∀ t, P (memories t) → Leaves P (k t)) {s : State} (h : P (memories s)) (lost : Bool)
    (va n : Nat) : Leaves P (markPages lost va s n k) := by
  induction n generalizing va s with
  | zero => exact hk s h
  | succ n ih => exact withPlace_leaves h fun p t ht => ih (by cases p <;> simpa using ht) ..

theorem withLine_leaves {v : Word} {k : Nat → State → Out} (hk : ∀ id t, P (memories t) → Leaves P (k id t)) :
    Leaves P (withLine v s k) := by
  unfold withLine
  refine leaves_ite (fault_leaves h ..) (leaves_ite (fault_leaves h ..) ?_)
  split
  · next hl =>
    have ht := look_ok_memories hl ▸ h
    exact leaves_ite (fault_leaves ht ..) (hk _ _ ht)
  · next hl => exact fault_leaves (look_fault_memories hl ▸ h) ..
  · next hl => exact idle_leaves (look_wait_memories hl ▸ h) _

theorem doLoad_leaves (len scope : Nat) (kind : ReqKind) (bytes : Nat) (sg : Bool) (dst : List Nat) (ea : Word) :
    Leaves P (doLoad len scope kind bytes sg dst ea s) := by
  refine withPlace_leaves h fun p t ht => ?_
  cases p with
  | store loc =>
    refine leaves_ite (idle_leaves ht _) (leaves_ite (leaves_ite (idle_leaves ht _) (leaves_ite ?_ (leaves_same ht (by simp)))) ?_)
    · split
      · exact idle_leaves ht _
      · exact leaves_same ht (by simp)
    · split
      · exact idle_leaves ht _
      · exact leaves_ite_same ht (by simp) (by simp)
  | phys pa =>
    refine leaves_ite (idle_leaves ht _) ?_
    dsimp only
    split
    · refine leaves_ite ?_ (leaves_ite_same ht (by simp) (by simp))
      split
      · exact idle_leaves (by simpa using ht) _
      · exact leaves_same ht (by simp)
    · exact idle_leaves ht _
    · exact leaves_same ht (by simp)

/-! ### Waiting for other units -/

theorem afterRelease_leaves {scope : Nat} {act : State → Out} (hact : ∀ t, P (memories t) → Leaves P (act t)) :
    Leaves P (afterRelease scope s act) := by
  unfold afterRelease
  dsimp only
  split
  · exact leaves_ite (hact _ (by simpa using h)) (idle_leaves (by simpa using h) _)
  · exact leaves_ite (hact _ (by simpa using h)) (idle_leaves (by simpa using h) _)

theorem storeOp_leaves (scope loc : Nat) (e : Ev) : Leaves P (storeOp scope loc e s) :=
  leaves_ite (idle_leaves h _) (leaves_ite_same h (by simp) (by simp))

theorem withBar_leaves {n : BitVec 2} {q : Issue} {act : Bar → State → Out} (hact : ∀ b t, P (memories t) → Leaves P (act b t)) :
    Leaves P (withBar n q s act) := by
  refine issue_leaves h fun t ht => ?_
  split
  · exact fault_leaves ht ..
  · exact hact _ t ht

theorem sendCommand_leaves (c : Cmd) : Leaves P (s.sendCommand c) :=
  leaves_ite (idle_leaves h _) (idle_leaves (by simpa using h) _)

theorem counted_leaves (c : Cmd) : Leaves P (s.counted c) :=
  leaves_ite (idle_leaves (by simpa using h) _) (sendCommand_leaves h _)

/-! ### The shared shapes of an instruction -/

section Shapes

variable (n : Nat) (g hp : Bool) (a b d t : Reg)

theorem alu1_leaves (f : Word → Word) : Leaves P (alu1 n hp a d f s) := issue_leaves h fun _ ht => leaves_same ht (by simp)

theorem alu2_leaves (f : Word → Word → Word) : Leaves P (alu2 n g b hp a d f s) := issue_leaves h fun _ ht => leaves_same ht (by simp)

theorem alu2Long_leaves (f : Word → Word → Word) : Leaves P (alu2Long g b hp a d f s) :=
  issue_leaves h fun _ ht => leaves_same ht (by simp)

theorem fbin_leaves (f : FFmt) (op : Bool → FVal → FVal → FVal) : Leaves P (fbin f g b hp a d op s) :=
  issue_leaves h fun _ ht => leaves_same ht (by simp)

theorem ffma_leaves (f : FFmt) : Leaves P (ffma f g b hp a d s) := issue_leaves h fun _ ht => leaves_same ht (by simp)

theorem fbinLong_leaves (f : FFmt) (op : FVal → FVal → FVal) : Leaves P (fbinLong f g b hp a d op s) :=
  issue_leaves h fun _ ht => leaves_same ht (by simp)

theorem fsqrtLong_leaves (f : FFmt) : Leaves P (fsqrtLong f hp a d s) := issue_leaves h fun _ ht => leaves_same ht (by simp)

theorem fcompare_leaves (f : FFmt) (p : BitVec 6) (c : BitVec 3) : Leaves P (fcompare f p g b hp a c s) :=
  issue_leaves h fun _ ht => leaves_same ht (by simp)

theorem readValue_leaves (icause : Nat) (f : State → Word) : Leaves P (readValue d icause f s) :=
  issue_leaves h fun _ ht => leaves_same ht (by simp)

theorem branchOn_leaves {m : Nat} (k : BitVec m) (f : Word → Bool) : Leaves P (branchOn n k hp a f s) :=
  issue_leaves h fun _ ht => leaves_same ht (by simp)

theorem branchPw_leaves {m : Nat} (k : BitVec m) (f : Word → Bool) : Leaves P (branchPw n k f s) :=
  issue_leaves h fun _ ht => leaves_same ht (by simp)

theorem jump_leaves (link : Bool) : Leaves P (jump n link hp a s) :=
  issue_leaves h fun _ ht => leaves_ite (fault_leaves ht ..) (leaves_ite (fault_leaves ht ..) (leaves_same ht (by simp)))

theorem loadAt_leaves (scope : Nat) (z : BitVec 3) (ea : Word → Word) : Leaves P (loadAt n scope z hp a t ea s) :=
  issue_leaves h fun _ ht => doLoad_leaves ht ..

theorem amo_leaves (op : AtomOp) (post e : Bool) (o sc : BitVec 3) : Leaves P (amo op post e o sc g b hp a d s) :=
  issue_leaves h fun _ ht => withPlace_leaves ht fun _ _ hu =>
    leaves_ite (idle_leaves hu _) (leaves_ite (leaves_same hu (by simp)) (leaves_ite_same hu (by simp) (by simp)))

theorem taskOp_leaves (pfx : PfxRule) (es : List Nat) (op mods : Nat) (j f : Bool) : Leaves P (taskOp pfx es op mods g b hp a j f s) :=
  issue_leaves h fun _ ht => leaves_ite (withStore_leaves ht fun _ _ hu => counted_leaves hu _) (counted_leaves ht _)

theorem ctxOp_leaves (srcs : List (Nat × Bool)) (ok : Bool) (op : State → CtxOp) : Leaves P (ctxOp srcs ok a d s op) :=
  issue_leaves h fun _ ht => withLine_leaves ht fun _ _ hu => leaves_same hu (by simp)

theorem slotOp_leaves (park : Bool) : Leaves P (slotOp park hp a s) :=
  issue_leaves h fun _ ht => leaves_ite (fault_leaves ht ..) (leaves_ite (fault_leaves ht ..)
    (leaves_ite (leaves_same ht (by simp)) (asking_leaves ht (fun _ _ => by simp) fun _ _ hu => leaves_same hu (by simp))))

theorem relaunchOp_leaves (repair : Bool) : Leaves P (relaunchOp repair g b hp a d s) :=
  issue_leaves h fun _ ht => leaves_ite (fault_leaves ht ..) (leaves_ite (fault_leaves ht ..)
    (withPlace_leaves ht fun _ _ hu => afterRelease_leaves hu fun _ hv => leaves_same hv (by simp)))

theorem yieldOp_leaves : Leaves P (yieldOp n s) := issue_leaves h fun _ ht => leaves_ite_same ht (by simp) (by simp)

theorem exitOp_leaves : Leaves P (exitOp n s) :=
  issue_leaves h fun _ ht => leaves_ite (leaves_same ht (by simp))
    (leaves_ite (idle_leaves ht _) (afterRelease_leaves ht fun t hu => leaves_same hu (by
      rw [endCtx_memories]
      split <;> simp)))

end Shapes

/-! ### Bit streams -/

theorem overrun_leaves (flag : Bool) : Leaves P (s.overrun flag) := fault_leaves (by simpa using h) ..

theorem withStream_leaves {act : Nat → Nat → Out} (hact : ∀ p e, Leaves P (act p e)) : Leaves P (withStream s act) :=
  leaves_ite (overrun_leaves h _) (hact ..)

theorem issueCount_leaves {n : Option (BitVec 6)} {g : Bool} {b : Reg} {q : Issue} {act : Nat → State → Out}
    (hact : ∀ k t, P (memories t) → Leaves P (act k t)) : Leaves P (issueCount n g b q s act) := by
  cases n with
  | none => exact issue_leaves h fun t ht => hact _ t ht
  | some i => exact issue_leaves h fun t ht => hact _ t ht

theorem skipBits_leaves (n : Nat) : Leaves P (skipBits n s) :=
  withStream_leaves h fun _ _ => leaves_ite (overrun_leaves h _) (leaves_same h (by simp))

theorem readBits_leaves (adv : Bool) (d : Reg) (cnt : Nat) : Leaves P (readBits adv d cnt s) := by
  refine withStream_leaves h fun _ _ => leaves_ite (overrun_leaves h _) (leaves_ite (leaves_same h (by simp))
    (withPlaces_leaves (fun _ _ ht => leaves_ite (idle_leaves ht _) (leaves_ite (leaves_same ht (by simp))
      (leaves_ite (idle_leaves ht _) (leaves_ite (leaves_same ht (by simp)) ?_)))) h _))
  split
  · exact leaves_same ht (by simp)
  · exact leaves_same ht (by simp)

theorem expGolomb_leaves (d : Reg) (f : Nat → Word) : Leaves P (expGolomb d f s) := by
  refine withStream_leaves h fun p e => ?_
  extract_lets need
  have hneed (a : Nat) : Leaves P (need a) := withPlace_leaves h fun pl _ ht => by
    cases pl with
    | store loc => exact leaves_ite (idle_leaves ht _) (leaves_ite (idle_leaves (by simpa using ht) _) (idle_leaves (by simpa using ht) _))
    | phys pa => exact leaves_ite (idle_leaves ht _) (leaves_ite (idle_leaves (by simpa using ht) _) (idle_leaves (by simpa using ht) _))
  split
  · exact overrun_leaves h _
  · exact hneed _
  · refine leaves_ite (overrun_leaves h _) ?_
    split
    · exact hneed _
    · exact overrun_leaves h _
    · exact leaves_same h (by simp)

end

end Sys2Proof.Proofs

/-! SUPPORT. The instructions and the rows of the other units, by what they leave of the two byte memories. -/

namespace Sys2Proof.Proofs

open Sys2Proof Sys2Proof.Machine

set_option Elab.async false

/-! ### Instructions of their own shape -/

section Instructions

variable {P : Memory × Memory → Prop} {s : State} (h : P (memories s)) (g hp : Bool) (a b d t : Reg)
include h

theorem ldAnchorRel_leaves (x y : BitVec 5) (sc z : BitVec 3) : Leaves P (execLdAnchorRel x y sc z hp a t s) := by
  refine issue_leaves h fun u hu => ?_
  split
  · exact doLoad_leaves hu ..
  · exact fault_leaves hu ..

theorem cflush_leaves : Leaves P (execCflush hp a s) := by
  refine issue_leaves h fun u hu => leaves_ite (leaves_same hu (by simp)) (withPlace_leaves hu fun p v hv => ?_)
  cases p with
  | store loc => exact leaves_same hv (by simp)
  | phys pa => exact leaves_ite (idle_leaves hv _) (leaves_same hv (by simp))

theorem fence_leaves (k : BitVec 2) (sc : BitVec 3) : Leaves P (execFence k sc s) := by
  refine issue_leaves h fun u hu => leaves_ite (leaves_same hu (by simp)) ?_
  dsimp only
  split
  · exact leaves_ite (leaves_same hu (by simp)) (idle_leaves (by simpa using hu) _)
  · split <;> exact leaves_ite (leaves_same hu (by simp)) (idle_leaves (by simpa using hu) _)

theorem stv_leaves (z : BitVec 2) : Leaves P (execStv z g b hp a d s) :=
  issue_leaves h fun _ hu => withPlace_leaves hu fun _ _ hv =>
    leaves_ite (idle_leaves hv _) (leaves_ite (leaves_same hv (by simp)) (leaves_ite_same hv (by simp) (by simp)))

theorem twait_leaves : Leaves P (execTwait hp a s) :=
  issue_leaves h fun _ hu => leaves_ite (fault_leaves hu ..) (leaves_ite_same hu (by simp) (by simp))

theorem semP_leaves (sc : BitVec 3) : Leaves P (execSemP sc hp a s) :=
  issue_leaves h fun _ hu => withStore_leaves hu fun _ _ hv => leaves_ite (idle_leaves (by simpa using hv) _) (leaves_same hv (by simp))

/-- A counter at another core is asked for its value, one of the core's own is tested here. -/
theorem jcWait_leaves : Leaves P (execJcWait g b hp a s) := by
  refine issue_leaves h fun u hu => leaves_ite (fault_leaves hu ..) (withStore_leaves hu fun _ v hv =>
    leaves_ite (idle_leaves hv _) (leaves_ite ?_ ?_))
  · exact asking_leaves hv (fun _ _ => by simp) fun _ _ hw =>
      leaves_ite (leaves_same hw (by simp)) (leaves_ite (fault_leaves hw ..) (fault_leaves hw ..))
  · refine leaves_ite (fault_leaves hv ..) (leaves_ite (leaves_same hv (by simp)) ?_)
    dsimp only
    exact leaves_same hv (by simp)

theorem waitMem_leaves (k : BitVec 4) : Leaves P (execWaitMem k g b hp a d s) := by
  refine issue_leaves h fun u hu => withPlace_leaves hu fun p v hv => leaves_ite (idle_leaves hv _) ?_
  cases p with
  | store loc => exact leaves_same hv (by simp)
  | phys pa => exact leaves_same hv (by simp)

theorem spawn_leaves : Leaves P (execSpawn g b hp a d s) :=
  issue_leaves h fun _ hu => leaves_ite (fault_leaves hu ..) (leaves_same hu (by simp))

theorem spawnDef_leaves : Leaves P (execSpawnDef g b hp a d s) :=
  issue_leaves h fun _ hu => leaves_ite (fault_leaves hu ..) (withStore_leaves hu fun _ _ hv => leaves_same hv (by simp))

theorem chunkInit_leaves (c : BitVec 4) : Leaves P (execChunkInit c g b hp a s) :=
  issue_leaves h fun _ hu => leaves_ite (fault_leaves hu ..) (leaves_ite (fault_leaves hu ..) (leaves_same hu (by simp)))

theorem barCfg_leaves (n : BitVec 2) : Leaves P (execBarCfg n g b hp a s) :=
  issue_leaves h fun _ hu => leaves_ite (fault_leaves hu ..) (leaves_ite (fault_leaves hu ..) (leaves_same hu (by simp)))

theorem barArr_leaves (n : BitVec 2) : Leaves P (execBarArr n d s) :=
  withBar_leaves h fun _ _ hu => afterRelease_leaves hu fun _ hv =>
    leaves_ite (leaves_same hv (by simp)) (leaves_ite (idle_leaves hv _) (leaves_same hv (by simp)))

theorem kbinCfg_leaves (n : BitVec 2) : Leaves P (execKbinCfg n g b hp a s) :=
  issue_leaves h fun _ hu => leaves_ite (fault_leaves hu ..) (leaves_ite (fault_leaves hu ..) (leaves_ite (fault_leaves hu ..)
    (leaves_ite (fault_leaves hu ..) (leaves_ite (fault_leaves hu ..) (leaves_same hu (by simp))))))

theorem ksend_leaves (n : BitVec 2) : Leaves P (execKsend n g b hp a s) := by
  refine issue_leaves h fun u hu => ?_
  split
  · exact fault_leaves hu ..
  · split
    · exact fault_leaves hu ..
    · split
      · exact fault_leaves hu ..
      · exact leaves_ite (idle_leaves hu _) (leaves_same hu (by simp))

theorem launch_leaves : Leaves P (execLaunch hp a d s) :=
  issue_leaves h fun _ hu => withPlace_leaves hu fun _ _ hv => afterRelease_leaves hv fun _ hw => leaves_same hw (by simp)

theorem tview_leaves : Leaves P (execTview g b hp a d s) :=
  issue_leaves h fun _ hu => leaves_ite (fault_leaves hu ..) (leaves_ite (fault_leaves hu ..) (leaves_same hu (by simp)))

/-- The handle is looked up here or at the die that holds its table; both ways end in the same four answers. -/
theorem tinfo_leaves : Leaves P (execTinfo hp a d s) := by
  refine issue_leaves h fun u hu => ?_
  extract_lets v die done
  have hdone (n : Nat) (t : State) (ht : P (memories t)) : Leaves P (done n t) :=
    leaves_ite (fault_leaves ht ..) (leaves_ite (fault_leaves ht ..) (leaves_ite (fault_leaves ht ..) (leaves_same ht (by simp))))
  exact leaves_ite (fault_leaves hu ..) (leaves_ite (hdone _ _ hu) (asking_leaves hu (fun _ _ => by simp) hdone))

theorem tfree_leaves : Leaves P (execTfree hp a s) :=
  issue_leaves h fun _ hu => leaves_ite (fault_leaves hu ..) (counted_leaves hu _)

theorem tget_leaves : Leaves P (execTget hp a d s) :=
  issue_leaves h fun _ hu => leaves_ite (fault_leaves hu ..) (sendCommand_leaves (by simpa using hu) _)

theorem tset_leaves : Leaves P (execTset g b hp a s) :=
  issue_leaves h fun _ hu => leaves_ite (fault_leaves hu ..) (counted_leaves hu _)

theorem dmread_leaves : Leaves P (execDmread hp a d s) := by
  refine issue_leaves h fun u hu => leaves_ite (fault_leaves hu ..) (withPlace_leaves hu fun p v hv => ?_)
  cases p with
  | phys pa => exact leaves_same hv (by simp)
  | store loc => exact fault_leaves hv ..

theorem dmmark_leaves (p l : Bool) : Leaves P (execDmmark p l g b hp a s) :=
  issue_leaves h fun _ hu => leaves_ite (fault_leaves hu ..) (leaves_ite (leaves_ite (fault_leaves hu ..) (leaves_same hu (by simp)))
    (leaves_ite (fault_leaves hu ..) (markPages_leaves (fun _ hv => leaves_same hv (by simp)) hu ..)))

theorem swr_leaves (n : BitVec 7) : Leaves P (execSwr n hp a s) := by
  refine issue_leaves h fun u hu => leaves_ite (leaves_same hu (by simp)) ?_
  dsimp only
  split
  · exact fault_leaves hu ..
  · exact leaves_same hu (by simp)

/-- The first issue waits for the thread's accesses; while other dies are asked, and after, it does not. -/
theorem tlbi_leaves (k : BitVec 2) (sc : BitVec 3) : Leaves P (execTlbi k sc g b hp a s) := by
  refine issue_leaves h fun u hu => leaves_ite (fault_leaves hu ..) ?_
  extract_lets x here others cl co ask
  have hask (t : State) (ht : P (memories t)) : Leaves P (ask t) :=
    asking_leaves ht (fun _ _ => by simp) fun _ _ hv => leaves_same hv (by simp)
  exact leaves_ite (afterRelease_leaves hu hask) (hask _ hu)

theorem bmode_leaves : Leaves P (execBmode g b hp a d s) :=
  issue_leaves h fun _ hu => leaves_ite (fault_leaves hu ..) (leaves_ite (fault_leaves hu ..)
    (leaves_ite (fault_leaves hu ..) (leaves_same hu (by simp))))

theorem nonInstructionEncoding_leaves (enc : BitVec 32) : Leaves P (execNonInstructionEncoding enc s) := by
  unfold execNonInstructionEncoding
  split
  · exact extGate_leaves h (fun _ hu => fault_leaves hu ..) _
  · exact fault_leaves h ..

end Instructions

/-- A request served in its turn: what it does when it is served keeps the form, and so does putting it off. -/
theorem arbitrated_canonical {s : State} (h : Canonical (memories s)) (part unit kind loc ctx : Nat) (ev : Ev) (grants : List Nat)
    {act : State → State} (hact : Canonical (memories (act s))) :
    Canonical (memories (s.arbitrated part unit kind loc ctx ev grants act)) := by
  obtain hserved | hwaits := arbitrated_memories s part unit kind loc ctx ev grants act
  · exact hserved ▸ hact
  · exact hwaits ▸ h

/-- An outcome whose state is in canonical form. -/
theorem leaves_canonical {t : State} (h : Canonical (memories t)) : Leaves Canonical (.next t) := leaves_next h

theorem memories_ite_canonical {c : Prop} [Decidable c] {a b : State} (ha : Canonical (memories a)) (hb : Canonical (memories b)) :
    Canonical (memories (if c then a else b)) := by
  simp only [memories_ite, canonical_ite ha hb]

section

variable {s : State} (h : Canonical (memories s))
include h

/-! ### Stores at issue -/

theorem doStore_leaves (len scope : Nat) (kind : ReqKind) (bytes data : Nat) (ea : Word) :
    Leaves Canonical (doStore len scope kind bytes data ea s) := by
  refine withPlace_leaves h fun p t ht => ?_
  cases p with
  | store loc =>
    exact leaves_ite (idle_leaves ht _) (leaves_ite (leaves_same ht (by simp)) (leaves_ite
      (leaves_ite (idle_leaves ht _) (leaves_next (by simp [ht]))) (leaves_same ht (by simp))))
  | phys pa =>
    refine leaves_ite (idle_leaves ht _) ?_
    dsimp only
    split <;> exact leaves_ite_same ht (by simp) (by simp)

theorem storeAt_leaves (n scope : Nat) (z : BitVec 3) (f hp : Bool) (a t : Reg) (ea : Word → Word) :
    Leaves Canonical (storeAt n scope z f hp a t ea s) :=
  issue_leaves h fun _ hu => doStore_leaves hu ..

theorem stAnchorRel_leaves (x y : BitVec 5) (sc z : BitVec 3) (f hp : Bool) (a t : Reg) :
    Leaves Canonical (execStAnchorRel x y sc z f hp a t s) := by
  refine issue_leaves h fun u hu => ?_
  split
  · exact doStore_leaves hu ..
  · exact fault_leaves hu ..

/-! ### Accesses at their perform points -/

theorem storeVisible_leaves (r : Req) : Leaves Canonical (execStoreVisible r s) := by
  refine leaves_ite (leaves_same h (by simp)) (leaves_ite (leaves_next (by simp [h])) (leaves_ite (leaves_next ?_)
    (leaves_ite (leaves_ite (leaves_same h (by simp)) (leaves_next ?_)) (leaves_same h (by simp)))))
  · split <;> simp [h]
  · split <;> simp [h]

theorem atomicExecute_leaves (op : AtomOp) (posted inCore : Bool) (cmp : Word) (r : Req) :
    Leaves Canonical (execAtomicExecute op posted inCore cmp r s) := by
  refine leaves_ite (leaves_same h (by simp)) (leaves_next (arbitrated_canonical h _ _ _ _ _ _ _ ?_))
  extract_lets acquired dropped repaired reported old written
  have hrepaired : Canonical (memories repaired) := by simp [repaired, dropped, acquired, h]
  have hwritten : Canonical (memories written) := by
    unfold written
    split <;> simp [hrepaired]
  refine memories_ite_canonical ?_ ?_
  · simp [reported, hrepaired]
  · simp [hwritten]

theorem nibbleStoreExecute_leaves (r : Req) : Leaves Canonical (execNibbleStoreExecute r s) := by
  refine leaves_ite (leaves_same h (by simp)) (leaves_next (arbitrated_canonical h _ _ _ _ _ _ _ ?_))
  exact homeWrite_canonical (by simp [h]) ..

theorem coreStoreAccess_leaves (r : Req) : Leaves Canonical (execCoreStoreAccess r s) := by
  have hmeshed : Canonical (memories (s.meshed r)) := by simpa using h
  simp only [execCoreStoreAccess]
  split
  · exact leaves_next (by simp [h])
  · exact leaves_next (arbitrated_canonical hmeshed _ _ _ _ _ _ _ (writeStore_canonical hmeshed ..))
  · exact leaves_next (by simp [h])
  · exact leaves_same h (by simp)

theorem semVExecute_leaves (loc ctx scope : Nat) (tx : Option Nat) : Leaves Canonical (execSemVExecute loc ctx scope tx s) := by
  refine leaves_next (arbitrated_canonical h _ _ _ _ _ _ _ ?_)
  dsimp only
  split <;> simp [h]

theorem semPExecute_leaves (loc ctx scope : Nat) (tx : Option Nat) : Leaves Canonical (execSemPExecute loc ctx scope tx s) := by
  refine leaves_next (arbitrated_canonical h _ _ _ _ _ _ _ ?_)
  dsimp only
  split <;> simp [h]

theorem jcUpdate_leaves (loc : Nat) (addend : Word) (flt ctx : Nat) (tx : Option Nat) :
    Leaves Canonical (execJcUpdate loc addend flt ctx tx s) := by
  unfold execJcUpdate
  extract_lets core die old added faulted new cont cleared continued ready woken rest
  have hadded : Canonical (memories added) := writeStore_canonical h ..
  have hfaulted : Canonical (memories faulted) := memories_ite_canonical (writeStore_canonical hadded ..) hadded
  have hcontinued : Canonical (memories continued) := by
    refine memories_ite_canonical ?_ hfaulted
    split <;> simp [cleared, hfaulted]
  exact leaves_next (by simp [rest, hcontinued])

theorem ksendAccumulate_leaves (loc : Nat) (fp : Bool) (val : BitVec 32) (ctx : Nat) (tx : Option Nat) :
    Leaves Canonical (execKsendAccumulate loc fp val ctx tx s) :=
  leaves_next (arbitrated_canonical h _ _ _ _ _ _ _ (putStore_canonical h ..))

theorem scrubWrite_leaves (mdie sector seq : Nat) : Leaves Canonical (execScrubWrite mdie sector seq s) := by
  have hwritten : Canonical (writeList s.mem (48 * sector) (readList s.mem (48 * sector) 48), s.cstore) :=
    canonical_pair (Laws.writeList_wf _ _ _ h.1) h.2
  simp only [execScrubWrite]
  split
  · exact leaves_next (by simpa only [memories, State.modDie] using hwritten)
  · exact leaves_same h (by simp)

theorem streamerPush_leaves (cluster task part : Nat) : Leaves Canonical (execStreamerPush cluster task part s) := by
  unfold execStreamerPush
  split
  · exact leaves_next h
  · split
    · exact leaves_next h
    · split
      · exact leaves_same h (by simp)
      · extract_lets n counted
        have hcounted : Canonical (memories counted) := by simp [counted, h]
        have hlost := pushLost_canonical hcounted
        exact leaves_next (by simp [hlost])

end

section

variable {s : State} (h : Canonical (memories s))
include h

/-! ### Launches and relaunches -/

theorem launchAccept_leaves (part : Nat) (desc : Word) (ctx reg : Nat) (tag : Bool) (priv : Nat) (res : Word) :
    Leaves Canonical (execLaunchAccept part desc ctx reg tag priv res s) := by
  unfold execLaunchAccept
  extract_lets p bytes d id l set g traced kept listed
  split
  · exact leaves_next (refuse_canonical h ..)
  · have hlisted : Canonical (memories listed) := by simpa [listed] using h
    exact leaves_next (memories_ite_canonical (by simp [hlisted]) (by simp [hlisted]))

theorem blockStart_leaves (launch : Nat) : Leaves Canonical (execBlockStart launch s) := by
  unfold execBlockStart
  split
  · exact leaves_next h
  · split
    · exact leaves_next h
    · dsimp only
      split
      · exact leaves_same h (by simp)
      · refine leaves_ite (leaves_same h (by simp)) (leaves_next ?_)
        simp [h]

theorem launchCompletion_leaves (launch : Nat) : Leaves Canonical (execLaunchCompletion launch s) := by
  unfold execLaunchCompletion
  split
  · exact leaves_next h
  · extract_lets spilled recorded closed
    have hspilled : Canonical (memories spilled) := by simpa [spilled] using h
    have hrecorded : Canonical (memories recorded) := record_canonical hspilled ..
    have hclosed : Canonical (memories closed) :=
      memories_ite_canonical (headerState_canonical (writeVirt_canonical hrecorded ..) ..) hrecorded
    exact leaves_ite (leaves_next h) (leaves_ite (leaves_same h (by simp)) (leaves_same hclosed (by simp)))

theorem spawnPoolRequest_leaves (blk ctx reg : Nat) (tag : Bool) (entry arg : Word) (jc : Option Nat) (unit : Nat) :
    Leaves Canonical (execSpawnPoolRequest blk ctx reg tag entry arg jc unit s) := by
  simp only [execSpawnPoolRequest]
  split
  · exact leaves_same h (by simp)
  · split
    · split
      · refine leaves_ite (leaves_same h (by simp)) (leaves_next ?_)
        simp only [tell_memories]
        split <;> split <;> simp [h]
      · exact leaves_same h (by simp)
    · exact leaves_same h (by simp)

theorem blockRecordWrite_leaves (blk : Nat) : Leaves Canonical (execBlockRecordWrite blk s) := by
  unfold execBlockRecordWrite
  split
  · exact leaves_next h
  · split
    · exact leaves_next (by simp [h])
    · exact leaves_next h

theorem relaunchAccept_leaves (part : Nat) (region comp : Word) (ctx reg : Nat) (tag : Bool) (priv : Nat) (repair : Bool)
    (res : Word) : Leaves Canonical (execRelaunchAccept part region comp ctx reg tag priv repair res s) := by
  refine leaves_ite (leaves_next (answer_canonical h ..)) (leaves_ite (leaves_next (refuse_canonical h ..)) ?_)
  dsimp only
  split
  · exact leaves_next (refuse_canonical h ..)
  · exact leaves_next (by simp [h])

theorem generationAdvanceDone_leaves (set : Nat) : Leaves Canonical (execGenerationAdvanceDone set s) := by
  unfold execGenerationAdvanceDone
  split
  · exact leaves_next h
  · extract_lets removed told
    have htold : Canonical (memories told) := by simpa [told, removed] using h
    refine leaves_next ?_
    split
    · exact advanced_canonical htold _
    · exact htold

theorem relaunchComplete_leaves (launch : Nat) : Leaves Canonical (execRelaunchComplete launch s) := by
  unfold execRelaunchComplete
  split
  · exact leaves_next h
  · split
    · exact leaves_next h
    · extract_lets found kept head headed summed region stated spilled recorded
      have hsummed : Canonical (memories summed) := by
        refine memories_ite_canonical h (each_canonical (fun x t ht => ?_) (writeVirt_canonical h ..))
        exact writeVirt_canonical ht ..
      have hstated : Canonical (memories stated) := headerState_canonical (writeVirt_canonical hsummed ..) ..
      exact leaves_next (by simp [recorded, spilled, hstated])

/-! ### Partitions and failures -/

theorem preemptRequest_leaves (die part : Nat) : Leaves Canonical (execPreemptRequest die part s) :=
  leaves_next (carriedOut_canonical (by simpa using h) ..)

theorem preemptResume_leaves (die part : Nat) : Leaves Canonical (execPreemptResume die part s) :=
  leaves_next (carriedOut_canonical h ..)

theorem partitionSwap_leaves (die old new : Nat) : Leaves Canonical (execPartitionSwap die old new s) :=
  leaves_next (carriedOut_canonical (by simpa using h) ..)

theorem heartbeatTimeout_leaves (die : Nat) : Leaves Canonical (execHeartbeatTimeout die s) := leaves_next (declareFailed_canonical h _)

theorem unrecoverableFaultReport_leaves (die : Nat) : Leaves Canonical (execUnrecoverableFaultReport die s) :=
  leaves_next (declareFailed_canonical h _)

theorem linkRetrainDone_leaves (die link : Nat) : Leaves Canonical (execLinkRetrainDone die link s) := by
  unfold execLinkRetrainDone
  split
  · exact leaves_next h
  · extract_lets back near far down
    have hdown : Canonical (memories down) := by simpa [down] using h
    refine leaves_ite (leaves_next h) ?_
    split
    · exact leaves_same h (by simp)
    · exact leaves_next (memories_ite_canonical (declareFailed_canonical hdown _) (memories_ite_canonical (declareFailed_canonical hdown _)
        (memories_ite_canonical (declareFailed_canonical hdown _) hdown)))

/-! ### Boot and the host -/

theorem bootStepAdvance_leaves : Leaves Canonical (execBootStepAdvance s) := by
  refine leaves_ite (leaves_next h) ?_
  split
  case h_1 =>
    split <;> exact leaves_same h (by simp)
  case h_2 =>
    split
    · exact leaves_ite_same h (by simp) (by simp)
    · exact leaves_same h (by simp)
  case h_3 =>
    split
    · refine leaves_ite (leaves_same h (by simp)) (leaves_ite (leaves_same h (by simp)) (leaves_next ?_))
      simp [h]
    · exact leaves_same h (by simp)
  case h_4 => exact leaves_same h (by simp)
  case h_5 =>
    refine leaves_ite (leaves_same h (by simp)) ?_
    split <;> exact leaves_same h (by simp)

theorem dieReset_leaves (die : Nat) : Leaves Canonical (execDieReset die s) := by
  unfold execDieReset
  extract_lets part ids old ended freed shut gaveUp renewed off
  have hfreed : Canonical (memories freed) := by simpa [freed, ended] using h
  have hrenewed : Canonical (memories renewed) := by
    have hcleared : Canonical (memories (gaveUp.clearDies [die])) := clearDies_canonical (by simpa [gaveUp, shut] using hfreed) _
    simpa [renewed] using hcleared
  have hoff : Canonical (memories off) := by simpa [off] using hrenewed
  refine leaves_ite (leaves_next h) ?_
  split
  · exact leaves_same hoff (by simp)
  · refine leaves_ite (leaves_same hoff (by simp)) (leaves_ite (leaves_same hoff (by simp)) (leaves_next ?_))
    have hplaced := placeHandlers_canonical hoff
    simp [hoff]

theorem scaleUpAccess_leaves (peer : Nat) (wr : Bool) (addr size data : Nat) :
    Leaves Canonical (execScaleUpAccess peer wr addr size data s) := by
  have hwritten : Canonical (writeNat s.mem addr data size, s.cstore) := canonical_pair (Laws.writeNat_wf _ _ _ _ h.1) h.2
  refine leaves_ite (leaves_next h) (leaves_ite (leaves_next (memories_ite_canonical hwritten h)) (leaves_ite (leaves_next h)
    (leaves_next (hostAccess_canonical h ..))))

theorem portLaunch_leaves (part : Nat) (arg0 arg1 res : Word) : Leaves Canonical (execPortLaunch part arg0 arg1 res s) := by
  have hserved : Canonical (memories (s.portServed part (.portLaunch part arg0 arg1 res))) := by simpa using h
  refine leaves_ite (leaves_same hserved (by simp)) ?_
  split
  · exact leaves_ite (leaves_same hserved (by simp)) (leaves_next (answer_canonical hserved ..))
  · exact leaves_next (answer_canonical hserved ..)

theorem portRelaunch_leaves (part : Nat) (arg0 arg1 res : Word) : Leaves Canonical (execPortRelaunch part arg0 arg1 res s) :=
  leaves_next (portRegion_canonical (by simpa using h) ..)

theorem portRepair_leaves (part : Nat) (arg0 arg1 res : Word) : Leaves Canonical (execPortRepair part arg0 arg1 res s) :=
  leaves_next (portRegion_canonical (by simpa using h) ..)

end

/-! ### The mailbox's commands -/

section

variable {s : State} (h : Canonical (memories s))
include h

theorem freeHbm_wf (seed : Nat) : (freeHbm seed s.mem).wf = true := Laws.writePlaces_wf _ _ (Laws.filter_wf _ _ h.1)

theorem setmode_leaves (mode res : Word) : Leaves Canonical (execSetmode mode res s) := by
  have hserved : Canonical (memories (s.mailServed (.setmode mode res))) := by simpa using h
  refine leaves_ite (leaves_next (mailResult_canonical hserved ..)) (leaves_ite (leaves_next (mailResult_canonical hserved ..)) ?_)
  dsimp only
  split
  · exact leaves_next (mailResult_canonical hserved ..)
  · refine leaves_ite (leaves_next (mailResult_canonical hserved ..)) (leaves_next (mailResult_canonical ?_ ..))
    refine each_canonical (fun g t ht => ?_) ?_
    · have hplaced := placeHandlers_canonical ht
      simp [ht]
    · simp only [newMaps_memories]
      exact ⟨freeHbm_wf hserved _, hserved.2⟩

theorem create_leaves (set share res : Word) : Leaves Canonical (execCreate set share res s) := by
  have hserved : Canonical (memories (s.mailServed (.create set share res))) := by simpa using h
  refine leaves_ite (leaves_next (mailResult_canonical hserved ..)) ?_
  dsimp only
  split
  · exact leaves_next (mailResult_canonical hserved ..)
  · refine leaves_ite (leaves_next (mailResult_canonical hserved ..)) ?_
    split
    · exact leaves_next (mailResult_canonical hserved ..)
    · exact leaves_ite (leaves_next (mailResult_canonical hserved ..))
        (leaves_next (mailResult_canonical (placeHandlers_canonical (by simpa using hserved) ..) ..))

theorem destroy_leaves (set idx res : Word) : Leaves Canonical (execDestroy set idx res s) := by
  have hserved : Canonical (memories (s.mailServed (.destroy set idx res))) := by simpa using h
  exact leaves_ite (leaves_next (mailResult_canonical hserved ..)) (leaves_ite (leaves_next (mailResult_canonical hserved ..))
    (leaves_next (mailResult_canonical (by simpa using hserved) ..)))

theorem swap_leaves (set idx res : Word) : Leaves Canonical (execSwap set idx res s) := by
  have hserved : Canonical (memories (s.mailServed (.swap set idx res))) := by simpa using h
  exact leaves_ite (leaves_next (mailResult_canonical hserved ..)) (leaves_ite
    (leaves_ite (leaves_same hserved (by simp)) (leaves_next (mailResult_canonical (by simpa using hserved) ..)))
    (leaves_same hserved (by simp)))

theorem slice_leaves (set us res : Word) : Leaves Canonical (execSlice set us res s) := by
  have hserved : Canonical (memories (s.mailServed (.slice set us res))) := by simpa using h
  exact leaves_ite (leaves_next (mailResult_canonical hserved ..)) (leaves_next (mailResult_canonical (by simpa using hserved) ..))

theorem preempt_leaves (set res : Word) : Leaves Canonical (execPreempt set res s) := by
  have hserved : Canonical (memories (s.mailServed (.preempt set res))) := by simpa using h
  simp only [execPreempt]
  split
  · exact leaves_next (mailResult_canonical hserved ..)
  · exact leaves_same hserved (by simp)

theorem resume_leaves (set res : Word) : Leaves Canonical (execResume set res s) := by
  have hserved : Canonical (memories (s.mailServed (.resume set res))) := by simpa using h
  simp only [execResume]
  split
  · exact leaves_next (mailResult_canonical hserved ..)
  · exact leaves_ite (leaves_same hserved (by simp)) (leaves_next (mailResult_canonical hserved ..))

theorem attest_leaves (nonce buf res : Word) : Leaves Canonical (execAttest nonce buf res s) :=
  leaves_next (mailResult_canonical (homeWrite_canonical (by simpa using h) ..) ..)

omit h in
theorem packageReset_leaves : Leaves Canonical (execPackageReset s) := leaves_next ⟨rfl, rfl⟩

end

/-! ### Rows of the other units that choose more than once -/

section Rows

variable {P : Memory × Memory → Prop} {s : State} (h : P (memories s))
include h

theorem agingPromotion_leaves (ctx : Nat) : Leaves P (execAgingPromotion ctx s) := by
  refine leaves_ite (leaves_same h (by simp)) ?_
  dsimp only
  split
  · exact leaves_ite_same h (by simp) (by simp)
  · exact leaves_same h (by simp)

theorem semPResend_leaves (ctx : Nat) : Leaves P (execSemPResend ctx s) := by
  simp only [execSemPResend]
  split
  · exact leaves_ite_same h (by simp) (by simp)
  · exact leaves_same h (by simp)

theorem fenceTokenArrival_leaves (die link round : Nat) : Leaves P (execFenceTokenArrival die link round s) := by
  simp only [execFenceTokenArrival]
  split
  · exact leaves_same h (by simp)
  · exact leaves_ite (leaves_same h (by simp)) (leaves_same h (by simp [foldl_second_memories]))

theorem heldReleaseSend_leaves (idx : Nat) : Leaves P (execHeldReleaseSend idx s) := by
  unfold execHeldReleaseSend
  split
  · exact leaves_same h (by simp)
  · dsimp only
    split
    · exact leaves_same h (by simp)
    · exact leaves_same h (by simp)
    · exact leaves_ite_same h (by simp) (by simp)

theorem commandAccept_leaves (c : Cmd) : Leaves P (execCommandAccept c s) := by
  refine leaves_ite (leaves_same h (by simp)) ?_
  dsimp only
  split
  · exact leaves_same h (by simp)
  · split
    · exact leaves_same h (by simp)
    · exact leaves_same h (by split <;> simp)

theorem commandReply_leaves (ctx op kind cause : Nat) (info : Word) (reg : Nat) :
    Leaves P (execCommandReply ctx op kind cause info reg s) := by
  refine leaves_ite (leaves_same h (by simp)) ?_
  dsimp only
  split
  · split <;> exact leaves_same h (by simp)
  · exact leaves_ite (leaves_same h (by simp)) (leaves_same h (by
      split <;> simp))
  · exact leaves_same h (by simp)

theorem tallocServe_leaves (cluster ctx reg : Nat) (tag : Bool) (blk : Nat) (desc : Word) (unit : Nat) :
    Leaves P (execTallocServe cluster ctx reg tag blk desc unit s) := by
  simp only [execTallocServe]
  split
  · exact leaves_same h (by simp)
  · split <;> exact leaves_same h (by simp)

theorem mmaFragmentDone_leaves (cluster task : Nat) : Leaves P (execMmaFragmentDone cluster task s) := by
  unfold execMmaFragmentDone
  split
  · exact leaves_same h (by simp)
  · split
    · exact leaves_ite (leaves_same h (by simp)) (leaves_same h (by split <;> simp))
    · exact leaves_same h (by simp)

theorem streamerPartStart_leaves (cluster task part : Nat) : Leaves P (execStreamerPartStart cluster task part s) := by
  unfold execStreamerPartStart
  split
  · exact leaves_same h (by simp)
  · refine leaves_ite (leaves_same h (by simp)) ?_
    split <;> exact leaves_same h (by simp)

theorem streamerPartDone_leaves (cluster task part : Nat) : Leaves P (execStreamerPartDone cluster task part s) := by
  simp only [execStreamerPartDone]
  split
  · exact leaves_same h (by simp)
  · exact leaves_ite_same h (by simp) (by simp)

theorem taskComplete_leaves (cluster task : Nat) : Leaves P (execTaskComplete cluster task s) := by
  unfold execTaskComplete
  split
  · exact leaves_same h (by simp)
  · exact leaves_ite (leaves_same h (by simp)) (leaves_ite_same h (by simp) (by simp))

theorem watchArm_leaves (inCore : Bool) (addr : Nat) (expected : Word) (ctx reg : Nat) (tag : Bool) (timeout : Nat)
    (unit : Sender) : Leaves P (execWatchArm inCore addr expected ctx reg tag timeout unit s) := by
  refine leaves_ite (leaves_same h (by simp)) (leaves_ite (leaves_same h (by simp)) (leaves_ite (leaves_same h (by simp))
    (leaves_ite ?_ (leaves_ite_same h (by simp) (by simp)))))
  dsimp only
  exact leaves_same h (by simp)

theorem contextClaim_leaves (core ctx : Nat) : Leaves P (execContextClaim core ctx s) := by
  refine leaves_ite ?_ (leaves_same h (by simp))
  dsimp only
  split <;> exact leaves_same h (by simp)

theorem migrationLineMove_leaves (set : Nat) : Leaves P (execMigrationLineMove set s) := by
  simp only [execMigrationLineMove]
  split
  · exact leaves_ite_same h (by simp) (by simp)
  · exact leaves_same h (by simp)

theorem flitSend_leaves (die link : Nat) : Leaves P (execFlitSend die link s) := by
  refine leaves_ite (leaves_same h (by simp)) ?_
  dsimp only
  split <;> exact leaves_same h (by simp)

theorem flitReceive_leaves (die link : Nat) : Leaves P (execFlitReceive die link s) := by
  unfold execFlitReceive
  split
  · exact leaves_same h (by simp)
  · dsimp only
    split
    · exact leaves_same h (by simp)
    · exact leaves_ite (leaves_ite_same h (by simp) (by simp)) (leaves_ite_same h (by simp) (by simp))

theorem homeReadRequest_leaves (r : Req) : Leaves P (execHomeReadRequest r s) :=
  leaves_ite (leaves_ite (leaves_same h (by simp)) (leaves_ite_same h (by simp) (by simp))) (leaves_ite_same h (by simp) (by simp))

theorem writeBackArrival_leaves (line die mask : Nat) : Leaves P (execWriteBackArrival line die mask s) := by
  refine leaves_ite (leaves_same h (by simp)) ?_
  dsimp only
  split
  · exact leaves_ite_same h (by simp) (by simp)
  · exact leaves_same h (by simp)

theorem handlerInstall_leaves (core : Nat) (lvlM : Bool) (cva : Word) : Leaves P (execHandlerInstall core lvlM cva s) := by
  refine leaves_ite (leaves_same h (by simp)) ?_
  split <;> exact leaves_same h (by simp)

theorem linkCounterSnapshot_leaves (die : Nat) : Leaves P (execLinkCounterSnapshot die s) :=
  leaves_ite (leaves_same h (by simp)) (leaves_ite (leaves_same h (by simp)) (leaves_ite_same h (by simp) (by simp)))

theorem replayDivergence_leaves (unit loc : Nat) : Leaves P (execReplayDivergence unit loc s) := by
  unfold execReplayDivergence
  split
  · exact leaves_same h (by simp)
  · split
    · exact leaves_same h (by simp)
    · exact leaves_ite_same h (by simp) (by simp)

theorem hostAccess_leaves (wr : Bool) (addr size data : Nat) : Leaves P (execHostAccess wr addr size data s) :=
  leaves_ite (leaves_same h (by simp)) (leaves_ite (leaves_same h (by simp)) (leaves_ite (leaves_same h (by simp))
    (leaves_ite_same h (by simp) (by simp))))

theorem timeSliceExpiry_leaves (set : Nat) : Leaves P (execTimeSliceExpiry set s) := by
  refine leaves_ite (leaves_same h (by simp)) ?_
  dsimp only
  split <;> exact leaves_same h (by simp)

theorem cmdsDecrement_leaves (ctx : Nat) (flt : Option Word) (unit : Holder) : Leaves P (execCmdsDecrement ctx flt unit s) := by
  refine leaves_same h (addressed_memories (each_memories fun id t => ?_))
  cases flt <;> simp

theorem traceReport_leaves (blk patch : Nat) (wr : Bool) (icause pc : Nat) : Leaves P (execTraceReport blk patch wr icause pc s) := by
  refine leaves_same h ?_
  rw [modBlock_memories]
  split <;> simp

theorem contextLineArrival_leaves (ctx : Nat) (dst : Holder) : Leaves P (execContextLineArrival ctx dst s) := by
  refine leaves_same h ?_
  cases dst <;> simp

theorem ptpEventMessage_leaves (msg : PtpMessage) (ticks : Nat) : Leaves P (execPtpEventMessage msg ticks s) := by
  refine leaves_same h ?_
  cases msg <;> simp

theorem homeFailureProcess_leaves (mdie failed : Nat) : Leaves P (execHomeFailureProcess mdie failed s) := by
  refine leaves_same h ((each_memories fun _ _ => by simp).trans (each_memories fun l t => ?_))
  dsimp only
  split <;> simp

theorem carouselRingClaim_leaves (core : Nat) : Leaves P (execCarouselRingClaim core s) := by
  unfold execCarouselRingClaim
  split
  · refine leaves_same h ?_
    split <;> simp
  · next hclaimed => exact leaves_same h (by simp [claimable_memories hclaimed])

end Rows

end Sys2Proof.Proofs

/-! SUPPORT. Every step keeps both byte memories in canonical form (04 R92, 05 R107, 15 R360). -/

namespace Sys2Proof.Proofs

open Sys2Proof Sys2Proof.Machine Sys2Proof.Claims

set_option Elab.async false

/-- `exec` keeps the form: by the shape that each instruction or row shares with others, or by the lemma of its own. -/
theorem exec_leaves {s : State} (h : Canonical (memories s)) (i : Instr) : Leaves Canonical (exec i s) := by
  cases i
  -- the dispatch calls the meaning of the row
  all_goals dsimp only [exec]
  case clz | ctz | popc | sext | zext | abs | mov | andi | ori | xori | shli | shri | sari | roli | rori | muli | addi | movh | pabs |
    pwiden | addiC16 | andiC16 | shliC16 | shriC16 | sariC16 | movC16 => exact alu1_leaves h ..
  case add | sub | mul | mulh | and | or | xor | andn | orn | shl | shr | sar | rol | ror | bext | min | max | padd | psub | padds |
    psubs | pmul | pmulh | pdot | pavg | pmin | pmax | psad | pclip | pshl | pshr | psar | pvshl | pvshr | pvsar | pperm | pnarrow |
    fmin | fmax | addC16 | subC16 | andC16 | orC16 | xorC16 | andnC16 | mulC16 | shlC16 | shrC16 | sarC16 => exact alu2_leaves h ..
  case div | rem => exact alu2Long_leaves h ..
  case bins | xset | xget | movi | cmpi | pcmp | psel | fclass | pset | pclr | pnot | pand | por | pxor | pwr | pww | pcnt | cinvalAll
    | vbusy | eret | nop | bl | moviC16 | nopC16 | sel | cmp | loop | fmt | fcvt | chunk | trgen | trstat | srd =>
    exact issue_leaves h fun _ hu => leaves_same hu (by simp)
  case fadd | fsub | fmul => exact fbin_leaves h ..
  case fma => exact ffma_leaves h ..
  case fdiv => exact fbinLong_leaves h ..
  case fsqrt => exact fsqrtLong_leaves h ..
  case fcmp => exact fcompare_leaves h ..
  case dadd | dsub | dmul => exact extGate_leaves h (fun _ hu => fbin_leaves hu ..) _
  case dfma => exact extGate_leaves h (fun _ hu => ffma_leaves hu ..) _
  case ddiv => exact extGate_leaves h (fun _ hu => fbinLong_leaves hu ..) _
  case dsqrt => exact extGate_leaves h (fun _ hu => fsqrtLong_leaves hu ..) _
  case dcmp => exact extGate_leaves h (fun _ hu => fcompare_leaves hu ..) _
  case crc => exact extGate_leaves h (fun _ hu => alu2_leaves hu ..) _
  case dcvtTo | dcvtFrom => exact extGate_leaves h (fun _ hu => issue_leaves hu fun _ hv => leaves_same hv (by simp)) _
  case bsopen =>
    exact extGate_leaves h (fun _ hu => issue_leaves hu fun _ hv => leaves_ite (fault_leaves hv ..) (leaves_same hv (by simp))) _
  case bsalign =>
    exact extGate_leaves h (fun _ hu => issue_leaves hu fun _ hv => withStream_leaves hv fun _ _ =>
      leaves_ite (overrun_leaves hv _) (leaves_same hv (by simp))) _
  case getue | getse => exact extGate_leaves h (fun _ hu => issue_leaves hu fun _ hv => expGolomb_leaves hv ..) _
  case getb | getbImm | peekb | peekbImm =>
    exact extGate_leaves h (fun _ hu => issueCount_leaves hu fun _ _ hv => readBits_leaves hv ..) _
  case skipb | skipbImm => exact extGate_leaves h (fun _ hu => issueCount_leaves hu fun _ _ hv => skipBits_leaves hv _) _
  case idr | gtime | gtimeLk | cyc | cycT => exact readValue_leaves h ..
  case bz | bnz | bzC16 | bnzC16 => exact branchOn_leaves h ..
  case b | bany | ball | bnone | bpt | bpf | bC16 | bptC16 | bpfC16 => exact branchPw_leaves h ..
  case jr | jrL | jrC16 => exact jump_leaves h ..
  case ld | ldDC16 | ldWC16 => exact loadAt_leaves h ..
  case st | stDC16 | stWC16 => exact storeAt_leaves h ..
  case amoAdd | amoAnd | amoOr | amoXor | amoMinS | amoMaxS | amoSwp | amoCas | amoFadd | amoMinZ | amoMaxZ | amoAddPost | amoAndPost
    | amoOrPost | amoXorPost | amoMinSPost | amoMaxSPost | amoSwpPost | amoCasPost | amoFaddPost | amoMinZPost | amoMaxZPost =>
    exact amo_leaves h ..
  case ldN | xld => exact issue_leaves h fun _ hu => doLoad_leaves hu ..
  case stN => exact issue_leaves h fun _ hu => doStore_leaves hu ..
  case pf | cinval => exact issue_leaves h fun _ hu => withHint_leaves hu _ (by simp)
  case semV | jcAdd => exact issue_leaves h fun _ hu => withStore_leaves hu fun _ _ hv => storeOp_leaves hv ..
  case vadd | vsub | vmul | vfma | vmin | vmax | vabs | vneg | vexp2 | vlog2 | vrcp | vrsqrt | vtanh | vcvt | vcmp | vsel | vrowred |
    vcolred | vbcast | vtrans | vscale | vquant | vshl | vshr | vsar | vclamp | vmov | vfill | vmask | mma | mdrain | cpyMt | cpyTm |
    cpyMm | gath | scat => exact taskOp_leaves h ..
  case ctxLd | ctxSt | ctxReady | ctxEvict | ctxPark | ctxParkKill | dstop => exact ctxOp_leaves h ..
  case slotPark | slotFree => exact slotOp_leaves h ..
  case relaunch | relaunchRepair => exact relaunchOp_leaves h ..
  case yield | yieldC16 => exact yieldOp_leaves h _
  case exit | exitC16 => exact exitOp_leaves h ..
  case barWait => exact withBar_leaves h fun _ _ hu => leaves_ite_same hu (by simp) (by simp)
  case barTest => exact withBar_leaves h fun _ _ hu => leaves_same hu (by simp)
  case vfence => exact issue_leaves h fun _ hu => leaves_ite_same hu (by simp) (by simp)
  case talloc => exact issue_leaves h fun _ hu => leaves_ite (fault_leaves hu ..) (leaves_same hu (by simp))
  case halt => exact issue_leaves h fun _ hu => leaves_ite (leaves_same hu (by simp)) (idle_leaves hu _)
  case sys => exact issue_leaves h fun _ hu => raise_leaves hu ..
  case ldAnchorRel => exact ldAnchorRel_leaves h ..
  case stAnchorRel => exact stAnchorRel_leaves h ..
  case cflush => exact cflush_leaves h ..
  case fence => exact fence_leaves h ..
  case stv => exact stv_leaves h ..
  case twait => exact twait_leaves h ..
  case semP => exact semP_leaves h ..
  case jcWait => exact jcWait_leaves h ..
  case waitMem => exact waitMem_leaves h ..
  case spawn => exact spawn_leaves h ..
  case spawnDef => exact spawnDef_leaves h ..
  case chunkInit => exact chunkInit_leaves h ..
  case barCfg => exact barCfg_leaves h ..
  case barArr => exact barArr_leaves h ..
  case kbinCfg => exact kbinCfg_leaves h ..
  case ksend => exact ksend_leaves h ..
  case launch => exact launch_leaves h ..
  case tview => exact tview_leaves h ..
  case tinfo => exact tinfo_leaves h ..
  case tfree => exact tfree_leaves h ..
  case tget => exact tget_leaves h ..
  case tset => exact tset_leaves h ..
  case dmread => exact dmread_leaves h ..
  case dmmark => exact dmmark_leaves h ..
  case swr => exact swr_leaves h ..
  case tlbi => exact tlbi_leaves h ..
  case bmode => exact bmode_leaves h ..
  case nonInstructionEncoding => exact nonInstructionEncoding_leaves h ..
  case registerFill | chunkInitRequest | chunkRequest | wakeupApply | barrierTimeout | commandRetry | generationBroadcast | watchCancel |
    timeDeadline | contextTransferAck | bankNackRetry | linkAck | replayTimeout | classAgePromotion | dieRecall | calliopeExchange |
    calliopeResult | exchangeMissing | dieFailureBroadcast | rasPop | mcheckClear | lnkRetrainForce | lnkInject | dlogBaseWrite |
    pctDisableSpill | rplCtlWrite | operatingPointChange | pwrCapWrite | launchPortWriteRefused | mailboxWriteRefused =>
    exact leaves_same h (by simp)
  case fenceEchoArrival | postedTokenRound | barrierSignal | barrierRelease | barrierAbort | restampRequest | messageReturn |
    ringPostRetry | regionMigrationStart | linkNak | ownershipGrant | contextLoss | jcWaitRepoll =>
    exact leaves_ite_same h (by simp) (by simp)
  case scrubRead => exact leaves_ite (leaves_same h (by simp)) (leaves_ite_same h (by simp) (by simp))
  case ownershipRequest =>
    exact leaves_ite (leaves_same h (by simp)) (leaves_ite (leaves_same h (by simp)) (leaves_ite_same h (by simp) (by simp)))
  case idleContextReplace | quantumExpiry | taskAdmit | watchTimeout | ringPost | ringmasterSteal | walkComplete | walkQueueRetry |
    homeNackRetry | bankDrainDone | laneFaultReport | pcSample =>
    -- each looks one thing up, and answers whatever it finds
    simp only [execIdleContextReplace, execQuantumExpiry, execTaskAdmit, execWatchTimeout, execRingPost, execRingmasterSteal,
      execWalkComplete, execWalkQueueRetry, execHomeNackRetry, execBankDrainDone, execLaneFaultReport, execPcSample]
    split <;> exact leaves_same h (by simp)
  case semVExecute => exact semVExecute_leaves h ..
  case semPExecute => exact semPExecute_leaves h ..
  case jcUpdate => exact jcUpdate_leaves h ..
  case ksendAccumulate => exact ksendAccumulate_leaves h ..
  case preemptRequest => exact preemptRequest_leaves h ..
  case preemptResume => exact preemptResume_leaves h ..
  case partitionSwap => exact partitionSwap_leaves h ..
  case heartbeatTimeout => exact heartbeatTimeout_leaves h ..
  case unrecoverableFaultReport => exact unrecoverableFaultReport_leaves h ..
  case packageReset => exact packageReset_leaves
  case portRelaunch => exact portRelaunch_leaves h ..
  case portRepair => exact portRepair_leaves h ..
  case attest => exact attest_leaves h ..
  case nibbleStoreExecute => exact nibbleStoreExecute_leaves h ..
  case atomicExecute => exact atomicExecute_leaves h ..
  case scrubWrite => exact scrubWrite_leaves h ..
  case slice => exact slice_leaves h ..
  case destroy => exact destroy_leaves h ..
  case scaleUpAccess => exact scaleUpAccess_leaves h ..
  case coreStoreAccess => exact coreStoreAccess_leaves h ..
  case generationAdvanceDone => exact generationAdvanceDone_leaves h ..
  case preempt => exact preempt_leaves h ..
  case cmdsDecrement => exact cmdsDecrement_leaves h ..
  case traceReport => exact traceReport_leaves h ..
  case contextLineArrival => exact contextLineArrival_leaves h ..
  case ptpEventMessage => exact ptpEventMessage_leaves h ..
  case homeFailureProcess => exact homeFailureProcess_leaves h ..
  case carouselRingClaim => exact carouselRingClaim_leaves h ..
  case agingPromotion => exact agingPromotion_leaves h ..
  case launchAccept => exact launchAccept_leaves h ..
  case blockStart => exact blockStart_leaves h ..
  case launchCompletion => exact launchCompletion_leaves h ..
  case semPResend => exact semPResend_leaves h ..
  case spawnPoolRequest => exact spawnPoolRequest_leaves h ..
  case storeVisible => exact storeVisible_leaves h ..
  case fenceTokenArrival => exact fenceTokenArrival_leaves h ..
  case heldReleaseSend => exact heldReleaseSend_leaves h ..
  case commandAccept => exact commandAccept_leaves h ..
  case commandReply => exact commandReply_leaves h ..
  case tallocServe => exact tallocServe_leaves h ..
  case mmaFragmentDone => exact mmaFragmentDone_leaves h ..
  case streamerPartStart => exact streamerPartStart_leaves h ..
  case streamerPush => exact streamerPush_leaves h ..
  case streamerPartDone => exact streamerPartDone_leaves h ..
  case taskComplete => exact taskComplete_leaves h ..
  case blockRecordWrite => exact blockRecordWrite_leaves h ..
  case relaunchAccept => exact relaunchAccept_leaves h ..
  case relaunchComplete => exact relaunchComplete_leaves h ..
  case watchArm => exact watchArm_leaves h ..
  case contextClaim => exact contextClaim_leaves h ..
  case migrationLineMove => exact migrationLineMove_leaves h ..
  case flitSend => exact flitSend_leaves h ..
  case flitReceive => exact flitReceive_leaves h ..
  case linkRetrainDone => exact linkRetrainDone_leaves h ..
  case homeReadRequest => exact homeReadRequest_leaves h ..
  case writeBackArrival => exact writeBackArrival_leaves h ..
  case handlerInstall => exact handlerInstall_leaves h ..
  case linkCounterSnapshot => exact linkCounterSnapshot_leaves h ..
  case replayDivergence => exact replayDivergence_leaves h ..
  case bootStepAdvance => exact bootStepAdvance_leaves h ..
  case dieReset => exact dieReset_leaves h ..
  case hostAccess => exact hostAccess_leaves h ..
  case portLaunch => exact portLaunch_leaves h ..
  case setmode => exact setmode_leaves h ..
  case create => exact create_leaves h ..
  case swap => exact swap_leaves h ..
  case resume => exact resume_leaves h ..
  case timeSliceExpiry => exact timeSliceExpiry_leaves h ..

/-! ### Errands, fetch and the issue cycle -/

section

variable {s : State} (h : Canonical (memories s))
include h

theorem execErrand_leaves (x : Errand) : Leaves Canonical (execErrand x s) := by
  cases x
  case record | host => exact leaves_next (by simp [h])
  all_goals exact leaves_same h (by simp)

theorem runEnc_leaves (e : Enc) : Leaves Canonical (s.runEnc e) := by
  unfold State.runEnc
  split <;> exact exec_leaves h _

theorem runEv_leaves (e : Ev) : Leaves Canonical (s.runEv e) := by
  unfold State.runEv
  split
  · exact execErrand_leaves h _
  · exact exec_leaves h _
  · exact leaves_next h

end

section

variable {P : Memory × Memory → Prop} {s : State} (h : P (memories s))
include h

theorem withHalf_leaves {k : BitVec 16 → State → Out} (hk : ∀ x t, P (memories t) → Leaves P (k x t)) (va : Nat) :
    Leaves P (withHalf va s k) := by
  refine leaves_ite (fault_leaves h ..) ?_
  split
  · next hl => exact hk _ _ (look_ok_memories hl ▸ h)
  · next hl => exact fault_leaves (look_fault_memories hl ▸ h) ..
  · next hl => exact idle_leaves (look_wait_memories hl ▸ h) _

theorem withEnc_leaves {k : Enc → State → Out} (hk : ∀ e t, P (memories t) → Leaves P (k e t)) : Leaves P (withEnc s k) :=
  leaves_ite (fault_leaves h ..) (withHalf_leaves h (fun _ _ ht =>
    leaves_ite (withHalf_leaves ht (fun _ _ hu => hk _ _ hu) _) (hk _ _ ht)) _)

theorem breakStop_leaves (n : Nat) : Leaves P (s.breakStop n) := by
  unfold State.breakStop
  extract_lets u stop note noted th exempt both
  have hexempt : memories exempt = memories s := by simp [exempt, noted, note]
  have hboth : memories both = memories s := by
    unfold both
    split <;> simp [hexempt]
  exact leaves_ite (fault_leaves h ..) (leaves_ite (idle_leaves h _)
    (leaves_ite (leaves_same h (by simp [hboth])) (fault_leaves (hboth.symm ▸ h) ..)))

theorem fetched_leaves {k : State → Out} (hk : ∀ t, P (memories t) → Leaves P (k t)) (e : Enc) : Leaves P (s.fetched e k) := by
  have hseen : P (memories ({ s with ienc := e.toWord } : State)) := h
  simp only [State.fetched]
  split
  · exact breakStop_leaves hseen _
  · exact hk _ hseen

theorem atBoundary_leaves {k : State → Out} (hk : ∀ t, P (memories t) → Leaves P (k t)) (core id : Nat) :
    Leaves P (s.atBoundary core id k) := by
  refine leaves_ite (hk s h) (leaves_ite (leaves_ite (hk s h) (leaves_ite (leaves_next h) (idle_leaves h _))) ?_)
  split
  · exact leaves_same h (by simp)
  · exact leaves_same h (by simp)

omit h in
theorem issued_leaves {o : Out} (ho : Leaves P o) (u : Cur) (pc l : Nat) : Leaves P (issued u pc l o) := by
  cases o with
  | next t => exact leaves_same (ho.after t rfl) (by simp)
  | fault f => exact ⟨fun _ ht => nomatch ht⟩
  | refused r => exact ⟨fun _ ht => nomatch ht⟩

omit h in
theorem stepped_leaves {o : Out} (ho : Leaves P o) : Leaves P (stepped o) := by
  cases o with
  | next t => exact leaves_same (ho.after t rfl) (by simp)
  | fault f => exact ⟨fun _ ht => nomatch ht⟩
  | refused r => exact ⟨fun _ ht => nomatch ht⟩

end

/-! ### The step -/

section

variable {s : State} (h : Canonical (memories s))
include h

theorem issueSlot_leaves (core slot : Nat) : Leaves Canonical (s.issueSlot core slot) := by
  refine leaves_ite ⟨fun _ ht => nomatch ht⟩ ?_
  split
  · exact leaves_next h
  · exact atBoundary_leaves (by simpa using h) (fun _ ht =>
      issued_leaves (withEnc_leaves ht fun e _ hu => fetched_leaves hu (fun _ hv => runEnc_leaves hv e) e) ..) ..

theorem run_leaves (d : Option Due) : Leaves Canonical (s.run d) := by
  unfold State.run
  split
  · exact leaves_same h (by simp)
  · split
    · exact runEv_leaves (by simpa using h) _
    · exact leaves_next h
  · exact runEv_leaves h _
  · exact issueSlot_leaves h ..

end

/-- Settles O4: every row that an instruction, a message or a due step runs keeps the form, and what the step does around it changes no
byte. -/
theorem stepKeepsCanonical : Obligations.StepKeepsCanonical := by
  intro s t hs hstep
  have hunloaded : Canonical (memories s.unload) := by simpa using (canonical_iff s).mp hs
  have hrun := run_leaves hunloaded s.unload.pick
  exact (canonical_iff t).mpr ((stepped_leaves hrun).after t hstep)

end Sys2Proof.Proofs

/-! SUPPORT. Token rounds and barriers (05 R116, 08 R215 to R217): the statement of this family is refuted by a round that covers a posted
request. The part has what an echo does for such a request, the state, and the refutation. -/

namespace Sys2Proof.Proofs

open Sys2Proof Sys2Proof.Machine Sys2Proof.Claims

set_option Elab.async false

/-! ### The echo of a round that covers a posted request (16 R376) -/

/-- The echo of an open round confirms the posted requests that wait for this round: the die holds none of them any longer. The link has
carried no posted operation since, so that no further round begins. -/
theorem fenceEchoArrival_confirms {s : State} {die link round : Nat} (hopen : (s.die die).roundsOpen.contains (link, round) = true)
    (hposted : (s.link die link).posted = false) :
    Runs (exec (.fenceEchoArrival die link round) s) fun q => ∀ dst tx, (dst, tx, some (link, round)) ∉ (q.die die).unconf := by
  rw [Laws.exec_fenceEchoArrival, execFenceEchoArrival, hopen]
  have hkept (f : Die → Die) : (s.modDie die f).link die link = s.link die link := rfl
  simp only [hkept, hposted]
  exact ⟨_, rfl, by simp [State.die, State.modDie]⟩

/-- Die 0 has sent a posted request, a `sem.v` on core 0 of die 1, and has then begun a token round on the link that carried it. -/
def coveredPost : State :=
  (State.reset.sendOnce 0 1 1 32 true fun tx => .semVExecute (65536 * 1024) 0 0 tx).beginRound 0 14

/-- Round 1 of link 14 is under way, the link carries nothing posted since, and the request waits to be confirmed by that round. -/
theorem coveredPost_waits :
    (coveredPost.die 0).roundsOpen.contains (14, 1) = true ∧ (coveredPost.link 0 14).posted = false ∧
      (1, 0, some (14, 1)) ∈ (coveredPost.die 0).unconf := by
  decide +kernel

/-- Refutes O54: the echo of a round need not change the open rounds alone. It also confirms the posted requests that the round covered (16
R376), which the clause on an open round's echo leaves out: by that clause the list of unconfirmed requests stays as it is. -/
theorem not_barrierEvents : ¬ Obligations.BarrierEvents := by
  intro h
  obtain ⟨-, -, hecho, -⟩ := h coveredPost 0 0 0 14 1 0 false 0
  obtain ⟨hopen, hposted, hwaits⟩ := coveredPost_waits
  have hconfirmed := fenceEchoArrival_confirms hopen hposted
  rw [hecho hopen hposted] at hconfirmed
  have hgone := runs_next hconfirmed 1 0
  simp only [State.die, State.modDie, Laws.getD_put_same] at hgone
  exact hgone hwaits

end Sys2Proof.Proofs

/-! SUPPORT. Integer results, continued (03 R76; 07 R162, R165 to R168): sums, products, logic, counts, extensions and bit-fields. -/

namespace Sys2Proof.Proofs

open Sys2Proof Sys2Proof.Machine Sys2Proof.Claims

set_option Elab.async false

/-! ### Operands as residues of integers -/

theorem ofInt_toNat {n : Nat} (x : BitVec n) : BitVec.ofInt n x.toNat = x := by simp

theorem low_eq_ofInt_uns (w : Bool) (x : Word) : low w x = BitVec.ofInt (size w) (uns w x) := by
  rw [← toNat_low, ofInt_toNat]

theorem low_eq_ofInt_sgn (w : Bool) (x : Word) : low w x = BitVec.ofInt (size w) (sgn w x) := by
  rw [← toInt_low, BitVec.ofInt_toInt]

theorem two_pow_ne_zero (n : Nat) : ((2 ^ n : Nat) : Int) ≠ 0 := Int.natCast_ne_zero.mpr (Nat.ne_of_gt (Nat.two_pow_pos n))

theorem low_ofInt (w : Bool) (v : Int) : low w (BitVec.ofInt 64 v) = BitVec.ofInt (size w) v := by
  have hdvd : ((2 ^ size w : Nat) : Int) ∣ (2 ^ 64 : Nat) := Int.natCast_dvd_natCast.mpr (Nat.pow_dvd_pow 2 (size_le w))
  apply BitVec.eq_of_toInt_eq
  rw [low, BitVec.toInt_setWidth, BitVec.toNat_ofInt, BitVec.toInt_ofInt, Int.toNat_of_nonneg (Int.emod_nonneg _ (two_pow_ne_zero _)),
    Int.bmod_def, Int.bmod_def, Int.emod_emod_of_dvd _ hdvd]

/-- An immediate at the size is its value modulo the size (R167). -/
theorem low_sx (w : Bool) {n : Nat} (i : BitVec n) : low w (sx i) = BitVec.ofInt (size w) i.toInt := by
  rw [sx, BitVec.signExtend, low_ofInt]

theorem low_false (x : Word) : low false x = x := BitVec.setWidth_eq x

/-- A result of 64 bits. -/
theorem res_false (v : Int) : res false v = BitVec.ofInt 64 v := by
  rw [res_eq]
  exact BitVec.setWidth_eq _

theorem sx_eq_res {n : Nat} (i : BitVec n) : sx i = res false i.toInt := by rw [← low_false (sx i), low_sx, res_false]; rfl

/-! ### Sums, differences and products -/

section Exact

variable {w : Bool} {x y : Word} {u v : Int}

theorem add_eq_res (hx : low w x = BitVec.ofInt _ u) (hy : low w y = BitVec.ofInt _ v) : atWidth w (fun _ x y => x + y) x y = res w (u + v) := by
  rw [atWidth_eq, hx, hy, ← BitVec.ofInt_add, res_eq]

theorem sub_eq_res (hx : low w x = BitVec.ofInt _ u) (hy : low w y = BitVec.ofInt _ v) : atWidth w (fun _ x y => x - y) x y = res w (u - v) := by
  rw [atWidth_eq, hx, hy, Int.sub_eq_add_neg, res_eq, BitVec.ofInt_add, BitVec.ofInt_neg, BitVec.sub_eq_add_neg]

theorem mul_eq_res (hx : low w x = BitVec.ofInt _ u) (hy : low w y = BitVec.ofInt _ v) : atWidth w (fun _ x y => x * y) x y = res w (u * v) := by
  rw [atWidth_eq, hx, hy, ← BitVec.ofInt_mul, res_eq]

end Exact

theorem mulhN_eq_ofInt (z : Bool) (n : Nat) (x y : BitVec n) : mulhN z n x y = BitVec.ofInt n (number z x * number z y / (2 ^ n : Nat)) := by
  cases z
  case true => rw [mulhN, if_pos rfl, number, number, if_pos rfl, if_pos rfl, ← Int.natCast_mul, ← Int.natCast_ediv, BitVec.ofInt_natCast]
  case false => rfl

theorem mulh_eq_res (z w : Bool) (x y : Word) : atWidth w (mulhN z) x y = res w (val z w x * val z w y / (2 ^ size w : Nat)) := by
  rw [atWidth_eq, mulhN_eq_ofInt, number_low, number_low, ← res_eq]

/-- `movh` shifts and adds: a product and a sum (R168). -/
theorem movh_eq_res (x : Word) (i : BitVec 18) : (x <<< 18) + i.setWidth 64 = res false (uns false x * (2 ^ 18 : Nat) + i.toNat) := by
  have hshift : low false (x <<< 18) = BitVec.ofInt _ (uns false x * (2 ^ 18 : Nat)) := by
    rw [low_false, ← toNat_low, low_false]
    exact shlN_eq_ofInt 64 x 18
  have himm : low false (i.setWidth 64) = BitVec.ofInt _ i.toNat := by
    rw [low_false, BitVec.ofInt_natCast, BitVec.ofNat_toNat]
    rfl
  exact add_eq_res hshift himm

/-- An instruction without sources that writes a constant. -/
theorem constant_does {s : State} {d : Reg} {v u : Word} {n : Nat} (hx : NoPrefix s) (hv : v = u) :
    Does s (issue {} s fun s => .next (s.putW d v n)) (wrote s d u n) := by
  subst hv
  exact issue_does { pfx := accepts_of_noPrefix hx _, srcs := by simp, long := by simp } rfl rfl rfl

/-- Settles O9: an operand at a size is a residue, in which the exact sum, difference or product may be taken. -/
theorem integerArithmetic : Obligations.IntegerArithmetic := by
  unfold Obligations.IntegerArithmetic
  intro s a b d g h w z i12 i18 i8 i5 hx
  simp only [Laws.exec_add, Laws.exec_sub, Laws.exec_mul, Laws.exec_mulh, Laws.exec_addC16, Laws.exec_subC16, Laws.exec_mulC16,
    Laws.exec_muli, Laws.exec_addi, Laws.exec_movh, Laws.exec_addiC16, Laws.exec_movi, Laws.exec_moviC16]
  have hlow := low_eq_ofInt_uns
  refine ⟨fun hf => ?_, fun hf => ?_, constant_does hx (sx_eq_res i18), constant_does hx (sx_eq_res i8)⟩
  · exact ⟨alu2_does hx hf (add_eq_res (hlow ..) (hlow ..)), alu2_does hx hf (sub_eq_res (hlow ..) (hlow ..)),
      alu2_does hx hf (mul_eq_res (hlow ..) (hlow ..)), alu2_does hx hf (mulh_eq_res ..),
      alu2_does hx hf (add_eq_res (hlow false _) (hlow false _)), alu2_does hx hf (sub_eq_res (hlow false _) (hlow false _)),
      alu2_does hx hf (mul_eq_res (hlow false _) (hlow false _))⟩
  · exact ⟨alu1_does hx hf (mul_eq_res (low_eq_ofInt_sgn ..) (low_sx ..)), alu1_does hx hf (add_eq_res (hlow false _) (low_sx ..)),
      alu1_does hx hf (movh_eq_res ..), alu1_does hx hf (add_eq_res (hlow false _) (low_sx ..))⟩

/-! ### Logic, bit by bit -/

theorem atWidth_eq_bitwise {w : Bool} {op : (n : Nat) → BitVec n → BitVec n → BitVec n} {bit : Bool → Bool → Bool} {x y : Word}
    {p q : Nat → Bool} (hbit : ∀ {n : Nat} (x y : BitVec n) {i : Nat}, i < n → (op n x y).getLsbD i = bit (x.getLsbD i) (y.getLsbD i))
    (hp : ∀ i < 64, x.getLsbD i = p i) (hq : ∀ i < 64, y.getLsbD i = q i) : atWidth w op x y = bitwise w fun n => bit (p n) (q n) := by
  rw [atWidth_eq]
  refine setWidth_eq_bitwise fun i hi => ?_
  have hlt := Nat.lt_of_lt_of_le hi (size_le w)
  rw [hbit _ _ hi, getLsbD_low w x hi, getLsbD_low w y hi, hp i hlt, hq i hlt]

/-- An immediate's bits: above its own they repeat its sign (R167). -/
theorem getLsbD_sx {n : Nat} (i : BitVec (n + 1)) : ∀ k < 64, (sx i).getLsbD k = i.getLsbD (min k n) := by
  intro k hk
  rw [sx, BitVec.getLsbD_signExtend]
  by_cases h : k < n + 1
  · simp [hk, h, Nat.min_eq_left (Nat.le_of_lt_succ h)]
  · simp [hk, h, Nat.min_eq_right (show n ≤ k by omega), BitVec.msb_eq_getLsbD_last]

section Logic

variable {w : Bool} {x y : Word} {p q : Nat → Bool} (hp : ∀ i < 64, x.getLsbD i = p i) (hq : ∀ i < 64, y.getLsbD i = q i)

include hp hq

theorem and_eq_bitwise : atWidth w (fun _ x y => x &&& y) x y = bitwise w fun n => p n && q n :=
  atWidth_eq_bitwise (bit := (· && ·)) (by simp) hp hq

theorem or_eq_bitwise : atWidth w (fun _ x y => x ||| y) x y = bitwise w fun n => p n || q n :=
  atWidth_eq_bitwise (bit := (· || ·)) (by simp) hp hq

theorem xor_eq_bitwise : atWidth w (fun _ x y => x ^^^ y) x y = bitwise w fun n => p n != q n :=
  atWidth_eq_bitwise (bit := (· != ·)) (by simp) hp hq

theorem andn_eq_bitwise : atWidth w (fun _ x y => x &&& ~~~y) x y = bitwise w fun n => p n && !q n :=
  atWidth_eq_bitwise (bit := fun p q => p && !q) (fun _ _ _ hi => by simp [hi]) hp hq

theorem orn_eq_bitwise : atWidth w (fun _ x y => x ||| ~~~y) x y = bitwise w fun n => p n || !q n :=
  atWidth_eq_bitwise (bit := fun p q => p || !q) (fun _ _ _ hi => by simp [hi]) hp hq

end Logic

/-- Settles O10: each operation acts on every bit by itself, of a register as it is and of an immediate as its sign extension. -/
theorem integerLogic : Obligations.IntegerLogic := by
  unfold Obligations.IntegerLogic
  intro s a b d g h w i12 i5 hx
  simp only [Laws.exec_and, Laws.exec_or, Laws.exec_xor, Laws.exec_andn, Laws.exec_orn, Laws.exec_andC16, Laws.exec_orC16, Laws.exec_xorC16,
    Laws.exec_andnC16, Laws.exec_andi, Laws.exec_ori, Laws.exec_xori, Laws.exec_andiC16]
  have hbits (r : Reg) : ∀ i < 64, (s.th.wv r).getLsbD i = (s.th.wv r).getLsbD i := fun _ _ => rfl
  refine ⟨fun hf => ?_, fun hf => ?_⟩
  · exact ⟨alu2_does hx hf (and_eq_bitwise (hbits a) (hbits b)), alu2_does hx hf (or_eq_bitwise (hbits a) (hbits b)),
      alu2_does hx hf (xor_eq_bitwise (hbits a) (hbits b)), alu2_does hx hf (andn_eq_bitwise (hbits a) (hbits b)),
      alu2_does hx hf (orn_eq_bitwise (hbits a) (hbits b)), alu2_does hx hf (and_eq_bitwise (w := false) (hbits a) (hbits b)),
      alu2_does hx hf (or_eq_bitwise (w := false) (hbits a) (hbits b)), alu2_does hx hf (xor_eq_bitwise (w := false) (hbits a) (hbits b)),
      alu2_does hx hf (andn_eq_bitwise (w := false) (hbits a) (hbits b))⟩
  · exact ⟨alu1_does hx hf (and_eq_bitwise (hbits a) (getLsbD_sx i12)), alu1_does hx hf (or_eq_bitwise (hbits a) (getLsbD_sx i12)),
      alu1_does hx hf (xor_eq_bitwise (hbits a) (getLsbD_sx i12)), alu1_does hx hf (and_eq_bitwise (w := false) (hbits a) (getLsbD_sx i5))⟩

/-! ### Numbers and their bits at a size -/

theorem takeW_eq_uns (w : Bool) (x : Word) : takeW w x = uns w x := by
  cases w
  case true => rfl
  case false => exact (Nat.mod_eq_of_lt x.isLt).symm

theorem widthOf_eq_size (w : Bool) : widthOf w = size w := rfl

theorem bitAt_eq_testBit (v i : Nat) : bitAt v i = v.testBit i := by
  rw [Nat.testBit_eq_decide_div_mod_eq]
  rfl

theorem testBit_uns (w : Bool) (x : Word) {i : Nat} (hi : i < size w) : (uns w x).testBit i = x.getLsbD i := by
  rw [uns, Nat.testBit_mod_two_pow, decide_eq_true hi, Bool.true_and, BitVec.testBit_toNat]

/-- A number is the two's complement value of its low bits. -/
theorem signed_eq_toInt (n v : Nat) : signed n v = (BitVec.ofNat n v).toInt := by
  cases n
  case zero => simp [signed, BitVec.of_length_zero, Nat.mod_one]
  case succ n =>
    have hhalf : v % 2 ^ (n + 1) < 2 ^ n ↔ 2 * (v % 2 ^ (n + 1)) < 2 ^ (n + 1) := by omega
    simp only [signed, Nat.add_sub_cancel, hhalf, BitVec.toInt_eq_toNat_cond, BitVec.toNat_ofNat]

theorem wrap_eq_toNat (n : Nat) (v : Int) : wrap n v = (BitVec.ofInt n v).toNat := (BitVec.toNat_ofInt v).symm

theorem signed_takeW (w : Bool) (x : Word) : signed (widthOf w) (takeW w x) = sgn w x := by
  rw [signed_eq_toInt, takeW_eq_uns, widthOf_eq_size, ← toNat_low, BitVec.ofNat_toNat, BitVec.setWidth_eq, toInt_low]

theorem res_eq_wrap (w : Bool) (v : Int) : BitVec.ofNat 64 (wrap (widthOf w) v) = res w v := rfl

/-! ### Counts (Table 7-1) -/

theorem leadingZeros_eq {v : Nat} : ∀ {n : Nat} {zero : Nat → Bool}, (∀ i < n, zero i = !v.testBit i) →
    leadingZeros v n = ((List.range n).reverse.takeWhile zero).length
  | 0, _, _ => rfl
  | n + 1, zero, h => by
    have ih := leadingZeros_eq fun i hi => h i (Nat.lt_succ_of_lt hi)
    rw [leadingZeros, bitAt_eq_testBit, List.range_succ, List.reverse_append, List.reverse_singleton, List.singleton_append,
      List.takeWhile_cons, h n (Nat.lt_succ_self n), ih]
    cases v.testBit n <;> simp [Nat.add_comm]

theorem trailingZeros_eq : ∀ {n v : Nat} {zero : Nat → Bool}, (∀ i < n, zero i = !v.testBit i) →
    trailingZeros v n = ((List.range n).takeWhile zero).length
  | 0, _, _, _ => rfl
  | n + 1, v, zero, h => by
    have ih : trailingZeros (v / 2) n = ((List.range n).takeWhile (zero ∘ Nat.succ)).length :=
      trailingZeros_eq fun i hi => by rw [Function.comp, h _ (Nat.succ_lt_succ hi), Nat.testBit_succ]
    rw [trailingZeros, List.range_succ_eq_map, List.takeWhile_cons, List.takeWhile_map, h 0 (Nat.succ_pos n), ih, Nat.testBit_zero]
    by_cases hodd : v % 2 = 1 <;> simp [hodd, Nat.add_comm]

theorem popcount_eq : ∀ {n v : Nat} {one : Nat → Bool}, (∀ i < n, one i = v.testBit i) → popcount v n = ((List.range n).filter one).length
  | 0, _, _, _ => rfl
  | n + 1, v, one, h => by
    have ih : popcount (v / 2) n = ((List.range n).filter (one ∘ Nat.succ)).length :=
      popcount_eq fun i hi => by rw [Function.comp, h _ (Nat.succ_lt_succ hi), Nat.testBit_succ]
    rw [popcount, List.range_succ_eq_map, List.filter_cons, List.filter_map, h 0 (Nat.succ_pos n), ih, Nat.testBit_zero]
    rcases Nat.mod_two_eq_zero_or_one v with heven | hodd
    · simp [heven]
    · simp [hodd, Nat.add_comm]

section Counts

variable (w : Bool) (x : Word)

theorem clz_eq : leadingZeros (takeW w x) (widthOf w) = ((List.range (size w)).reverse.takeWhile fun n => !x.getLsbD n).length :=
  leadingZeros_eq fun i hi => by rw [takeW_eq_uns, testBit_uns w x hi]

theorem ctz_eq : trailingZeros (takeW w x) (widthOf w) = ((List.range (size w)).takeWhile fun n => !x.getLsbD n).length :=
  trailingZeros_eq fun i hi => by rw [takeW_eq_uns, testBit_uns w x hi]

theorem popc_eq : popcount (takeW w x) (widthOf w) = ((List.range (size w)).filter x.getLsbD).length :=
  popcount_eq fun i hi => by rw [takeW_eq_uns, testBit_uns w x hi]

end Counts

/-! ### Extensions, extremes and moves (Table 7-1) -/

theorem sextVal_eq_bitwise {sz : BitVec 2} (hsz : sz ≠ 3) (w : Bool) (x : Word) :
    sextVal sz w x = bitwise w fun n => x.getLsbD (min n (8 * 2 ^ sz.toNat - 1)) := by
  have hfield : 8 * 2 ^ sz.toNat ≤ size w := by decide +revert
  have hpos : 0 < 8 * 2 ^ sz.toNat := Nat.mul_pos (by decide) (Nat.two_pow_pos _)
  have hval : sextVal sz w x = ((x.setWidth (8 * 2 ^ sz.toNat)).signExtend (size w)).setWidth 64 := by
    rw [sextVal, signed_eq_toInt, wrap_eq_toNat, BitVec.ofNat_toNat, ← BitVec.signExtend, BitVec.ofNat_toNat]
    rfl
  rw [hval]
  refine setWidth_eq_bitwise fun i hi => ?_
  generalize 8 * 2 ^ sz.toNat = k at hfield hpos ⊢
  rw [BitVec.getLsbD_signExtend, decide_eq_true hi, Bool.true_and, BitVec.msb_eq_getLsbD_last]
  by_cases h : i < k
  · rw [if_pos h, BitVec.getLsbD_setWidth, decide_eq_true h, Bool.true_and, Nat.min_eq_left (Nat.le_sub_one_of_lt h)]
  · rw [if_neg h, BitVec.getLsbD_setWidth, decide_eq_true (Nat.sub_lt hpos Nat.one_pos), Bool.true_and, Nat.min_eq_right (by omega)]

theorem zextVal_eq_bitwise (sz : BitVec 2) (w : Bool) (x : Word) :
    zextVal sz w x = bitwise w fun n => decide (n < 8 * 2 ^ sz.toNat) && x.getLsbD n := by
  apply BitVec.eq_of_getLsbD_eq
  intro i hi
  rw [getLsbD_bitwise, zextVal, BitVec.getLsbD_ofNat, Nat.testBit_mod_two_pow, takeW_eq_uns, uns, Nat.testBit_mod_two_pow, BitVec.testBit_toNat,
    decide_eq_true hi, Bool.true_and, Bool.and_left_comm]

theorem ofInt_number (z : Bool) {n : Nat} (x : BitVec n) : BitVec.ofInt n (number z x) = x := by
  cases z
  case true => exact ofInt_toNat x
  case false => exact BitVec.ofInt_toInt

theorem less_iff_number (z : Bool) {n : Nat} (x y : BitVec n) : (if z then x.ult y else x.slt y) = true ↔ number z x < number z y := by
  cases z
  case true => simp [number, BitVec.ult]
  case false => simp [number, BitVec.slt]

theorem minN_eq_ofInt (z : Bool) (n : Nat) (x y : BitVec n) : minN z n x y = BitVec.ofInt n (min (number z x) (number z y)) := by
  simp only [minN, less_iff_number]
  split
  · rw [Int.min_eq_right (by omega), ofInt_number]
  · rw [Int.min_eq_left (by omega), ofInt_number]

theorem maxN_eq_ofInt (z : Bool) (n : Nat) (x y : BitVec n) : maxN z n x y = BitVec.ofInt n (max (number z x) (number z y)) := by
  simp only [maxN, less_iff_number]
  split
  · rw [Int.max_eq_right (by omega), ofInt_number]
  · rw [Int.max_eq_left (by omega), ofInt_number]

theorem min_eq_res (z w : Bool) (x y : Word) : atWidth w (minN z) x y = res w (min (val z w x) (val z w y)) := by
  rw [atWidth_eq, minN_eq_ofInt, number_low, number_low, ← res_eq]

theorem max_eq_res (z w : Bool) (x y : Word) : atWidth w (maxN z) x y = res w (max (val z w x) (val z w y)) := by
  rw [atWidth_eq, maxN_eq_ofInt, number_low, number_low, ← res_eq]

theorem absVal_eq_res (w : Bool) (x : Word) : absVal w x = res w (sgn w x).natAbs := by rw [absVal, signed_takeW, res_eq_wrap]

theorem mov_eq_res (w : Bool) (x : Word) : BitVec.ofNat 64 (takeW w x) = res w (uns w x) := by
  rw [takeW_eq_uns, res_eq, ← low_eq_ofInt_uns, ← toNat_low, BitVec.ofNat_toNat]

/-- Settles O12: a count runs over the bits at the size, an extension repeats or drops bits, and an extreme compares the values. -/
theorem integerSelect : Obligations.IntegerSelect := by
  unfold Obligations.IntegerSelect
  intro s a b d g h w z sz p hx hsz
  simp only [Laws.exec_clz, Laws.exec_ctz, Laws.exec_popc, Laws.exec_sext, Laws.exec_zext, Laws.exec_abs, Laws.exec_mov, Laws.exec_movC16,
    Laws.exec_min, Laws.exec_max, Laws.exec_sel]
  refine ⟨fun hf => ?_, fun hf => ?_⟩
  · exact ⟨alu1_does hx hf (congrArg _ (clz_eq ..)), alu1_does hx hf (congrArg _ (ctz_eq ..)), alu1_does hx hf (congrArg _ (popc_eq ..)),
      alu1_does hx hf (sextVal_eq_bitwise hsz ..), alu1_does hx hf (zextVal_eq_bitwise ..), alu1_does hx hf (absVal_eq_res ..),
      alu1_does hx hf (mov_eq_res ..), alu1_does hx hf rfl⟩
  · exact ⟨alu2_does hx hf (min_eq_res ..), alu2_does hx hf (max_eq_res ..),
      issue_does { pfx := accepts_of_noPrefix hx _, srcs := full_of_sources hf, long := by simp } rfl rfl rfl⟩

/-! ### Bit-fields (R166) -/

/-- A value taken to another width: its bits, then its sign or 0 as Z says. -/
theorem getLsbD_ofInt_number (z : Bool) {n m i : Nat} (x : BitVec n) (hi : i < m) :
    (BitVec.ofInt m (number z x)).getLsbD i = if i < n then x.getLsbD i else !z && x.msb := by
  cases z
  case true =>
    have hval : BitVec.ofInt m (number true x) = x.setWidth m := by rw [number, if_pos rfl, BitVec.ofInt_natCast, BitVec.ofNat_toNat]
    rw [hval, BitVec.getLsbD_setWidth]
    by_cases h : i < n
    · simp [hi, h]
    · simp [h, BitVec.getLsbD_of_ge x i (Nat.le_of_not_lt h)]
  case false =>
    have hval : BitVec.ofInt m (number false x) = x.signExtend m := rfl
    rw [hval, BitVec.getLsbD_signExtend]
    simp [hi]

/-- A value shifted right as Z says: zeros or the sign follow. -/
def shifted (z : Bool) {n : Nat} (x : BitVec n) (k : Nat) : BitVec n := if z then shrN n x k else sarN n x k

theorem number_shifted (z : Bool) {n : Nat} (x : BitVec n) (k : Nat) : number z (shifted z x k) = number z x / (2 ^ k : Nat) := by
  cases z
  case true => simp [number, shifted, shrN, Nat.shiftRight_eq_div_pow]
  case false => simp [number, shifted, sarN, BitVec.toInt_sshiftRight, Int.shiftRight_eq_div_pow]

theorem getLsbD_shifted (z : Bool) {n i : Nat} (x : BitVec n) (k : Nat) (hi : i < n) :
    (shifted z x k).getLsbD i = if k + i < n then x.getLsbD (k + i) else !z && x.msb := by
  cases z
  case true =>
    by_cases h : k + i < n
    · simp [shifted, shrN, h]
    · simp [shifted, shrN, h, BitVec.getLsbD_of_ge x _ (Nat.le_of_not_lt h)]
  case false =>
    rw [shifted, if_neg Bool.false_ne_true, sarN, BitVec.getLsbD_sshiftRight]
    simp [Nat.not_le_of_lt hi]

theorem msb_shifted (z : Bool) {n : Nat} (x : BitVec n) (k : Nat) : (!z && (shifted z x k).msb) = (!z && x.msb) := by
  cases z
  case true => rfl
  case false => simp [shifted, sarN, BitVec.msb_sshiftRight]

/-- The field of a value at a position. -/
def field (z : Bool) {n : Nat} (x : BitVec n) (pos len : Nat) : BitVec len := BitVec.ofInt len (number z x / (2 ^ pos : Nat))

theorem getLsbD_field (z : Bool) {n i : Nat} (x : BitVec n) (pos : Nat) {len : Nat} (hi : i < len) :
    (field z x pos len).getLsbD i = if pos + i < n then x.getLsbD (pos + i) else !z && x.msb := by
  rw [field, ← number_shifted, getLsbD_ofInt_number z _ hi, msb_shifted]
  by_cases h : i < n
  · rw [if_pos h, getLsbD_shifted z x pos h]
  · rw [if_neg h, if_neg (by omega)]

theorem bitX_eq (z w : Bool) (x : Word) (i : Nat) : bitX z w x i = if i < size w then (low w x).getLsbD i else !z && (low w x).msb := by
  have hpos := size_pos w
  rw [bitX, BitVec.msb_eq_getLsbD_last, getLsbD_low w x (Nat.sub_lt hpos Nat.one_pos)]
  by_cases h : i < size w
  · rw [if_pos h, if_pos h, getLsbD_low w x h]
  · rw [if_neg h, if_neg h]

theorem number_ofInt (z : Bool) (len : Nat) (v : Int) : number z (BitVec.ofInt len v) =
    (let f := v % (2 ^ len : Nat)
     if !z && 0 < len && (2 ^ (len - 1) : Nat) ≤ f then f - (2 ^ len : Nat) else f) := by
  have hnonneg : 0 ≤ v % (2 ^ len : Nat) := Int.emod_nonneg _ (two_pow_ne_zero _)
  have hlift : ((BitVec.ofInt len v).toNat : Int) = v % (2 ^ len : Nat) := by rw [BitVec.toNat_ofInt, Int.toNat_of_nonneg hnonneg]
  cases z
  case true => exact hlift
  case false =>
    cases len
    case zero => simp [number, BitVec.of_length_zero]
    case succ k =>
      have hhalf : 2 * (BitVec.ofInt (k + 1) v).toNat < 2 ^ (k + 1) ↔ ¬ (2 ^ k : Nat) ≤ v % (2 ^ (k + 1) : Nat) := by
        rw [← hlift, Int.ofNat_le]
        omega
      simp only [number, BitVec.toInt_eq_toNat_cond, hhalf, hlift, ite_not, Bool.false_eq_true, if_false, Bool.not_false, Nat.succ_pos,
        decide_true, Bool.and_self, Bool.true_and, Nat.add_sub_cancel, decide_eq_true_eq]

theorem bextVal_eq (z w : Bool) (x y : Word) :
    bextVal z w x y = (BitVec.ofInt (size w) (number z (field z (low w x) (y.toNat % 256) (y.toNat / 256 % 256)))).setWidth 64 := by
  have hval : (if z then (takeW w x : Int) else signed (widthOf w) (takeW w x)) = number z (low w x) := by
    rw [signed_takeW, takeW_eq_uns, number_low, val]
  have hpos : bits y.toNat 0 8 = y.toNat % 256 := by simp [bits]
  simp only [bextVal, hval, hpos, field, number_ofInt, ← res_eq]
  rfl

theorem bextVal_eq_bitwise (z w : Bool) (x y : Word) :
    bextVal z w x y = bitwise w fun n =>
      if n < y.toNat / 256 % 256 then bitX z w x (y.toNat % 256 + n)
      else !z && decide (0 < y.toNat / 256 % 256) && bitX z w x (y.toNat % 256 + y.toNat / 256 % 256 - 1) := by
  rw [bextVal_eq]
  generalize y.toNat % 256 = pos
  generalize y.toNat / 256 % 256 = len
  refine setWidth_eq_bitwise fun i hi => ?_
  rw [getLsbD_ofInt_number z _ hi]
  by_cases h : i < len
  · rw [if_pos h, if_pos h, getLsbD_field z _ pos h, bitX_eq]
  · rw [if_neg h, if_neg h, BitVec.msb_eq_getLsbD_last, Bool.and_assoc]
    by_cases hlen : 0 < len
    · rw [getLsbD_field z _ pos (Nat.sub_lt hlen Nat.one_pos), bitX_eq, Nat.add_sub_assoc hlen, decide_eq_true hlen, Bool.true_and]
    · obtain rfl : len = 0 := Nat.eq_zero_of_not_pos hlen
      simp

/-- The mask of a field: `len` ones from `pos` on, cut at the size. -/
theorem testBit_mask (n pos len i : Nat) :
    ((2 ^ len - 1) * 2 ^ pos % 2 ^ n).testBit i = (decide (i < n) && decide (pos ≤ i ∧ i < pos + len)) := by
  have hiff : pos ≤ i ∧ i - pos < len ↔ pos ≤ i ∧ i < pos + len := by omega
  rw [Nat.testBit_mod_two_pow, Nat.testBit_mul_two_pow, Nat.testBit_two_pow_sub_one, ← Bool.decide_and, decide_eq_decide.mpr hiff]

theorem binsVal_eq_bitwise (w : Bool) (x y old : Word) :
    binsVal w x y old = bitwise w fun n =>
      if y.toNat % 256 ≤ n ∧ n < y.toNat % 256 + y.toNat / 256 % 256 then x.getLsbD (n - y.toNat % 256) else old.getLsbD n := by
  have hpos : bits y.toNat 0 8 = y.toNat % 256 := by simp [bits]
  have hlen : bits y.toNat 8 8 = y.toNat / 256 % 256 := rfl
  simp only [binsVal, hpos, hlen, takeW_eq_uns, widthOf_eq_size]
  generalize y.toNat % 256 = pos
  generalize y.toNat / 256 % 256 = len
  apply BitVec.eq_of_getLsbD_eq
  intro i hi
  rw [getLsbD_bitwise, BitVec.getLsbD_or, BitVec.getLsbD_and, BitVec.getLsbD_and, BitVec.getLsbD_not]
  simp only [BitVec.getLsbD_ofNat, decide_eq_true hi, Bool.true_and, testBit_mask, Nat.testBit_mul_two_pow]
  by_cases hsize : i < size w
  · rw [testBit_uns w old hsize, testBit_uns w x (by omega)]
    by_cases hin : pos ≤ i ∧ i < pos + len
    · simp [hsize, hin]
    · simp [hsize, hin]
  · rw [uns, Nat.testBit_mod_two_pow]
    simp [hsize]

/-- Settles O13: an extracted field is the value shifted right, cut at its length and extended; an inserted one replaces the bits under
its mask. -/
theorem bitFields : Obligations.BitFields := by
  unfold Obligations.BitFields
  intro s z w g h b a d hx hf
  rw [Laws.exec_bext, Laws.exec_bins]
  refine ⟨alu2_does hx hf (bextVal_eq_bitwise ..), fun hd => ?_⟩
  have hsrcs : Full s [a.toNat, b.toNat, d.toNat] := by simpa [Full, or_imp, forall_and, and_assoc] using And.intro hf hd
  rw [← binsVal_eq_bitwise]
  exact issue_does { pfx := accepts_of_noPrefix hx _, srcs := full_of_sources hsrcs, long := by simp } rfl rfl rfl

end Sys2Proof.Proofs

/-! SUPPORT. Moves between the register files (07 R170) and jumps to a register's value (07 R182). -/

namespace Sys2Proof.Proofs

open Sys2Proof Sys2Proof.Machine Sys2Proof.Claims

set_option Elab.async false

/-! ### Moves between the register files -/

/-- Extension registers for which no fill is outstanding keep nothing from acting. -/
theorem issue_eout {q : Issue} {s : State} {act : State → Out} (h : ∀ r ∈ q.eout, s.th.epend.getLsbD r = false) :
    issue q s act = issue { q with eout := [] } s act := by
  simp only [issue, Laws.lowestReg_filter_none h]
  rfl

/-- Settles O15: `xset` is short once no fill of its destination is outstanding, and `xget` reads the other file. -/
theorem extensionMoves : Obligations.ExtensionMoves := by
  unfold Obligations.ExtensionMoves
  intro s h a d e hx he
  rw [Laws.exec_xset, Laws.exec_xget]
  refine ⟨fun hf hpend => ?_, fun hf => ?_⟩
  · have hset : s.th.e.setIfInBounds e.toNat (s.th.wv a) = s.th.e.set e.toNat (s.th.wv a) he :=
      Vector.toArray_inj.mp (by simp [Array.setIfInBounds, he])
    have hstate : (({ s with th := s.th.setE e.toNat (s.th.wv a) } : State).retire 4) = { passed s 4 with th := { (passed s 4).th with
        e := s.th.e.setIfInBounds e.toNat (s.th.wv a), fee := s.th.fee ||| (1#4 <<< e.toNat) } } := by
      rw [hset, Ctx.setE, dif_pos he]
      rfl
    rw [← hstate, execXset, issue_eout (by simpa using hpend)]
    exact issue_does { pfx := accepts_of_noPrefix hx _, srcs := full_of_sources hf, long := by simp } rfl rfl rfl
  · exact issue_does (q := { srcs := [(8 + e.toNat, h)] })
      { pfx := accepts_of_noPrefix hx _, srcs := full_of_sources hf, long := by simp } rfl rfl rfl

/-! ### Jumps -/

theorem getLsbD_zero_eq (t : Word) : t.getLsbD 0 = decide (t.toNat % 2 = 1) := by
  rw [← BitVec.testBit_toNat, Nat.testBit_zero]

theorem high_bits_eq (t : Word) : (t.extractLsb' 57 7 != 0) = decide (2 ^ 57 ≤ t.toNat) := by
  have hlt := t.isLt
  have hhigh : (t.extractLsb' 57 7).toNat = t.toNat / 2 ^ 57 % 2 ^ 7 := by rw [BitVec.extractLsb'_toNat, Nat.shiftRight_eq_div_pow]
  rw [Bool.eq_iff_iff, bne_iff_ne, decide_eq_true_eq, ne_eq, ← BitVec.toNat_inj, hhigh]
  change ¬ t.toNat / 2 ^ 57 % 2 ^ 7 = 0 ↔ _
  omega

section Jump

variable {n : Nat} {h : Bool} {a : Reg} {s : State} (hx : NoPrefix s) (hf : Full s [a.toNat])

include hx hf

/-- A value that is a pc is the new pc, after the link has been written. -/
theorem jump_does (link : Bool) (heven : (s.th.wv a).toNat % 2 = 0) (hlt : (s.th.wv a).toNat < 2 ^ 57) :
    Does s (jump n link h a s) (if link then
        { wrote s 7 ((s.th.pc + BitVec.ofNat 57 n).setWidth 64) n with
          th := { (wrote s 7 ((s.th.pc + BitVec.ofNat 57 n).setWidth 64) n).th with pc := (s.th.wv a).setWidth 57 } }
      else jumped s ((s.th.wv a).setWidth 57)) := by
  have hodd : (s.th.wv a).getLsbD 0 = false := by rw [getLsbD_zero_eq, heven]; rfl
  have hhigh : ((s.th.wv a).extractLsb' 57 7 != 0) = false := by rw [high_bits_eq, decide_eq_false (Nat.not_le_of_lt hlt)]
  refine issue_does { pfx := accepts_of_noPrefix hx _, srcs := full_of_sources hf, long := by simp } ?_ ?_ ?_
  · simp only [hodd, hhigh, Bool.false_eq_true, if_false]
    cases link <;> rfl
  · cases link <;> rfl
  · cases link <;> rfl

theorem jump_odd (link : Bool) (hpair : Unpaired s) (hodd : (s.th.wv a).toNat % 2 = 1) :
    jump n link h a s = .next (s.trapAt 5 (s.th.wv a) s.th.pc) := by
  rw [jump, Laws.issue_plain hpair hx (full_of_sources (l := [(a.toNat, h)]) hf) (by simp) (by simp)]
  simp only [getLsbD_zero_eq, hodd, decide_true, if_true, Laws.fault_unpaired hpair]

theorem jump_high (link : Bool) (hpair : Unpaired s) (heven : (s.th.wv a).toNat % 2 = 0) (hhigh : 2 ^ 57 ≤ (s.th.wv a).toNat) :
    jump n link h a s = .next (s.trapAt 6 (s.th.wv a) s.th.pc) := by
  rw [jump, Laws.issue_plain hpair hx (full_of_sources (l := [(a.toNat, h)]) hf) (by simp) (by simp)]
  simp only [getLsbD_zero_eq, high_bits_eq, heven, decide_eq_true hhigh, Nat.zero_ne_one, decide_false, Bool.false_eq_true, if_false, if_true,
    Laws.fault_unpaired hpair]

end Jump

/-- Settles O19: the three forms are one jump, with a link or without; the parity of the value is tested before its range. -/
theorem jumps : Obligations.Jumps := by
  unfold Obligations.Jumps
  intro s h a hx hf
  rw [Laws.exec_jr, Laws.exec_jrC16, Laws.exec_jrL]
  refine ⟨fun heven hlt => ?_, fun hodd hpair => ?_, fun heven hhigh hpair => ?_⟩
  · exact ⟨jump_does hx hf false heven hlt, jump_does hx hf false heven hlt, jump_does hx hf true heven hlt⟩
  · exact ⟨jump_odd hx hf _ hpair hodd, jump_odd hx hf _ hpair hodd, jump_odd hx hf _ hpair hodd⟩
  · exact ⟨jump_high hx hf _ hpair heven hhigh, jump_high hx hf _ hpair heven hhigh, jump_high hx hf _ hpair heven hhigh⟩

end Sys2Proof.Proofs

/-! SUPPORT. Packed arithmetic, sums, comparisons, selections and rearrangements (03 R79; 07 R172 to R174): a packed operation is one on
each lane, and its exact result is taken modulo the width of a lane. -/

namespace Sys2Proof.Proofs

open Sys2Proof Sys2Proof.Machine Sys2Proof.Claims

set_option Elab.async false

/-! ### Lanes as integers -/

theorem laneW_eq (l : BitVec 2) : laneW l = lsize l := rfl

theorem lane_eq (w i : Nat) (x : Word) : lane w i x = laneAt w x i := rfl

theorem lsize_pos (l : BitVec 2) : 0 < lsize l := by decide +revert

theorem laneAt_lt (w : Nat) (x : Word) (i : Nat) : laneAt w x i < 2 ^ w := Nat.mod_lt _ (Nat.two_pow_pos w)

theorem laneVal_eq (z : Bool) (w : Nat) (x : Word) (i : Nat) : laneVal z w (laneAt w x i) = laneInt z w x i := by
  cases z
  case true => rfl
  case false => rw [laneVal, if_neg Bool.false_ne_true, signed_eq_toInt, ← laneVec, toInt_laneVec]

theorem wrap_mod (w : Nat) (v : Int) : wrap w v % 2 ^ w = (v % (2 ^ w : Nat)).toNat := by
  rw [wrap_eq_toNat, Nat.mod_eq_of_lt (BitVec.isLt _), BitVec.toNat_ofInt]

/-- Read signed or unsigned, a lane is the same modulo its width. -/
theorem laneInt_emod (z z' : Bool) (w : Nat) (x : Word) (i : Nat) : laneInt z w x i % (2 ^ w : Nat) = laneInt z' w x i % (2 ^ w : Nat) := by
  have hlane (z : Bool) : laneInt z w x i % (2 ^ w : Nat) = laneAt w x i % (2 ^ w : Nat) := by
    unfold laneInt
    split
    · rfl
    · exact Int.sub_emod_right ..
  exact (hlane z).trans (hlane z').symm

/-- Clamping between bounds in order is one minimum and one maximum. -/
theorem clampI_eq {v lo hi : Int} (h : lo ≤ hi) : clampI v lo hi = min (max v lo) hi := by
  unfold clampI
  split
  · rw [Int.min_eq_right (by omega)]
  · split <;> omega

theorem intMin_le_intMax (s : Bool) (w : Nat) : intMin s w ≤ intMax s w := by
  have hwide : 1 ≤ 2 ^ w := Nat.one_le_two_pow
  have hhalf : 1 ≤ 2 ^ (w - 1) := Nat.one_le_two_pow
  cases s <;> simp only [intMin, intMax, Bool.false_eq_true, if_true, if_false] <;> omega

theorem clampI_eq_sat (z : Bool) (w : Nat) (v : Int) : clampI v (intMin (!z) w) (intMax (!z) w) = sat z w v := by
  rw [clampI_eq (intMin_le_intMax ..)]
  cases z <;> rfl

/-! ### Operations on every lane (Table 7-3) -/

section Operations

variable {z : Bool} {l : BitVec 2} {x y : Word} {f : Nat → Int}

theorem mapWrap_eq_lanewise {op : Nat → Nat → Nat → Int}
    (h : ∀ i, op i (laneAt (lsize l) x i) (laneAt (lsize l) y i) % (2 ^ lsize l : Nat) = f i % (2 ^ lsize l : Nat)) :
    mapLanes l (fun i u v => wrap (laneW l) (op i u v)) x y = lanewise (lsize l) f :=
  mapLanes_eq_lanewise fun i => by rw [laneW_eq, wrap_mod, h i]

theorem laneWrap_eq_lanewise {op : Int → Int → Int}
    (h : ∀ i, op (laneInt z (lsize l) x i) (laneInt z (lsize l) y i) % (2 ^ lsize l : Nat) = f i % (2 ^ lsize l : Nat)) :
    laneWrap z l op x y = lanewise (lsize l) f := by
  refine mapWrap_eq_lanewise (op := fun _ u v => op (laneVal z (laneW l) u) (laneVal z (laneW l) v)) fun i => ?_
  rw [laneW_eq, laneVal_eq, laneVal_eq]
  exact h i

theorem laneSat_eq_lanewise (op : Int → Int → Int) : laneSat z l op x y =
    lanewise (lsize l) fun i => sat z (lsize l) (op (laneInt z (lsize l) x i) (laneInt z (lsize l) y i)) := by
  refine mapWrap_eq_lanewise (op := fun _ u v => clampI (op (laneVal z (laneW l) u) (laneVal z (laneW l) v)) _ _) fun i => ?_
  rw [laneW_eq, laneVal_eq, laneVal_eq, clampI_eq_sat]

theorem pclipVal_eq_lanewise : pclipVal z l x y =
    lanewise (lsize l) fun i => min (max (laneInt z (lsize l) x i) (laneInt z (lsize l) y 0)) (laneInt z (lsize l) y 1) := by
  refine mapWrap_eq_lanewise (y := y) (op := fun _ u _ => min (max (laneVal z (laneW l) u) _) _) fun i => ?_
  simp only [laneW_eq, lane_eq, laneVal_eq]

end Operations

/-- Settles O21: wrapping operations agree modulo the width of a lane whether its lanes are read signed or unsigned; the others read them
as Z says. -/
theorem packedArithmetic : Obligations.PackedArithmetic := by
  unfold Obligations.PackedArithmetic
  intro s z g h l b a d hx _
  simp only [Laws.exec_padd, Laws.exec_psub, Laws.exec_pmul, Laws.exec_padds, Laws.exec_psubs, Laws.exec_pmulh, Laws.exec_pavg, Laws.exec_pmin,
    Laws.exec_pmax, Laws.exec_pclip, Laws.exec_pabs]
  have hread (x : Word) (i : Nat) := laneInt_emod false z (lsize l) x i
  refine ⟨fun hf => ?_, fun hf => alu1_does hx hf (laneSat_eq_lanewise ..)⟩
  exact ⟨alu2_does hx hf (laneWrap_eq_lanewise fun i => by rw [Int.add_emod, hread, hread, ← Int.add_emod]),
    alu2_does hx hf (laneWrap_eq_lanewise fun i => by rw [Int.sub_emod, hread, hread, ← Int.sub_emod]),
    alu2_does hx hf (laneWrap_eq_lanewise fun i => by rw [Int.mul_emod, hread, hread, ← Int.mul_emod]),
    alu2_does hx hf (laneSat_eq_lanewise ..), alu2_does hx hf (laneSat_eq_lanewise ..),
    alu2_does hx hf (laneWrap_eq_lanewise fun _ => rfl), alu2_does hx hf (laneWrap_eq_lanewise fun _ => rfl),
    alu2_does hx hf (laneWrap_eq_lanewise fun _ => rfl), alu2_does hx hf (laneWrap_eq_lanewise fun _ => rfl),
    alu2_does hx hf pclipVal_eq_lanewise⟩

/-! ### Registers from their lanes -/

/-- A register depends on the lanes that it has. -/
theorem lanewise_congr {w : Nat} {f g : Nat → Int} (h : ∀ i < 64 / w, f i = g i) : lanewise w f = lanewise w g := by
  have hlanes : ∀ n ≤ 64 / w, ofLaneInts w f n = ofLaneInts w g n := by
    intro n
    induction n with
    | zero => exact fun _ => rfl
    | succ n ih => exact fun hn => by rw [ofLaneInts, ofLaneInts, ih (Nat.le_of_succ_le hn), h n hn]
  rw [lanewise, lanewise, hlanes _ (Nat.le_refl _)]

theorem ofLanes_wrap_eq_lanewise {w n : Nat} {f : Nat → Int} (hn : n = 64 / w) :
    BitVec.ofNat 64 (ofLanes w ((List.range n).map fun i => wrap w (f i))) = lanewise w f := by
  rw [ofLanes_range_eq_ofLaneInts (fun i => wrap_mod w (f i)), hn, lanewise]

/-! ### Sums of lanes (R173) -/

theorem pdotVal_eq_lanewise (z : Bool) (l : BitVec 2) (x y : Word) : pdotVal z l x y =
    lanewise (2 * lsize l) fun j => laneInt z (lsize l) x (2 * j) * laneInt z (lsize l) y (2 * j) +
      laneInt z (lsize l) x (2 * j + 1) * laneInt z (lsize l) y (2 * j + 1) := by
  have hlanes : laneN l / 2 = 64 / (2 * lsize l) := by decide +revert
  simp only [pdotVal, laneW_eq, lane_eq, laneVal_eq]
  exact ofLanes_wrap_eq_lanewise hlanes

theorem psadVal_eq (z : Bool) (l : BitVec 2) (x y : Word) : psadVal z l x y =
    BitVec.ofNat 64 ((List.range (64 / lsize l)).map fun i => (laneInt z (lsize l) x i - laneInt z (lsize l) y i).natAbs).sum := by
  simp only [psadVal, laneW_eq, lane_eq, laneVal_eq, laneN_eq]

/-! ### Comparisons and selections by a mask byte (R140, R173) -/

theorem getLsbD_maskByte (pw : Word) (k : Reg) (i : Nat) : (maskByte pw k).getLsbD i = (decide (i < 8) && pw.getLsbD (8 * k.toNat + i)) :=
  BitVec.getLsbD_extractLsb' ..

theorem getLsbD_setMaskByte (pw : Word) (k : Reg) (b : Byte) {i : Nat} (hi : i < 64) :
    (setMaskByte pw k b).getLsbD i = if i / 8 = k.toNat then b.getLsbD (i % 8) else pw.getLsbD i := by
  have hk : k.toNat < 8 := k.isLt
  have hones (j : Nat) : (0xFF#64).getLsbD j = decide (j < 8) := by
    rw [show (0xFF#64) = (BitVec.allOnes 8).setWidth 64 from rfl, BitVec.getLsbD_setWidth, BitVec.getLsbD_allOnes]
    by_cases h : j < 8
    · simp [h, show j < 64 by omega]
    · simp [h]
  rw [setMaskByte, BitVec.getLsbD_or, BitVec.getLsbD_and, BitVec.getLsbD_not, BitVec.getLsbD_shiftLeft, BitVec.getLsbD_shiftLeft,
    BitVec.getLsbD_setWidth, hones]
  by_cases hin : i / 8 = k.toNat
  · have hindex : i - 8 * k.toNat = i % 8 := by omega
    have habove : ¬ i < 8 * k.toNat := by omega
    have hlow : i % 8 < 8 := Nat.mod_lt _ (by decide)
    simp [hi, hin, hindex, habove, hlow, show i % 8 < 64 by omega]
  · by_cases hbelow : i < 8 * k.toNat
    · simp [hi, hin, hbelow]
    · have hpast : ¬ i - 8 * k.toNat < 8 := by omega
      simp [hi, hin, hpast, BitVec.getLsbD_of_ge b _ (Nat.le_of_not_lt hpast)]

theorem intCond_eq_condition {c : BitVec 3} (hc : c.toNat < 6) {n : Nat} (x y : BitVec n) :
    intCond c x y = condition c x.toNat y.toNat x.toInt y.toInt := by
  have hcodes : c = 0 ∨ c = 1 ∨ c = 2 ∨ c = 3 ∨ c = 4 ∨ c = 5 := by decide +revert
  have heq : (x == y) = (x.toNat == y.toNat) := by rw [Bool.eq_iff_iff, beq_iff_eq, beq_iff_eq, BitVec.toNat_eq]
  rcases hcodes with rfl | rfl | rfl | rfl | rfl | rfl
  · exact heq
  · exact congrArg not heq
  · rfl
  · exact decide_not.symm.trans (decide_eq_decide.mpr Int.not_lt)
  · rfl
  · exact decide_not.symm.trans (decide_eq_decide.mpr Nat.not_lt)

theorem sum_pow_eq_ofBits (f : Nat → Bool) : ∀ n, ((List.range n).map fun k => if f k then 2 ^ k else 0).sum = ofBits f n
  | 0 => rfl
  | n + 1 => by rw [List.range_succ, List.map_append, List.sum_append, sum_pow_eq_ofBits f n, ofBits]; simp

theorem pcmpVal_eq {c : BitVec 3} (hc : c.toNat < 6) (l : BitVec 2) (x y : Word) {i : Nat} (hi : i < 8) :
    (pcmpVal c l x y).getLsbD i = condition c (laneAt (lsize l) x (i * 8 / lsize l)) (laneAt (lsize l) y (i * 8 / lsize l))
      (laneInt false (lsize l) x (i * 8 / lsize l)) (laneInt false (lsize l) y (i * 8 / lsize l)) := by
  have hcond (j : Nat) := intCond_eq_condition hc (laneVec (lsize l) x j) (laneVec (lsize l) y j)
  simp only [toNat_laneVec, toInt_laneVec] at hcond
  rw [pcmpVal, sum_pow_eq_ofBits, BitVec.getLsbD_ofNat, testBit_ofBits, decide_eq_true hi, Bool.true_and, Bool.true_and, ← hcond, Nat.mul_comm i]
  rfl

theorem pselVal_eq_lanewise (pw : Word) (k : Reg) (l : BitVec 2) (x y : Word) : pselVal (maskByte pw k) l x y =
    lanewise (lsize l) fun i => if pw.getLsbD (8 * k.toNat + i * lsize l / 8) then laneAt (lsize l) x i else laneAt (lsize l) y i := by
  have hmask : pselVal (maskByte pw k) l x y =
      lanewise (lsize l) fun i => ((if (maskByte pw k).getLsbD (i * lsize l / 8) then laneAt (lsize l) x i else laneAt (lsize l) y i : Nat) : Int) :=
    mapLanes_eq_lanewise fun i => rfl
  rw [hmask]
  refine lanewise_congr fun i hi => ?_
  have hbit : i * lsize l / 8 < 8 := by
    have hbytes : i * lsize l < 64 := by
      have hmul := Nat.mul_lt_mul_of_pos_right hi (lsize_pos l)
      have hle := Nat.div_mul_le_self 64 (lsize l)
      omega
    omega
  rw [getLsbD_maskByte, decide_eq_true hbit, Bool.true_and, apply_ite Nat.cast]

/-! ### Rearrangements (R174) -/

theorem ppermVal_eq_lanewise (x y : Word) : ppermVal x y =
    lanewise 8 fun i => if 128 ≤ laneAt 8 y i then 0 else laneAt 8 x (laneAt 8 y i % 8) := by
  have htop (i : Nat) : bitAt (laneAt 8 y i) 7 = decide (128 ≤ laneAt 8 y i) := by
    have hlt := laneAt_lt 8 y i
    rw [bitAt, Bool.eq_iff_iff, beq_iff_eq, decide_eq_true_eq]
    omega
  refine mapLanes_eq_lanewise (l := 0) fun i => ?_
  rw [show lsize 0 = 8 from rfl, htop]
  by_cases h : 128 ≤ laneAt 8 y i
  · simp [h]
  · simp only [h, decide_false, Bool.false_eq_true, if_false]
    rfl

theorem pnarrowVal_eq_lanewise (z : Bool) {l : BitVec 2} (hl : l ≠ 3) (x y : Word) : pnarrowVal z l x y =
    lanewise (lsize l / 2) fun i => if i < 64 / lsize l then sat z (lsize l / 2) (laneInt false (lsize l) x i)
      else sat z (lsize l / 2) (laneInt false (lsize l) y (i - 64 / lsize l)) := by
  have hlanes : 64 / lsize l + 64 / lsize l = 64 / (lsize l / 2) := by decide +revert
  have hsigned (i : Nat) (x : Word) : signed (lsize l) (laneAt (lsize l) x i) = laneInt false (lsize l) x i := laneVal_eq false ..
  rw [← ofLanes_wrap_eq_lanewise hlanes, List.range_add, List.map_append, List.map_map]
  simp only [pnarrowVal, laneW_eq, lane_eq, laneN_eq, clampI_eq_sat, hsigned]
  congr 3
  · exact List.map_congr_left fun i hi => by rw [if_pos (List.mem_range.mp hi)]
  · exact List.map_congr_left fun i _ => by rw [Function.comp, if_neg (by omega), Nat.add_sub_cancel_left]

theorem pwidenVal_eq_lanewise (z : Bool) (l : BitVec 2) (u : Bool) (x : Word) : pwidenVal z l u x =
    lanewise (2 * lsize l) fun i => laneInt z (lsize l) x (if u then i + 64 / lsize l / 2 else i) := by
  have hlanes : laneN l / 2 = 64 / (2 * lsize l) := by decide +revert
  simp only [pwidenVal, laneW_eq, lane_eq, laneVal_eq]
  rw [ofLanes_wrap_eq_lanewise hlanes, laneN_eq]
  cases u <;> rfl

/-- Settles O23: each sum, selection and rearrangement is given lane by lane, and a comparison bit by bit of its mask byte. -/
theorem packedMoves : Obligations.PackedMoves := by
  unfold Obligations.PackedMoves
  intro s z g h u l k c b a d hx hl hc
  simp only [Laws.exec_pdot, Laws.exec_psad, Laws.exec_pcmp, Laws.exec_psel, Laws.exec_pperm, Laws.exec_pnarrow, Laws.exec_pwiden]
  refine ⟨fun hf => ⟨alu2_does hx hf (pdotVal_eq_lanewise ..), alu2_does hx hf (psadVal_eq ..), comparison_does hx hf ?_, ?_,
    alu2_does hx hf (ppermVal_eq_lanewise ..), fun _ => alu2_does hx hf (pnarrowVal_eq_lanewise z hl ..)⟩,
    fun hf => alu1_does hx hf (pwidenVal_eq_lanewise ..)⟩
  · apply BitVec.eq_of_getLsbD_eq
    intro i hi
    rw [getLsbD_setMaskByte _ _ _ hi, getLsbD_bitwise, decide_eq_true (show i < size false from hi), Bool.true_and,
      pcmpVal_eq hc _ _ _ (Nat.mod_lt _ (by decide))]
  · rw [← pselVal_eq_lanewise]
    exact issue_does { pfx := accepts_of_noPrefix hx _, srcs := full_of_sources hf, long := by simp } rfl rfl rfl

end Sys2Proof.Proofs

/-! SUPPORT. Instructions of an extension on a core that lacks it (02 R56): the gate that they share sends the thread on. The three
statements that say where it goes are refuted by one state, in which another unit takes the thread's line along. -/

namespace Sys2Proof.Proofs

open Sys2Proof Sys2Proof.Machine Sys2Proof.Claims

set_option Elab.async false

/-- Core 1 issues context 1, whose line the home's entry leaves with core 4, in the next cluster. There context 2 is ready; it names context
1 as the other of its pair, though context 1 names none. Core 4 is SUSPECT, and runs no pair. -/
def strayed : State :=
  { th := { few := 0b111 }
    cur := some ⟨1, 0, 1⟩
    ctxs := [(2, { peer := some 1 })]
    cdir := [(1, { holder := .core 4 }), (2, { holder := .core 4 })]
    cores := [(4, { rasCore := 1, ready := [[2], [], [], []] })] }

theorem strayed_full : Full strayed [0] := fun r hr => by
  obtain rfl := List.mem_singleton.mp hr
  rfl

theorem strayed_running : Running strayed := ⟨rfl, rfl, rfl⟩

/-- The core lacks the extensions, and nothing keeps the thread on it. -/
theorem strayed_leaves : isWide strayed.hereCore = false ∧ strayed.pinned 1 = false ∧ strayed.drained 1 = true := by decide +kernel

/-- On a core that lacks its extension, an instruction of a thread that may move sends it on. -/
theorem extGate_migrates {s : State} (ext : Nat) (act : State → Out) (hwide : isWide s.hereCore = false) (hpin : s.pinned s.here.ctx = false)
    (hhandler : s.th.handler = 0) (hpair : Unpaired s) (hdrained : s.drained s.here.ctx = true) :
    extGate ext s act = .next (s.migrate s.here.ctx ext) := by
  rw [Unpaired] at hpair
  simp [extGate, hwide, hpin, hhandler, hpair, hdrained]

/-- Core 4 sends its pairs on (17 R396) when the line of context 1 has left it: context 2, and with it context 1 once more, to its own
cluster, which is not that of the issuing core. -/
theorem strayed_arrives : ∀ ext ∈ [1, 2], ((strayed.migrate 1 ext).centry 1).transfer = some (.l2 (clusterOf 4)) := by decide +kernel

theorem strayed_not_moves {ext : Nat} (hext : ext ∈ [1, 2]) (act : State → Out) : ¬ Moves strayed (extGate ext strayed act) ext := by
  intro hmoves
  obtain ⟨hwide, hpin, hdrained⟩ := strayed_leaves
  obtain ⟨-, hsent⟩ := (hmoves hwide rfl).2 strayed_running hpin rfl
  rw [extGate_migrates ext act hwide hpin rfl rfl hdrained] at hsent
  obtain ⟨-, -, -, -, -, htransfer⟩ := runs_next (hsent hdrained)
  exact absurd ((strayed_arrives ext hext).symm.trans htransfer) (by decide)

/-- Refutes O25: on a core that lacks EXT-F64 a thread need not go to the context L2 of its own cluster. The clause asks nothing of the
unit that the home's entry names as the line's holder; where that is a SUSPECT core of another cluster with a pair that takes the thread for
its other half, that core sends the line on. -/
theorem not_doubleArithmetic : ¬ Obligations.DoubleArithmetic := by
  intro h
  obtain ⟨hdadd, -⟩ := h strayed false false 0 0 0 0 0
  rw [Laws.exec_dadd] at hdadd
  exact strayed_not_moves (by decide) _ hdadd

/-- Refutes O27: the same of `dcvt`, by the same state. -/
theorem not_conversions : ¬ Obligations.Conversions := by
  intro h
  obtain ⟨-, hdcvt, -⟩ := h strayed false 0 0 0 strayed_full (by decide)
  rw [Laws.exec_dcvtTo] at hdcvt
  exact strayed_not_moves (by decide) _ hdcvt

/-- Refutes O36: the same of the bitstream instructions, which are those of EXT-BITS, by the same state. -/
theorem not_bitstream : ¬ Obligations.Bitstream := by
  intro h
  obtain ⟨hbsopen, -⟩ := h strayed false false false 0 0 0 0 0 0 id fun _ => 0
  rw [Laws.exec_bsopen] at hbsopen
  exact strayed_not_moves (by decide) _ hbsopen

end Sys2Proof.Proofs

/-! SUPPORT. Relaunches and the dirty map (10 R278 to R283): the statement of this family is refuted by a `dmread` of a patch whose home knows
that the issuing core's die has failed. The part has what becomes of a message to such a die, what `dmread` then leaves, the state, and the
refutation. -/

namespace Sys2Proof.Proofs

open Sys2Proof Sys2Proof.Machine Sys2Proof.Claims

set_option Elab.async false

/-! ### Messages to a die that the sender knows to have failed (16 R385) -/

theorem hop_to_failed {s : State} {at_ src dst : Nat} (hfailed : dst ∈ (s.die at_).knows) : s.hop at_ src dst = none := by
  simp [State.hop, hfailed]

/-- A die discards a message of its own to a die that it knows to have failed. -/
theorem send_to_failed {s : State} {src dst : Nat} (hother : src ≠ dst) (hfailed : dst ∈ (s.die src).knows) (cls bytes : Nat) (posted : Bool)
    (tx : Option Nat) (ev : Ev) : s.send src dst cls bytes posted tx ev = s := by
  simp [State.send, hother, State.enqueue, hop_to_failed hfailed]

/-- The thread has passed an instruction that asks another unit for a value, its destination emptied, and nothing has been sent. -/
def askedInVain (s : State) (d : Reg) : State := ({ s with th := s.th.emptyW d }).retire 4

@[simp] theorem askedInVain_flying (s : State) (d : Reg) : (askedInVain s d).flying = s.flying := rfl
@[simp] theorem askedInVain_held (s : State) (d : Reg) : (askedInVain s d).held = s.held := rfl

/-- A unit does not answer where its die knows that the issuing core's die has failed. -/
theorem answered_to_failed {s : State} {src : Nat} (hother : src ≠ s.hereDie) (hfailed : s.hereDie ∈ (s.die src).knows) (d : Reg) (v : Word) :
    s.answered src d v = askedInVain s d :=
  send_to_failed (s := askedInVain s d) (dst := s.hereDie) hother hfailed ..

theorem not_sent_of_none {s : State} (hflying : s.flying = []) (hheld : s.held = []) (e : Ev) : ¬ Sent s e := by
  simp [Sent, hflying, hheld]

/-! ### A `dmread` whose page the core's TLB maps (10 R282) -/

/-- A thread of no block has no trace unit to report to. -/
theorem reportImpure_of_no_block {s : State} (hblock : get? s.blocks s.th.blk = none) (icause : Nat) : s.reportImpure icause = s := by
  simp [State.reportImpure, State.report, hblock]

/-- The home of the patch answers. -/
theorem dmread_of_look {s : State} {h : Bool} {a d : Reg} {pa : Nat} (hpfx : NoPrefix s) (hpair : Unpaired s) (hfull : Full s [a.toNat])
    (hpend : NoPend s [d]) (hblock : get? s.blocks s.th.blk = none) (hregion : regionAt (s.th.wv a).toNat ≠ .mesh)
    (hlook : s.look s.hereCore s.here.ctx (s.th.wv a).toNat .load = .ok pa s) :
    execDmread h a d s = .next (s.answered (s.homeDie s.hereSet pa) d (BitVec.ofNat 64 (s.stampWord s.hereSet (pa / 12288)))) := by
  have hsource : s.th.full a.toNat = true := hfull _ (by simp)
  have hdest : s.th.pend.getLsbD d.toNat = false := hpend d (by simp)
  rw [execDmread, Laws.issue_plain hpair hpfx (by simpa using hsource) (by simpa using hdest) (by simp)]
  simp [hregion, withPlace, Nat.mod_one, hlook, reportImpure_of_no_block hblock]

/-- A thread of die 0 whose TLB maps its page 0 to patch 0; md8, the home of that patch, has been told that die 0 has failed (16 R385). Die 0,
to which no failure of its own is announced, goes on. -/
def severed : State :=
  ({ th := { few := 1 }
     cur := some ⟨0, 0, 1⟩
     cores := [(0, { tlb := [⟨0, false, 4, 0, 0, true, true, true, true⟩] })] } : State).learnFailure 8 0

theorem severed_noFailure : NoFailure severed := by
  rw [NoFailure]
  decide +kernel

theorem severed_plain : NoPrefix severed ∧ Unpaired severed := ⟨rfl, rfl⟩

theorem severed_full : Full severed [0] := fun r hr => by
  obtain rfl := List.mem_singleton.mp hr
  rfl

theorem severed_noPend : NoPend severed [0] := fun r hr => by
  obtain rfl := List.mem_singleton.mp hr
  rfl

theorem severed_region : regionAt (severed.th.wv 0).toNat ≠ .mesh := by decide +kernel

theorem severed_look : severed.look severed.hereCore severed.here.ctx (severed.th.wv 0).toNat .load = .ok 0 severed := by rfl

theorem severed_home : severed.homeDie severed.hereSet 0 = 8 ∧ 8 ≠ severed.hereDie ∧ severed.hereDie ∈ (severed.die 8).knows := by
  decide +kernel

theorem severed_nothing : severed.flying = [] ∧ severed.held = [] := by decide +kernel

/-- The home discards its answer, as one to a failed die. -/
theorem severed_dmread (h : Bool) : execDmread h 0 0 severed = .next (askedInVain severed 0) := by
  obtain ⟨hpfx, hpair⟩ := severed_plain
  obtain ⟨hhome, hother, hfailed⟩ := severed_home
  rw [dmread_of_look (a := 0) (d := 0) hpfx hpair severed_full severed_noPend rfl severed_region severed_look, hhome,
    answered_to_failed hother hfailed]

/-- Refutes O50: a `dmread` need not be answered. The clause asks that the issuing core's die knows of no failed die, but it is the home of
the patch that sends the fill; one that has been told that the issuing core's die has failed discards it (16 R385). -/
theorem not_traceInstructions : ¬ Obligations.TraceInstructions := by
  intro h
  obtain ⟨hpfx, hpair⟩ := severed_plain
  obtain ⟨hlong, -⟩ := h severed false false false false 0 0 0 0 hpfx hpair severed_noFailure
  obtain ⟨-, -, hdmread, -⟩ := hlong severed_noPend
  have hruns := hdmread severed_full severed_region (Nat.mod_one _) _ _ severed_look
  rw [Laws.exec_dmread, severed_dmread] at hruns
  obtain ⟨-, -, hsent⟩ := runs_next hruns
  obtain ⟨hflying, hheld⟩ := severed_nothing
  exact not_sent_of_none ((askedInVain_flying ..).trans hflying) ((askedInVain_held ..).trans hheld) _ hsent

end Sys2Proof.Proofs
